-- ==== Sys2Proof/Word.lean ====
section
/-! DEFINITION. The word types: a byte, a 32-bit register word (R362), and a sparse run of bytes (an image, a signed
object, a buffer), whose unlisted bytes are zero. -/

namespace Sys2Proof

/-- One byte of a frame, an image or host memory. -/
abbrev Byte := BitVec 8

/-- One register: 32 bits (R362). -/
abbrev Word := BitVec 32

/-- A run of `len` bytes; `bytes` lists those that are not zero by offset, offsets strictly rising. -/
structure Blob where
  len : Nat
  bytes : List (Nat × Byte)
  deriving DecidableEq, Repr, Inhabited

end Sys2Proof
end

