-- ==== Sys2Proof/Syntax.lean ====
section
/-! DEFINITION. The commands of the block: one constructor per row of spec/opcode_table.json, and the types of their
operands. The table gives its rows no bits: the operands are those the row's rule needs (an address, a value, a ring's
descriptor, what arrives at a ball). A row named after an expiry, an end or an edge says that this instant has come
(notes/assumptions/2.md). -/

namespace Sys2Proof

/-- What the device reads when it takes a command descriptor (R323): bytes 2–63 but the opcode, which is the row's own.
`memErr`: a read of the indirect block, or a write of results, failed on the host link (R328, 0x0E); `ringErr`:
the read of the descriptor itself did (R320). -/
structure CmdDesc where
  ring : Nat
  flags : Byte
  rsv3 : Byte
  tag : Nat
  argAddr : Nat
  argLen : Nat
  rsv20 : Nat
  inl : List Byte
  last : Byte
  memErr : Bool
  ringErr : Bool
  deriving DecidableEq, Repr

/-- One of the two Keystones. -/
inductive Unit2 where
  | a | b
  deriving DecidableEq, Repr

/-- Causes of a Keystone fault (R283), by their codes 1 to 8; the code 9 (FORCED) is R290's own. -/
inductive KeyCause where
  | lockstep | linkEcc | heartbeat | refClock | power | stateEcc | mortar | syncLost
  deriving DecidableEq, Repr

/-- The register of CNT that a DUMP_MODE_WRITE addresses (R384). -/
inductive DumpReg where
  | ctrl | everyN | interval
  deriving DecidableEq, Repr

/-- A shaper, by the register that holds its enable bit (R257, R264). -/
inductive ShaperRef where
  | queue (x : Nat) | port (p : Nat) | cpu
  deriving DecidableEq, Repr

/-- The part of an 8-byte doorbell that a write covers (R317). -/
inductive DoorbellPart where
  | whole | low | high
  deriving DecidableEq, Repr

/-- The answer to the oldest unanswered read request of a DMA channel (R352). -/
inductive BeatAnswer where
  | data | error (beat : Nat) | stagingEcc
  deriving DecidableEq, Repr

/-- Where an uncorrectable flit was found (R19): a port link with the frame its cells belonged to, or the conductor link of
a Keystone. -/
inductive LinkRef where
  | port (k : Nat) (frame : Option Nat) | conductor (u : Unit2)
  deriving DecidableEq, Repr

/-- What the scrubber finds in the on-chip word it reads (R214, R215): nothing, a single-bit error, an uncorrectable error
in a word of a cell, one in a descriptor, free list or queue entry that cuts off `lost` cells, or one in a scheduler or
policer element (R273). -/
inductive ScrubFinding where
  | clean | corrected | cell (ptr : Nat) | structure_ (lost : Nat)
  deriving DecidableEq, Repr

/-- The bucket a background check reads (R179). -/
inductive TableRef where
  | learned (n : Nat) (bucket : Nat) | hostRoute (bucket : Nat)
  deriving DecidableEq, Repr

/-- The six classes of DIAGNOSTIC report operands: the diagnostic of R303, its instance, and, for the diagnostics whose
class the finding decides, what was found. -/
structure FaultReport where
  diag : Nat
  inst : Nat
  detail : Nat
  deriving DecidableEq, Repr

/-- What LEAVE_RETURN brings to the arbiter (R394, R395): the held grant of a requester, the power-down of a domain, or one of the two
requests that no row of its own makes: the retraining of an HBM stack (requester 2) and a request of firmware (7), at the cost in units
of 100 mW that it names. -/
inductive LeaveReturn where
  | grant (requester : Nat) (key : Nat) | domainOff (dom : Nat) | retrain (stack : Nat) | firmware (key : Nat) (cost : Nat)
  deriving DecidableEq, Repr

/-- One failing net found by a Plumb step (R422, R427). -/
structure NetFail where
  cls : Nat
  inst : Nat
  net : Nat
  kind : Nat
  deriving DecidableEq, Repr

/-- What the link partner's auto-negotiation page says of FEC (R41): its Clause 74 ability and request, and its RS-FEC and BASE-R
FEC requests for 25G. -/
structure FecPage where
  ability : Bool
  request : Bool
  rsRequest : Bool
  baseRequest : Bool
  deriving DecidableEq, Repr

/-- An mPacket that carries no frame (R62): a verify, a respond, or one with an unexpected start delimiter (R67). -/
inductive MPacket where
  | verify | respond | badSmd
  deriving DecidableEq, Repr

/-- How a frame came over a link with preemption (R62): its fragments after the first, and whether their reassembly failed. -/
structure Reassembly where
  frags : Nat
  bad : Bool
  deriving DecidableEq, Repr

/-- What the ingress MAC has found of a frame beside its bytes and its FCS: a PCS error inside it (R50), and its reassembly. -/
structure RxEnd where
  pcsError : Bool
  mm : Reassembly
  deriving DecidableEq, Repr

/-- A pipeline takes a header: which pipeline, and whether the HBM's write path cannot accept a frame now (R208). -/
structure HeaderTake where
  pipe : Nat
  full : Bool
  deriving DecidableEq, Repr

/-- The prefetcher comes to a queue: which queue, and the places of the frame's cells that fail their CRC (R209). -/
structure HbmRead where
  queue : Nat
  fails : List Nat
  deriving DecidableEq, Repr

/-- How a checkpoint has come over Mortar (R281): whole or not, and how many of its flits had CRC errors (R294). -/
structure CkptArrival where
  whole : Bool
  crcFlits : Nat
  deriving DecidableEq, Repr

/-- The commands of the Eloarek 5128, one per row of the opcode table. -/
inductive Instr where
  /-- OPEN_INTERFACE (R329): Command that negotiates the highest common command-set version for the issuing function. -/
  | openInterface (d : CmdDesc)
  /-- CLOSE_INTERFACE (R329): Command that closes the issuing function's interface. -/
  | closeInterface (d : CmdDesc)
  /-- NOP (R331): Command that does nothing and completes, used with fence to flush earlier commands. -/
  | nop (d : CmdDesc)
  /-- GET_STATE (R332): Command that writes the 64-byte state block to host memory. -/
  | getState (d : CmdDesc)
  /-- LOAD_ASHLAR (R144): Command that marks the shadow Ashlar bank empty, verifies and checks a full image, and writes it into the shadow bank. -/
  | loadAshlar (d : CmdDesc)
  /-- PATCH_ASHLAR (R152): Command that verifies a patch image and applies its items to the active or shadow Ashlar bank. -/
  | patchAshlar (d : CmdDesc)
  /-- LOAD_EPHEMERIS (R94): Command that verifies and checks a calendar and writes it into the shadow Ephemeris bank. -/
  | loadEphemeris (d : CmdDesc)
  /-- ACTIVATE (R108): Command that requests a bank switch and computes and reports its effective time. -/
  | activate (d : CmdDesc)
  /-- CANCEL_ACTIVATE (R109): Command that withdraws a pending activation if at least 1 µs remains before T_eff. -/
  | cancelActivate (d : CmdDesc)
  /-- TABLE_READ (R333): Command that reads learned MAC table ways of one pipeline into host memory. -/
  | tableRead (d : CmdDesc)
  /-- TABLE_FLUSH (R175): Command that issues a FLUSH control event and completes when every powered pipeline has finished the flush pass. -/
  | tableFlush (d : CmdDesc)
  /-- READ_FAULT_RECORD (R334): Command that writes the persistent fault record entries, newest first, to host memory. -/
  | readFaultRecord (d : CmdDesc)
  /-- READ_LOG (R331): Command that copies Observing log entries from a given sequence number to host memory. -/
  | readLog (d : CmdDesc)
  /-- SET_POWER_BUDGET (R396): Command that sets the board power budget of the arbiter. -/
  | setPowerBudget (d : CmdDesc)
  /-- POWER_DOMAIN (R389): Command that asks the arbiter to switch one power domain on or off. -/
  | powerDomain (d : CmdDesc)
  /-- PARK (R401): Command that enters PARKING and starts the orderly shutdown, optionally with Plumb. -/
  | park (d : CmdDesc)
  /-- ATTEST (R419): Command that consumes a credit and writes a signed attestation report. -/
  | attest (d : CmdDesc)
  /-- RUN_BUNDLE (R414): Command that verifies a signed bundle, raises counter 1 and runs its items in order. -/
  | runBundle (d : CmdDesc)
  /-- FW_UPDATE (R412): Command that verifies a firmware image and writes it to flash slot 1 and then slot 0 with read-back. -/
  | fwUpdate (d : CmdDesc)
  /-- PLUMB_GROUP (R430): Command that tests one port group's lanes and port-link wires in save-and-restore mode. -/
  | plumbGroup (d : CmdDesc)
  /-- COUNTER_SNAPSHOT (R383): Command that latches every counter and completes when the dump record is written or skipped. -/
  | counterSnapshot (d : CmdDesc)
  /-- APPLY (R44): Write of apply in PORT.APPLY that checks and applies a macro's mode, lane and sub-port configuration. -/
  | apply (m : Nat) (mac : Nat) (v : Word)
  /-- APPLY_DONE (R46): Completion of lane relock after an apply, setting apply_status DONE and starting link bring-up. -/
  | applyDone (mac : Nat)
  /-- POOL_APPLY (R196): Write of apply in BUF.POOL_APPLY that checks and applies the sizes and modes of all 16 pools. -/
  | poolApply (m : Nat) (v : Word)
  /-- HBM_RETIRE (R217): Write of go in BUF.HBM_RETIRE that retires a physical HBM channel, relocating to the spare or withdrawing it. -/
  | hbmRetire (m : Nat) (v : Word)
  /-- HBM_RELOCATION_DONE (R217): Completion of copying a retired channel to the spare and remapping the logical channel. -/
  | hbmRelocationDone
  /-- EPH_ACTIVATE_GO (R108): Write of go in EPH.ACTIVATE that requests a bank switch at EPH.ACT_TIME. -/
  | ephActivateGo (m : Nat) (v : Word)
  /-- EPH_ACTIVATE_CANCEL (R109): Write of cancel in EPH.ACTIVATE that withdraws a pending request if at least 1 µs remains. -/
  | ephActivateCancel (m : Nat) (v : Word)
  /-- TIME_SET (R71): Armed write of set in TRN.TIME_SET that schedules a counter set 64 core cycles later. -/
  | timeSet (m : Nat) (v : Word)
  /-- TIME_SET_EFFECT (R71): Expiry of the 64-cycle delay at which the time counter takes the set value, a step if it changes. -/
  | timeSetEffect
  /-- RATE_BASE_WRITE (R70): Write of a half of TRN.RATE_BASE that changes the nominal increment and recomputes RATE_NOW. -/
  | rateBaseWrite (m : Nat) (hi : Bool) (v : Word)
  /-- OFFSET_SUBMIT (R79): Write of TRN.OFFSET_HI that submits an offset θ to the servo. -/
  | offsetSubmit (m : Nat) (v : Word)
  /-- PPS_IN_EDGE (R79): Captured TIME_1PPS_IN edge that latches the counter and, in PPS_IN mode, submits θ. -/
  | ppsInEdge
  /-- PPS_IN_MISSING (R89): Expiry of 1.1 s without a TIME_1PPS_IN edge. -/
  | ppsInMissing
  /-- PPS_OUT_EDGE (R90): Counter passing a whole second plus pps_out_offset, producing a TIME_1PPS_OUT pulse. -/
  | ppsOutEdge
  /-- SERVO_ENABLE (R80): Write of servo_enable 1 that moves the servo from DISABLED to ACQUIRING. -/
  | servoEnable (m : Nat) (v : Word)
  /-- SERVO_DISABLE (R80): Write of servo_enable 0 that moves the servo to DISABLED with RATE_NOW = RATE_BASE. -/
  | servoDisable (m : Nat) (v : Word)
  /-- HOLD (R81): Write of hold 1 that forces the servo into HOLDOVER. -/
  | hold (m : Nat) (v : Word)
  /-- HOLD_RELEASE (R81): Write of hold 0 that lets the next θ leave HOLDOVER. -/
  | holdRelease (m : Nat) (v : Word)
  /-- HOLDOVER_TIMEOUT (R80): Expiry of holdover_timeout without an accepted θ, entering HOLDOVER. -/
  | holdoverTimeout
  /-- TIME_CAPTURE (R84): Write of capture that latches the counter and flags into TRN.TIME registers. -/
  | timeCapture (m : Nat) (v : Word)
  /-- FORCE_SWITCH (R290): Write of force_switch that hands conduction to a SYNCED standby. -/
  | forceSwitch (m : Nat) (v : Word)
  /-- RESYNC (R291): Write of resync that cycles a FAILED Keystone's domain and starts its resynchronisation. -/
  | resync (m : Nat) (v : Word)
  /-- ALARM_TEST (R308): Write of test_a or test_b that inverts one SAFE_ALARM output for 100 µs. -/
  | alarmTest (m : Nat) (v : Word)
  /-- ALARM_TEST_DONE (R308): End of the 100 µs alarm test, returning the output to its channel's level. -/
  | alarmTestDone
  /-- ALARM_RELEASE (R308): Write of alarm_release in SAF.CTRL that allows or forces assertion of both outputs. -/
  | alarmRelease (m : Nat) (v : Word)
  /-- SOFTWARE_RESET (R397): Write of go in PWR.SW_RESET that resets the device as SYS_RST_N does. -/
  | softwareReset (m : Nat) (v : Word)
  /-- UNLOCK (R369): Write of SYS.UNLOCK that arms or disarms the writing master for KEY fields. -/
  | unlock (m : Nat) (v : Word)
  /-- UNLOCK_TIMEOUT (R369): Expiry of an arming left unused for 1,000 µs. -/
  | unlockTimeout (m : Nat)
  /-- SQC_CLEAR (R368): Write to a sequence-cleared status register that clears seen event bits when seq and latch match. -/
  | sqcClear (m : Nat) (addr : Nat) (v : Word)
  /-- SQC_READ (R368): Permitted read of an SQC register that copies its event count into the latch. -/
  | sqcRead (m : Nat) (addr : Nat)
  /-- RANDOM_READ (R420): Read of SEC.RANDOM that returns fresh DRBG output. -/
  | randomRead (m : Nat)
  /-- COUNTER_CAPTURE (R378): Write of CNT.RD_ADDR that captures the named counter into RD_VAL. -/
  | counterCapture (m : Nat) (v : Word)
  /-- PC_CFG_WRITE (R380): Write of CNT.PC_CFG that configures a programmable counter from the next core cycle. -/
  | pcCfgWrite (m : Nat) (k : Nat) (v : Word)
  /-- PC_VAL_WRITE (R380): Write of CNT.PC_VAL that sets a programmable counter and clears its overflow bit. -/
  | pcValWrite (m : Nat) (k : Nat) (v : Word)
  /-- DUMP_MODE_WRITE (R384): Write of dump_mode, dump_every_n or dump_interval that restarts snapshot pacing. -/
  | dumpModeWrite (m : Nat) (r : DumpReg) (v : Word)
  /-- FRER_RESET (R239): Write of go in PIPE.FRER_RESET that resets a recovery function or reloads a stream's next_seq. -/
  | frerReset (m : Nat) (pipe : Nat) (v : Word)
  /-- SCRUB_FAST (R215): Write of scrub_fast that asks leave and then accelerates the scrubber. -/
  | scrubFast (m : Nat) (v : Word)
  /-- SHAPER_ENABLE (R258): Write of a shaper enable bit that loads its bucket with its burst or freezes it. -/
  | shaperEnable (m : Nat) (sh : ShaperRef) (v : Word)
  /-- ACC_TABLE_WRITE (R374): Write of an access table entry, refused whole for protected masters. -/
  | accTableWrite (m : Nat) (t : Nat) (e : Nat) (v : Word)
  /-- RING_ENABLE (R320): Write of enable 1 in HIF.RING_CFG that resets head and tail and starts a ring. -/
  | ringEnable (m : Nat) (r : Nat) (v : Word)
  /-- RING_DISABLE (R320): Write of enable 0 that stops a ring at the next entry boundary. -/
  | ringDisable (m : Nat) (r : Nat) (v : Word)
  /-- DOORBELL (R317): Write of a ring doorbell that advances its index after the range check. -/
  | doorbell (m : Nat) (r : Nat) (part : DoorbellPart) (v : BitVec 64)
  /-- POLL (R319): Expiry of poll_interval at which a polling ring reads the entry at head. -/
  | poll (r : Nat) (readErr : Bool)
  /-- MOD_TIME_EXPIRY (R326): Expiry of mod_time after the first unsignalled entry, signalling the ring's MSI-X vector. -/
  | modTimeExpiry (r : Nat)
  /-- CHANNEL_ENABLE (R347): Write of enable 1 to a DMA channel that allocates its 16 staging cells from pool 15. -/
  | channelEnable (m : Nat) (c : Nat) (v : Word)
  /-- CHANNEL_DISABLE (R357): Write of enable 0 to a DMA channel that stops it at the next descriptor boundary and frees its cells. -/
  | channelDisable (m : Nat) (c : Nat) (v : Word)
  /-- RESTART (R357): Write of restart that moves a HALTED DMA channel to IDLE at head. -/
  | restart (m : Nat) (c : Nat) (v : Word)
  /-- DMA_DOORBELL (R346): Write of a DMA channel doorbell that makes descriptors available. -/
  | dmaDoorbell (m : Nat) (c : Nat) (part : DoorbellPart) (v : BitVec 64)
  /-- DMA_DESCRIPTOR (R350): Reading and checking of a DMA descriptor and the start of its COPY, FILL or COMPARE run. -/
  | dmaDescriptor (c : Nat) (readErr : Bool)
  /-- BEAT_ANSWER (R352): Answer to a DMA read request, filling staging or ending the descriptor with an error. -/
  | beatAnswer (c : Nat) (a : BeatAnswer)
  /-- REGISTER_WRITE (R372): Write to any register with no behaviour of its own, through width, access, arming and domain checks. -/
  | registerWrite (m : Nat) (addr : Nat) (size : Nat) (v : BitVec 64)
  /-- FRAME_RECEIVE (R24): Arrival of a frame's first byte at the ingress MAC client, with the express test and plane decision. -/
  | frameReceive (p : Nat) (head : List Byte)
  /-- SKID_BUFFER_SEND (R54): Sending of a Meridian frame waiting in the skid buffer once the frame ahead has finished. -/
  | skidBufferSend (p : Nat)
  /-- FRAME_RX_END (R199): Arrival of a frame's last byte, settling its length, FCS, charges, policer returns and learn event. -/
  | frameRxEnd (p : Nat) (rest : List Byte) (fcsGood : Bool) (e : RxEnd)
  /-- FLOW_CONTROL_RECEIVE (R56): Receipt of a valid PAUSE or PFC frame that pauses or releases priorities. -/
  | flowControlReceive (p : Nat) (bytes : List Byte) (fcsGood : Bool)
  /-- PAUSE_TIMER_EXPIRY (R56): Expiry of a priority's pause timer, releasing its queues. -/
  | pauseTimerExpiry (p : Nat) (i : Nat)
  /-- PAUSE_WD_BREAK (R61): Watchdog tick at which the measure reaches wd_limit, breaking the pause and applying wd_action. -/
  | pauseWdBreak (p : Nat) (i : Nat)
  /-- WD_RECOVERY_END (R61): End of the wd_recovery window, after which the priority honours flow control again. -/
  | wdRecoveryEnd (p : Nat) (i : Nat)
  /-- BACK_PRESSURE_ASSERT (R205): Assertion of back-pressure for a class on an ingress port, triggering an XOFF. -/
  | backPressureAssert (p : Nat) (i : Nat)
  /-- BACK_PRESSURE_RELEASE (R205): Release of back-pressure for a class, triggering an XON. -/
  | backPressureRelease (p : Nat) (i : Nat)
  /-- FC_REFRESH (R58): Expiry of the refresh interval while back-pressure is asserted, sending another XOFF. -/
  | fcRefresh (p : Nat) (i : Nat)
  /-- FC_FRAME_SEND (R59): Start of a generated flow-control frame at the next point the Ephemeris allows. -/
  | fcFrameSend (p : Nat)
  /-- VERIFY_TIMER (R62): Expiry of verify_time that sends a verify mPacket or declares verification failed. -/
  | verifyTimer (p : Nat)
  /-- LPI_ENTRY (R64): Expiry of tx_lpi_idle with nothing to send, entering Low Power Idle. -/
  | lpiEntry (p : Nat)
  /-- WAKE_DETECT (R66): Firing of a lane's wake-pattern detector, reporting and optionally requesting power-up or boot. -/
  | wakeDetect (mac : Nat) (lane : Nat)
  /-- LINK_UP (R46): PCS lock and alignment of a sub-port, setting link_up and re-running Meridian suspension checks. -/
  | linkUp (p : Nat)
  /-- LINK_DOWN (R211): Loss of link_up on a sub-port, flushing its queues and clearing pause state. -/
  | linkDown (p : Nat)
  /-- AN_FAIL (R42): Failure of auto-negotiation or training, restarting AN or training. -/
  | anFail (p : Nat)
  /-- REF_CLOCK_LOSS (R35): Loss of a SerDes reference input, taking down every port on its chiplet. -/
  | refClockLoss (k : Nat)
  /-- REF_CLOCK_RELOCK (R451): Relock of a chiplet's lanes after its reference has been good for 1 ms. -/
  | refClockRelock (k : Nat)
  /-- FLIT_ERROR (R19): Uncorrectable flit on a port link or conductor link. -/
  | flitError (l : LinkRef)
  /-- HEADER_RESOLVE (R124): Passage of a header from its FIFO through parse, lookups, resolution, FRER, policing and admission. -/
  | headerResolve (h : HeaderTake)
  /-- COPY_ENQUEUE (R224): Expansion of an admitted frame into copies entering their egress queues. -/
  | copyEnqueue (n : Nat)
  /-- MIRROR_BUILD (R228): Building of a truncated or encapsulated mirror copy by the mirror engine once the cells are written. -/
  | mirrorBuild
  /-- SELECTION (R250): Provisional selection of a port's next queue by the egress scheduler. -/
  | selection (p : Nat)
  /-- FRAME_START (R250): Start test and start of a selected frame at the egress MAC, charging shapers and tags. -/
  | frameStart (p : Nat)
  /-- TRANSMIT_END (R256): Sending of a frame's last byte, returning length differences and releasing the copy's share. -/
  | transmitEnd (p : Nat)
  /-- CPU_RX_DELIVERY (R338): Delivery of a selected CPU-port copy to its RX ring, or its drop for lack of descriptors. -/
  | cpuRxDelivery
  /-- CPU_TX (R336): Service of one frame's descriptor chain from a CPU-port TX ring. -/
  | cpuTx (r : Nat) (readErr : Bool)
  /-- AGE_HEAD_SCAN (R212): Scanner visit to a queue that discards aged copies at its head. -/
  | ageHeadScan (x : Nat)
  /-- PREFETCH_READ (R207): Read of an HBM-resident frame into the prefetch area, freeing its HBM cells. -/
  | prefetchRead (r : HbmRead)
  /-- SCRUB (R215): Scrubber read and correction of one on-chip word. -/
  | scrub (t : ScrubFinding)
  /-- LEARN_GRANT (R164): Grant slot on the learn bus, granting one control or learn event a sequence number. -/
  | learnGrant
  /-- LEARN (R168): Application of a LEARN event: insertion, relocation, eviction, move or freeze. -/
  | learn (n : Nat)
  /-- REFRESH (R173): Application of a REFRESH event setting hit and stamp of an entry. -/
  | refresh (n : Nat)
  /-- SWEEP (R173): Application of a SWEEP event starting an ageing pass. -/
  | sweep (n : Nat)
  /-- SWEEP_ISSUE (R165): Keystone timer issuing a SWEEP every age_time ÷ 2. -/
  | sweepIssue
  /-- EPOCH (R172): Application of an EPOCH event that resets move counts and unfreezes entries. -/
  | epoch (n : Nat)
  /-- EPOCH_ISSUE (R165): Keystone timer issuing an EPOCH every flap_window. -/
  | epochIssue
  /-- FLUSH (R175): Application of a FLUSH event starting a flush pass over matching learned entries. -/
  | flush (n : Nat)
  /-- FLUSH_PASS_END (R175): End of a flush pass, resuming event application and any suspended sweep. -/
  | flushPassEnd (n : Nat)
  /-- STATIC_ADD (R170): Application of a STATIC_ADD event placing a static entry. -/
  | staticAdd (n : Nat)
  /-- STATIC_MASK (R170): Application of a STATIC_MASK event changing a static entry's bank_mask. -/
  | staticMask (n : Nat)
  /-- STATIC_DEL (R170): Application of a STATIC_DEL event removing a static entry. -/
  | staticDel (n : Nat)
  /-- TABLE_CHECK (R179): Background parity check of a learned MAC or host-route bucket. -/
  | tableCheck (t : TableRef)
  /-- TCAM_CHECK (R185): Background check and repair of one TCAM entry against the entry store. -/
  | tcamCheck (g : Nat)
  /-- DRAIN_END (R150): End of draining of the previous bank, releasing a held load into it. -/
  | drainEnd
  /-- FRER_RESET_EXPIRY (R239): Scanner visit finding a recovery function's reset timer expired, setting take_any. -/
  | frerResetExpiry (f : Nat)
  /-- LATENT_TEST (R240): End of a latent period running the latent error and member_silent tests. -/
  | latentTest (f : Nat)
  /-- SLOT_BOUNDARY (R100): Slot boundary fired by the flywheel, changing gates, HOLD and map and counting cycle starts. -/
  | slotBoundary
  /-- BANK_SWITCH (R107): Switch of the Ephemeris and/or Ashlar banks at the armed effective time. -/
  | bankSwitch
  /-- CYCLE_REF_EDGE (R103): Captured CYCLE_REF_IN edge setting the next cycle start or ignored as a glitch. -/
  | cycleRefEdge
  /-- REF_MISSING (R106): Expiry of cycle start + ref_max without a cycle start, entering FREERUN. -/
  | refMissing
  /-- CHECKPOINT (R279): End of a checkpoint interval at which the active Keystone snapshots and sends changed state. -/
  | checkpoint
  /-- CHECKPOINT_COMMIT (R281): Arrival of a whole checkpoint at the standby, committed or discarded and acknowledged. -/
  | checkpointCommit (a : CkptArrival)
  /-- KEYSTONE_FAULT (R283): Detection by the safety monitor of a Keystone fault under one of the detector causes. -/
  | keystoneFault (u : Unit2) (cause : KeyCause)
  /-- DEFERRED_INPUT_SERVE (R287): Service of inputs deferred during the gap or replay, in order of arrival. -/
  | deferredInputServe
  /-- SELF_TEST_END (R278): End of a Keystone's self-test, moving it to ACTIVE, RESYNC or FAILED. -/
  | selfTestEnd (u : Unit2) (pass : Bool)
  /-- FULL_COPY_COMMIT (R291): Commitment of the full state copy to a resynchronising Keystone. -/
  | fullCopyCommit
  /-- FAULT_REPORT (R301): Diagnostic report to the safety monitor, classified and reacted to. -/
  | faultReport (r : FaultReport)
  /-- BACKSTOP_FIRED (R299): Expiry of the 500 µs backstop timer with a reaction incomplete, entering SAFE_HOLD. -/
  | backstopFired
  /-- CHANNEL_DISAGREE (R298): Disagreement of the monitor channels for over 1 µs, entering SAFE_HOLD. -/
  | channelDisagree
  /-- TMR_VOTE (R371): Background vote of every TMR field every 100 µs, correcting or reporting disagreements. -/
  | tmrVote
  /-- TEMP_SAMPLE (R303): Sampling of the junction sensors every 100 µs, reporting over-temperature. -/
  | tempSample (t : BitVec 16)
  /-- LEAVE_TIMEOUT (R393): Expiry of leave_timeout for a queued leave request, refusing it. -/
  | leaveTimeout
  /-- LEAVE_RETURN (R395): Return of a held grant or a power-down, after which the head of the queue is decided. -/
  | leaveReturn (q : LeaveReturn)
  /-- DOMAIN_POWER_UP_DONE (R390): Completion of a domain power-up with memories initialised, self-test and retained set-up loaded. -/
  | domainPowerUpDone (dom : Nat) (pass : Bool)
  /-- HBM_TRAINING_DONE (R390): Completion of HBM stack training, setting hbm_ready. -/
  | hbmTrainingDone (stack : Nat)
  /-- PWRON_RST_N (R397): Assertion of the power-on reset input, resetting the whole device and starting boot. -/
  | pwronRstN
  /-- SYS_RST_N (R397): Assertion of the system reset input, resetting the device but keeping time running. -/
  | sysRstN
  /-- PARK_DRAIN_END (R401): Expiry of park_drain, declaring all ports down and continuing to Plumb and power-off. -/
  | parkDrainEnd
  /-- PLUMB_STEP (R425): Start of a native Plumb step once its leave is decided, run or skipped. -/
  | plumbStep
  /-- PLUMB_STEP_END (R427): End of a native Plumb step, and after the last one the writing of the record. -/
  | plumbStepEnd (fails : List NetFail) (step : Nat)
  /-- FLR (R314): Function-level reset disabling the function's rings and closing its interface. -/
  | flr (f : Nat)
  /-- HOT_RESET (R314): Hot reset, PCIE_PERST_N or loss of the host link, acting as an FLR of every function. -/
  | hotReset
  /-- PERIODIC_LATCH (R384): Periodic snapshot latch of every counter under EPHEMERIS or INTERVAL pacing. -/
  | periodicLatch
  /-- DUMP_RECORD_WRITE (R383): Writing of a snapshot record to the counter-dump ring, or its skip. -/
  | dumpRecordWrite
  /-- ATTEST_CREDIT_RETURN (R417): Return of one attestation credit every 500 ms. -/
  | attestCreditReturn
  /-- RNG_FAIL (R420): Failure of an entropy health test, clearing rng_ok. -/
  | rngFail
  /-- RNG_READY (R420): Completion of start-up health tests and DRBG instantiation, setting rng_ok. -/
  | rngReady
  /-- LED_STREAM (R446): Shifting of the 1,024-bit LED stream every 10 ms. -/
  | ledStream
  /-- REGISTER_READ (R366): Read of any register, with access check, TMR vote and correction, and off-domain handling. -/
  | registerRead (m : Nat) (addr : Nat) (size : Nat)
  /-- PWRON_RST_N_RELEASE (R445): Release of PWRON_RST_N, at which the straps are sampled and boot starts. -/
  | pwronRstNRelease (straps : BitVec 16)
  /-- HOST_LINK_UP (R313): Training of the PCIe host link, setting link_up, speed and width in HIF.STATUS. -/
  | hostLinkUp (speed : Nat) (width : Nat)
  /-- KEYSTONE_SELF_TEST_TIMEOUT (R278): Expiry of 5 ms without the end of a Keystone self-test, moving the unit to FAILED. -/
  | keystoneSelfTestTimeout (u : Unit2)
  /-- MPACKET_RECEIVE (R62): Receipt of an 802.3br verify or respond mPacket, answering a verify or completing verification. -/
  | mpacketReceive (p : Nat) (k : MPacket)
  /-- DMA_BEAT_ISSUE (R351): Issue by the DMA engine of a read or write beat of the served channel, including FILL writes and the write-back after the last posted write. -/
  | dmaBeatIssue
  /-- AN_DONE (R41): Completion of Clause 73 auto-negotiation, setting an_done, resolved_tech and fec_active. -/
  | anDone (p : Nat) (ability : Nat) (fec : FecPage) (eee : Bool)
  /-- TIME_10M_IN_MEASURE (R89): Comparison of TIME_10M_IN with the counter over each counter second, updating FREQ_IN_MEAS and clk10m_in_present. -/
  | time10mInMeasure (offset : Int) (inRange : Bool)
  /-- PC_OVERFLOW (R381): Wrap of a programmable counter past 0xFFFF_FFFF, setting its PC_OVF bit and raising pc_overflow. -/
  | pcOverflow (k : Nat)
  /-- RX_LPI (R64): Entry or exit of the link partner into Low Power Idle, setting rx_lpi and counting rx_lpi_events. -/
  | rxLpi (p : Nat) (enter : Bool)
  deriving DecidableEq, Repr

end Sys2Proof
end

