-- ==== Sys2Proof/WellFormed.lean ====
section
/-! DEFINITION. Operands a row may carry: numbers within the device's ranges (masters, macros, ports, rings, channels,
pipelines, queues). The meanings are total on ill-formed operands as well: those name nothing. -/

namespace Sys2Proof

/-- A command descriptor: one of the 64 command rings, fields of their widths, 39 inline bytes (R323). -/
def descOk (d : CmdDesc) : Bool :=
  decide (d.ring < 64) && decide (d.tag < 2 ^ 32) && decide (d.argAddr < 2 ^ 64) && decide (d.argLen < 2 ^ 32)
    && decide (d.rsv20 < 2 ^ 32) && decide (d.inl.length = 39)

/-- Access sizes of R362. -/
def sizeOk (n : Nat) : Bool := decide (n = 1) || decide (n = 2) || decide (n = 4) || decide (n = 8)

/-- A shaper the device has. -/
def shaperOk : ShaperRef → Bool
  | .queue x => decide (x < 4176)
  | .port p => decide (p < 512)
  | .cpu => true

/-- A link the device has. -/
def linkRefOk : LinkRef → Bool
  | .port k _ => decide (k < 16)
  | .conductor _ => true

/-- A failing net is one of the class table (R422, R436), and has a kind. -/
def netOk (n : NetFail) : Bool :=
  decide (1 ≤ n.kind) && decide (n.kind ≤ 3) &&
    (if n.cls = 1 then decide (n.inst = 0) && decide (1 ≤ n.net) && decide (n.net ≤ 148)
    else if n.cls = 2 then decide (n.inst < 512) && decide (n.net < 4)
    else if n.cls = 3 then decide (n.inst < 9) && decide (n.net < 4)
    else if n.cls = 4 then decide (n.inst < 4) && decide (n.net < 2048)
    else if n.cls = 5 then decide (n.inst < 3) && decide (n.net < 80)
    else decide (n.cls = 6) && decide (n.inst < 32) && decide (n.net < 96))

/-- What can come to the arbiter. -/
def returnOk : LeaveReturn → Bool
  | .grant r _ => decide (r < 8)
  | .domainOff d => decide (d < 38)
  | .retrain k => decide (k < 2)
  | .firmware _ c => decide (c < 65536)

/-- A beat of at most 64 bytes. -/
def answerOk : BeatAnswer → Bool
  | .data => true
  | .error _ => true
  | .stagingEcc => true

/-- A bucket that exists. -/
def tableOk : TableRef → Bool
  | .learned n b => decide (n < 8) && decide (b < 131072)
  | .hostRoute b => decide (b < 65536)

/-- A cell pointer of 28 bits (R191). -/
def scrubOk : ScrubFinding → Bool
  | .clean => true
  | .corrected => true
  | .cell p => decide (p < 2 ^ 28)
  | .structure_ n => decide (n < 2 ^ 28)

/-- A diagnostic of R303. -/
def reportOk (r : FaultReport) : Bool := decide (r.diag < 256) && decide (r.detail < 65536)

/-- A CPU-port TX ring. -/
def ringTxOk (r : Nat) : Bool := decide (0xC0 ≤ r) && decide (r < 0x100)

/-- Every operand of a row lies within its range. -/
def Instr.wf (i : Instr) : Bool :=
  match i with
  | .openInterface d => descOk d
  | .closeInterface d => descOk d
  | .nop d => descOk d
  | .getState d => descOk d
  | .loadAshlar d => descOk d
  | .patchAshlar d => descOk d
  | .loadEphemeris d => descOk d
  | .activate d => descOk d
  | .cancelActivate d => descOk d
  | .tableRead d => descOk d
  | .tableFlush d => descOk d
  | .readFaultRecord d => descOk d
  | .readLog d => descOk d
  | .setPowerBudget d => descOk d
  | .powerDomain d => descOk d
  | .park d => descOk d
  | .attest d => descOk d
  | .runBundle d => descOk d
  | .fwUpdate d => descOk d
  | .plumbGroup d => descOk d
  | .counterSnapshot d => descOk d
  | .apply m mac _ => decide (m < 32) && decide (mac < 128)
  | .applyDone mac => decide (mac < 128)
  | .poolApply m _ => decide (m < 32)
  | .hbmRetire m _ => decide (m < 32)
  | .hbmRelocationDone => true
  | .ephActivateGo m _ => decide (m < 32)
  | .ephActivateCancel m _ => decide (m < 32)
  | .timeSet m _ => decide (m < 32)
  | .timeSetEffect => true
  | .rateBaseWrite m _ _ => decide (m < 32)
  | .offsetSubmit m _ => decide (m < 32)
  | .ppsInEdge => true
  | .ppsInMissing => true
  | .ppsOutEdge => true
  | .servoEnable m _ => decide (m < 32)
  | .servoDisable m _ => decide (m < 32)
  | .hold m _ => decide (m < 32)
  | .holdRelease m _ => decide (m < 32)
  | .holdoverTimeout => true
  | .timeCapture m _ => decide (m < 32)
  | .forceSwitch m _ => decide (m < 32)
  | .resync m _ => decide (m < 32)
  | .alarmTest m _ => decide (m < 32)
  | .alarmTestDone => true
  | .alarmRelease m _ => decide (m < 32)
  | .softwareReset m _ => decide (m < 32)
  | .unlock m _ => decide (m < 32)
  | .unlockTimeout m => decide (m < 32)
  | .sqcClear m addr _ => decide (m < 32) && decide (addr < 2 ^ 25)
  | .sqcRead m addr => decide (m < 32) && decide (addr < 2 ^ 25)
  | .randomRead m => decide (m < 32)
  | .counterCapture m _ => decide (m < 32)
  | .pcCfgWrite m k _ => decide (m < 32) && decide (k < 2048)
  | .pcValWrite m k _ => decide (m < 32) && decide (k < 2048)
  | .dumpModeWrite m _ _ => decide (m < 32)
  | .frerReset m pipe _ => decide (m < 32) && decide (pipe < 8)
  | .scrubFast m _ => decide (m < 32)
  | .shaperEnable m sh _ => decide (m < 32) && shaperOk sh
  | .accTableWrite m t e _ => decide (m < 32) && decide (t < 152) && decide (e < 32)
  | .ringEnable m r _ => decide (m < 32) && decide (r < 0x102)
  | .ringDisable m r _ => decide (m < 32) && decide (r < 0x102)
  | .doorbell m r _ _ => decide (m < 32) && decide (r < 0x102)
  | .poll r _ => decide (r < 0x102)
  | .modTimeExpiry r => decide (r < 0x102)
  | .channelEnable m c _ => decide (m < 32) && decide (c < 32)
  | .channelDisable m c _ => decide (m < 32) && decide (c < 32)
  | .restart m c _ => decide (m < 32) && decide (c < 32)
  | .dmaDoorbell m c _ _ => decide (m < 32) && decide (c < 32)
  | .dmaDescriptor c _ => decide (c < 32)
  | .beatAnswer c a => decide (c < 32) && answerOk a
  | .registerWrite m addr size _ => decide (m < 32) && decide (addr < 2 ^ 25) && sizeOk size
  | .frameReceive p _ => decide (p < 512)
  | .skidBufferSend p => decide (p < 512)
  | .frameRxEnd p _ _ _ => decide (p < 512)
  | .flowControlReceive p _ _ => decide (p < 512)
  | .pauseTimerExpiry p i => decide (p < 512) && decide (i < 8)
  | .pauseWdBreak p i => decide (p < 512) && decide (i < 8)
  | .wdRecoveryEnd p i => decide (p < 512) && decide (i < 8)
  | .backPressureAssert p i => decide (p < 512) && decide (i < 8)
  | .backPressureRelease p i => decide (p < 512) && decide (i < 8)
  | .fcRefresh p i => decide (p < 512) && decide (i < 8)
  | .fcFrameSend p => decide (p < 512)
  | .verifyTimer p => decide (p < 512)
  | .lpiEntry p => decide (p < 512)
  | .wakeDetect mac lane => decide (mac < 128) && decide (lane < 4)
  | .linkUp p => decide (p < 512)
  | .linkDown p => decide (p < 512)
  | .anFail p => decide (p < 512)
  | .refClockLoss k => decide (k < 4)
  | .refClockRelock k => decide (k < 4)
  | .flitError l => linkRefOk l
  | .headerResolve h => decide (h.pipe < 8)
  | .copyEnqueue n => decide (n < 8)
  | .mirrorBuild => true
  | .selection p => decide (p < 512)
  | .frameStart p => decide (p < 512)
  | .transmitEnd p => decide (p < 512)
  | .cpuRxDelivery => true
  | .cpuTx r _ => ringTxOk r
  | .ageHeadScan x => decide (x < 4176)
  | .prefetchRead r => decide (r.queue < 4176)
  | .scrub t => scrubOk t
  | .learnGrant => true
  | .learn n => decide (n < 8)
  | .refresh n => decide (n < 8)
  | .sweep n => decide (n < 8)
  | .sweepIssue => true
  | .epoch n => decide (n < 8)
  | .epochIssue => true
  | .flush n => decide (n < 8)
  | .flushPassEnd n => decide (n < 8)
  | .staticAdd n => decide (n < 8)
  | .staticMask n => decide (n < 8)
  | .staticDel n => decide (n < 8)
  | .tableCheck t => tableOk t
  | .tcamCheck g => decide (g < 131072)
  | .drainEnd => true
  | .frerResetExpiry f => decide (f < 8192)
  | .latentTest f => decide (f < 8192)
  | .slotBoundary => true
  | .bankSwitch => true
  | .cycleRefEdge => true
  | .refMissing => true
  | .checkpoint => true
  | .checkpointCommit _ => true
  | .keystoneFault _ _ => true
  | .deferredInputServe => true
  | .selfTestEnd _ _ => true
  | .fullCopyCommit => true
  | .faultReport r => reportOk r
  | .backstopFired => true
  | .channelDisagree => true
  | .tmrVote => true
  | .tempSample _ => true
  | .leaveTimeout => true
  | .leaveReturn q => returnOk q
  | .domainPowerUpDone dom _ => decide (dom < 38)
  | .hbmTrainingDone stack => decide (stack < 2)
  | .pwronRstN => true
  | .sysRstN => true
  | .parkDrainEnd => true
  | .plumbStep => true
  | .plumbStepEnd fails step => fails.all netOk && decide (1 ≤ step) && decide (step ≤ 6)
  | .flr f => decide (f < 16)
  | .hotReset => true
  | .periodicLatch => true
  | .dumpRecordWrite => true
  | .attestCreditReturn => true
  | .rngFail => true
  | .rngReady => true
  | .ledStream => true
  | .registerRead m addr size => decide (m < 32) && decide (addr < 2 ^ 25) && sizeOk size
  | .pwronRstNRelease _ => true
  | .hostLinkUp speed width => decide (speed < 8) && decide (width < 32)
  | .keystoneSelfTestTimeout _ => true
  | .mpacketReceive p _ => decide (p < 512)
  | .dmaBeatIssue => true
  | .anDone p ability _ _ => decide (p < 512) && decide (ability < 2048)
  | .time10mInMeasure _ _ => true
  | .pcOverflow k => decide (k < 2048)
  | .rxLpi p _ => decide (p < 512)

end Sys2Proof
end

