-- ==== Sys2Proof/Machine/Map.lean ====
section
/-! DEFINITION. Sparse data in one canonical form: a list of (key, value) pairs, keys strictly rising, no entry equal to
what an unlisted key reads as. It holds registers, counters, host memory, and every table that is mostly at rest. -/

namespace Sys2Proof.Machine

/-- Sparse data keyed by a number. What an unlisted key reads as is the default function given to every operation. -/
abbrev SMap (α : Type) := List (Nat × α)

/-- Read one key. -/
def SMap.get {α : Type} (d : Nat → α) (k : Nat) : SMap α → α
  | [] => d k
  | (k', v) :: r => if k = k' then v else SMap.get d k r

/-- Insert or replace, keeping the keys rising. -/
def SMap.put {α : Type} (k : Nat) (v : α) : SMap α → SMap α
  | [] => [(k, v)]
  | (k', v') :: r =>
    if k < k' then (k, v) :: (k', v') :: r
    else if k = k' then (k, v) :: r
    else (k', v') :: SMap.put k v r

/-- Remove the entry of a key. -/
def SMap.del {α : Type} (k : Nat) : SMap α → SMap α
  | [] => []
  | (k', v') :: r => if k = k' then SMap.del k r else (k', v') :: SMap.del k r

/-- Write one key: writing what an unlisted key reads as removes the entry. -/
def SMap.set {α : Type} [DecidableEq α] (d : Nat → α) (k : Nat) (v : α) (m : SMap α) : SMap α :=
  if v = d k then SMap.del k m else SMap.put k v m

/-- The keys rise strictly from `lo`, and no entry holds what an unlisted key reads as. -/
def SMap.wfFrom {α : Type} [DecidableEq α] (d : Nat → α) : Nat → SMap α → Bool
  | _, [] => true
  | lo, (k, v) :: r => decide (lo ≤ k) && decide (v ≠ d k) && SMap.wfFrom d (k + 1) r

/-- The canonical form. -/
def SMap.wf {α : Type} [DecidableEq α] (d : Nat → α) (m : SMap α) : Bool := SMap.wfFrom d 0 m

/-- Add a list of values at rising keys. -/
def SMap.setAll {α : Type} [DecidableEq α] (d : Nat → α) (k : Nat) : List α → SMap α → SMap α
  | [], m => m
  | v :: r, m => SMap.setAll d (k + 1) r (SMap.set d k v m)

/-- Read `n` keys from `k` up. -/
def SMap.getN {α : Type} (d : Nat → α) (k : Nat) : Nat → SMap α → List α
  | 0, _ => []
  | n + 1, m => SMap.get d k m :: SMap.getN d (k + 1) n m

/-! ### Bytes and bit fields -/

/-- Bits `lo` to `lo + width - 1` of a number. -/
def bitsOf (n lo width : Nat) : Nat := n / 2 ^ lo % 2 ^ width

/-- One bit of a number. -/
def bitAt (n i : Nat) : Bool := n / 2 ^ i % 2 = 1

/-- Replace bits `lo` to `lo + width - 1` of a number by the low bits of `v`. -/
def putBits (n lo width v : Nat) : Nat :=
  n - bitsOf n lo width * 2 ^ lo + (v % 2 ^ width) * 2 ^ lo

/-- A field of a register word. -/
def fldOf (w : Word) (lo width : Nat) : Nat := bitsOf w.toNat lo width

/-- Replace a field of a register word. -/
def putFld (w : Word) (lo width v : Nat) : Word := BitVec.ofNat 32 (putBits w.toNat lo width v)

/-- A `w`-bit two's complement number. -/
def signed (w n : Nat) : Int := if n % 2 ^ w < 2 ^ (w - 1) then (n % 2 ^ w : Nat) else (n % 2 ^ w : Nat) - (2 ^ w : Nat)

/-- The `w`-bit two's complement code of an integer (its low `w` bits). -/
def unsigned (w : Nat) (i : Int) : Nat := (i % (2 ^ w : Nat)).toNat

/-- Little-endian number of a list of bytes (R9). -/
def leNat : List Byte → Nat
  | [] => 0
  | b :: r => b.toNat + 256 * leNat r

/-- Big-endian (network order) number of a list of bytes (R9). -/
def beNat (l : List Byte) : Nat := l.foldl (fun a b => a * 256 + b.toNat) 0

/-- The `n` little-endian bytes of a number. -/
def leBytes : Nat → Nat → List Byte
  | 0, _ => []
  | n + 1, v => BitVec.ofNat 8 v :: leBytes n (v / 256)

/-- The `n` big-endian (network order) bytes of a number. -/
def beBytes (n v : Nat) : List Byte := (leBytes n v).reverse

/-- A Boolean as a bit. -/
def b2n (b : Bool) : Nat := if b then 1 else 0

/-- ⌈a ÷ b⌉ on naturals. -/
def ceilDiv (a b : Nat) : Nat := (a + b - 1) / b

/-- The indices of the set bits of a number below `n`, rising. -/
def setBits (n v : Nat) : List Nat := (List.range n).filter fun i => bitAt v i

/-- The number of set bits of `v` below `n`. -/
def popCount (n v : Nat) : Nat := (setBits n v).length

end Sys2Proof.Machine
end

