-- ==== Sys2Proof/Machine/RegMap.lean ====
section
/-! DEFINITION. The register map of R361 and of every block's register tables: one descriptor per register with its
fields, access codes (R13), reset values and the values a field accepts (R12); the addresses and fields by the manual's
own names. Written from the tables of spec/ alone. -/

namespace Sys2Proof.Machine

/-- Register access codes of R13 (TMR is a flag beside them). -/
inductive Acc where
  | ro | rw | wo | sqc | key
  deriving DecidableEq, Repr

/-- One field of a register: position, access, whether it is triplicated, reset value, and the ranges of values that are
not reserved (empty: every value is allowed). -/
structure FieldDesc where
  lo : Nat
  width : Nat
  acc : Acc
  tmr : Bool
  reset : Nat
  legal : List (Nat × Nat)
  deriving DecidableEq, Repr

/-- One register, or an array of them in up to two dimensions (stride, count). -/
structure RegDesc where
  base : Nat
  s1 : Nat
  c1 : Nat
  s2 : Nat
  c2 : Nat
  fields : List FieldDesc
  deriving DecidableEq, Repr

/-- A named field of one register: its register address and its place in the word. -/
structure Fld where
  addr : Nat
  lo : Nat
  width : Nat
  deriving DecidableEq, Repr


/-- Registers of the PORT block, part 1. -/
def regsPORT0 : List RegDesc := [
/- PORT.MODE -/ ⟨0x1000000, 0x10000, 128, 0x4, 1,
    [⟨0, 4, .rw, false, 0, [(0, 6)]⟩,
     ⟨4, 2, .rw, false, 0, [(0, 1)]⟩,
     ⟨6, 2, .rw, false, 0, [(0, 1)]⟩]⟩,
  /- PORT.APPLY -/ ⟨0x1000004, 0x10000, 128, 0x4, 1,
    [⟨0, 1, .wo, false, 0, []⟩]⟩,
  /- PORT.APPLY_STATUS -/ ⟨0x1000008, 0x10000, 128, 0x4, 1,
    [⟨0, 3, .ro, false, 0, []⟩,
     ⟨3, 1, .ro, false, 0, []⟩]⟩,
  /- PORT.LANE_CFG -/ ⟨0x1000010, 0x10000, 128, 0x4, 4,
    [⟨0, 3, .rw, false, 0, [(0, 4)]⟩,
     ⟨3, 1, .rw, false, 0, []⟩,
     ⟨4, 1, .rw, false, 0, []⟩,
     ⟨5, 2, .rw, false, 0, []⟩,
     ⟨7, 2, .rw, false, 0, []⟩]⟩,
  /- PORT.SUB_CFG -/ ⟨0x1000020, 0x10000, 128, 0x4, 4,
    [⟨0, 2, .rw, false, 0, []⟩,
     ⟨2, 1, .rw, false, 0, []⟩,
     ⟨3, 1, .rw, false, 0, []⟩,
     ⟨16, 11, .rw, false, 0, []⟩]⟩,
  /- PORT.LINK_STATUS -/ ⟨0x1000030, 0x10000, 128, 0x4, 4,
    [⟨0, 1, .ro, false, 0, []⟩,
     ⟨1, 1, .ro, false, 0, []⟩,
     ⟨2, 1, .ro, false, 0, []⟩,
     ⟨3, 1, .ro, false, 0, []⟩,
     ⟨4, 4, .ro, false, 0xf, []⟩,
     ⟨8, 2, .ro, false, 0, []⟩]⟩,
  /- PORT.EVENT -/ ⟨0x1000040, 0x10000, 128, 0x4, 1,
    [⟨0, 4, .sqc, false, 0, []⟩,
     ⟨4, 1, .sqc, false, 0, []⟩,
     ⟨5, 1, .sqc, false, 0, []⟩,
     ⟨6, 1, .sqc, false, 0, []⟩,
     ⟨24, 8, .sqc, false, 0, []⟩]⟩,
  /- PORT.MAC_CFG -/ ⟨0x1000100, 0x10000, 128, 0x40, 4,
    [⟨0, 14, .rw, false, 0x5ee, [(1518, 16000)]⟩,
     ⟨14, 1, .rw, false, 0, []⟩,
     ⟨15, 1, .rw, false, 0, []⟩,
     ⟨16, 2, .rw, false, 0, [(0, 2)]⟩,
     ⟨18, 1, .rw, false, 0, []⟩,
     ⟨19, 2, .rw, false, 0, [(0, 2)]⟩,
     ⟨21, 1, .rw, false, 0, []⟩,
     ⟨22, 1, .rw, false, 1, []⟩,
     ⟨23, 2, .rw, false, 0, []⟩,
     ⟨25, 1, .rw, false, 0, []⟩]⟩,
  /- PORT.MAC_ADDR_LO -/ ⟨0x1000104, 0x10000, 128, 0x40, 4,
    [⟨0, 32, .rw, false, 0, []⟩]⟩,
  /- PORT.MAC_ADDR_HI -/ ⟨0x1000108, 0x10000, 128, 0x40, 4,
    [⟨0, 16, .rw, false, 0, []⟩]⟩,
  /- PORT.FC_GEN -/ ⟨0x100010C, 0x10000, 128, 0x40, 4,
    [⟨0, 16, .rw, false, 0xffff, [(1, 65535)]⟩,
     ⟨16, 16, .rw, false, 0x7fff, [(1, 65535)]⟩]⟩,
  /- PORT.PFC_RX_MAP_LO -/ ⟨0x1000110, 0x10000, 128, 0x40, 4,
    [⟨0, 8, .rw, false, 1, []⟩,
     ⟨8, 8, .rw, false, 2, []⟩,
     ⟨16, 8, .rw, false, 4, []⟩,
     ⟨24, 8, .rw, false, 8, []⟩]⟩
]

/-- Registers of the PORT block, part 2. -/
def regsPORT1 : List RegDesc := [
/- PORT.PFC_RX_MAP_HI -/ ⟨0x1000114, 0x10000, 128, 0x40, 4,
    [⟨0, 8, .rw, false, 0x10, []⟩,
     ⟨8, 8, .rw, false, 0x20, []⟩,
     ⟨16, 8, .rw, false, 0x40, []⟩,
     ⟨24, 8, .rw, false, 0x80, []⟩]⟩,
  /- PORT.PAUSE_WD -/ ⟨0x1000118, 0x10000, 128, 0x40, 4,
    [⟨0, 16, .rw, false, 0x1388, []⟩,
     ⟨16, 16, .rw, false, 0x2710, [(1, 65535)]⟩]⟩,
  /- PORT.PREEMPT_CFG -/ ⟨0x100011C, 0x10000, 128, 0x40, 4,
    [⟨0, 8, .rw, false, 0, []⟩,
     ⟨8, 7, .rw, false, 0xa, [(1, 127)]⟩]⟩,
  /- PORT.EEE_CFG -/ ⟨0x1000120, 0x10000, 128, 0x40, 4,
    [⟨0, 16, .rw, false, 0x64, [(1, 65535)]⟩]⟩,
  /- PORT.MAC_STATUS -/ ⟨0x1000124, 0x10000, 128, 0x40, 4,
    [⟨0, 8, .ro, false, 0, []⟩,
     ⟨8, 8, .ro, false, 0, []⟩,
     ⟨16, 8, .ro, false, 0, []⟩,
     ⟨24, 3, .ro, false, 0, []⟩,
     ⟨27, 1, .ro, false, 0, []⟩,
     ⟨28, 1, .ro, false, 0, []⟩,
     ⟨29, 1, .ro, false, 0, []⟩]⟩,
  /- PORT.MAC_EVENT -/ ⟨0x1000128, 0x10000, 128, 0x40, 4,
    [⟨0, 8, .sqc, false, 0, []⟩,
     ⟨8, 1, .sqc, false, 0, []⟩,
     ⟨9, 1, .sqc, false, 0, []⟩,
     ⟨10, 1, .sqc, false, 0, []⟩,
     ⟨24, 8, .sqc, false, 0, []⟩]⟩,
  /- PORT.WAKE_CFG -/ ⟨0x1000300, 0x10000, 128, 0x4, 1,
    [⟨0, 2, .rw, false, 0, [(0, 2)]⟩,
     ⟨2, 2, .rw, false, 0, [(0, 2)]⟩,
     ⟨4, 2, .rw, false, 0, [(0, 2)]⟩,
     ⟨6, 2, .rw, false, 0, [(0, 2)]⟩,
     ⟨8, 1, .rw, false, 0, []⟩,
     ⟨16, 8, .rw, false, 0xa, [(1, 255)]⟩]⟩,
  /- PORT.WAKE_STATUS -/ ⟨0x1000304, 0x10000, 128, 0x4, 1,
    [⟨0, 4, .sqc, false, 0, []⟩,
     ⟨4, 1, .sqc, false, 0, []⟩,
     ⟨24, 8, .sqc, false, 0, []⟩]⟩
]

/-- Registers of the TRN block, part 1. -/
def regsTRN0 : List RegDesc := [
/- TRN.CTRL -/ ⟨0x70000, 0x4, 1, 0x4, 1,
    [⟨0, 1, .rw, false, 0, []⟩,
     ⟨1, 1, .rw, false, 0, []⟩,
     ⟨2, 1, .rw, false, 0, []⟩,
     ⟨3, 1, .rw, false, 0, []⟩,
     ⟨4, 1, .rw, false, 0, []⟩,
     ⟨5, 1, .rw, false, 0, []⟩,
     ⟨6, 1, .rw, false, 0, []⟩,
     ⟨7, 1, .rw, false, 0, []⟩,
     ⟨8, 1, .rw, false, 0, []⟩,
     ⟨9, 1, .rw, false, 0, []⟩]⟩,
  /- TRN.STATUS -/ ⟨0x70004, 0x4, 1, 0x4, 1,
    [⟨0, 2, .ro, false, 0, []⟩,
     ⟨2, 1, .ro, false, 0, []⟩,
     ⟨3, 1, .ro, false, 0, []⟩,
     ⟨4, 1, .ro, false, 0, []⟩,
     ⟨5, 1, .ro, false, 0, []⟩,
     ⟨8, 8, .ro, false, 0, []⟩]⟩,
  /- TRN.EVENT -/ ⟨0x70008, 0x4, 1, 0x4, 1,
    [⟨0, 1, .sqc, false, 0, []⟩,
     ⟨1, 1, .sqc, false, 0, []⟩,
     ⟨2, 1, .sqc, false, 0, []⟩,
     ⟨3, 1, .sqc, false, 0, []⟩,
     ⟨4, 1, .sqc, false, 0, []⟩,
     ⟨5, 1, .sqc, false, 0, []⟩,
     ⟨6, 1, .sqc, false, 0, []⟩,
     ⟨7, 1, .sqc, false, 0, []⟩,
     ⟨24, 8, .sqc, false, 0, []⟩]⟩,
  /- TRN.RATE_BASE_LO -/ ⟨0x70010, 0x4, 1, 0x4, 1,
    [⟨0, 32, .key, true, 0x26c9b26d, []⟩]⟩,
  /- TRN.RATE_BASE_HI -/ ⟨0x70014, 0x4, 1, 0x4, 1,
    [⟨0, 16, .key, true, 0x9b, []⟩]⟩,
  /- TRN.RATE_NOW_LO -/ ⟨0x70018, 0x4, 1, 0x4, 1,
    [⟨0, 32, .ro, false, 0x26c9b26d, []⟩]⟩,
  /- TRN.RATE_NOW_HI -/ ⟨0x7001C, 0x4, 1, 0x4, 1,
    [⟨0, 16, .ro, false, 0x9b, []⟩]⟩,
  /- TRN.KP -/ ⟨0x70020, 0x4, 1, 0x4, 1,
    [⟨0, 32, .rw, false, 0x58000, []⟩]⟩,
  /- TRN.KI -/ ⟨0x70024, 0x4, 1, 0x4, 1,
    [⟨0, 32, .rw, false, 0x8000, []⟩]⟩,
  /- TRN.FREQ_LIMIT -/ ⟨0x70028, 0x4, 1, 0x4, 1,
    [⟨0, 24, .rw, false, 0x186a0, [(1, 16777215)]⟩]⟩,
  /- TRN.STEP_THRESHOLD -/ ⟨0x7002C, 0x4, 1, 0x4, 1,
    [⟨0, 32, .rw, false, 0x2710, []⟩]⟩,
  /- TRN.LOCK_CFG -/ ⟨0x70030, 0x4, 1, 0x4, 1,
    [⟨0, 16, .rw, false, 0x64, [(1, 65535)]⟩,
     ⟨16, 8, .rw, false, 8, [(1, 255)]⟩]⟩
]

/-- Registers of the TRN block, part 2. -/
def regsTRN1 : List RegDesc := [
/- TRN.HOLDOVER_TIMEOUT -/ ⟨0x70034, 0x4, 1, 0x4, 1,
    [⟨0, 16, .rw, false, 0xbb8, [(1, 65535)]⟩]⟩,
  /- TRN.OFFSET_LO -/ ⟨0x70038, 0x4, 1, 0x4, 1,
    [⟨0, 32, .wo, false, 0, []⟩]⟩,
  /- TRN.OFFSET_HI -/ ⟨0x7003C, 0x4, 1, 0x4, 1,
    [⟨0, 16, .wo, false, 0, []⟩]⟩,
  /- TRN.SERVO_I -/ ⟨0x70040, 0x4, 1, 0x4, 1,
    [⟨0, 32, .ro, false, 0, []⟩]⟩,
  /- TRN.SERVO_I_INIT -/ ⟨0x70044, 0x4, 1, 0x4, 1,
    [⟨0, 32, .rw, false, 0, []⟩]⟩,
  /- TRN.SERVO_F -/ ⟨0x70048, 0x4, 1, 0x4, 1,
    [⟨0, 32, .ro, false, 0, []⟩]⟩,
  /- TRN.TIME_CAPTURE -/ ⟨0x70050, 0x4, 1, 0x4, 1,
    [⟨0, 1, .wo, false, 0, []⟩]⟩,
  /- TRN.TIME_SEC_LO -/ ⟨0x70054, 0x4, 1, 0x4, 1,
    [⟨0, 32, .ro, false, 0, []⟩]⟩,
  /- TRN.TIME_SEC_HI -/ ⟨0x70058, 0x4, 1, 0x4, 1,
    [⟨0, 16, .ro, false, 0, []⟩,
     ⟨16, 1, .ro, false, 0, []⟩,
     ⟨17, 1, .ro, false, 0, []⟩,
     ⟨18, 1, .ro, false, 0, []⟩]⟩,
  /- TRN.TIME_NS -/ ⟨0x7005C, 0x4, 1, 0x4, 1,
    [⟨0, 32, .ro, false, 0, []⟩]⟩,
  /- TRN.TIME_FRAC -/ ⟨0x70060, 0x4, 1, 0x4, 1,
    [⟨0, 16, .ro, false, 0, []⟩]⟩,
  /- TRN.SET_SEC_LO -/ ⟨0x70064, 0x4, 1, 0x4, 1,
    [⟨0, 32, .rw, false, 0, []⟩]⟩
]

/-- Registers of the TRN block, part 3. -/
def regsTRN2 : List RegDesc := [
/- TRN.SET_SEC_HI -/ ⟨0x70068, 0x4, 1, 0x4, 1,
    [⟨0, 16, .rw, false, 0, []⟩]⟩,
  /- TRN.SET_NS -/ ⟨0x7006C, 0x4, 1, 0x4, 1,
    [⟨0, 32, .rw, false, 0, [(0, 999999999)]⟩]⟩,
  /- TRN.TIME_SET -/ ⟨0x70070, 0x4, 1, 0x4, 1,
    [⟨0, 1, .key, false, 0, []⟩]⟩,
  /- TRN.PPS_OUT_WIDTH -/ ⟨0x70080, 0x4, 1, 0x4, 1,
    [⟨0, 20, .rw, false, 0x186a0, [(1, 999999)]⟩]⟩,
  /- TRN.PPS_OUT_OFFSET -/ ⟨0x70084, 0x4, 1, 0x4, 1,
    [⟨0, 32, .rw, false, 0, [(0, 500000000), (3794967296, 4294967295)]⟩]⟩,
  /- TRN.PPS_IN_OFFSET -/ ⟨0x70088, 0x4, 1, 0x4, 1,
    [⟨0, 32, .rw, false, 0, []⟩]⟩,
  /- TRN.PPS_IN_SEC_LO -/ ⟨0x70090, 0x4, 1, 0x4, 1,
    [⟨0, 32, .ro, false, 0, []⟩]⟩,
  /- TRN.PPS_IN_SEC_HI -/ ⟨0x70094, 0x4, 1, 0x4, 1,
    [⟨0, 16, .ro, false, 0, []⟩,
     ⟨16, 1, .ro, false, 0, []⟩,
     ⟨17, 1, .ro, false, 0, []⟩,
     ⟨18, 1, .ro, false, 0, []⟩]⟩,
  /- TRN.PPS_IN_NS -/ ⟨0x70098, 0x4, 1, 0x4, 1,
    [⟨0, 32, .ro, false, 0, []⟩]⟩,
  /- TRN.PPS_IN_FRAC -/ ⟨0x7009C, 0x4, 1, 0x4, 1,
    [⟨0, 16, .ro, false, 0, []⟩]⟩,
  /- TRN.FREQ_IN_MEAS -/ ⟨0x700A0, 0x4, 1, 0x4, 1,
    [⟨0, 32, .ro, false, 0, []⟩]⟩,
  /- TRN.RECCLK_CFG -/ ⟨0x700B0, 0x4, 2, 0x4, 1,
    [⟨0, 9, .rw, false, 0, []⟩,
     ⟨9, 2, .rw, false, 0, []⟩,
     ⟨11, 1, .rw, false, 0, []⟩,
     ⟨12, 1, .rw, false, 1, []⟩,
     ⟨16, 8, .rw, false, 1, [(1, 255)]⟩]⟩
]

/-- Registers of the TRN block, part 4. -/
def regsTRN3 : List RegDesc := [
/- TRN.PORT_CORR_A -/ ⟨0x71000, 0x8, 512, 0x4, 1,
    [⟨0, 16, .rw, false, 0, []⟩,
     ⟨16, 16, .rw, false, 0, []⟩]⟩,
  /- TRN.PORT_CORR_B -/ ⟨0x71004, 0x8, 512, 0x4, 1,
    [⟨0, 24, .rw, false, 0, []⟩]⟩
]

/-- Registers of the EPH block, part 1. -/
def regsEPH0 : List RegDesc := [
/- EPH.CTRL -/ ⟨0x80000, 0x4, 1, 0x4, 1,
    [⟨0, 1, .rw, true, 0, []⟩,
     ⟨1, 1, .rw, true, 0, []⟩,
     ⟨2, 1, .rw, false, 0, []⟩,
     ⟨3, 1, .rw, false, 0, []⟩]⟩,
  /- EPH.STATUS -/ ⟨0x80004, 0x4, 1, 0x4, 1,
    [⟨0, 1, .ro, false, 0, []⟩,
     ⟨1, 1, .ro, false, 0, []⟩,
     ⟨2, 1, .ro, false, 0, []⟩,
     ⟨3, 2, .ro, false, 0, []⟩,
     ⟨5, 1, .ro, false, 0, []⟩,
     ⟨16, 13, .ro, false, 0, []⟩]⟩,
  /- EPH.EVENT -/ ⟨0x80008, 0x4, 1, 0x4, 1,
    [⟨0, 1, .sqc, false, 0, []⟩,
     ⟨1, 1, .sqc, false, 0, []⟩,
     ⟨2, 1, .sqc, false, 0, []⟩,
     ⟨3, 1, .sqc, false, 0, []⟩,
     ⟨4, 1, .sqc, false, 0, []⟩,
     ⟨5, 1, .sqc, false, 0, []⟩,
     ⟨6, 1, .sqc, false, 0, []⟩,
     ⟨24, 8, .sqc, false, 0, []⟩]⟩,
  /- EPH.ACTIVE_ID_LO -/ ⟨0x80010, 0x4, 1, 0x4, 1,
    [⟨0, 32, .ro, false, 0, []⟩]⟩,
  /- EPH.ACTIVE_ID_HI -/ ⟨0x80014, 0x4, 1, 0x4, 1,
    [⟨0, 32, .ro, false, 0, []⟩]⟩,
  /- EPH.SHADOW_ID_LO -/ ⟨0x80018, 0x4, 1, 0x4, 1,
    [⟨0, 32, .ro, false, 0, []⟩]⟩,
  /- EPH.SHADOW_ID_HI -/ ⟨0x8001C, 0x4, 1, 0x4, 1,
    [⟨0, 32, .ro, false, 0, []⟩]⟩,
  /- EPH.ACT_MARGIN -/ ⟨0x80020, 0x4, 1, 0x4, 1,
    [⟨0, 24, .rw, true, 0x2710, [(2000, 10000000)]⟩]⟩,
  /- EPH.ACTIVATE -/ ⟨0x80024, 0x4, 1, 0x4, 1,
    [⟨0, 1, .key, false, 0, []⟩,
     ⟨1, 2, .key, false, 0, [(1, 3)]⟩,
     ⟨3, 1, .key, false, 0, []⟩]⟩,
  /- EPH.ACT_TIME_SEC_LO -/ ⟨0x80028, 0x4, 1, 0x4, 1,
    [⟨0, 32, .rw, false, 0, []⟩]⟩,
  /- EPH.ACT_TIME_SEC_HI -/ ⟨0x8002C, 0x4, 1, 0x4, 1,
    [⟨0, 16, .rw, false, 0, []⟩]⟩,
  /- EPH.ACT_TIME_NS -/ ⟨0x80030, 0x4, 1, 0x4, 1,
    [⟨0, 32, .rw, false, 0, [(0, 999999999)]⟩]⟩
]

/-- Registers of the EPH block, part 2. -/
def regsEPH1 : List RegDesc := [
/- EPH.ACT_STATUS -/ ⟨0x80034, 0x4, 1, 0x4, 1,
    [⟨0, 2, .ro, false, 0, []⟩,
     ⟨2, 1, .ro, false, 0, []⟩,
     ⟨3, 1, .ro, false, 0, []⟩,
     ⟨4, 1, .ro, false, 0, []⟩,
     ⟨8, 8, .ro, false, 0, []⟩,
     ⟨16, 2, .ro, false, 0, []⟩]⟩,
  /- EPH.ACT_EFF_SEC_LO -/ ⟨0x80038, 0x4, 1, 0x4, 1,
    [⟨0, 32, .ro, false, 0, []⟩]⟩,
  /- EPH.ACT_EFF_SEC_HI -/ ⟨0x8003C, 0x4, 1, 0x4, 1,
    [⟨0, 16, .ro, false, 0, []⟩]⟩,
  /- EPH.ACT_EFF_NS -/ ⟨0x80040, 0x4, 1, 0x4, 1,
    [⟨0, 32, .ro, false, 0, []⟩]⟩,
  /- EPH.CYCLE_COUNT -/ ⟨0x80044, 0x4, 1, 0x4, 1,
    [⟨0, 32, .ro, false, 0, []⟩]⟩,
  /- EPH.REF_MEAS -/ ⟨0x80048, 0x4, 1, 0x4, 1,
    [⟨0, 32, .ro, false, 0, []⟩]⟩,
  /- EPH.MISMATCH -/ ⟨0x8004C, 0x4, 1, 0x4, 1,
    [⟨0, 9, .ro, false, 0, []⟩,
     ⟨9, 4, .ro, false, 0, []⟩]⟩,
  /- EPH.LEN_AWARE -/ ⟨0x80100, 0x4, 16, 0x4, 1,
    [⟨0, 32, .rw, false, 0, []⟩]⟩
]

/-- Registers of the PIPE block, part 1. -/
def regsPIPE0 : List RegDesc := [
/- PIPE.CTRL -/ ⟨0x200000, 0x20000, 8, 0x4, 1,
    [⟨0, 1, .rw, true, 0, []⟩]⟩,
  /- PIPE.STATUS -/ ⟨0x200004, 0x20000, 8, 0x4, 1,
    [⟨0, 1, .ro, false, 0, []⟩,
     ⟨1, 1, .ro, false, 0, []⟩,
     ⟨2, 1, .ro, false, 0, []⟩,
     ⟨3, 1, .ro, false, 0, []⟩,
     ⟨4, 3, .ro, false, 0, []⟩,
     ⟨7, 3, .ro, false, 0, []⟩,
     ⟨10, 1, .ro, false, 0, []⟩]⟩,
  /- PIPE.EVENT -/ ⟨0x200008, 0x20000, 8, 0x4, 1,
    [⟨0, 1, .sqc, false, 0, []⟩,
     ⟨1, 1, .sqc, false, 0, []⟩,
     ⟨2, 1, .sqc, false, 0, []⟩,
     ⟨3, 1, .sqc, false, 0, []⟩,
     ⟨24, 8, .sqc, false, 0, []⟩]⟩,
  /- PIPE.ACTIVE_ID_LO -/ ⟨0x200010, 0x20000, 8, 0x4, 1,
    [⟨0, 32, .ro, false, 0, []⟩]⟩,
  /- PIPE.ACTIVE_ID_HI -/ ⟨0x200014, 0x20000, 8, 0x4, 1,
    [⟨0, 32, .ro, false, 0, []⟩]⟩,
  /- PIPE.SHADOW_ID_LO -/ ⟨0x200018, 0x20000, 8, 0x4, 1,
    [⟨0, 32, .ro, false, 0, []⟩]⟩,
  /- PIPE.SHADOW_ID_HI -/ ⟨0x20001C, 0x20000, 8, 0x4, 1,
    [⟨0, 32, .ro, false, 0, []⟩]⟩,
  /- PIPE.RES_ERR -/ ⟨0x200020, 0x20000, 8, 0x4, 1,
    [⟨0, 20, .ro, false, 0, []⟩,
     ⟨20, 2, .ro, false, 0, []⟩,
     ⟨22, 1, .ro, false, 0, []⟩]⟩,
  /- PIPE.RES_ERR_REF -/ ⟨0x200024, 0x20000, 8, 0x4, 1,
    [⟨0, 16, .ro, false, 0, []⟩]⟩,
  /- PIPE.PATCH_STATUS -/ ⟨0x200028, 0x20000, 8, 0x4, 1,
    [⟨0, 17, .ro, false, 0, []⟩,
     ⟨17, 2, .ro, false, 0, []⟩]⟩,
  /- PIPE.LRN_GLOBAL -/ ⟨0x200100, 0x20000, 8, 0x4, 1,
    [⟨0, 16, .rw, true, 0x12c, []⟩,
     ⟨16, 4, .rw, true, 5, []⟩,
     ⟨20, 4, .rw, true, 4, [(1, 15)]⟩,
     ⟨24, 1, .rw, true, 1, []⟩]⟩,
  /- PIPE.FLAP_WINDOW -/ ⟨0x200104, 0x20000, 8, 0x4, 1,
    [⟨0, 16, .rw, true, 0x3e8, [(1, 65535)]⟩]⟩
]

/-- Registers of the PIPE block, part 2. -/
def regsPIPE1 : List RegDesc := [
/- PIPE.LRN_CTRL -/ ⟨0x200108, 0x20000, 8, 0x4, 1,
    [⟨0, 1, .rw, false, 1, []⟩,
     ⟨1, 1, .rw, false, 0, []⟩]⟩,
  /- PIPE.LRN_SEED0 -/ ⟨0x20010C, 0x20000, 8, 0x4, 1,
    [⟨0, 32, .rw, false, 0, []⟩]⟩,
  /- PIPE.LRN_SEED1 -/ ⟨0x200110, 0x20000, 8, 0x4, 1,
    [⟨0, 32, .rw, false, 0, []⟩]⟩,
  /- PIPE.LRN_STATUS -/ ⟨0x200114, 0x20000, 8, 0x4, 1,
    [⟨0, 19, .ro, false, 0, []⟩,
     ⟨19, 9, .ro, false, 0, []⟩,
     ⟨28, 1, .ro, false, 0, []⟩]⟩,
  /- PIPE.STATIC_COUNT -/ ⟨0x200118, 0x20000, 8, 0x4, 1,
    [⟨0, 17, .ro, false, 0, []⟩]⟩,
  /- PIPE.LRN_EVENT -/ ⟨0x20011C, 0x20000, 8, 0x4, 1,
    [⟨0, 1, .sqc, false, 0, []⟩,
     ⟨1, 1, .sqc, false, 0, []⟩,
     ⟨2, 1, .sqc, false, 0, []⟩,
     ⟨3, 1, .sqc, false, 0, []⟩,
     ⟨4, 1, .sqc, false, 0, []⟩,
     ⟨5, 1, .sqc, false, 0, []⟩,
     ⟨24, 8, .sqc, false, 0, []⟩]⟩,
  /- PIPE.MOVE_MAC_LO -/ ⟨0x200120, 0x20000, 8, 0x4, 1,
    [⟨0, 32, .ro, false, 0, []⟩]⟩,
  /- PIPE.MOVE_MAC_HI -/ ⟨0x200124, 0x20000, 8, 0x4, 1,
    [⟨0, 16, .ro, false, 0, []⟩,
     ⟨16, 12, .ro, false, 0, []⟩,
     ⟨28, 1, .ro, false, 0, []⟩]⟩,
  /- PIPE.MOVE_PORTS -/ ⟨0x200128, 0x20000, 8, 0x4, 1,
    [⟨0, 9, .ro, false, 0, []⟩,
     ⟨16, 9, .ro, false, 0, []⟩]⟩,
  /- PIPE.TBL_ERR -/ ⟨0x20012C, 0x20000, 8, 0x4, 1,
    [⟨0, 2, .ro, false, 0, []⟩,
     ⟨2, 19, .ro, false, 0, []⟩]⟩,
  /- PIPE.LRN_BUS_SEQ -/ ⟨0x200130, 0x20000, 8, 0x4, 1,
    [⟨0, 32, .ro, false, 0, []⟩]⟩,
  /- PIPE.HR_USED -/ ⟨0x200134, 0x20000, 8, 0x4, 1,
    [⟨0, 20, .ro, false, 0, []⟩]⟩
]

/-- Registers of the PIPE block, part 3. -/
def regsPIPE2 : List RegDesc := [
/- PIPE.TCAM_USED -/ ⟨0x200140, 0x20000, 8, 0x4, 4,
    [⟨0, 16, .ro, false, 0, []⟩,
     ⟨16, 16, .ro, false, 0, []⟩]⟩,
  /- PIPE.REP_EVENT -/ ⟨0x200200, 0x20000, 8, 0x4, 1,
    [⟨0, 1, .sqc, false, 0, []⟩,
     ⟨1, 1, .sqc, false, 0, []⟩,
     ⟨2, 1, .sqc, false, 0, []⟩,
     ⟨3, 1, .sqc, false, 0, []⟩,
     ⟨4, 1, .sqc, false, 0, []⟩,
     ⟨24, 8, .sqc, false, 0, []⟩]⟩,
  /- PIPE.REP_STATUS -/ ⟨0x200204, 0x20000, 8, 0x4, 1,
    [⟨0, 7, .ro, false, 0, []⟩]⟩,
  /- PIPE.FRER_LAST -/ ⟨0x200208, 0x20000, 8, 0x4, 1,
    [⟨0, 14, .ro, false, 0, []⟩,
     ⟨14, 1, .ro, false, 0, []⟩]⟩,
  /- PIPE.FRER_RESET -/ ⟨0x20020C, 0x20000, 8, 0x4, 1,
    [⟨0, 14, .key, false, 0, []⟩,
     ⟨14, 1, .key, false, 0, []⟩,
     ⟨15, 1, .key, false, 0, []⟩]⟩
]

/-- Registers of the BUF block, part 1. -/
def regsBUF0 : List RegDesc := [
/- BUF.CTRL -/ ⟨0x400000, 0x4, 1, 0x4, 1,
    [⟨0, 1, .rw, true, 0, []⟩,
     ⟨1, 1, .rw, true, 1, []⟩,
     ⟨2, 1, .rw, false, 0, []⟩]⟩,
  /- BUF.STATUS -/ ⟨0x400004, 0x4, 1, 0x4, 1,
    [⟨0, 1, .ro, false, 0, []⟩,
     ⟨1, 1, .ro, false, 0, []⟩,
     ⟨2, 1, .ro, false, 0, []⟩,
     ⟨3, 1, .ro, false, 0, []⟩,
     ⟨4, 1, .ro, false, 0, []⟩,
     ⟨5, 6, .ro, false, 0, []⟩]⟩,
  /- BUF.EVENT -/ ⟨0x400008, 0x4, 1, 0x4, 1,
    [⟨0, 1, .sqc, false, 0, []⟩,
     ⟨1, 1, .sqc, false, 0, []⟩,
     ⟨2, 1, .sqc, false, 0, []⟩,
     ⟨3, 1, .sqc, false, 0, []⟩,
     ⟨4, 1, .sqc, false, 0, []⟩,
     ⟨5, 1, .sqc, false, 0, []⟩,
     ⟨6, 1, .sqc, false, 0, []⟩,
     ⟨7, 1, .sqc, false, 0, []⟩,
     ⟨8, 1, .sqc, false, 0, []⟩,
     ⟨9, 1, .sqc, false, 0, []⟩,
     ⟨24, 8, .sqc, false, 0, []⟩]⟩,
  /- BUF.FREE_ERR -/ ⟨0x40000C, 0x4, 1, 0x4, 1,
    [⟨0, 28, .ro, false, 0, []⟩,
     ⟨28, 4, .ro, false, 0, []⟩]⟩,
  /- BUF.FREE_ERR_INFO -/ ⟨0x400010, 0x4, 1, 0x4, 1,
    [⟨0, 1, .ro, false, 0, []⟩,
     ⟨1, 4, .ro, false, 0, []⟩,
     ⟨5, 5, .ro, false, 0x1f, []⟩]⟩,
  /- BUF.CELL_ERR -/ ⟨0x400014, 0x4, 1, 0x4, 1,
    [⟨0, 28, .ro, false, 0, []⟩,
     ⟨28, 1, .ro, false, 0, []⟩]⟩,
  /- BUF.QUARANTINED -/ ⟨0x400018, 0x4, 1, 0x4, 1,
    [⟨0, 20, .ro, false, 0, []⟩]⟩,
  /- BUF.HBM_RETIRED -/ ⟨0x40001C, 0x4, 1, 0x4, 1,
    [⟨0, 32, .ro, false, 0, []⟩]⟩,
  /- BUF.HBM_SPARE_MAP -/ ⟨0x400020, 0x4, 1, 0x4, 1,
    [⟨0, 5, .ro, false, 0, []⟩,
     ⟨5, 1, .ro, false, 0, []⟩]⟩,
  /- BUF.HBM_RETIRE -/ ⟨0x400024, 0x4, 1, 0x4, 1,
    [⟨0, 5, .key, false, 0, []⟩,
     ⟨5, 1, .key, false, 0, []⟩]⟩,
  /- BUF.HBM_RELOC -/ ⟨0x400028, 0x4, 1, 0x4, 1,
    [⟨0, 23, .ro, false, 0, []⟩]⟩,
  /- BUF.CRC_RETIRE -/ ⟨0x40002C, 0x4, 1, 0x4, 1,
    [⟨0, 16, .rw, true, 0x10, []⟩]⟩
]

/-- Registers of the BUF block, part 2. -/
def regsBUF1 : List RegDesc := [
/- BUF.CLASS_POOL -/ ⟨0x400030, 0x4, 1, 0x4, 1,
    [⟨0, 4, .rw, true, 0, [(0, 11)]⟩,
     ⟨4, 4, .rw, true, 0, [(0, 11)]⟩,
     ⟨8, 4, .rw, true, 0, [(0, 11)]⟩,
     ⟨12, 4, .rw, true, 0, [(0, 11)]⟩,
     ⟨16, 4, .rw, true, 0, [(0, 11)]⟩,
     ⟨20, 4, .rw, true, 0, [(0, 11)]⟩,
     ⟨24, 4, .rw, true, 0, [(0, 11)]⟩,
     ⟨28, 4, .rw, true, 0, [(0, 11)]⟩]⟩,
  /- BUF.BP_CFG -/ ⟨0x400034, 0x4, 1, 0x4, 1,
    [⟨0, 16, .rw, false, 0x40, []⟩]⟩,
  /- BUF.PREFETCH_CFG -/ ⟨0x400038, 0x4, 1, 0x4, 1,
    [⟨0, 7, .rw, false, 0x10, [(1, 64)]⟩]⟩,
  /- BUF.POOL_APPLY -/ ⟨0x400040, 0x4, 1, 0x4, 1,
    [⟨0, 1, .wo, false, 0, []⟩]⟩,
  /- BUF.POOL_APPLY_STATUS -/ ⟨0x400044, 0x4, 1, 0x4, 1,
    [⟨0, 2, .ro, false, 0, []⟩]⟩,
  /- BUF.ONCHIP_AVAIL -/ ⟨0x400048, 0x4, 1, 0x4, 1,
    [⟨0, 20, .ro, false, 0xc0000, []⟩]⟩,
  /- BUF.HBM_AVAIL -/ ⟨0x40004C, 0x4, 1, 0x4, 1,
    [⟨0, 28, .ro, false, 0, []⟩]⟩,
  /- BUF.POOL_EVENT -/ ⟨0x400050, 0x4, 1, 0x4, 1,
    [⟨0, 16, .sqc, false, 0, []⟩,
     ⟨24, 8, .sqc, false, 0, []⟩]⟩,
  /- BUF.POOL_CFG -/ ⟨0x400100, 0x20, 16, 0x4, 1,
    [⟨0, 1, .rw, true, 0, []⟩]⟩,
  /- BUF.POOL_ONCHIP -/ ⟨0x400104, 0x20, 16, 0x4, 1,
    [⟨0, 20, .rw, true, 0, []⟩]⟩,
  /- BUF.POOL_HBM -/ ⟨0x400108, 0x20, 16, 0x4, 1,
    [⟨0, 28, .rw, true, 0, []⟩]⟩,
  /- BUF.POOL_HEADROOM -/ ⟨0x40010C, 0x20, 16, 0x4, 1,
    [⟨0, 20, .rw, true, 0, []⟩]⟩
]

/-- Registers of the BUF block, part 3. -/
def regsBUF2 : List RegDesc := [
/- BUF.POOL_USED -/ ⟨0x400110, 0x20, 16, 0x4, 1,
    [⟨0, 20, .ro, false, 0, []⟩]⟩,
  /- BUF.POOL_USED_HBM -/ ⟨0x400114, 0x20, 16, 0x4, 1,
    [⟨0, 28, .ro, false, 0, []⟩]⟩,
  /- BUF.POOL_STATUS -/ ⟨0x400118, 0x20, 16, 0x4, 1,
    [⟨0, 3, .ro, false, 0, []⟩,
     ⟨3, 1, .ro, false, 0, []⟩,
     ⟨4, 4, .ro, false, 0, []⟩]⟩,
  /- BUF.ING_LIMIT -/ ⟨0x420000, 0x4, 4096, 0x4, 1,
    [⟨0, 16, .rw, false, 0xffff, []⟩,
     ⟨16, 16, .rw, false, 0, []⟩]⟩,
  /- BUF.QCFG_A -/ ⟨0x440000, 0x10, 4176, 0x4, 1,
    [⟨0, 16, .rw, false, 0xffff, []⟩,
     ⟨16, 16, .rw, false, 0, []⟩]⟩,
  /- BUF.QCFG_B -/ ⟨0x440004, 0x10, 4176, 0x4, 1,
    [⟨0, 24, .rw, false, 0, [(0, 10000000)]⟩,
     ⟨24, 1, .rw, false, 0, []⟩,
     ⟨25, 1, .rw, false, 1, []⟩]⟩,
  /- BUF.QCFG_C -/ ⟨0x440008, 0x10, 4176, 0x4, 1,
    [⟨0, 20, .rw, false, 0xfffff, []⟩]⟩,
  /- BUF.QSTAT -/ ⟨0x44000C, 0x10, 4176, 0x4, 1,
    [⟨0, 28, .ro, false, 0, []⟩,
     ⟨28, 1, .ro, false, 0, []⟩,
     ⟨29, 1, .ro, false, 0, []⟩]⟩
]

/-- Registers of the TM block, part 1. -/
def regsTM0 : List RegDesc := [
/- TM.EVENT -/ ⟨0x500000, 0x4, 1, 0x4, 1,
    [⟨0, 1, .sqc, false, 0, []⟩,
     ⟨1, 1, .sqc, false, 0, []⟩,
     ⟨24, 8, .sqc, false, 0, []⟩]⟩,
  /- TM.ERR_INFO -/ ⟨0x500004, 0x4, 1, 0x4, 1,
    [⟨0, 14, .ro, false, 0, []⟩,
     ⟨14, 2, .ro, false, 0, []⟩]⟩,
  /- TM.LEN_PROFILE -/ ⟨0x500040, 0x4, 16, 0x4, 1,
    [⟨0, 7, .rw, false, 0x14, [(0, 63), (96, 127)]⟩]⟩,
  /- TM.CPU_CFG -/ ⟨0x500080, 0x4, 1, 0x4, 1,
    [⟨0, 1, .rw, false, 0, []⟩,
     ⟨1, 1, .rw, false, 0, []⟩,
     ⟨2, 1, .rw, false, 1, []⟩,
     ⟨3, 4, .rw, false, 0, []⟩]⟩,
  /- TM.CPU_RATE -/ ⟨0x500084, 0x4, 1, 0x4, 1,
    [⟨0, 32, .rw, false, 0xf4240, []⟩]⟩,
  /- TM.CPU_BURST -/ ⟨0x500088, 0x4, 1, 0x4, 1,
    [⟨0, 24, .rw, false, 0x4000, []⟩]⟩,
  /- TM.CPU_TOKENS -/ ⟨0x50008C, 0x4, 1, 0x4, 1,
    [⟨0, 32, .ro, false, 0x4000, []⟩]⟩,
  /- TM.PORT_CFG -/ ⟨0x510000, 0x20, 512, 0x4, 1,
    [⟨0, 1, .rw, false, 0, []⟩,
     ⟨1, 1, .rw, false, 0, []⟩,
     ⟨2, 4, .rw, false, 0, []⟩,
     ⟨6, 4, .rw, false, 0, []⟩,
     ⟨10, 1, .rw, false, 0, []⟩,
     ⟨11, 4, .rw, false, 0, []⟩]⟩,
  /- TM.GROUP_WEIGHT -/ ⟨0x510004, 0x20, 512, 0x4, 1,
    [⟨0, 8, .rw, false, 1, [(1, 255)]⟩,
     ⟨8, 8, .rw, false, 1, [(1, 255)]⟩,
     ⟨16, 8, .rw, false, 1, [(1, 255)]⟩,
     ⟨24, 8, .rw, false, 1, [(1, 255)]⟩]⟩,
  /- TM.GROUP_BURST -/ ⟨0x510008, 0x20, 512, 0x4, 1,
    [⟨0, 8, .rw, false, 0x18, []⟩,
     ⟨8, 8, .rw, false, 0x18, []⟩,
     ⟨16, 8, .rw, false, 0x18, []⟩,
     ⟨24, 8, .rw, false, 0x18, []⟩]⟩,
  /- TM.PSHAPER_RATE -/ ⟨0x51000C, 0x20, 512, 0x4, 1,
    [⟨0, 32, .rw, false, 0, []⟩]⟩,
  /- TM.PSHAPER_BURST -/ ⟨0x510010, 0x20, 512, 0x4, 1,
    [⟨0, 24, .rw, false, 0x3e80, []⟩]⟩
]

/-- Registers of the TM block, part 2. -/
def regsTM1 : List RegDesc := [
/- TM.PSHAPER_TOKENS -/ ⟨0x510014, 0x20, 512, 0x4, 1,
    [⟨0, 32, .ro, false, 0, []⟩]⟩,
  /- TM.PORT_STATUS -/ ⟨0x510018, 0x20, 512, 0x4, 1,
    [⟨0, 8, .ro, false, 0, []⟩,
     ⟨8, 1, .ro, false, 0, []⟩,
     ⟨9, 1, .ro, false, 0, []⟩,
     ⟨10, 1, .ro, false, 0, []⟩]⟩,
  /- TM.Q_CFG -/ ⟨0x520000, 0x10, 4176, 0x4, 1,
    [⟨0, 2, .rw, false, 0, []⟩,
     ⟨2, 8, .rw, false, 1, [(1, 255)]⟩,
     ⟨10, 8, .rw, false, 0x18, []⟩,
     ⟨18, 1, .rw, false, 0, []⟩,
     ⟨19, 4, .rw, false, 0, []⟩]⟩,
  /- TM.Q_RATE -/ ⟨0x520004, 0x10, 4176, 0x4, 1,
    [⟨0, 32, .rw, false, 0, []⟩]⟩,
  /- TM.Q_BURST -/ ⟨0x520008, 0x10, 4176, 0x4, 1,
    [⟨0, 24, .rw, false, 0x3e80, []⟩]⟩,
  /- TM.Q_TOKENS -/ ⟨0x52000C, 0x10, 4176, 0x4, 1,
    [⟨0, 32, .ro, false, 0, []⟩]⟩
]

/-- Registers of the KEY block, part 1. -/
def regsKEY0 : List RegDesc := [
/- KEY.CTRL -/ ⟨0x60000, 0x4, 1, 0x4, 1,
    [⟨0, 1, .rw, true, 1, []⟩,
     ⟨1, 3, .rw, true, 3, [(1, 7)]⟩]⟩,
  /- KEY.COMMAND -/ ⟨0x60004, 0x4, 1, 0x4, 1,
    [⟨0, 1, .key, false, 0, []⟩,
     ⟨1, 1, .key, false, 0, []⟩]⟩,
  /- KEY.STATUS -/ ⟨0x60008, 0x4, 1, 0x4, 1,
    [⟨0, 1, .ro, false, 0, []⟩,
     ⟨1, 3, .ro, false, 1, []⟩,
     ⟨4, 3, .ro, false, 1, []⟩,
     ⟨7, 1, .ro, false, 0, []⟩,
     ⟨8, 1, .ro, false, 0, []⟩,
     ⟨9, 1, .ro, false, 0, []⟩,
     ⟨16, 3, .ro, false, 4, []⟩]⟩,
  /- KEY.EVENT -/ ⟨0x6000C, 0x4, 1, 0x4, 1,
    [⟨0, 1, .sqc, false, 0, []⟩,
     ⟨1, 1, .sqc, false, 0, []⟩,
     ⟨2, 1, .sqc, false, 0, []⟩,
     ⟨3, 1, .sqc, false, 0, []⟩,
     ⟨4, 1, .sqc, false, 0, []⟩,
     ⟨5, 1, .sqc, false, 0, []⟩,
     ⟨6, 1, .sqc, false, 0, []⟩,
     ⟨7, 1, .sqc, false, 0, []⟩,
     ⟨24, 8, .sqc, false, 0, []⟩]⟩,
  /- KEY.FAULT_INFO -/ ⟨0x60010, 0x4, 1, 0x4, 1,
    [⟨0, 4, .ro, false, 0, []⟩,
     ⟨4, 1, .ro, false, 0, []⟩,
     ⟨8, 4, .ro, false, 0, []⟩,
     ⟨12, 1, .ro, false, 0, []⟩]⟩,
  /- KEY.SWITCH_SEC_LO -/ ⟨0x60014, 0x4, 1, 0x4, 1,
    [⟨0, 32, .ro, false, 0, []⟩]⟩,
  /- KEY.SWITCH_SEC_HI -/ ⟨0x60018, 0x4, 1, 0x4, 1,
    [⟨0, 16, .ro, false, 0, []⟩]⟩,
  /- KEY.SWITCH_NS -/ ⟨0x6001C, 0x4, 1, 0x4, 1,
    [⟨0, 32, .ro, false, 0, []⟩]⟩,
  /- KEY.COPY_STATUS -/ ⟨0x60020, 0x4, 1, 0x4, 1,
    [⟨0, 21, .ro, false, 0, []⟩]⟩,
  /- KEY.LOG_STATUS -/ ⟨0x60024, 0x4, 1, 0x4, 1,
    [⟨0, 11, .ro, false, 0, []⟩,
     ⟨16, 11, .ro, false, 0, []⟩]⟩,
  /- KEY.MORTAR_STATUS -/ ⟨0x60028, 0x4, 1, 0x4, 1,
    [⟨0, 4, .ro, false, 0, []⟩,
     ⟨4, 1, .ro, false, 0, []⟩]⟩
]

/-- Registers of the SAF block, part 1. -/
def regsSAF0 : List RegDesc := [
/- SAF.CTRL -/ ⟨0xB0000, 0x4, 1, 0x4, 1,
    [⟨0, 1, .key, true, 0, []⟩,
     ⟨1, 1, .rw, true, 0, []⟩,
     ⟨2, 1, .key, true, 1, []⟩]⟩,
  /- SAF.STATUS -/ ⟨0xB0004, 0x4, 1, 0x4, 1,
    [⟨0, 2, .ro, false, 0, []⟩,
     ⟨2, 1, .ro, false, 1, []⟩,
     ⟨3, 1, .ro, false, 1, []⟩,
     ⟨4, 1, .ro, false, 1, []⟩,
     ⟨5, 1, .ro, false, 0, []⟩,
     ⟨6, 9, .ro, false, 0, []⟩]⟩,
  /- SAF.EVENT -/ ⟨0xB0008, 0x4, 1, 0x4, 1,
    [⟨0, 1, .sqc, false, 0, []⟩,
     ⟨1, 1, .sqc, false, 0, []⟩,
     ⟨2, 1, .sqc, false, 0, []⟩,
     ⟨3, 1, .sqc, false, 0, []⟩,
     ⟨4, 1, .sqc, false, 0, []⟩,
     ⟨5, 1, .sqc, false, 0, []⟩,
     ⟨6, 1, .sqc, false, 0, []⟩,
     ⟨7, 1, .sqc, false, 0, []⟩,
     ⟨24, 8, .sqc, false, 0, []⟩]⟩,
  /- SAF.FAULT_INFO -/ ⟨0xB000C, 0x4, 1, 0x4, 1,
    [⟨0, 8, .ro, false, 0, []⟩,
     ⟨8, 3, .ro, false, 0, []⟩,
     ⟨11, 16, .ro, false, 0, []⟩]⟩,
  /- SAF.FAULT_SEC_LO -/ ⟨0xB0010, 0x4, 1, 0x4, 1,
    [⟨0, 32, .ro, false, 0, []⟩]⟩,
  /- SAF.FAULT_SEC_HI -/ ⟨0xB0014, 0x4, 1, 0x4, 1,
    [⟨0, 16, .ro, false, 0, []⟩]⟩,
  /- SAF.FAULT_NS -/ ⟨0xB0018, 0x4, 1, 0x4, 1,
    [⟨0, 32, .ro, false, 0, []⟩]⟩,
  /- SAF.SAFETY_QMAP -/ ⟨0xB0020, 0x4, 1, 0x4, 1,
    [⟨0, 8, .key, true, 0, []⟩]⟩,
  /- SAF.SAFETY_CPUQ_LO -/ ⟨0xB0024, 0x4, 1, 0x4, 1,
    [⟨0, 32, .key, true, 0, []⟩]⟩,
  /- SAF.SAFETY_CPUQ_HI -/ ⟨0xB0028, 0x4, 1, 0x4, 1,
    [⟨0, 32, .key, true, 0, []⟩]⟩,
  /- SAF.ALARM_TEST -/ ⟨0xB002C, 0x4, 1, 0x4, 1,
    [⟨0, 1, .key, false, 0, []⟩,
     ⟨1, 1, .key, false, 0, []⟩]⟩,
  /- SAF.TIME_ALARM -/ ⟨0xB0030, 0x4, 1, 0x4, 1,
    [⟨0, 32, .rw, true, 0x3e8, []⟩]⟩
]

/-- Registers of the SAF block, part 2. -/
def regsSAF1 : List RegDesc := [
/- SAF.TEMP -/ ⟨0xB0034, 0x4, 1, 0x4, 1,
    [⟨0, 16, .ro, false, 0, []⟩]⟩
]

/-- Registers of the HIF block, part 1. -/
def regsHIF0 : List RegDesc := [
/- HIF.STATUS -/ ⟨0x10004, 0x4, 1, 0x4, 1,
    [⟨0, 3, .ro, false, 0, []⟩,
     ⟨3, 4, .ro, false, 0, []⟩,
     ⟨7, 1, .ro, false, 0, []⟩,
     ⟨8, 4, .ro, false, 0, []⟩,
     ⟨12, 1, .ro, false, 0, []⟩]⟩,
  /- HIF.EVENT -/ ⟨0x10008, 0x4, 1, 0x4, 1,
    [⟨0, 1, .sqc, false, 0, []⟩,
     ⟨1, 1, .sqc, false, 0, []⟩,
     ⟨2, 1, .sqc, false, 0, []⟩,
     ⟨3, 1, .sqc, false, 0, []⟩,
     ⟨4, 1, .sqc, false, 0, []⟩,
     ⟨5, 1, .sqc, false, 0, []⟩,
     ⟨24, 8, .sqc, false, 0, []⟩]⟩,
  /- HIF.RING_FAULT_INFO -/ ⟨0x1000C, 0x4, 1, 0x4, 1,
    [⟨0, 9, .ro, false, 0, []⟩,
     ⟨9, 2, .ro, false, 0, []⟩]⟩,
  /- HIF.EPOCH -/ ⟨0x10010, 0x4, 1, 0x4, 1,
    [⟨0, 32, .ro, false, 0, []⟩]⟩,
  /- HIF.LOG_FIRST_LO -/ ⟨0x10014, 0x4, 1, 0x4, 1,
    [⟨0, 32, .ro, false, 0, []⟩]⟩,
  /- HIF.LOG_FIRST_HI -/ ⟨0x10018, 0x4, 1, 0x4, 1,
    [⟨0, 16, .ro, false, 0, []⟩]⟩,
  /- HIF.LOG_LAST_LO -/ ⟨0x1001C, 0x4, 1, 0x4, 1,
    [⟨0, 32, .ro, false, 0, []⟩]⟩,
  /- HIF.LOG_LAST_HI -/ ⟨0x10020, 0x4, 1, 0x4, 1,
    [⟨0, 16, .ro, false, 0, []⟩]⟩,
  /- HIF.EVENT_MASK -/ ⟨0x10024, 0x4, 1, 0x4, 1,
    [⟨0, 16, .rw, false, 0xffff, []⟩]⟩,
  /- HIF.FN_VERSION -/ ⟨0x10040, 0x4, 16, 0x4, 1,
    [⟨0, 16, .ro, false, 0, []⟩,
     ⟨16, 1, .ro, false, 0, []⟩]⟩,
  /- HIF.CPUQ_MAP -/ ⟨0x10100, 0x4, 64, 0x4, 1,
    [⟨0, 6, .rw, false, 0, []⟩,
     ⟨6, 1, .rw, false, 0, []⟩]⟩,
  /- HIF.RING_BASE_LO -/ ⟨0x11000, 0x20, 258, 0x4, 1,
    [⟨0, 32, .rw, false, 0, []⟩]⟩
]

/-- Registers of the HIF block, part 2. -/
def regsHIF1 : List RegDesc := [
/- HIF.RING_BASE_HI -/ ⟨0x11004, 0x20, 258, 0x4, 1,
    [⟨0, 32, .rw, false, 0, []⟩]⟩,
  /- HIF.RING_CFG -/ ⟨0x11008, 0x20, 258, 0x4, 1,
    [⟨0, 5, .rw, false, 4, [(4, 16)]⟩,
     ⟨5, 1, .rw, false, 0, []⟩,
     ⟨6, 4, .rw, false, 0, []⟩,
     ⟨10, 1, .rw, false, 0, []⟩,
     ⟨11, 1, .rw, false, 0, []⟩,
     ⟨12, 1, .rw, false, 0, []⟩,
     ⟨13, 6, .rw, false, 0, []⟩,
     ⟨19, 6, .rw, false, 0, []⟩]⟩,
  /- HIF.RING_CFG2 -/ ⟨0x1100C, 0x20, 258, 0x4, 1,
    [⟨0, 9, .rw, false, 0x20, [(4, 256)]⟩,
     ⟨12, 12, .rw, false, 0, []⟩,
     ⟨24, 8, .rw, false, 1, []⟩]⟩,
  /- HIF.RING_HEAD -/ ⟨0x11010, 0x20, 258, 0x4, 1,
    [⟨0, 17, .ro, false, 0, []⟩]⟩,
  /- HIF.RING_TAIL -/ ⟨0x11014, 0x20, 258, 0x4, 1,
    [⟨0, 17, .ro, false, 0, []⟩]⟩,
  /- HIF.RING_STATUS -/ ⟨0x11018, 0x20, 258, 0x4, 1,
    [⟨0, 2, .ro, false, 0, []⟩,
     ⟨2, 2, .ro, false, 0, []⟩]⟩,
  /- HIF.RING_POLL -/ ⟨0x1101C, 0x20, 258, 0x4, 1,
    [⟨0, 16, .rw, false, 0xa, [(1, 65535)]⟩]⟩
]

/-- Registers of the DMA block, part 1. -/
def regsDMA0 : List RegDesc := [
/- DMA.STATUS -/ ⟨0x30000, 0x4, 1, 0x4, 1,
    [⟨0, 5, .ro, false, 0, []⟩,
     ⟨5, 1, .ro, false, 0, []⟩,
     ⟨6, 1, .ro, false, 0, []⟩]⟩,
  /- DMA.EVENT -/ ⟨0x30004, 0x4, 1, 0x4, 1,
    [⟨0, 1, .sqc, false, 0, []⟩,
     ⟨1, 1, .sqc, false, 0, []⟩,
     ⟨2, 1, .sqc, false, 0, []⟩,
     ⟨3, 1, .sqc, false, 0, []⟩,
     ⟨4, 1, .sqc, false, 0, []⟩,
     ⟨5, 1, .sqc, false, 0, []⟩,
     ⟨24, 8, .sqc, false, 0, []⟩]⟩,
  /- DMA.HALT_INFO -/ ⟨0x30008, 0x4, 1, 0x4, 1,
    [⟨0, 5, .ro, false, 0, []⟩,
     ⟨5, 4, .ro, false, 0, []⟩]⟩,
  /- DMA.LEAVE_THRESHOLD -/ ⟨0x3000C, 0x4, 1, 0x4, 1,
    [⟨0, 32, .rw, false, 0x4000000, [(64, 4294967232)]⟩]⟩,
  /- DMA.LEAVE_COST -/ ⟨0x30010, 0x4, 1, 0x4, 1,
    [⟨0, 16, .rw, false, 0x50, []⟩]⟩,
  /- DMA.CH_BASE_LO -/ ⟨0x31000, 0x20, 32, 0x4, 1,
    [⟨0, 32, .rw, false, 0, []⟩]⟩,
  /- DMA.CH_BASE_HI -/ ⟨0x31004, 0x20, 32, 0x4, 1,
    [⟨0, 32, .rw, false, 0, []⟩]⟩,
  /- DMA.CH_CFG -/ ⟨0x31008, 0x20, 32, 0x4, 1,
    [⟨0, 5, .rw, false, 4, [(4, 16)]⟩,
     ⟨5, 1, .rw, false, 0, []⟩,
     ⟨6, 4, .rw, false, 0, []⟩,
     ⟨10, 2, .rw, false, 0, []⟩,
     ⟨12, 6, .rw, false, 0, []⟩]⟩,
  /- DMA.CH_CTRL -/ ⟨0x3100C, 0x20, 32, 0x4, 1,
    [⟨0, 1, .wo, false, 0, []⟩]⟩,
  /- DMA.CH_HEAD -/ ⟨0x31010, 0x20, 32, 0x4, 1,
    [⟨0, 17, .ro, false, 0, []⟩]⟩,
  /- DMA.CH_TAIL -/ ⟨0x31014, 0x20, 32, 0x4, 1,
    [⟨0, 17, .ro, false, 0, []⟩]⟩,
  /- DMA.CH_STATUS -/ ⟨0x31018, 0x20, 32, 0x4, 1,
    [⟨0, 3, .ro, false, 0, []⟩,
     ⟨3, 4, .ro, false, 0, []⟩]⟩
]

/-- Registers of the SYS block, part 1. -/
def regsSYS0 : List RegDesc := [
/- SYS.ID -/ ⟨0x0, 0x4, 1, 0x4, 1,
    [⟨0, 16, .ro, false, 0x5128, []⟩,
     ⟨16, 2, .ro, false, 0, []⟩,
     ⟨24, 4, .ro, false, 0, []⟩]⟩,
  /- SYS.SERIAL_LO -/ ⟨0x4, 0x4, 1, 0x4, 1,
    [⟨0, 32, .ro, false, 0, []⟩]⟩,
  /- SYS.SERIAL_HI -/ ⟨0x8, 0x4, 1, 0x4, 1,
    [⟨0, 32, .ro, false, 0, []⟩]⟩,
  /- SYS.UNLOCK -/ ⟨0x10, 0x4, 1, 0x4, 1,
    [⟨0, 16, .wo, false, 0, []⟩]⟩,
  /- SYS.ARMED -/ ⟨0x14, 0x4, 1, 0x4, 1,
    [⟨0, 32, .ro, false, 0, []⟩]⟩,
  /- SYS.STATUS -/ ⟨0x18, 0x4, 1, 0x4, 1,
    [⟨0, 3, .ro, false, 0, []⟩]⟩,
  /- SYS.EVENT -/ ⟨0x1C, 0x4, 1, 0x4, 1,
    [⟨0, 1, .sqc, false, 0, []⟩,
     ⟨1, 1, .sqc, false, 0, []⟩,
     ⟨24, 8, .sqc, false, 0, []⟩]⟩,
  /- SYS.KEY_ERR -/ ⟨0x20, 0x4, 1, 0x4, 1,
    [⟨0, 25, .ro, false, 0, []⟩,
     ⟨25, 5, .ro, false, 0, []⟩]⟩,
  /- SYS.TMR_ERR -/ ⟨0x24, 0x4, 1, 0x4, 1,
    [⟨0, 25, .ro, false, 0, []⟩,
     ⟨25, 1, .ro, false, 0, []⟩]⟩,
  /- SYS.TMR_ERR_BITS -/ ⟨0x28, 0x4, 1, 0x4, 1,
    [⟨0, 32, .ro, false, 0, []⟩]⟩,
  /- SYS.SCRATCH -/ ⟨0x30, 0x4, 1, 0x4, 1,
    [⟨0, 32, .rw, false, 0, []⟩]⟩
]

/-- Registers of the ACC block, part 1. -/
def regsACC0 : List RegDesc := [
/- ACC.EVENT -/ ⟨0xC0000, 0x4, 1, 0x4, 1,
    [⟨0, 1, .sqc, false, 0, []⟩,
     ⟨1, 1, .sqc, false, 0, []⟩,
     ⟨2, 1, .sqc, false, 0, []⟩,
     ⟨3, 1, .sqc, false, 0, []⟩,
     ⟨24, 8, .sqc, false, 0, []⟩]⟩,
  /- ACC.VIOL_ADDR -/ ⟨0xC0004, 0x4, 1, 0x4, 1,
    [⟨0, 25, .ro, false, 0, []⟩]⟩,
  /- ACC.VIOL_INFO -/ ⟨0xC0008, 0x4, 1, 0x4, 1,
    [⟨0, 5, .ro, false, 0, []⟩,
     ⟨5, 2, .ro, false, 0, []⟩,
     ⟨8, 8, .ro, false, 0, []⟩,
     ⟨16, 16, .ro, false, 0, []⟩]⟩,
  /- ACC.TABLE -/ ⟨0xC1000, 0x80, 152, 0x4, 32,
    [⟨0, 2, .key, false, 0, [(0, 2)]⟩,
     ⟨2, 2, .key, false, 0, [(0, 2)]⟩,
     ⟨4, 2, .key, false, 0, [(0, 2)]⟩,
     ⟨6, 2, .key, false, 0, [(0, 2)]⟩,
     ⟨8, 2, .key, false, 0, [(0, 2)]⟩,
     ⟨10, 2, .key, false, 0, [(0, 2)]⟩,
     ⟨12, 2, .key, false, 0, [(0, 2)]⟩,
     ⟨14, 2, .key, false, 0, [(0, 2)]⟩,
     ⟨16, 2, .key, false, 0, [(0, 2)]⟩,
     ⟨18, 2, .key, false, 0, [(0, 2)]⟩,
     ⟨20, 2, .key, false, 0, [(0, 2)]⟩,
     ⟨22, 2, .key, false, 0, [(0, 2)]⟩,
     ⟨24, 2, .key, false, 0, [(0, 2)]⟩,
     ⟨26, 2, .key, false, 0, [(0, 2)]⟩,
     ⟨28, 2, .key, false, 0, [(0, 2)]⟩,
     ⟨30, 2, .key, false, 0, [(0, 2)]⟩]⟩
]

/-- Registers of the CNT block, part 1. -/
def regsCNT0 : List RegDesc := [
/- CNT.CTRL -/ ⟨0x90000, 0x4, 1, 0x4, 1,
    [⟨0, 2, .rw, false, 0, [(0, 2)]⟩]⟩,
  /- CNT.DUMP_EVERY_N -/ ⟨0x90004, 0x4, 1, 0x4, 1,
    [⟨0, 16, .rw, false, 1, [(1, 65535)]⟩]⟩,
  /- CNT.DUMP_INTERVAL -/ ⟨0x90008, 0x4, 1, 0x4, 1,
    [⟨0, 24, .rw, false, 0x3e8, [(100, 10000000)]⟩]⟩,
  /- CNT.DUMP_MASK -/ ⟨0x9000C, 0x4, 1, 0x4, 1,
    [⟨0, 29, .rw, false, 0x1fffffff, []⟩]⟩,
  /- CNT.DUMP_STATUS -/ ⟨0x90010, 0x4, 1, 0x4, 1,
    [⟨0, 16, .ro, false, 0, []⟩,
     ⟨16, 1, .ro, false, 0, []⟩,
     ⟨17, 1, .ro, false, 0, []⟩]⟩,
  /- CNT.EVENT -/ ⟨0x90014, 0x4, 1, 0x4, 1,
    [⟨0, 1, .sqc, false, 0, []⟩,
     ⟨1, 1, .sqc, false, 0, []⟩,
     ⟨2, 1, .sqc, false, 0, []⟩,
     ⟨3, 1, .sqc, false, 0, []⟩,
     ⟨24, 8, .sqc, false, 0, []⟩]⟩,
  /- CNT.LAST_SEQ -/ ⟨0x90018, 0x4, 1, 0x4, 1,
    [⟨0, 32, .ro, false, 0, []⟩]⟩,
  /- CNT.RD_ADDR -/ ⟨0x9001C, 0x4, 1, 0x4, 1,
    [⟨0, 6, .rw, false, 0, []⟩,
     ⟨6, 14, .rw, false, 0, []⟩,
     ⟨20, 5, .rw, false, 0, []⟩]⟩,
  /- CNT.RD_VAL_LO -/ ⟨0x90020, 0x4, 1, 0x4, 1,
    [⟨0, 32, .ro, false, 0, []⟩]⟩,
  /- CNT.RD_VAL_HI -/ ⟨0x90024, 0x4, 1, 0x4, 1,
    [⟨0, 32, .ro, false, 0, []⟩]⟩,
  /- CNT.RD_STATUS -/ ⟨0x90028, 0x4, 1, 0x4, 1,
    [⟨0, 1, .ro, false, 0, []⟩,
     ⟨1, 1, .ro, false, 0, []⟩]⟩,
  /- CNT.PC_OVF -/ ⟨0x90100, 0x4, 64, 0x4, 1,
    [⟨0, 32, .ro, false, 0, []⟩]⟩
]

/-- Registers of the CNT block, part 2. -/
def regsCNT1 : List RegDesc := [
/- CNT.PC_CFG -/ ⟨0x94000, 0x8, 2048, 0x4, 1,
    [⟨0, 1, .rw, false, 0, []⟩,
     ⟨1, 1, .rw, false, 0, []⟩,
     ⟨2, 1, .rw, false, 0, []⟩,
     ⟨3, 5, .rw, false, 0, []⟩,
     ⟨9, 23, .rw, false, 0, []⟩]⟩,
  /- CNT.PC_VAL -/ ⟨0x94004, 0x8, 2048, 0x4, 1,
    [⟨0, 32, .rw, false, 0, []⟩]⟩
]

/-- Registers of the PWR block, part 1. -/
def regsPWR0 : List RegDesc := [
/- PWR.CTRL -/ ⟨0x40000, 0x4, 1, 0x4, 1,
    [⟨0, 16, .rw, true, 0x64, [(1, 65535)]⟩,
     ⟨16, 1, .rw, true, 0, []⟩]⟩,
  /- PWR.STATUS -/ ⟨0x40004, 0x4, 1, 0x4, 1,
    [⟨0, 1, .ro, false, 0, []⟩,
     ⟨1, 1, .ro, false, 0, []⟩,
     ⟨2, 5, .ro, false, 0, []⟩,
     ⟨7, 4, .ro, false, 0, []⟩]⟩,
  /- PWR.EVENT -/ ⟨0x40008, 0x4, 1, 0x4, 1,
    [⟨0, 1, .sqc, false, 0, []⟩,
     ⟨1, 1, .sqc, false, 0, []⟩,
     ⟨2, 1, .sqc, false, 0, []⟩,
     ⟨3, 1, .sqc, false, 0, []⟩,
     ⟨24, 8, .sqc, false, 0, []⟩]⟩,
  /- PWR.BUDGET -/ ⟨0x4000C, 0x4, 1, 0x4, 1,
    [⟨0, 16, .ro, false, 0x1db0, []⟩]⟩,
  /- PWR.LEDGER -/ ⟨0x40010, 0x4, 1, 0x4, 1,
    [⟨0, 16, .ro, false, 0, []⟩,
     ⟨16, 16, .ro, false, 0, []⟩]⟩,
  /- PWR.DOMAIN_ON_LO -/ ⟨0x40014, 0x4, 1, 0x4, 1,
    [⟨0, 32, .ro, false, 1, []⟩]⟩,
  /- PWR.DOMAIN_ON_HI -/ ⟨0x40018, 0x4, 1, 0x4, 1,
    [⟨0, 6, .ro, false, 0, []⟩]⟩,
  /- PWR.REQ_INFO -/ ⟨0x4001C, 0x4, 1, 0x4, 1,
    [⟨0, 3, .ro, false, 0, []⟩,
     ⟨3, 6, .ro, false, 0, []⟩,
     ⟨9, 16, .ro, false, 0, []⟩,
     ⟨25, 4, .ro, false, 0, []⟩]⟩,
  /- PWR.OFF_ADDR -/ ⟨0x40020, 0x4, 1, 0x4, 1,
    [⟨0, 25, .ro, false, 0, []⟩,
     ⟨25, 5, .ro, false, 0, []⟩]⟩,
  /- PWR.RESET_CAUSE -/ ⟨0x40024, 0x4, 1, 0x4, 1,
    [⟨0, 2, .ro, false, 0, []⟩]⟩,
  /- PWR.SW_RESET -/ ⟨0x40028, 0x4, 1, 0x4, 1,
    [⟨0, 1, .key, false, 0, []⟩]⟩,
  /- PWR.CHARGE -/ ⟨0x40100, 0x4, 38, 0x4, 1,
    [⟨0, 16, .ro, false, 0, []⟩]⟩
]

/-- Registers of the SEC block, part 1. -/
def regsSEC0 : List RegDesc := [
/- SEC.STATUS -/ ⟨0x50000, 0x4, 1, 0x4, 1,
    [⟨0, 1, .ro, false, 0, []⟩,
     ⟨1, 1, .ro, false, 0, []⟩,
     ⟨2, 1, .ro, false, 0, []⟩,
     ⟨3, 1, .ro, false, 0, []⟩,
     ⟨4, 1, .ro, false, 0, []⟩,
     ⟨5, 1, .ro, false, 0, []⟩,
     ⟨6, 1, .ro, false, 0, []⟩,
     ⟨7, 7, .ro, false, 0x40, []⟩,
     ⟨14, 5, .ro, false, 0, []⟩]⟩,
  /- SEC.EVENT -/ ⟨0x50004, 0x4, 1, 0x4, 1,
    [⟨0, 1, .sqc, false, 0, []⟩,
     ⟨1, 1, .sqc, false, 0, []⟩,
     ⟨2, 1, .sqc, false, 0, []⟩,
     ⟨3, 1, .sqc, false, 0, []⟩,
     ⟨4, 1, .sqc, false, 0, []⟩,
     ⟨5, 1, .sqc, false, 0, []⟩,
     ⟨6, 1, .sqc, false, 0, []⟩,
     ⟨24, 8, .sqc, false, 0, []⟩]⟩,
  /- SEC.VERIFY_INFO -/ ⟨0x50008, 0x4, 1, 0x4, 1,
    [⟨0, 3, .ro, false, 0, []⟩,
     ⟨3, 4, .ro, false, 0, []⟩,
     ⟨8, 4, .ro, false, 0, []⟩]⟩,
  /- SEC.FW_INFO -/ ⟨0x5000C, 0x4, 1, 0x4, 1,
    [⟨0, 1, .ro, false, 0, []⟩]⟩,
  /- SEC.FW_VERSION -/ ⟨0x50010, 0x4, 1, 0x4, 1,
    [⟨0, 32, .ro, false, 0, []⟩]⟩,
  /- SEC.HSS_INDEX -/ ⟨0x50014, 0x4, 1, 0x4, 1,
    [⟨0, 31, .ro, false, 0, []⟩]⟩,
  /- SEC.RANDOM -/ ⟨0x50020, 0x4, 1, 0x4, 1,
    [⟨0, 32, .ro, false, 0, []⟩]⟩,
  /- SEC.CERT_SEL -/ ⟨0x50024, 0x4, 1, 0x4, 1,
    [⟨0, 2, .rw, false, 0, [(0, 2)]⟩]⟩,
  /- SEC.CERT_LEN -/ ⟨0x50028, 0x4, 1, 0x4, 1,
    [⟨0, 14, .ro, false, 0, []⟩]⟩,
  /- SEC.ROLLBACK -/ ⟨0x50040, 0x4, 16, 0x4, 1,
    [⟨0, 32, .ro, false, 0, []⟩]⟩,
  /- SEC.CERT_DATA -/ ⟨0x51000, 0x4, 2048, 0x4, 1,
    [⟨0, 32, .ro, false, 0, []⟩]⟩
]

/-- Registers of the PLB block, part 1. -/
def regsPLB0 : List RegDesc := [
/- PLB.CTRL -/ ⟨0xA0000, 0x4, 1, 0x4, 1,
    [⟨0, 1, .rw, true, 1, []⟩]⟩,
  /- PLB.STATUS -/ ⟨0xA0004, 0x4, 1, 0x4, 1,
    [⟨0, 2, .ro, false, 0, []⟩,
     ⟨2, 3, .ro, false, 0, []⟩,
     ⟨5, 1, .ro, false, 0, []⟩,
     ⟨6, 1, .ro, false, 0, []⟩,
     ⟨7, 1, .ro, false, 0, []⟩,
     ⟨8, 5, .ro, false, 0, []⟩]⟩,
  /- PLB.EVENT -/ ⟨0xA0008, 0x4, 1, 0x4, 1,
    [⟨0, 1, .sqc, false, 0, []⟩,
     ⟨1, 1, .sqc, false, 0, []⟩,
     ⟨2, 1, .sqc, false, 0, []⟩,
     ⟨3, 1, .sqc, false, 0, []⟩,
     ⟨4, 1, .sqc, false, 0, []⟩,
     ⟨24, 8, .sqc, false, 0, []⟩]⟩,
  /- PLB.NETS -/ ⟨0xA000C, 0x4, 1, 0x4, 1,
    [⟨0, 16, .ro, false, 0, []⟩,
     ⟨16, 16, .ro, false, 0, []⟩]⟩,
  /- PLB.RESULT -/ ⟨0xA0010, 0x4, 1, 0x4, 1,
    [⟨0, 10, .ro, false, 0, []⟩,
     ⟨16, 16, .ro, false, 0, []⟩]⟩,
  /- PLB.STEPS -/ ⟨0xA0014, 0x4, 1, 0x4, 1,
    [⟨0, 6, .ro, false, 0, []⟩,
     ⟨8, 6, .ro, false, 0, []⟩]⟩,
  /- PLB.DURATION -/ ⟨0xA0018, 0x4, 1, 0x4, 1,
    [⟨0, 24, .ro, false, 0, []⟩]⟩,
  /- PLB.GROUP_RESULT -/ ⟨0xA001C, 0x4, 1, 0x4, 1,
    [⟨0, 10, .ro, false, 0, []⟩,
     ⟨10, 1, .ro, false, 0, []⟩]⟩,
  /- PLB.FAIL -/ ⟨0xA0100, 0x4, 64, 0x4, 1,
    [⟨0, 3, .ro, false, 0, []⟩,
     ⟨3, 2, .ro, false, 0, []⟩,
     ⟨5, 11, .ro, false, 0, []⟩,
     ⟨16, 12, .ro, false, 0, []⟩,
     ⟨28, 3, .ro, false, 0, []⟩]⟩
]

/-- Every register of the device but the doorbells (R361). -/
def regMap : List RegDesc :=
  regsPORT0 ++ regsPORT1 ++ regsTRN0 ++ regsTRN1 ++ regsTRN2 ++ regsTRN3 ++ regsEPH0 ++ regsEPH1 ++ regsPIPE0 ++ regsPIPE1 ++ regsPIPE2 ++ regsBUF0 ++ regsBUF1 ++ regsBUF2 ++ regsTM0 ++ regsTM1 ++ regsKEY0 ++ regsSAF0 ++ regsSAF1 ++ regsHIF0 ++ regsHIF1 ++ regsDMA0 ++ regsSYS0 ++ regsACC0 ++ regsCNT0 ++ regsCNT1 ++ regsPWR0 ++ regsSEC0 ++ regsPLB0

namespace Addr

/-- PORT.MODE (R48). -/ def PORT_MODE (m : Nat) : Nat := 0x1000000 + 0x10000 * m
/-- PORT.APPLY (R48). -/ def PORT_APPLY (m : Nat) : Nat := 0x1000004 + 0x10000 * m
/-- PORT.APPLY_STATUS (R48). -/ def PORT_APPLY_STATUS (m : Nat) : Nat := 0x1000008 + 0x10000 * m
/-- PORT.LANE_CFG (R48). -/ def PORT_LANE_CFG (m l : Nat) : Nat := 0x1000010 + 0x10000 * m + 0x4 * l
/-- PORT.SUB_CFG (R48). -/ def PORT_SUB_CFG (m s : Nat) : Nat := 0x1000020 + 0x10000 * m + 0x4 * s
/-- PORT.LINK_STATUS (R48). -/ def PORT_LINK_STATUS (m s : Nat) : Nat := 0x1000030 + 0x10000 * m + 0x4 * s
/-- PORT.EVENT (R48). -/ def PORT_EVENT (m : Nat) : Nat := 0x1000040 + 0x10000 * m
/-- PORT.MAC_CFG (R68). -/ def PORT_MAC_CFG (m s : Nat) : Nat := 0x1000100 + 0x10000 * m + 0x40 * s
/-- PORT.MAC_ADDR_LO (R68). -/ def PORT_MAC_ADDR_LO (m s : Nat) : Nat := 0x1000104 + 0x10000 * m + 0x40 * s
/-- PORT.MAC_ADDR_HI (R68). -/ def PORT_MAC_ADDR_HI (m s : Nat) : Nat := 0x1000108 + 0x10000 * m + 0x40 * s
/-- PORT.FC_GEN (R68). -/ def PORT_FC_GEN (m s : Nat) : Nat := 0x100010C + 0x10000 * m + 0x40 * s
/-- PORT.PFC_RX_MAP_LO (R68). -/ def PORT_PFC_RX_MAP_LO (m s : Nat) : Nat := 0x1000110 + 0x10000 * m + 0x40 * s
/-- PORT.PFC_RX_MAP_HI (R68). -/ def PORT_PFC_RX_MAP_HI (m s : Nat) : Nat := 0x1000114 + 0x10000 * m + 0x40 * s
/-- PORT.PAUSE_WD (R68). -/ def PORT_PAUSE_WD (m s : Nat) : Nat := 0x1000118 + 0x10000 * m + 0x40 * s
/-- PORT.PREEMPT_CFG (R68). -/ def PORT_PREEMPT_CFG (m s : Nat) : Nat := 0x100011C + 0x10000 * m + 0x40 * s
/-- PORT.EEE_CFG (R68). -/ def PORT_EEE_CFG (m s : Nat) : Nat := 0x1000120 + 0x10000 * m + 0x40 * s
/-- PORT.MAC_STATUS (R68). -/ def PORT_MAC_STATUS (m s : Nat) : Nat := 0x1000124 + 0x10000 * m + 0x40 * s
/-- PORT.MAC_EVENT (R68). -/ def PORT_MAC_EVENT (m s : Nat) : Nat := 0x1000128 + 0x10000 * m + 0x40 * s
/-- PORT.WAKE_CFG (R68). -/ def PORT_WAKE_CFG (m : Nat) : Nat := 0x1000300 + 0x10000 * m
/-- PORT.WAKE_STATUS (R68). -/ def PORT_WAKE_STATUS (m : Nat) : Nat := 0x1000304 + 0x10000 * m
/-- TRN.CTRL (R92). -/ def TRN_CTRL : Nat := 0x70000
/-- TRN.STATUS (R92). -/ def TRN_STATUS : Nat := 0x70004
/-- TRN.EVENT (R92). -/ def TRN_EVENT : Nat := 0x70008
/-- TRN.RATE_BASE_LO (R92). -/ def TRN_RATE_BASE_LO : Nat := 0x70010
/-- TRN.RATE_BASE_HI (R92). -/ def TRN_RATE_BASE_HI : Nat := 0x70014
/-- TRN.RATE_NOW_LO (R92). -/ def TRN_RATE_NOW_LO : Nat := 0x70018
/-- TRN.RATE_NOW_HI (R92). -/ def TRN_RATE_NOW_HI : Nat := 0x7001C
/-- TRN.KP (R92). -/ def TRN_KP : Nat := 0x70020
/-- TRN.KI (R92). -/ def TRN_KI : Nat := 0x70024
/-- TRN.FREQ_LIMIT (R92). -/ def TRN_FREQ_LIMIT : Nat := 0x70028
/-- TRN.STEP_THRESHOLD (R92). -/ def TRN_STEP_THRESHOLD : Nat := 0x7002C
/-- TRN.LOCK_CFG (R92). -/ def TRN_LOCK_CFG : Nat := 0x70030
/-- TRN.HOLDOVER_TIMEOUT (R92). -/ def TRN_HOLDOVER_TIMEOUT : Nat := 0x70034
/-- TRN.OFFSET_LO (R92). -/ def TRN_OFFSET_LO : Nat := 0x70038
/-- TRN.OFFSET_HI (R92). -/ def TRN_OFFSET_HI : Nat := 0x7003C
/-- TRN.SERVO_I (R92). -/ def TRN_SERVO_I : Nat := 0x70040
/-- TRN.SERVO_I_INIT (R92). -/ def TRN_SERVO_I_INIT : Nat := 0x70044
/-- TRN.SERVO_F (R92). -/ def TRN_SERVO_F : Nat := 0x70048
/-- TRN.TIME_CAPTURE (R92). -/ def TRN_TIME_CAPTURE : Nat := 0x70050
/-- TRN.TIME_SEC_LO (R92). -/ def TRN_TIME_SEC_LO : Nat := 0x70054
/-- TRN.TIME_SEC_HI (R92). -/ def TRN_TIME_SEC_HI : Nat := 0x70058
/-- TRN.TIME_NS (R92). -/ def TRN_TIME_NS : Nat := 0x7005C
/-- TRN.TIME_FRAC (R92). -/ def TRN_TIME_FRAC : Nat := 0x70060
/-- TRN.SET_SEC_LO (R92). -/ def TRN_SET_SEC_LO : Nat := 0x70064
/-- TRN.SET_SEC_HI (R92). -/ def TRN_SET_SEC_HI : Nat := 0x70068
/-- TRN.SET_NS (R92). -/ def TRN_SET_NS : Nat := 0x7006C
/-- TRN.TIME_SET (R92). -/ def TRN_TIME_SET : Nat := 0x70070
/-- TRN.PPS_OUT_WIDTH (R92). -/ def TRN_PPS_OUT_WIDTH : Nat := 0x70080
/-- TRN.PPS_OUT_OFFSET (R92). -/ def TRN_PPS_OUT_OFFSET : Nat := 0x70084
/-- TRN.PPS_IN_OFFSET (R92). -/ def TRN_PPS_IN_OFFSET : Nat := 0x70088
/-- TRN.PPS_IN_SEC_LO (R92). -/ def TRN_PPS_IN_SEC_LO : Nat := 0x70090
/-- TRN.PPS_IN_SEC_HI (R92). -/ def TRN_PPS_IN_SEC_HI : Nat := 0x70094
/-- TRN.PPS_IN_NS (R92). -/ def TRN_PPS_IN_NS : Nat := 0x70098
/-- TRN.PPS_IN_FRAC (R92). -/ def TRN_PPS_IN_FRAC : Nat := 0x7009C
/-- TRN.FREQ_IN_MEAS (R92). -/ def TRN_FREQ_IN_MEAS : Nat := 0x700A0
/-- TRN.RECCLK_CFG (R92). -/ def TRN_RECCLK_CFG (c : Nat) : Nat := 0x700B0 + 0x4 * c
/-- TRN.PORT_CORR_A (R92). -/ def TRN_PORT_CORR_A (p : Nat) : Nat := 0x71000 + 0x8 * p
/-- TRN.PORT_CORR_B (R92). -/ def TRN_PORT_CORR_B (p : Nat) : Nat := 0x71004 + 0x8 * p
/-- EPH.CTRL (R123). -/ def EPH_CTRL : Nat := 0x80000
/-- EPH.STATUS (R123). -/ def EPH_STATUS : Nat := 0x80004
/-- EPH.EVENT (R123). -/ def EPH_EVENT : Nat := 0x80008
/-- EPH.ACTIVE_ID_LO (R123). -/ def EPH_ACTIVE_ID_LO : Nat := 0x80010
/-- EPH.ACTIVE_ID_HI (R123). -/ def EPH_ACTIVE_ID_HI : Nat := 0x80014
/-- EPH.SHADOW_ID_LO (R123). -/ def EPH_SHADOW_ID_LO : Nat := 0x80018
/-- EPH.SHADOW_ID_HI (R123). -/ def EPH_SHADOW_ID_HI : Nat := 0x8001C
/-- EPH.ACT_MARGIN (R123). -/ def EPH_ACT_MARGIN : Nat := 0x80020
/-- EPH.ACTIVATE (R123). -/ def EPH_ACTIVATE : Nat := 0x80024
/-- EPH.ACT_TIME_SEC_LO (R123). -/ def EPH_ACT_TIME_SEC_LO : Nat := 0x80028
/-- EPH.ACT_TIME_SEC_HI (R123). -/ def EPH_ACT_TIME_SEC_HI : Nat := 0x8002C
/-- EPH.ACT_TIME_NS (R123). -/ def EPH_ACT_TIME_NS : Nat := 0x80030
/-- EPH.ACT_STATUS (R123). -/ def EPH_ACT_STATUS : Nat := 0x80034
/-- EPH.ACT_EFF_SEC_LO (R123). -/ def EPH_ACT_EFF_SEC_LO : Nat := 0x80038
/-- EPH.ACT_EFF_SEC_HI (R123). -/ def EPH_ACT_EFF_SEC_HI : Nat := 0x8003C
/-- EPH.ACT_EFF_NS (R123). -/ def EPH_ACT_EFF_NS : Nat := 0x80040
/-- EPH.CYCLE_COUNT (R123). -/ def EPH_CYCLE_COUNT : Nat := 0x80044
/-- EPH.REF_MEAS (R123). -/ def EPH_REF_MEAS : Nat := 0x80048
/-- EPH.MISMATCH (R123). -/ def EPH_MISMATCH : Nat := 0x8004C
/-- EPH.LEN_AWARE (R123). -/ def EPH_LEN_AWARE (n : Nat) : Nat := 0x80100 + 0x4 * n
/-- PIPE.CTRL (R156). -/ def PIPE_CTRL (n : Nat) : Nat := 0x200000 + 0x20000 * n
/-- PIPE.STATUS (R156). -/ def PIPE_STATUS (n : Nat) : Nat := 0x200004 + 0x20000 * n
/-- PIPE.EVENT (R156). -/ def PIPE_EVENT (n : Nat) : Nat := 0x200008 + 0x20000 * n
/-- PIPE.ACTIVE_ID_LO (R156). -/ def PIPE_ACTIVE_ID_LO (n : Nat) : Nat := 0x200010 + 0x20000 * n
/-- PIPE.ACTIVE_ID_HI (R156). -/ def PIPE_ACTIVE_ID_HI (n : Nat) : Nat := 0x200014 + 0x20000 * n
/-- PIPE.SHADOW_ID_LO (R156). -/ def PIPE_SHADOW_ID_LO (n : Nat) : Nat := 0x200018 + 0x20000 * n
/-- PIPE.SHADOW_ID_HI (R156). -/ def PIPE_SHADOW_ID_HI (n : Nat) : Nat := 0x20001C + 0x20000 * n
/-- PIPE.RES_ERR (R156). -/ def PIPE_RES_ERR (n : Nat) : Nat := 0x200020 + 0x20000 * n
/-- PIPE.RES_ERR_REF (R156). -/ def PIPE_RES_ERR_REF (n : Nat) : Nat := 0x200024 + 0x20000 * n
/-- PIPE.PATCH_STATUS (R156). -/ def PIPE_PATCH_STATUS (n : Nat) : Nat := 0x200028 + 0x20000 * n
/-- PIPE.LRN_GLOBAL (R190). -/ def PIPE_LRN_GLOBAL (n : Nat) : Nat := 0x200100 + 0x20000 * n
/-- PIPE.FLAP_WINDOW (R190). -/ def PIPE_FLAP_WINDOW (n : Nat) : Nat := 0x200104 + 0x20000 * n
/-- PIPE.LRN_CTRL (R190). -/ def PIPE_LRN_CTRL (n : Nat) : Nat := 0x200108 + 0x20000 * n
/-- PIPE.LRN_SEED0 (R190). -/ def PIPE_LRN_SEED0 (n : Nat) : Nat := 0x20010C + 0x20000 * n
/-- PIPE.LRN_SEED1 (R190). -/ def PIPE_LRN_SEED1 (n : Nat) : Nat := 0x200110 + 0x20000 * n
/-- PIPE.LRN_STATUS (R190). -/ def PIPE_LRN_STATUS (n : Nat) : Nat := 0x200114 + 0x20000 * n
/-- PIPE.STATIC_COUNT (R190). -/ def PIPE_STATIC_COUNT (n : Nat) : Nat := 0x200118 + 0x20000 * n
/-- PIPE.LRN_EVENT (R190). -/ def PIPE_LRN_EVENT (n : Nat) : Nat := 0x20011C + 0x20000 * n
/-- PIPE.MOVE_MAC_LO (R190). -/ def PIPE_MOVE_MAC_LO (n : Nat) : Nat := 0x200120 + 0x20000 * n
/-- PIPE.MOVE_MAC_HI (R190). -/ def PIPE_MOVE_MAC_HI (n : Nat) : Nat := 0x200124 + 0x20000 * n
/-- PIPE.MOVE_PORTS (R190). -/ def PIPE_MOVE_PORTS (n : Nat) : Nat := 0x200128 + 0x20000 * n
/-- PIPE.TBL_ERR (R190). -/ def PIPE_TBL_ERR (n : Nat) : Nat := 0x20012C + 0x20000 * n
/-- PIPE.LRN_BUS_SEQ (R190). -/ def PIPE_LRN_BUS_SEQ (n : Nat) : Nat := 0x200130 + 0x20000 * n
/-- PIPE.HR_USED (R190). -/ def PIPE_HR_USED (n : Nat) : Nat := 0x200134 + 0x20000 * n
/-- PIPE.TCAM_USED (R190). -/ def PIPE_TCAM_USED (n b : Nat) : Nat := 0x200140 + 0x20000 * n + 0x4 * b
/-- BUF.CTRL (R220). -/ def BUF_CTRL : Nat := 0x400000
/-- BUF.STATUS (R220). -/ def BUF_STATUS : Nat := 0x400004
/-- BUF.EVENT (R220). -/ def BUF_EVENT : Nat := 0x400008
/-- BUF.FREE_ERR (R220). -/ def BUF_FREE_ERR : Nat := 0x40000C
/-- BUF.FREE_ERR_INFO (R220). -/ def BUF_FREE_ERR_INFO : Nat := 0x400010
/-- BUF.CELL_ERR (R220). -/ def BUF_CELL_ERR : Nat := 0x400014
/-- BUF.QUARANTINED (R220). -/ def BUF_QUARANTINED : Nat := 0x400018
/-- BUF.HBM_RETIRED (R220). -/ def BUF_HBM_RETIRED : Nat := 0x40001C
/-- BUF.HBM_SPARE_MAP (R220). -/ def BUF_HBM_SPARE_MAP : Nat := 0x400020
/-- BUF.HBM_RETIRE (R220). -/ def BUF_HBM_RETIRE : Nat := 0x400024
/-- BUF.HBM_RELOC (R220). -/ def BUF_HBM_RELOC : Nat := 0x400028
/-- BUF.CRC_RETIRE (R220). -/ def BUF_CRC_RETIRE : Nat := 0x40002C
/-- BUF.CLASS_POOL (R220). -/ def BUF_CLASS_POOL : Nat := 0x400030
/-- BUF.BP_CFG (R220). -/ def BUF_BP_CFG : Nat := 0x400034
/-- BUF.PREFETCH_CFG (R220). -/ def BUF_PREFETCH_CFG : Nat := 0x400038
/-- BUF.POOL_APPLY (R220). -/ def BUF_POOL_APPLY : Nat := 0x400040
/-- BUF.POOL_APPLY_STATUS (R220). -/ def BUF_POOL_APPLY_STATUS : Nat := 0x400044
/-- BUF.ONCHIP_AVAIL (R220). -/ def BUF_ONCHIP_AVAIL : Nat := 0x400048
/-- BUF.HBM_AVAIL (R220). -/ def BUF_HBM_AVAIL : Nat := 0x40004C
/-- BUF.POOL_EVENT (R220). -/ def BUF_POOL_EVENT : Nat := 0x400050
/-- BUF.POOL_CFG (R220). -/ def BUF_POOL_CFG (k : Nat) : Nat := 0x400100 + 0x20 * k
/-- BUF.POOL_ONCHIP (R220). -/ def BUF_POOL_ONCHIP (k : Nat) : Nat := 0x400104 + 0x20 * k
/-- BUF.POOL_HBM (R220). -/ def BUF_POOL_HBM (k : Nat) : Nat := 0x400108 + 0x20 * k
/-- BUF.POOL_HEADROOM (R220). -/ def BUF_POOL_HEADROOM (k : Nat) : Nat := 0x40010C + 0x20 * k
/-- BUF.POOL_USED (R220). -/ def BUF_POOL_USED (k : Nat) : Nat := 0x400110 + 0x20 * k
/-- BUF.POOL_USED_HBM (R220). -/ def BUF_POOL_USED_HBM (k : Nat) : Nat := 0x400114 + 0x20 * k
/-- BUF.POOL_STATUS (R220). -/ def BUF_POOL_STATUS (k : Nat) : Nat := 0x400118 + 0x20 * k
/-- BUF.ING_LIMIT (R220). -/ def BUF_ING_LIMIT (i : Nat) : Nat := 0x420000 + 0x4 * i
/-- BUF.QCFG_A (R220). -/ def BUF_QCFG_A (x : Nat) : Nat := 0x440000 + 0x10 * x
/-- BUF.QCFG_B (R220). -/ def BUF_QCFG_B (x : Nat) : Nat := 0x440004 + 0x10 * x
/-- BUF.QCFG_C (R220). -/ def BUF_QCFG_C (x : Nat) : Nat := 0x440008 + 0x10 * x
/-- BUF.QSTAT (R220). -/ def BUF_QSTAT (x : Nat) : Nat := 0x44000C + 0x10 * x
/-- PIPE.REP_EVENT (R246). -/ def PIPE_REP_EVENT (n : Nat) : Nat := 0x200200 + 0x20000 * n
/-- PIPE.REP_STATUS (R246). -/ def PIPE_REP_STATUS (n : Nat) : Nat := 0x200204 + 0x20000 * n
/-- PIPE.FRER_LAST (R246). -/ def PIPE_FRER_LAST (n : Nat) : Nat := 0x200208 + 0x20000 * n
/-- PIPE.FRER_RESET (R246). -/ def PIPE_FRER_RESET (n : Nat) : Nat := 0x20020C + 0x20000 * n
/-- TM.EVENT (R275). -/ def TM_EVENT : Nat := 0x500000
/-- TM.ERR_INFO (R275). -/ def TM_ERR_INFO : Nat := 0x500004
/-- TM.LEN_PROFILE (R275). -/ def TM_LEN_PROFILE (k : Nat) : Nat := 0x500040 + 0x4 * k
/-- TM.CPU_CFG (R275). -/ def TM_CPU_CFG : Nat := 0x500080
/-- TM.CPU_RATE (R275). -/ def TM_CPU_RATE : Nat := 0x500084
/-- TM.CPU_BURST (R275). -/ def TM_CPU_BURST : Nat := 0x500088
/-- TM.CPU_TOKENS (R275). -/ def TM_CPU_TOKENS : Nat := 0x50008C
/-- TM.PORT_CFG (R275). -/ def TM_PORT_CFG (p : Nat) : Nat := 0x510000 + 0x20 * p
/-- TM.GROUP_WEIGHT (R275). -/ def TM_GROUP_WEIGHT (p : Nat) : Nat := 0x510004 + 0x20 * p
/-- TM.GROUP_BURST (R275). -/ def TM_GROUP_BURST (p : Nat) : Nat := 0x510008 + 0x20 * p
/-- TM.PSHAPER_RATE (R275). -/ def TM_PSHAPER_RATE (p : Nat) : Nat := 0x51000C + 0x20 * p
/-- TM.PSHAPER_BURST (R275). -/ def TM_PSHAPER_BURST (p : Nat) : Nat := 0x510010 + 0x20 * p
/-- TM.PSHAPER_TOKENS (R275). -/ def TM_PSHAPER_TOKENS (p : Nat) : Nat := 0x510014 + 0x20 * p
/-- TM.PORT_STATUS (R275). -/ def TM_PORT_STATUS (p : Nat) : Nat := 0x510018 + 0x20 * p
/-- TM.Q_CFG (R275). -/ def TM_Q_CFG (x : Nat) : Nat := 0x520000 + 0x10 * x
/-- TM.Q_RATE (R275). -/ def TM_Q_RATE (x : Nat) : Nat := 0x520004 + 0x10 * x
/-- TM.Q_BURST (R275). -/ def TM_Q_BURST (x : Nat) : Nat := 0x520008 + 0x10 * x
/-- TM.Q_TOKENS (R275). -/ def TM_Q_TOKENS (x : Nat) : Nat := 0x52000C + 0x10 * x
/-- KEY.CTRL (R295). -/ def KEY_CTRL : Nat := 0x60000
/-- KEY.COMMAND (R295). -/ def KEY_COMMAND : Nat := 0x60004
/-- KEY.STATUS (R295). -/ def KEY_STATUS : Nat := 0x60008
/-- KEY.EVENT (R295). -/ def KEY_EVENT : Nat := 0x6000C
/-- KEY.FAULT_INFO (R295). -/ def KEY_FAULT_INFO : Nat := 0x60010
/-- KEY.SWITCH_SEC_LO (R295). -/ def KEY_SWITCH_SEC_LO : Nat := 0x60014
/-- KEY.SWITCH_SEC_HI (R295). -/ def KEY_SWITCH_SEC_HI : Nat := 0x60018
/-- KEY.SWITCH_NS (R295). -/ def KEY_SWITCH_NS : Nat := 0x6001C
/-- KEY.COPY_STATUS (R295). -/ def KEY_COPY_STATUS : Nat := 0x60020
/-- KEY.LOG_STATUS (R295). -/ def KEY_LOG_STATUS : Nat := 0x60024
/-- KEY.MORTAR_STATUS (R295). -/ def KEY_MORTAR_STATUS : Nat := 0x60028
/-- SAF.CTRL (R312). -/ def SAF_CTRL : Nat := 0xB0000
/-- SAF.STATUS (R312). -/ def SAF_STATUS : Nat := 0xB0004
/-- SAF.EVENT (R312). -/ def SAF_EVENT : Nat := 0xB0008
/-- SAF.FAULT_INFO (R312). -/ def SAF_FAULT_INFO : Nat := 0xB000C
/-- SAF.FAULT_SEC_LO (R312). -/ def SAF_FAULT_SEC_LO : Nat := 0xB0010
/-- SAF.FAULT_SEC_HI (R312). -/ def SAF_FAULT_SEC_HI : Nat := 0xB0014
/-- SAF.FAULT_NS (R312). -/ def SAF_FAULT_NS : Nat := 0xB0018
/-- SAF.SAFETY_QMAP (R312). -/ def SAF_SAFETY_QMAP : Nat := 0xB0020
/-- SAF.SAFETY_CPUQ_LO (R312). -/ def SAF_SAFETY_CPUQ_LO : Nat := 0xB0024
/-- SAF.SAFETY_CPUQ_HI (R312). -/ def SAF_SAFETY_CPUQ_HI : Nat := 0xB0028
/-- SAF.ALARM_TEST (R312). -/ def SAF_ALARM_TEST : Nat := 0xB002C
/-- SAF.TIME_ALARM (R312). -/ def SAF_TIME_ALARM : Nat := 0xB0030
/-- SAF.TEMP (R312). -/ def SAF_TEMP : Nat := 0xB0034
/-- HIF.STATUS (R344). -/ def HIF_STATUS : Nat := 0x10004
/-- HIF.EVENT (R344). -/ def HIF_EVENT : Nat := 0x10008
/-- HIF.RING_FAULT_INFO (R344). -/ def HIF_RING_FAULT_INFO : Nat := 0x1000C
/-- HIF.EPOCH (R344). -/ def HIF_EPOCH : Nat := 0x10010
/-- HIF.LOG_FIRST_LO (R344). -/ def HIF_LOG_FIRST_LO : Nat := 0x10014
/-- HIF.LOG_FIRST_HI (R344). -/ def HIF_LOG_FIRST_HI : Nat := 0x10018
/-- HIF.LOG_LAST_LO (R344). -/ def HIF_LOG_LAST_LO : Nat := 0x1001C
/-- HIF.LOG_LAST_HI (R344). -/ def HIF_LOG_LAST_HI : Nat := 0x10020
/-- HIF.EVENT_MASK (R344). -/ def HIF_EVENT_MASK : Nat := 0x10024
/-- HIF.FN_VERSION (R344). -/ def HIF_FN_VERSION (f : Nat) : Nat := 0x10040 + 0x4 * f
/-- HIF.CPUQ_MAP (R344). -/ def HIF_CPUQ_MAP (c : Nat) : Nat := 0x10100 + 0x4 * c
/-- HIF.RING_BASE_LO (R344). -/ def HIF_RING_BASE_LO (r : Nat) : Nat := 0x11000 + 0x20 * r
/-- HIF.RING_BASE_HI (R344). -/ def HIF_RING_BASE_HI (r : Nat) : Nat := 0x11004 + 0x20 * r
/-- HIF.RING_CFG (R344). -/ def HIF_RING_CFG (r : Nat) : Nat := 0x11008 + 0x20 * r
/-- HIF.RING_CFG2 (R344). -/ def HIF_RING_CFG2 (r : Nat) : Nat := 0x1100C + 0x20 * r
/-- HIF.RING_HEAD (R344). -/ def HIF_RING_HEAD (r : Nat) : Nat := 0x11010 + 0x20 * r
/-- HIF.RING_TAIL (R344). -/ def HIF_RING_TAIL (r : Nat) : Nat := 0x11014 + 0x20 * r
/-- HIF.RING_STATUS (R344). -/ def HIF_RING_STATUS (r : Nat) : Nat := 0x11018 + 0x20 * r
/-- HIF.RING_POLL (R344). -/ def HIF_RING_POLL (r : Nat) : Nat := 0x1101C + 0x20 * r
/-- DMA.STATUS (R360). -/ def DMA_STATUS : Nat := 0x30000
/-- DMA.EVENT (R360). -/ def DMA_EVENT : Nat := 0x30004
/-- DMA.HALT_INFO (R360). -/ def DMA_HALT_INFO : Nat := 0x30008
/-- DMA.LEAVE_THRESHOLD (R360). -/ def DMA_LEAVE_THRESHOLD : Nat := 0x3000C
/-- DMA.LEAVE_COST (R360). -/ def DMA_LEAVE_COST : Nat := 0x30010
/-- DMA.CH_BASE_LO (R360). -/ def DMA_CH_BASE_LO (c : Nat) : Nat := 0x31000 + 0x20 * c
/-- DMA.CH_BASE_HI (R360). -/ def DMA_CH_BASE_HI (c : Nat) : Nat := 0x31004 + 0x20 * c
/-- DMA.CH_CFG (R360). -/ def DMA_CH_CFG (c : Nat) : Nat := 0x31008 + 0x20 * c
/-- DMA.CH_CTRL (R360). -/ def DMA_CH_CTRL (c : Nat) : Nat := 0x3100C + 0x20 * c
/-- DMA.CH_HEAD (R360). -/ def DMA_CH_HEAD (c : Nat) : Nat := 0x31010 + 0x20 * c
/-- DMA.CH_TAIL (R360). -/ def DMA_CH_TAIL (c : Nat) : Nat := 0x31014 + 0x20 * c
/-- DMA.CH_STATUS (R360). -/ def DMA_CH_STATUS (c : Nat) : Nat := 0x31018 + 0x20 * c
/-- SYS.ID (R373). -/ def SYS_ID : Nat := 0x0
/-- SYS.SERIAL_LO (R373). -/ def SYS_SERIAL_LO : Nat := 0x4
/-- SYS.SERIAL_HI (R373). -/ def SYS_SERIAL_HI : Nat := 0x8
/-- SYS.UNLOCK (R373). -/ def SYS_UNLOCK : Nat := 0x10
/-- SYS.ARMED (R373). -/ def SYS_ARMED : Nat := 0x14
/-- SYS.STATUS (R373). -/ def SYS_STATUS : Nat := 0x18
/-- SYS.EVENT (R373). -/ def SYS_EVENT : Nat := 0x1C
/-- SYS.KEY_ERR (R373). -/ def SYS_KEY_ERR : Nat := 0x20
/-- SYS.TMR_ERR (R373). -/ def SYS_TMR_ERR : Nat := 0x24
/-- SYS.TMR_ERR_BITS (R373). -/ def SYS_TMR_ERR_BITS : Nat := 0x28
/-- SYS.SCRATCH (R373). -/ def SYS_SCRATCH : Nat := 0x30
/-- ACC.EVENT (R374). -/ def ACC_EVENT : Nat := 0xC0000
/-- ACC.VIOL_ADDR (R374). -/ def ACC_VIOL_ADDR : Nat := 0xC0004
/-- ACC.VIOL_INFO (R374). -/ def ACC_VIOL_INFO : Nat := 0xC0008
/-- ACC.TABLE (R374). -/ def ACC_TABLE (t m : Nat) : Nat := 0xC1000 + 0x80 * t + 0x4 * m
/-- CNT.CTRL (R387). -/ def CNT_CTRL : Nat := 0x90000
/-- CNT.DUMP_EVERY_N (R387). -/ def CNT_DUMP_EVERY_N : Nat := 0x90004
/-- CNT.DUMP_INTERVAL (R387). -/ def CNT_DUMP_INTERVAL : Nat := 0x90008
/-- CNT.DUMP_MASK (R387). -/ def CNT_DUMP_MASK : Nat := 0x9000C
/-- CNT.DUMP_STATUS (R387). -/ def CNT_DUMP_STATUS : Nat := 0x90010
/-- CNT.EVENT (R387). -/ def CNT_EVENT : Nat := 0x90014
/-- CNT.LAST_SEQ (R387). -/ def CNT_LAST_SEQ : Nat := 0x90018
/-- CNT.RD_ADDR (R387). -/ def CNT_RD_ADDR : Nat := 0x9001C
/-- CNT.RD_VAL_LO (R387). -/ def CNT_RD_VAL_LO : Nat := 0x90020
/-- CNT.RD_VAL_HI (R387). -/ def CNT_RD_VAL_HI : Nat := 0x90024
/-- CNT.RD_STATUS (R387). -/ def CNT_RD_STATUS : Nat := 0x90028
/-- CNT.PC_OVF (R387). -/ def CNT_PC_OVF (j : Nat) : Nat := 0x90100 + 0x4 * j
/-- CNT.PC_CFG (R387). -/ def CNT_PC_CFG (k : Nat) : Nat := 0x94000 + 0x8 * k
/-- CNT.PC_VAL (R387). -/ def CNT_PC_VAL (k : Nat) : Nat := 0x94004 + 0x8 * k
/-- PWR.CTRL (R402). -/ def PWR_CTRL : Nat := 0x40000
/-- PWR.STATUS (R402). -/ def PWR_STATUS : Nat := 0x40004
/-- PWR.EVENT (R402). -/ def PWR_EVENT : Nat := 0x40008
/-- PWR.BUDGET (R402). -/ def PWR_BUDGET : Nat := 0x4000C
/-- PWR.LEDGER (R402). -/ def PWR_LEDGER : Nat := 0x40010
/-- PWR.DOMAIN_ON_LO (R402). -/ def PWR_DOMAIN_ON_LO : Nat := 0x40014
/-- PWR.DOMAIN_ON_HI (R402). -/ def PWR_DOMAIN_ON_HI : Nat := 0x40018
/-- PWR.REQ_INFO (R402). -/ def PWR_REQ_INFO : Nat := 0x4001C
/-- PWR.OFF_ADDR (R402). -/ def PWR_OFF_ADDR : Nat := 0x40020
/-- PWR.RESET_CAUSE (R402). -/ def PWR_RESET_CAUSE : Nat := 0x40024
/-- PWR.SW_RESET (R402). -/ def PWR_SW_RESET : Nat := 0x40028
/-- PWR.CHARGE (R402). -/ def PWR_CHARGE (d : Nat) : Nat := 0x40100 + 0x4 * d
/-- SEC.STATUS (R421). -/ def SEC_STATUS : Nat := 0x50000
/-- SEC.EVENT (R421). -/ def SEC_EVENT : Nat := 0x50004
/-- SEC.VERIFY_INFO (R421). -/ def SEC_VERIFY_INFO : Nat := 0x50008
/-- SEC.FW_INFO (R421). -/ def SEC_FW_INFO : Nat := 0x5000C
/-- SEC.FW_VERSION (R421). -/ def SEC_FW_VERSION : Nat := 0x50010
/-- SEC.HSS_INDEX (R421). -/ def SEC_HSS_INDEX : Nat := 0x50014
/-- SEC.RANDOM (R421). -/ def SEC_RANDOM : Nat := 0x50020
/-- SEC.CERT_SEL (R421). -/ def SEC_CERT_SEL : Nat := 0x50024
/-- SEC.CERT_LEN (R421). -/ def SEC_CERT_LEN : Nat := 0x50028
/-- SEC.ROLLBACK (R421). -/ def SEC_ROLLBACK (c : Nat) : Nat := 0x50040 + 0x4 * c
/-- SEC.CERT_DATA (R421). -/ def SEC_CERT_DATA (i : Nat) : Nat := 0x51000 + 0x4 * i
/-- PLB.CTRL (R431). -/ def PLB_CTRL : Nat := 0xA0000
/-- PLB.STATUS (R431). -/ def PLB_STATUS : Nat := 0xA0004
/-- PLB.EVENT (R431). -/ def PLB_EVENT : Nat := 0xA0008
/-- PLB.NETS (R431). -/ def PLB_NETS : Nat := 0xA000C
/-- PLB.RESULT (R431). -/ def PLB_RESULT : Nat := 0xA0010
/-- PLB.STEPS (R431). -/ def PLB_STEPS : Nat := 0xA0014
/-- PLB.DURATION (R431). -/ def PLB_DURATION : Nat := 0xA0018
/-- PLB.GROUP_RESULT (R431). -/ def PLB_GROUP_RESULT : Nat := 0xA001C
/-- PLB.FAIL (R431). -/ def PLB_FAIL (i : Nat) : Nat := 0xA0100 + 0x4 * i

end Addr

namespace F

def PORT_MODE_macro_mode (m : Nat) : Fld := ⟨Addr.PORT_MODE m, 0, 4⟩
def PORT_MODE_half0_mode (m : Nat) : Fld := ⟨Addr.PORT_MODE m, 4, 2⟩
def PORT_MODE_half1_mode (m : Nat) : Fld := ⟨Addr.PORT_MODE m, 6, 2⟩
def PORT_APPLY_apply (m : Nat) : Fld := ⟨Addr.PORT_APPLY m, 0, 1⟩
def PORT_APPLY_STATUS_apply_status (m : Nat) : Fld := ⟨Addr.PORT_APPLY_STATUS m, 0, 3⟩
def PORT_APPLY_STATUS_apply_ignored (m : Nat) : Fld := ⟨Addr.PORT_APPLY_STATUS m, 3, 1⟩
def PORT_LANE_CFG_lane_rate (m l : Nat) : Fld := ⟨Addr.PORT_LANE_CFG m l, 0, 3⟩
def PORT_LANE_CFG_tx_invert (m l : Nat) : Fld := ⟨Addr.PORT_LANE_CFG m l, 3, 1⟩
def PORT_LANE_CFG_rx_invert (m l : Nat) : Fld := ⟨Addr.PORT_LANE_CFG m l, 4, 1⟩
def PORT_LANE_CFG_tx_phys (m l : Nat) : Fld := ⟨Addr.PORT_LANE_CFG m l, 5, 2⟩
def PORT_LANE_CFG_rx_phys (m l : Nat) : Fld := ⟨Addr.PORT_LANE_CFG m l, 7, 2⟩
def PORT_SUB_CFG_fec (m s : Nat) : Fld := ⟨Addr.PORT_SUB_CFG m s, 0, 2⟩
def PORT_SUB_CFG_an_enable (m s : Nat) : Fld := ⟨Addr.PORT_SUB_CFG m s, 2, 1⟩
def PORT_SUB_CFG_lt_enable (m s : Nat) : Fld := ⟨Addr.PORT_SUB_CFG m s, 3, 1⟩
def PORT_SUB_CFG_an_ability (m s : Nat) : Fld := ⟨Addr.PORT_SUB_CFG m s, 16, 11⟩
def PORT_LINK_STATUS_link_up (m s : Nat) : Fld := ⟨Addr.PORT_LINK_STATUS m s, 0, 1⟩
def PORT_LINK_STATUS_an_done (m s : Nat) : Fld := ⟨Addr.PORT_LINK_STATUS m s, 1, 1⟩
def PORT_LINK_STATUS_lt_done (m s : Nat) : Fld := ⟨Addr.PORT_LINK_STATUS m s, 2, 1⟩
def PORT_LINK_STATUS_present (m s : Nat) : Fld := ⟨Addr.PORT_LINK_STATUS m s, 3, 1⟩
def PORT_LINK_STATUS_resolved_tech (m s : Nat) : Fld := ⟨Addr.PORT_LINK_STATUS m s, 4, 4⟩
def PORT_LINK_STATUS_fec_active (m s : Nat) : Fld := ⟨Addr.PORT_LINK_STATUS m s, 8, 2⟩
def PORT_EVENT_link_change (m : Nat) : Fld := ⟨Addr.PORT_EVENT m, 0, 4⟩
def PORT_EVENT_apply_done (m : Nat) : Fld := ⟨Addr.PORT_EVENT m, 4, 1⟩
def PORT_EVENT_an_fail (m : Nat) : Fld := ⟨Addr.PORT_EVENT m, 5, 1⟩
def PORT_EVENT_ref_clock_loss (m : Nat) : Fld := ⟨Addr.PORT_EVENT m, 6, 1⟩
def PORT_EVENT_seq (m : Nat) : Fld := ⟨Addr.PORT_EVENT m, 24, 8⟩
def PORT_MAC_CFG_max_frame (m s : Nat) : Fld := ⟨Addr.PORT_MAC_CFG m s, 0, 14⟩
def PORT_MAC_CFG_rx_en (m s : Nat) : Fld := ⟨Addr.PORT_MAC_CFG m s, 14, 1⟩
def PORT_MAC_CFG_tx_en (m s : Nat) : Fld := ⟨Addr.PORT_MAC_CFG m s, 15, 1⟩
def PORT_MAC_CFG_pause_mode (m s : Nat) : Fld := ⟨Addr.PORT_MAC_CFG m s, 16, 2⟩
def PORT_MAC_CFG_fc_gen_en (m s : Nat) : Fld := ⟨Addr.PORT_MAC_CFG m s, 18, 1⟩
def PORT_MAC_CFG_wd_action (m s : Nat) : Fld := ⟨Addr.PORT_MAC_CFG m s, 19, 2⟩
def PORT_MAC_CFG_preempt_enable (m s : Nat) : Fld := ⟨Addr.PORT_MAC_CFG m s, 21, 1⟩
def PORT_MAC_CFG_verify_enable (m s : Nat) : Fld := ⟨Addr.PORT_MAC_CFG m s, 22, 1⟩
def PORT_MAC_CFG_add_frag_size (m s : Nat) : Fld := ⟨Addr.PORT_MAC_CFG m s, 23, 2⟩
def PORT_MAC_CFG_eee_enable (m s : Nat) : Fld := ⟨Addr.PORT_MAC_CFG m s, 25, 1⟩
def PORT_MAC_ADDR_LO_addr_lo (m s : Nat) : Fld := ⟨Addr.PORT_MAC_ADDR_LO m s, 0, 32⟩
def PORT_MAC_ADDR_HI_addr_hi (m s : Nat) : Fld := ⟨Addr.PORT_MAC_ADDR_HI m s, 0, 16⟩
def PORT_FC_GEN_xoff_quanta (m s : Nat) : Fld := ⟨Addr.PORT_FC_GEN m s, 0, 16⟩
def PORT_FC_GEN_refresh_quanta (m s : Nat) : Fld := ⟨Addr.PORT_FC_GEN m s, 16, 16⟩
def PORT_PFC_RX_MAP_LO_map_0 (m s : Nat) : Fld := ⟨Addr.PORT_PFC_RX_MAP_LO m s, 0, 8⟩
def PORT_PFC_RX_MAP_LO_map_1 (m s : Nat) : Fld := ⟨Addr.PORT_PFC_RX_MAP_LO m s, 8, 8⟩
def PORT_PFC_RX_MAP_LO_map_2 (m s : Nat) : Fld := ⟨Addr.PORT_PFC_RX_MAP_LO m s, 16, 8⟩
def PORT_PFC_RX_MAP_LO_map_3 (m s : Nat) : Fld := ⟨Addr.PORT_PFC_RX_MAP_LO m s, 24, 8⟩
def PORT_PFC_RX_MAP_HI_map_4 (m s : Nat) : Fld := ⟨Addr.PORT_PFC_RX_MAP_HI m s, 0, 8⟩
def PORT_PFC_RX_MAP_HI_map_5 (m s : Nat) : Fld := ⟨Addr.PORT_PFC_RX_MAP_HI m s, 8, 8⟩
def PORT_PFC_RX_MAP_HI_map_6 (m s : Nat) : Fld := ⟨Addr.PORT_PFC_RX_MAP_HI m s, 16, 8⟩
def PORT_PFC_RX_MAP_HI_map_7 (m s : Nat) : Fld := ⟨Addr.PORT_PFC_RX_MAP_HI m s, 24, 8⟩
def PORT_PAUSE_WD_wd_limit (m s : Nat) : Fld := ⟨Addr.PORT_PAUSE_WD m s, 0, 16⟩
def PORT_PAUSE_WD_wd_recovery (m s : Nat) : Fld := ⟨Addr.PORT_PAUSE_WD m s, 16, 16⟩
def PORT_PREEMPT_CFG_preemptable (m s : Nat) : Fld := ⟨Addr.PORT_PREEMPT_CFG m s, 0, 8⟩
def PORT_PREEMPT_CFG_verify_time (m s : Nat) : Fld := ⟨Addr.PORT_PREEMPT_CFG m s, 8, 7⟩
def PORT_EEE_CFG_tx_lpi_idle (m s : Nat) : Fld := ⟨Addr.PORT_EEE_CFG m s, 0, 16⟩
def PORT_MAC_STATUS_rx_paused (m s : Nat) : Fld := ⟨Addr.PORT_MAC_STATUS m s, 0, 8⟩
def PORT_MAC_STATUS_wd_recovering (m s : Nat) : Fld := ⟨Addr.PORT_MAC_STATUS m s, 8, 8⟩
def PORT_MAC_STATUS_fc_xoff (m s : Nat) : Fld := ⟨Addr.PORT_MAC_STATUS m s, 16, 8⟩
def PORT_MAC_STATUS_verify_status (m s : Nat) : Fld := ⟨Addr.PORT_MAC_STATUS m s, 24, 3⟩
def PORT_MAC_STATUS_preempt_active (m s : Nat) : Fld := ⟨Addr.PORT_MAC_STATUS m s, 27, 1⟩
def PORT_MAC_STATUS_tx_lpi (m s : Nat) : Fld := ⟨Addr.PORT_MAC_STATUS m s, 28, 1⟩
def PORT_MAC_STATUS_rx_lpi (m s : Nat) : Fld := ⟨Addr.PORT_MAC_STATUS m s, 29, 1⟩
def PORT_MAC_EVENT_pause_storm (m s : Nat) : Fld := ⟨Addr.PORT_MAC_EVENT m s, 0, 8⟩
def PORT_MAC_EVENT_verify_fail (m s : Nat) : Fld := ⟨Addr.PORT_MAC_EVENT m s, 8, 1⟩
def PORT_MAC_EVENT_meridian_collision (m s : Nat) : Fld := ⟨Addr.PORT_MAC_EVENT m s, 9, 1⟩
def PORT_MAC_EVENT_eee_refused (m s : Nat) : Fld := ⟨Addr.PORT_MAC_EVENT m s, 10, 1⟩
def PORT_MAC_EVENT_seq (m s : Nat) : Fld := ⟨Addr.PORT_MAC_EVENT m s, 24, 8⟩
def PORT_WAKE_CFG_wake_mode_0 (m : Nat) : Fld := ⟨Addr.PORT_WAKE_CFG m, 0, 2⟩
def PORT_WAKE_CFG_wake_mode_1 (m : Nat) : Fld := ⟨Addr.PORT_WAKE_CFG m, 2, 2⟩
def PORT_WAKE_CFG_wake_mode_2 (m : Nat) : Fld := ⟨Addr.PORT_WAKE_CFG m, 4, 2⟩
def PORT_WAKE_CFG_wake_mode_3 (m : Nat) : Fld := ⟨Addr.PORT_WAKE_CFG m, 6, 2⟩
def PORT_WAKE_CFG_wake_action (m : Nat) : Fld := ⟨Addr.PORT_WAKE_CFG m, 8, 1⟩
def PORT_WAKE_CFG_energy_dwell (m : Nat) : Fld := ⟨Addr.PORT_WAKE_CFG m, 16, 8⟩
def PORT_WAKE_STATUS_woke (m : Nat) : Fld := ⟨Addr.PORT_WAKE_STATUS m, 0, 4⟩
def PORT_WAKE_STATUS_wake_refused (m : Nat) : Fld := ⟨Addr.PORT_WAKE_STATUS m, 4, 1⟩
def PORT_WAKE_STATUS_seq (m : Nat) : Fld := ⟨Addr.PORT_WAKE_STATUS m, 24, 8⟩
def TRN_CTRL_servo_enable : Fld := ⟨Addr.TRN_CTRL, 0, 1⟩
def TRN_CTRL_source : Fld := ⟨Addr.TRN_CTRL, 1, 1⟩
def TRN_CTRL_step_enable : Fld := ⟨Addr.TRN_CTRL, 2, 1⟩
def TRN_CTRL_hold : Fld := ⟨Addr.TRN_CTRL, 3, 1⟩
def TRN_CTRL_pps_out_en : Fld := ⟨Addr.TRN_CTRL, 4, 1⟩
def TRN_CTRL_pps_out_pol : Fld := ⟨Addr.TRN_CTRL, 5, 1⟩
def TRN_CTRL_pps_in_en : Fld := ⟨Addr.TRN_CTRL, 6, 1⟩
def TRN_CTRL_pps_in_edge : Fld := ⟨Addr.TRN_CTRL, 7, 1⟩
def TRN_CTRL_clk10m_out_en : Fld := ⟨Addr.TRN_CTRL, 8, 1⟩
def TRN_CTRL_clk10m_in_en : Fld := ⟨Addr.TRN_CTRL, 9, 1⟩
def TRN_STATUS_servo_state : Fld := ⟨Addr.TRN_STATUS, 0, 2⟩
def TRN_STATUS_holdover : Fld := ⟨Addr.TRN_STATUS, 2, 1⟩
def TRN_STATUS_held : Fld := ⟨Addr.TRN_STATUS, 3, 1⟩
def TRN_STATUS_pps_in_present : Fld := ⟨Addr.TRN_STATUS, 4, 1⟩
def TRN_STATUS_clk10m_in_present : Fld := ⟨Addr.TRN_STATUS, 5, 1⟩
def TRN_STATUS_lock_run : Fld := ⟨Addr.TRN_STATUS, 8, 8⟩
def TRN_EVENT_locked : Fld := ⟨Addr.TRN_EVENT, 0, 1⟩
def TRN_EVENT_unlocked : Fld := ⟨Addr.TRN_EVENT, 1, 1⟩
def TRN_EVENT_holdover_enter : Fld := ⟨Addr.TRN_EVENT, 2, 1⟩
def TRN_EVENT_holdover_exit : Fld := ⟨Addr.TRN_EVENT, 3, 1⟩
def TRN_EVENT_stepped : Fld := ⟨Addr.TRN_EVENT, 4, 1⟩
def TRN_EVENT_pps_in_missing : Fld := ⟨Addr.TRN_EVENT, 5, 1⟩
def TRN_EVENT_offset_discarded : Fld := ⟨Addr.TRN_EVENT, 6, 1⟩
def TRN_EVENT_limit_reached : Fld := ⟨Addr.TRN_EVENT, 7, 1⟩
def TRN_EVENT_seq : Fld := ⟨Addr.TRN_EVENT, 24, 8⟩
def TRN_RATE_BASE_LO_base_lo : Fld := ⟨Addr.TRN_RATE_BASE_LO, 0, 32⟩
def TRN_RATE_BASE_HI_base_hi : Fld := ⟨Addr.TRN_RATE_BASE_HI, 0, 16⟩
def TRN_RATE_NOW_LO_now_lo : Fld := ⟨Addr.TRN_RATE_NOW_LO, 0, 32⟩
def TRN_RATE_NOW_HI_now_hi : Fld := ⟨Addr.TRN_RATE_NOW_HI, 0, 16⟩
def TRN_KP_kp : Fld := ⟨Addr.TRN_KP, 0, 32⟩
def TRN_KI_ki : Fld := ⟨Addr.TRN_KI, 0, 32⟩
def TRN_FREQ_LIMIT_freq_limit : Fld := ⟨Addr.TRN_FREQ_LIMIT, 0, 24⟩
def TRN_STEP_THRESHOLD_step_threshold : Fld := ⟨Addr.TRN_STEP_THRESHOLD, 0, 32⟩
def TRN_LOCK_CFG_lock_threshold : Fld := ⟨Addr.TRN_LOCK_CFG, 0, 16⟩
def TRN_LOCK_CFG_lock_count : Fld := ⟨Addr.TRN_LOCK_CFG, 16, 8⟩
def TRN_HOLDOVER_TIMEOUT_holdover_timeout : Fld := ⟨Addr.TRN_HOLDOVER_TIMEOUT, 0, 16⟩
def TRN_OFFSET_LO_offset_lo : Fld := ⟨Addr.TRN_OFFSET_LO, 0, 32⟩
def TRN_OFFSET_HI_offset_hi : Fld := ⟨Addr.TRN_OFFSET_HI, 0, 16⟩
def TRN_SERVO_I_i_term : Fld := ⟨Addr.TRN_SERVO_I, 0, 32⟩
def TRN_SERVO_I_INIT_i_init : Fld := ⟨Addr.TRN_SERVO_I_INIT, 0, 32⟩
def TRN_SERVO_F_f_term : Fld := ⟨Addr.TRN_SERVO_F, 0, 32⟩
def TRN_TIME_CAPTURE_capture : Fld := ⟨Addr.TRN_TIME_CAPTURE, 0, 1⟩
def TRN_TIME_SEC_LO_sec_lo : Fld := ⟨Addr.TRN_TIME_SEC_LO, 0, 32⟩
def TRN_TIME_SEC_HI_sec_hi : Fld := ⟨Addr.TRN_TIME_SEC_HI, 0, 16⟩
def TRN_TIME_SEC_HI_f_holdover : Fld := ⟨Addr.TRN_TIME_SEC_HI, 16, 1⟩
def TRN_TIME_SEC_HI_f_held : Fld := ⟨Addr.TRN_TIME_SEC_HI, 17, 1⟩
def TRN_TIME_SEC_HI_f_unlocked : Fld := ⟨Addr.TRN_TIME_SEC_HI, 18, 1⟩
def TRN_TIME_NS_ns : Fld := ⟨Addr.TRN_TIME_NS, 0, 32⟩
def TRN_TIME_FRAC_frac : Fld := ⟨Addr.TRN_TIME_FRAC, 0, 16⟩
def TRN_SET_SEC_LO_set_sec_lo : Fld := ⟨Addr.TRN_SET_SEC_LO, 0, 32⟩
def TRN_SET_SEC_HI_set_sec_hi : Fld := ⟨Addr.TRN_SET_SEC_HI, 0, 16⟩
def TRN_SET_NS_set_ns : Fld := ⟨Addr.TRN_SET_NS, 0, 32⟩
def TRN_TIME_SET_set : Fld := ⟨Addr.TRN_TIME_SET, 0, 1⟩
def TRN_PPS_OUT_WIDTH_pps_out_width : Fld := ⟨Addr.TRN_PPS_OUT_WIDTH, 0, 20⟩
def TRN_PPS_OUT_OFFSET_pps_out_offset : Fld := ⟨Addr.TRN_PPS_OUT_OFFSET, 0, 32⟩
def TRN_PPS_IN_OFFSET_pps_in_offset : Fld := ⟨Addr.TRN_PPS_IN_OFFSET, 0, 32⟩
def TRN_PPS_IN_SEC_LO_sec_lo : Fld := ⟨Addr.TRN_PPS_IN_SEC_LO, 0, 32⟩
def TRN_PPS_IN_SEC_HI_sec_hi : Fld := ⟨Addr.TRN_PPS_IN_SEC_HI, 0, 16⟩
def TRN_PPS_IN_SEC_HI_f_holdover : Fld := ⟨Addr.TRN_PPS_IN_SEC_HI, 16, 1⟩
def TRN_PPS_IN_SEC_HI_f_held : Fld := ⟨Addr.TRN_PPS_IN_SEC_HI, 17, 1⟩
def TRN_PPS_IN_SEC_HI_f_unlocked : Fld := ⟨Addr.TRN_PPS_IN_SEC_HI, 18, 1⟩
def TRN_PPS_IN_NS_ns : Fld := ⟨Addr.TRN_PPS_IN_NS, 0, 32⟩
def TRN_PPS_IN_FRAC_frac : Fld := ⟨Addr.TRN_PPS_IN_FRAC, 0, 16⟩
def TRN_FREQ_IN_MEAS_freq_in : Fld := ⟨Addr.TRN_FREQ_IN_MEAS, 0, 32⟩
def TRN_RECCLK_CFG_src_port (c : Nat) : Fld := ⟨Addr.TRN_RECCLK_CFG c, 0, 9⟩
def TRN_RECCLK_CFG_src_lane (c : Nat) : Fld := ⟨Addr.TRN_RECCLK_CFG c, 9, 2⟩
def TRN_RECCLK_CFG_enable (c : Nat) : Fld := ⟨Addr.TRN_RECCLK_CFG c, 11, 1⟩
def TRN_RECCLK_CFG_squelch (c : Nat) : Fld := ⟨Addr.TRN_RECCLK_CFG c, 12, 1⟩
def TRN_RECCLK_CFG_post_div (c : Nat) : Fld := ⟨Addr.TRN_RECCLK_CFG c, 16, 8⟩
def TRN_PORT_CORR_A_rx_board_delay (p : Nat) : Fld := ⟨Addr.TRN_PORT_CORR_A p, 0, 16⟩
def TRN_PORT_CORR_A_tx_board_delay (p : Nat) : Fld := ⟨Addr.TRN_PORT_CORR_A p, 16, 16⟩
def TRN_PORT_CORR_B_peer_delay (p : Nat) : Fld := ⟨Addr.TRN_PORT_CORR_B p, 0, 24⟩
def EPH_CTRL_meridian_en : Fld := ⟨Addr.EPH_CTRL, 0, 1⟩
def EPH_CTRL_gates_en : Fld := ⟨Addr.EPH_CTRL, 1, 1⟩
def EPH_CTRL_ref_in_en : Fld := ⟨Addr.EPH_CTRL, 2, 1⟩
def EPH_CTRL_ref_edge : Fld := ⟨Addr.EPH_CTRL, 3, 1⟩
def EPH_STATUS_active_valid : Fld := ⟨Addr.EPH_STATUS, 0, 1⟩
def EPH_STATUS_shadow_valid : Fld := ⟨Addr.EPH_STATUS, 1, 1⟩
def EPH_STATUS_active_bank : Fld := ⟨Addr.EPH_STATUS, 2, 1⟩
def EPH_STATUS_ref_state : Fld := ⟨Addr.EPH_STATUS, 3, 2⟩
def EPH_STATUS_closed : Fld := ⟨Addr.EPH_STATUS, 5, 1⟩
def EPH_STATUS_slot_now : Fld := ⟨Addr.EPH_STATUS, 16, 13⟩
def EPH_EVENT_act_done : Fld := ⟨Addr.EPH_EVENT, 0, 1⟩
def EPH_EVENT_early_ref : Fld := ⟨Addr.EPH_EVENT, 1, 1⟩
def EPH_EVENT_ref_missing : Fld := ⟨Addr.EPH_EVENT, 2, 1⟩
def EPH_EVENT_ref_relock : Fld := ⟨Addr.EPH_EVENT, 3, 1⟩
def EPH_EVENT_step_resync : Fld := ⟨Addr.EPH_EVENT, 4, 1⟩
def EPH_EVENT_rate_mismatch : Fld := ⟨Addr.EPH_EVENT, 5, 1⟩
def EPH_EVENT_overrun : Fld := ⟨Addr.EPH_EVENT, 6, 1⟩
def EPH_EVENT_seq : Fld := ⟨Addr.EPH_EVENT, 24, 8⟩
def EPH_ACTIVE_ID_LO_id : Fld := ⟨Addr.EPH_ACTIVE_ID_LO, 0, 32⟩
def EPH_ACTIVE_ID_HI_id : Fld := ⟨Addr.EPH_ACTIVE_ID_HI, 0, 32⟩
def EPH_SHADOW_ID_LO_id : Fld := ⟨Addr.EPH_SHADOW_ID_LO, 0, 32⟩
def EPH_SHADOW_ID_HI_id : Fld := ⟨Addr.EPH_SHADOW_ID_HI, 0, 32⟩
def EPH_ACT_MARGIN_act_margin : Fld := ⟨Addr.EPH_ACT_MARGIN, 0, 24⟩
def EPH_ACTIVATE_go : Fld := ⟨Addr.EPH_ACTIVATE, 0, 1⟩
def EPH_ACTIVATE_select : Fld := ⟨Addr.EPH_ACTIVATE, 1, 2⟩
def EPH_ACTIVATE_cancel : Fld := ⟨Addr.EPH_ACTIVATE, 3, 1⟩
def EPH_ACT_TIME_SEC_LO_req_sec_lo : Fld := ⟨Addr.EPH_ACT_TIME_SEC_LO, 0, 32⟩
def EPH_ACT_TIME_SEC_HI_req_sec_hi : Fld := ⟨Addr.EPH_ACT_TIME_SEC_HI, 0, 16⟩
def EPH_ACT_TIME_NS_req_ns : Fld := ⟨Addr.EPH_ACT_TIME_NS, 0, 32⟩
def EPH_ACT_STATUS_act_state : Fld := ⟨Addr.EPH_ACT_STATUS, 0, 2⟩
def EPH_ACT_STATUS_adjusted : Fld := ⟨Addr.EPH_ACT_STATUS, 2, 1⟩
def EPH_ACT_STATUS_predicted : Fld := ⟨Addr.EPH_ACT_STATUS, 3, 1⟩
def EPH_ACT_STATUS_busy_refused : Fld := ⟨Addr.EPH_ACT_STATUS, 4, 1⟩
def EPH_ACT_STATUS_result : Fld := ⟨Addr.EPH_ACT_STATUS, 8, 8⟩
def EPH_ACT_STATUS_last_select : Fld := ⟨Addr.EPH_ACT_STATUS, 16, 2⟩
def EPH_ACT_EFF_SEC_LO_eff_sec_lo : Fld := ⟨Addr.EPH_ACT_EFF_SEC_LO, 0, 32⟩
def EPH_ACT_EFF_SEC_HI_eff_sec_hi : Fld := ⟨Addr.EPH_ACT_EFF_SEC_HI, 0, 16⟩
def EPH_ACT_EFF_NS_eff_ns : Fld := ⟨Addr.EPH_ACT_EFF_NS, 0, 32⟩
def EPH_CYCLE_COUNT_cycles : Fld := ⟨Addr.EPH_CYCLE_COUNT, 0, 32⟩
def EPH_REF_MEAS_ref_meas : Fld := ⟨Addr.EPH_REF_MEAS, 0, 32⟩
def EPH_MISMATCH_port : Fld := ⟨Addr.EPH_MISMATCH, 0, 9⟩
def EPH_MISMATCH_running_type : Fld := ⟨Addr.EPH_MISMATCH, 9, 4⟩
def EPH_LEN_AWARE_len_aware (n : Nat) : Fld := ⟨Addr.EPH_LEN_AWARE n, 0, 32⟩
def PIPE_CTRL_fwd_en (n : Nat) : Fld := ⟨Addr.PIPE_CTRL n, 0, 1⟩
def PIPE_STATUS_active_valid (n : Nat) : Fld := ⟨Addr.PIPE_STATUS n, 0, 1⟩
def PIPE_STATUS_shadow_valid (n : Nat) : Fld := ⟨Addr.PIPE_STATUS n, 1, 1⟩
def PIPE_STATUS_active_bank (n : Nat) : Fld := ⟨Addr.PIPE_STATUS n, 2, 1⟩
def PIPE_STATUS_draining (n : Nat) : Fld := ⟨Addr.PIPE_STATUS n, 3, 1⟩
def PIPE_STATUS_active_format (n : Nat) : Fld := ⟨Addr.PIPE_STATUS n, 4, 3⟩
def PIPE_STATUS_shadow_format (n : Nat) : Fld := ⟨Addr.PIPE_STATUS n, 7, 3⟩
def PIPE_STATUS_patch_busy (n : Nat) : Fld := ⟨Addr.PIPE_STATUS n, 10, 1⟩
def PIPE_EVENT_res_range_error (n : Nat) : Fld := ⟨Addr.PIPE_EVENT n, 0, 1⟩
def PIPE_EVENT_edit_error (n : Nat) : Fld := ⟨Addr.PIPE_EVENT n, 1, 1⟩
def PIPE_EVENT_image_limit_drop (n : Nat) : Fld := ⟨Addr.PIPE_EVENT n, 2, 1⟩
def PIPE_EVENT_patch_done (n : Nat) : Fld := ⟨Addr.PIPE_EVENT n, 3, 1⟩
def PIPE_EVENT_seq (n : Nat) : Fld := ⟨Addr.PIPE_EVENT n, 24, 8⟩
def PIPE_ACTIVE_ID_LO_id (n : Nat) : Fld := ⟨Addr.PIPE_ACTIVE_ID_LO n, 0, 32⟩
def PIPE_ACTIVE_ID_HI_id (n : Nat) : Fld := ⟨Addr.PIPE_ACTIVE_ID_HI n, 0, 32⟩
def PIPE_SHADOW_ID_LO_id (n : Nat) : Fld := ⟨Addr.PIPE_SHADOW_ID_LO n, 0, 32⟩
def PIPE_SHADOW_ID_HI_id (n : Nat) : Fld := ⟨Addr.PIPE_SHADOW_ID_HI n, 0, 32⟩
def PIPE_RES_ERR_res_index (n : Nat) : Fld := ⟨Addr.PIPE_RES_ERR n, 0, 20⟩
def PIPE_RES_ERR_ref_mode (n : Nat) : Fld := ⟨Addr.PIPE_RES_ERR n, 20, 2⟩
def PIPE_RES_ERR_ref_none (n : Nat) : Fld := ⟨Addr.PIPE_RES_ERR n, 22, 1⟩
def PIPE_RES_ERR_REF_ref (n : Nat) : Fld := ⟨Addr.PIPE_RES_ERR_REF n, 0, 16⟩
def PIPE_PATCH_STATUS_items_applied (n : Nat) : Fld := ⟨Addr.PIPE_PATCH_STATUS n, 0, 17⟩
def PIPE_PATCH_STATUS_patch_state (n : Nat) : Fld := ⟨Addr.PIPE_PATCH_STATUS n, 17, 2⟩
def PIPE_LRN_GLOBAL_age_time (n : Nat) : Fld := ⟨Addr.PIPE_LRN_GLOBAL n, 0, 16⟩
def PIPE_LRN_GLOBAL_move_limit (n : Nat) : Fld := ⟨Addr.PIPE_LRN_GLOBAL n, 16, 4⟩
def PIPE_LRN_GLOBAL_freeze_epochs (n : Nat) : Fld := ⟨Addr.PIPE_LRN_GLOBAL n, 20, 4⟩
def PIPE_LRN_GLOBAL_port_flush_en (n : Nat) : Fld := ⟨Addr.PIPE_LRN_GLOBAL n, 24, 1⟩
def PIPE_FLAP_WINDOW_flap_window (n : Nat) : Fld := ⟨Addr.PIPE_FLAP_WINDOW n, 0, 16⟩
def PIPE_LRN_CTRL_evict_mode (n : Nat) : Fld := ⟨Addr.PIPE_LRN_CTRL n, 0, 1⟩
def PIPE_LRN_CTRL_seed_fixed (n : Nat) : Fld := ⟨Addr.PIPE_LRN_CTRL n, 1, 1⟩
def PIPE_LRN_SEED0_seed (n : Nat) : Fld := ⟨Addr.PIPE_LRN_SEED0 n, 0, 32⟩
def PIPE_LRN_SEED1_seed (n : Nat) : Fld := ⟨Addr.PIPE_LRN_SEED1 n, 0, 32⟩
def PIPE_LRN_STATUS_learned_count (n : Nat) : Fld := ⟨Addr.PIPE_LRN_STATUS n, 0, 19⟩
def PIPE_LRN_STATUS_queue_depth (n : Nat) : Fld := ⟨Addr.PIPE_LRN_STATUS n, 19, 9⟩
def PIPE_LRN_STATUS_flushing (n : Nat) : Fld := ⟨Addr.PIPE_LRN_STATUS n, 28, 1⟩
def PIPE_STATIC_COUNT_static_count (n : Nat) : Fld := ⟨Addr.PIPE_STATIC_COUNT n, 0, 17⟩
def PIPE_LRN_EVENT_move (n : Nat) : Fld := ⟨Addr.PIPE_LRN_EVENT n, 0, 1⟩
def PIPE_LRN_EVENT_freeze (n : Nat) : Fld := ⟨Addr.PIPE_LRN_EVENT n, 1, 1⟩
def PIPE_LRN_EVENT_table_error (n : Nat) : Fld := ⟨Addr.PIPE_LRN_EVENT n, 2, 1⟩
def PIPE_LRN_EVENT_queue_full (n : Nat) : Fld := ⟨Addr.PIPE_LRN_EVENT n, 3, 1⟩
def PIPE_LRN_EVENT_hr_error (n : Nat) : Fld := ⟨Addr.PIPE_LRN_EVENT n, 4, 1⟩
def PIPE_LRN_EVENT_tcam_repair (n : Nat) : Fld := ⟨Addr.PIPE_LRN_EVENT n, 5, 1⟩
def PIPE_LRN_EVENT_seq (n : Nat) : Fld := ⟨Addr.PIPE_LRN_EVENT n, 24, 8⟩
def PIPE_MOVE_MAC_LO_mac_lo (n : Nat) : Fld := ⟨Addr.PIPE_MOVE_MAC_LO n, 0, 32⟩
def PIPE_MOVE_MAC_HI_mac_hi (n : Nat) : Fld := ⟨Addr.PIPE_MOVE_MAC_HI n, 0, 16⟩
def PIPE_MOVE_MAC_HI_vlan (n : Nat) : Fld := ⟨Addr.PIPE_MOVE_MAC_HI n, 16, 12⟩
def PIPE_MOVE_MAC_HI_frozen (n : Nat) : Fld := ⟨Addr.PIPE_MOVE_MAC_HI n, 28, 1⟩
def PIPE_MOVE_PORTS_old_port (n : Nat) : Fld := ⟨Addr.PIPE_MOVE_PORTS n, 0, 9⟩
def PIPE_MOVE_PORTS_new_port (n : Nat) : Fld := ⟨Addr.PIPE_MOVE_PORTS n, 16, 9⟩
def PIPE_TBL_ERR_table (n : Nat) : Fld := ⟨Addr.PIPE_TBL_ERR n, 0, 2⟩
def PIPE_TBL_ERR_index (n : Nat) : Fld := ⟨Addr.PIPE_TBL_ERR n, 2, 19⟩
def PIPE_LRN_BUS_SEQ_bus_seq (n : Nat) : Fld := ⟨Addr.PIPE_LRN_BUS_SEQ n, 0, 32⟩
def PIPE_HR_USED_hr_units (n : Nat) : Fld := ⟨Addr.PIPE_HR_USED n, 0, 20⟩
def PIPE_TCAM_USED_lpm_used (n b : Nat) : Fld := ⟨Addr.PIPE_TCAM_USED n b, 0, 16⟩
def PIPE_TCAM_USED_cls_used (n b : Nat) : Fld := ⟨Addr.PIPE_TCAM_USED n b, 16, 16⟩
def BUF_CTRL_hbm_en : Fld := ⟨Addr.BUF_CTRL, 0, 1⟩
def BUF_CTRL_hbm_spare_en : Fld := ⟨Addr.BUF_CTRL, 1, 1⟩
def BUF_CTRL_scrub_fast : Fld := ⟨Addr.BUF_CTRL, 2, 1⟩
def BUF_STATUS_hbm_present : Fld := ⟨Addr.BUF_STATUS, 0, 1⟩
def BUF_STATUS_hbm_ready : Fld := ⟨Addr.BUF_STATUS, 1, 1⟩
def BUF_STATUS_relocating : Fld := ⟨Addr.BUF_STATUS, 2, 1⟩
def BUF_STATUS_spare_used : Fld := ⟨Addr.BUF_STATUS, 3, 1⟩
def BUF_STATUS_scrub_fast_active : Fld := ⟨Addr.BUF_STATUS, 4, 1⟩
def BUF_STATUS_retired_count : Fld := ⟨Addr.BUF_STATUS, 5, 6⟩
def BUF_EVENT_pool_warn : Fld := ⟨Addr.BUF_EVENT, 0, 1⟩
def BUF_EVENT_pool_full : Fld := ⟨Addr.BUF_EVENT, 1, 1⟩
def BUF_EVENT_pool_exhausted : Fld := ⟨Addr.BUF_EVENT, 2, 1⟩
def BUF_EVENT_free_refused : Fld := ⟨Addr.BUF_EVENT, 3, 1⟩
def BUF_EVENT_ecc_uncorrectable : Fld := ⟨Addr.BUF_EVENT, 4, 1⟩
def BUF_EVENT_cell_crc_error : Fld := ⟨Addr.BUF_EVENT, 5, 1⟩
def BUF_EVENT_channel_fault : Fld := ⟨Addr.BUF_EVENT, 6, 1⟩
def BUF_EVENT_relocation_done : Fld := ⟨Addr.BUF_EVENT, 7, 1⟩
def BUF_EVENT_quarantine : Fld := ⟨Addr.BUF_EVENT, 8, 1⟩
def BUF_EVENT_pool_apply_done : Fld := ⟨Addr.BUF_EVENT, 9, 1⟩
def BUF_EVENT_seq : Fld := ⟨Addr.BUF_EVENT, 24, 8⟩
def BUF_FREE_ERR_pointer : Fld := ⟨Addr.BUF_FREE_ERR, 0, 28⟩
def BUF_FREE_ERR_requester : Fld := ⟨Addr.BUF_FREE_ERR, 28, 4⟩
def BUF_FREE_ERR_INFO_reason : Fld := ⟨Addr.BUF_FREE_ERR_INFO, 0, 1⟩
def BUF_FREE_ERR_INFO_owner : Fld := ⟨Addr.BUF_FREE_ERR_INFO, 1, 4⟩
def BUF_FREE_ERR_INFO_master_id : Fld := ⟨Addr.BUF_FREE_ERR_INFO, 5, 5⟩
def BUF_CELL_ERR_pointer : Fld := ⟨Addr.BUF_CELL_ERR, 0, 28⟩
def BUF_CELL_ERR_kind : Fld := ⟨Addr.BUF_CELL_ERR, 28, 1⟩
def BUF_QUARANTINED_quarantined : Fld := ⟨Addr.BUF_QUARANTINED, 0, 20⟩
def BUF_HBM_RETIRED_retired : Fld := ⟨Addr.BUF_HBM_RETIRED, 0, 32⟩
def BUF_HBM_SPARE_MAP_replaced : Fld := ⟨Addr.BUF_HBM_SPARE_MAP, 0, 5⟩
def BUF_HBM_SPARE_MAP_in_use : Fld := ⟨Addr.BUF_HBM_SPARE_MAP, 5, 1⟩
def BUF_HBM_RETIRE_channel : Fld := ⟨Addr.BUF_HBM_RETIRE, 0, 5⟩
def BUF_HBM_RETIRE_go : Fld := ⟨Addr.BUF_HBM_RETIRE, 5, 1⟩
def BUF_HBM_RELOC_relocated : Fld := ⟨Addr.BUF_HBM_RELOC, 0, 23⟩
def BUF_CRC_RETIRE_crc_retire_count : Fld := ⟨Addr.BUF_CRC_RETIRE, 0, 16⟩
def BUF_CLASS_POOL_pool_0 : Fld := ⟨Addr.BUF_CLASS_POOL, 0, 4⟩
def BUF_CLASS_POOL_pool_1 : Fld := ⟨Addr.BUF_CLASS_POOL, 4, 4⟩
def BUF_CLASS_POOL_pool_2 : Fld := ⟨Addr.BUF_CLASS_POOL, 8, 4⟩
def BUF_CLASS_POOL_pool_3 : Fld := ⟨Addr.BUF_CLASS_POOL, 12, 4⟩
def BUF_CLASS_POOL_pool_4 : Fld := ⟨Addr.BUF_CLASS_POOL, 16, 4⟩
def BUF_CLASS_POOL_pool_5 : Fld := ⟨Addr.BUF_CLASS_POOL, 20, 4⟩
def BUF_CLASS_POOL_pool_6 : Fld := ⟨Addr.BUF_CLASS_POOL, 24, 4⟩
def BUF_CLASS_POOL_pool_7 : Fld := ⟨Addr.BUF_CLASS_POOL, 28, 4⟩
def BUF_BP_CFG_xon_delta : Fld := ⟨Addr.BUF_BP_CFG, 0, 16⟩
def BUF_PREFETCH_CFG_prefetch_window : Fld := ⟨Addr.BUF_PREFETCH_CFG, 0, 7⟩
def BUF_POOL_APPLY_apply : Fld := ⟨Addr.BUF_POOL_APPLY, 0, 1⟩
def BUF_POOL_APPLY_STATUS_pool_apply_status : Fld := ⟨Addr.BUF_POOL_APPLY_STATUS, 0, 2⟩
def BUF_ONCHIP_AVAIL_onchip_avail : Fld := ⟨Addr.BUF_ONCHIP_AVAIL, 0, 20⟩
def BUF_HBM_AVAIL_hbm_avail : Fld := ⟨Addr.BUF_HBM_AVAIL, 0, 28⟩
def BUF_POOL_EVENT_pool_level_event : Fld := ⟨Addr.BUF_POOL_EVENT, 0, 16⟩
def BUF_POOL_EVENT_seq : Fld := ⟨Addr.BUF_POOL_EVENT, 24, 8⟩
def BUF_POOL_CFG_mode (k : Nat) : Fld := ⟨Addr.BUF_POOL_CFG k, 0, 1⟩
def BUF_POOL_ONCHIP_size_onchip (k : Nat) : Fld := ⟨Addr.BUF_POOL_ONCHIP k, 0, 20⟩
def BUF_POOL_HBM_size_hbm (k : Nat) : Fld := ⟨Addr.BUF_POOL_HBM k, 0, 28⟩
def BUF_POOL_HEADROOM_headroom (k : Nat) : Fld := ⟨Addr.BUF_POOL_HEADROOM k, 0, 20⟩
def BUF_POOL_USED_used_onchip (k : Nat) : Fld := ⟨Addr.BUF_POOL_USED k, 0, 20⟩
def BUF_POOL_USED_HBM_used_hbm (k : Nat) : Fld := ⟨Addr.BUF_POOL_USED_HBM k, 0, 28⟩
def BUF_POOL_STATUS_level (k : Nat) : Fld := ⟨Addr.BUF_POOL_STATUS k, 0, 3⟩
def BUF_POOL_STATUS_bp_active (k : Nat) : Fld := ⟨Addr.BUF_POOL_STATUS k, 3, 1⟩
def BUF_POOL_STATUS_rr_ptr (k : Nat) : Fld := ⟨Addr.BUF_POOL_STATUS k, 4, 4⟩
def BUF_ING_LIMIT_ing_limit (i : Nat) : Fld := ⟨Addr.BUF_ING_LIMIT i, 0, 16⟩
def BUF_ING_LIMIT_ing_xoff (i : Nat) : Fld := ⟨Addr.BUF_ING_LIMIT i, 16, 16⟩
def BUF_QCFG_A_q_limit (x : Nat) : Fld := ⟨Addr.BUF_QCFG_A x, 0, 16⟩
def BUF_QCFG_A_mark_depth (x : Nat) : Fld := ⟨Addr.BUF_QCFG_A x, 16, 16⟩
def BUF_QCFG_B_age_limit (x : Nat) : Fld := ⟨Addr.BUF_QCFG_B x, 0, 24⟩
def BUF_QCFG_B_dei_mark (x : Nat) : Fld := ⟨Addr.BUF_QCFG_B x, 24, 1⟩
def BUF_QCFG_B_ecn_mark (x : Nat) : Fld := ⟨Addr.BUF_QCFG_B x, 25, 1⟩
def BUF_QCFG_C_spill_depth (x : Nat) : Fld := ⟨Addr.BUF_QCFG_C x, 0, 20⟩
def BUF_QSTAT_depth (x : Nat) : Fld := ⟨Addr.BUF_QSTAT x, 0, 28⟩
def BUF_QSTAT_spilled (x : Nat) : Fld := ⟨Addr.BUF_QSTAT x, 28, 1⟩
def BUF_QSTAT_flushing (x : Nat) : Fld := ⟨Addr.BUF_QSTAT x, 29, 1⟩
def PIPE_REP_EVENT_expand_stall (n : Nat) : Fld := ⟨Addr.PIPE_REP_EVENT n, 0, 1⟩
def PIPE_REP_EVENT_mirror_drop (n : Nat) : Fld := ⟨Addr.PIPE_REP_EVENT n, 1, 1⟩
def PIPE_REP_EVENT_latent_error (n : Nat) : Fld := ⟨Addr.PIPE_REP_EVENT n, 2, 1⟩
def PIPE_REP_EVENT_member_silent (n : Nat) : Fld := ⟨Addr.PIPE_REP_EVENT n, 3, 1⟩
def PIPE_REP_EVENT_home_down (n : Nat) : Fld := ⟨Addr.PIPE_REP_EVENT n, 4, 1⟩
def PIPE_REP_EVENT_seq (n : Nat) : Fld := ⟨Addr.PIPE_REP_EVENT n, 24, 8⟩
def PIPE_REP_STATUS_expand_depth (n : Nat) : Fld := ⟨Addr.PIPE_REP_STATUS n, 0, 7⟩
def PIPE_FRER_LAST_index (n : Nat) : Fld := ⟨Addr.PIPE_FRER_LAST n, 0, 14⟩
def PIPE_FRER_LAST_is_stream (n : Nat) : Fld := ⟨Addr.PIPE_FRER_LAST n, 14, 1⟩
def PIPE_FRER_RESET_index (n : Nat) : Fld := ⟨Addr.PIPE_FRER_RESET n, 0, 14⟩
def PIPE_FRER_RESET_target (n : Nat) : Fld := ⟨Addr.PIPE_FRER_RESET n, 14, 1⟩
def PIPE_FRER_RESET_go (n : Nat) : Fld := ⟨Addr.PIPE_FRER_RESET n, 15, 1⟩
def TM_EVENT_sched_state_error : Fld := ⟨Addr.TM_EVENT, 0, 1⟩
def TM_EVENT_policer_state_error : Fld := ⟨Addr.TM_EVENT, 1, 1⟩
def TM_EVENT_seq : Fld := ⟨Addr.TM_EVENT, 24, 8⟩
def TM_ERR_INFO_index : Fld := ⟨Addr.TM_ERR_INFO, 0, 14⟩
def TM_ERR_INFO_kind : Fld := ⟨Addr.TM_ERR_INFO, 14, 2⟩
def TM_LEN_PROFILE_overhead (k : Nat) : Fld := ⟨Addr.TM_LEN_PROFILE k, 0, 7⟩
def TM_CPU_CFG_cpu_mode : Fld := ⟨Addr.TM_CPU_CFG, 0, 1⟩
def TM_CPU_CFG_cpu_wake : Fld := ⟨Addr.TM_CPU_CFG, 1, 1⟩
def TM_CPU_CFG_cpu_shaper_en : Fld := ⟨Addr.TM_CPU_CFG, 2, 1⟩
def TM_CPU_CFG_len_profile : Fld := ⟨Addr.TM_CPU_CFG, 3, 4⟩
def TM_CPU_RATE_rate : Fld := ⟨Addr.TM_CPU_RATE, 0, 32⟩
def TM_CPU_BURST_burst : Fld := ⟨Addr.TM_CPU_BURST, 0, 24⟩
def TM_CPU_TOKENS_tokens : Fld := ⟨Addr.TM_CPU_TOKENS, 0, 32⟩
def TM_PORT_CFG_root_mode (p : Nat) : Fld := ⟨Addr.TM_PORT_CFG p, 0, 1⟩
def TM_PORT_CFG_root_wake (p : Nat) : Fld := ⟨Addr.TM_PORT_CFG p, 1, 1⟩
def TM_PORT_CFG_group_mode (p : Nat) : Fld := ⟨Addr.TM_PORT_CFG p, 2, 4⟩
def TM_PORT_CFG_group_wake (p : Nat) : Fld := ⟨Addr.TM_PORT_CFG p, 6, 4⟩
def TM_PORT_CFG_pshaper_en (p : Nat) : Fld := ⟨Addr.TM_PORT_CFG p, 10, 1⟩
def TM_PORT_CFG_len_profile (p : Nat) : Fld := ⟨Addr.TM_PORT_CFG p, 11, 4⟩
def TM_GROUP_WEIGHT_weight_0 (p : Nat) : Fld := ⟨Addr.TM_GROUP_WEIGHT p, 0, 8⟩
def TM_GROUP_WEIGHT_weight_1 (p : Nat) : Fld := ⟨Addr.TM_GROUP_WEIGHT p, 8, 8⟩
def TM_GROUP_WEIGHT_weight_2 (p : Nat) : Fld := ⟨Addr.TM_GROUP_WEIGHT p, 16, 8⟩
def TM_GROUP_WEIGHT_weight_3 (p : Nat) : Fld := ⟨Addr.TM_GROUP_WEIGHT p, 24, 8⟩
def TM_GROUP_BURST_credit_burst_0 (p : Nat) : Fld := ⟨Addr.TM_GROUP_BURST p, 0, 8⟩
def TM_GROUP_BURST_credit_burst_1 (p : Nat) : Fld := ⟨Addr.TM_GROUP_BURST p, 8, 8⟩
def TM_GROUP_BURST_credit_burst_2 (p : Nat) : Fld := ⟨Addr.TM_GROUP_BURST p, 16, 8⟩
def TM_GROUP_BURST_credit_burst_3 (p : Nat) : Fld := ⟨Addr.TM_GROUP_BURST p, 24, 8⟩
def TM_PSHAPER_RATE_rate (p : Nat) : Fld := ⟨Addr.TM_PSHAPER_RATE p, 0, 32⟩
def TM_PSHAPER_BURST_burst (p : Nat) : Fld := ⟨Addr.TM_PSHAPER_BURST p, 0, 24⟩
def TM_PSHAPER_TOKENS_tokens (p : Nat) : Fld := ⟨Addr.TM_PSHAPER_TOKENS p, 0, 32⟩
def TM_PORT_STATUS_q_eligible (p : Nat) : Fld := ⟨Addr.TM_PORT_STATUS p, 0, 8⟩
def TM_PORT_STATUS_mirror_eligible (p : Nat) : Fld := ⟨Addr.TM_PORT_STATUS p, 8, 1⟩
def TM_PORT_STATUS_port_shaped (p : Nat) : Fld := ⟨Addr.TM_PORT_STATUS p, 9, 1⟩
def TM_PORT_STATUS_hold_active (p : Nat) : Fld := ⟨Addr.TM_PORT_STATUS p, 10, 1⟩
def TM_Q_CFG_group (x : Nat) : Fld := ⟨Addr.TM_Q_CFG x, 0, 2⟩
def TM_Q_CFG_weight (x : Nat) : Fld := ⟨Addr.TM_Q_CFG x, 2, 8⟩
def TM_Q_CFG_credit_burst (x : Nat) : Fld := ⟨Addr.TM_Q_CFG x, 10, 8⟩
def TM_Q_CFG_shaper_en (x : Nat) : Fld := ⟨Addr.TM_Q_CFG x, 18, 1⟩
def TM_Q_CFG_len_profile (x : Nat) : Fld := ⟨Addr.TM_Q_CFG x, 19, 4⟩
def TM_Q_RATE_rate (x : Nat) : Fld := ⟨Addr.TM_Q_RATE x, 0, 32⟩
def TM_Q_BURST_burst (x : Nat) : Fld := ⟨Addr.TM_Q_BURST x, 0, 24⟩
def TM_Q_TOKENS_tokens (x : Nat) : Fld := ⟨Addr.TM_Q_TOKENS x, 0, 32⟩
def KEY_CTRL_auto_resync : Fld := ⟨Addr.KEY_CTRL, 0, 1⟩
def KEY_CTRL_auto_resync_limit : Fld := ⟨Addr.KEY_CTRL, 1, 3⟩
def KEY_COMMAND_force_switch : Fld := ⟨Addr.KEY_COMMAND, 0, 1⟩
def KEY_COMMAND_resync : Fld := ⟨Addr.KEY_COMMAND, 1, 1⟩
def KEY_STATUS_active_unit : Fld := ⟨Addr.KEY_STATUS, 0, 1⟩
def KEY_STATUS_state_a : Fld := ⟨Addr.KEY_STATUS, 1, 3⟩
def KEY_STATUS_state_b : Fld := ⟨Addr.KEY_STATUS, 4, 3⟩
def KEY_STATUS_gap : Fld := ⟨Addr.KEY_STATUS, 7, 1⟩
def KEY_STATUS_replaying : Fld := ⟨Addr.KEY_STATUS, 8, 1⟩
def KEY_STATUS_pair_redundant : Fld := ⟨Addr.KEY_STATUS, 9, 1⟩
def KEY_STATUS_copy_every_n : Fld := ⟨Addr.KEY_STATUS, 16, 3⟩
def KEY_EVENT_switchover : Fld := ⟨Addr.KEY_EVENT, 0, 1⟩
def KEY_EVENT_standby_fault : Fld := ⟨Addr.KEY_EVENT, 1, 1⟩
def KEY_EVENT_resync_done : Fld := ⟨Addr.KEY_EVENT, 2, 1⟩
def KEY_EVENT_resync_fail : Fld := ⟨Addr.KEY_EVENT, 3, 1⟩
def KEY_EVENT_double_fault : Fld := ⟨Addr.KEY_EVENT, 4, 1⟩
def KEY_EVENT_copy_overlong : Fld := ⟨Addr.KEY_EVENT, 5, 1⟩
def KEY_EVENT_log_checkpoint : Fld := ⟨Addr.KEY_EVENT, 6, 1⟩
def KEY_EVENT_force_refused : Fld := ⟨Addr.KEY_EVENT, 7, 1⟩
def KEY_EVENT_seq : Fld := ⟨Addr.KEY_EVENT, 24, 8⟩
def KEY_FAULT_INFO_cause : Fld := ⟨Addr.KEY_FAULT_INFO, 0, 4⟩
def KEY_FAULT_INFO_unit : Fld := ⟨Addr.KEY_FAULT_INFO, 4, 1⟩
def KEY_FAULT_INFO_cause_2 : Fld := ⟨Addr.KEY_FAULT_INFO, 8, 4⟩
def KEY_FAULT_INFO_unit_2 : Fld := ⟨Addr.KEY_FAULT_INFO, 12, 1⟩
def KEY_SWITCH_SEC_LO_sw_sec_lo : Fld := ⟨Addr.KEY_SWITCH_SEC_LO, 0, 32⟩
def KEY_SWITCH_SEC_HI_sw_sec_hi : Fld := ⟨Addr.KEY_SWITCH_SEC_HI, 0, 16⟩
def KEY_SWITCH_NS_sw_ns : Fld := ⟨Addr.KEY_SWITCH_NS, 0, 32⟩
def KEY_COPY_STATUS_last_ckpt_bytes : Fld := ⟨Addr.KEY_COPY_STATUS, 0, 21⟩
def KEY_LOG_STATUS_log_depth : Fld := ⟨Addr.KEY_LOG_STATUS, 0, 11⟩
def KEY_LOG_STATUS_log_peak : Fld := ⟨Addr.KEY_LOG_STATUS, 16, 11⟩
def KEY_MORTAR_STATUS_lanes_up : Fld := ⟨Addr.KEY_MORTAR_STATUS, 0, 4⟩
def KEY_MORTAR_STATUS_heartbeat_ok : Fld := ⟨Addr.KEY_MORTAR_STATUS, 4, 1⟩
def SAF_CTRL_alarm_release : Fld := ⟨Addr.SAF_CTRL, 0, 1⟩
def SAF_CTRL_degraded_alarm : Fld := ⟨Addr.SAF_CTRL, 1, 1⟩
def SAF_CTRL_thermal_hold : Fld := ⟨Addr.SAF_CTRL, 2, 1⟩
def SAF_STATUS_safe_state : Fld := ⟨Addr.SAF_STATUS, 0, 2⟩
def SAF_STATUS_alarm_a : Fld := ⟨Addr.SAF_STATUS, 2, 1⟩
def SAF_STATUS_alarm_b : Fld := ⟨Addr.SAF_STATUS, 3, 1⟩
def SAF_STATUS_channels_agree : Fld := ⟨Addr.SAF_STATUS, 4, 1⟩
def SAF_STATUS_backstop_fired : Fld := ⟨Addr.SAF_STATUS, 5, 1⟩
def SAF_STATUS_persist_count : Fld := ⟨Addr.SAF_STATUS, 6, 9⟩
def SAF_EVENT_fault_masked : Fld := ⟨Addr.SAF_EVENT, 0, 1⟩
def SAF_EVENT_fault_degraded : Fld := ⟨Addr.SAF_EVENT, 1, 1⟩
def SAF_EVENT_safe_hold : Fld := ⟨Addr.SAF_EVENT, 2, 1⟩
def SAF_EVENT_tmr_corrected : Fld := ⟨Addr.SAF_EVENT, 3, 1⟩
def SAF_EVENT_time_alarm : Fld := ⟨Addr.SAF_EVENT, 4, 1⟩
def SAF_EVENT_over_temp : Fld := ⟨Addr.SAF_EVENT, 5, 1⟩
def SAF_EVENT_channel_disagree : Fld := ⟨Addr.SAF_EVENT, 6, 1⟩
def SAF_EVENT_alarm_test_done : Fld := ⟨Addr.SAF_EVENT, 7, 1⟩
def SAF_EVENT_seq : Fld := ⟨Addr.SAF_EVENT, 24, 8⟩
def SAF_FAULT_INFO_diag : Fld := ⟨Addr.SAF_FAULT_INFO, 0, 8⟩
def SAF_FAULT_INFO_class : Fld := ⟨Addr.SAF_FAULT_INFO, 8, 3⟩
def SAF_FAULT_INFO_instance : Fld := ⟨Addr.SAF_FAULT_INFO, 11, 16⟩
def SAF_FAULT_SEC_LO_f_sec_lo : Fld := ⟨Addr.SAF_FAULT_SEC_LO, 0, 32⟩
def SAF_FAULT_SEC_HI_f_sec_hi : Fld := ⟨Addr.SAF_FAULT_SEC_HI, 0, 16⟩
def SAF_FAULT_NS_f_ns : Fld := ⟨Addr.SAF_FAULT_NS, 0, 32⟩
def SAF_SAFETY_QMAP_safety_q : Fld := ⟨Addr.SAF_SAFETY_QMAP, 0, 8⟩
def SAF_SAFETY_CPUQ_LO_cpuq_lo : Fld := ⟨Addr.SAF_SAFETY_CPUQ_LO, 0, 32⟩
def SAF_SAFETY_CPUQ_HI_cpuq_hi : Fld := ⟨Addr.SAF_SAFETY_CPUQ_HI, 0, 32⟩
def SAF_ALARM_TEST_test_a : Fld := ⟨Addr.SAF_ALARM_TEST, 0, 1⟩
def SAF_ALARM_TEST_test_b : Fld := ⟨Addr.SAF_ALARM_TEST, 1, 1⟩
def SAF_TIME_ALARM_time_alarm_threshold : Fld := ⟨Addr.SAF_TIME_ALARM, 0, 32⟩
def SAF_TEMP_junction_temp : Fld := ⟨Addr.SAF_TEMP, 0, 16⟩
def HIF_STATUS_link_speed : Fld := ⟨Addr.HIF_STATUS, 0, 3⟩
def HIF_STATUS_link_width : Fld := ⟨Addr.HIF_STATUS, 3, 4⟩
def HIF_STATUS_link_up : Fld := ⟨Addr.HIF_STATUS, 7, 1⟩
def HIF_STATUS_vfs_enabled : Fld := ⟨Addr.HIF_STATUS, 8, 4⟩
def HIF_STATUS_event_overflow : Fld := ⟨Addr.HIF_STATUS, 12, 1⟩
def HIF_EVENT_ring_fault : Fld := ⟨Addr.HIF_EVENT, 0, 1⟩
def HIF_EVENT_cq_stall : Fld := ⟨Addr.HIF_EVENT, 1, 1⟩
def HIF_EVENT_event_lost : Fld := ⟨Addr.HIF_EVENT, 2, 1⟩
def HIF_EVENT_flr : Fld := ⟨Addr.HIF_EVENT, 3, 1⟩
def HIF_EVENT_link_down : Fld := ⟨Addr.HIF_EVENT, 4, 1⟩
def HIF_EVENT_own_stall : Fld := ⟨Addr.HIF_EVENT, 5, 1⟩
def HIF_EVENT_seq : Fld := ⟨Addr.HIF_EVENT, 24, 8⟩
def HIF_RING_FAULT_INFO_ring : Fld := ⟨Addr.HIF_RING_FAULT_INFO, 0, 9⟩
def HIF_RING_FAULT_INFO_cause : Fld := ⟨Addr.HIF_RING_FAULT_INFO, 9, 2⟩
def HIF_EPOCH_config_epoch : Fld := ⟨Addr.HIF_EPOCH, 0, 32⟩
def HIF_LOG_FIRST_LO_seq_lo : Fld := ⟨Addr.HIF_LOG_FIRST_LO, 0, 32⟩
def HIF_LOG_FIRST_HI_seq_hi : Fld := ⟨Addr.HIF_LOG_FIRST_HI, 0, 16⟩
def HIF_LOG_LAST_LO_seq_lo : Fld := ⟨Addr.HIF_LOG_LAST_LO, 0, 32⟩
def HIF_LOG_LAST_HI_seq_hi : Fld := ⟨Addr.HIF_LOG_LAST_HI, 0, 16⟩
def HIF_EVENT_MASK_block_mask : Fld := ⟨Addr.HIF_EVENT_MASK, 0, 16⟩
def HIF_FN_VERSION_version (f : Nat) : Fld := ⟨Addr.HIF_FN_VERSION f, 0, 16⟩
def HIF_FN_VERSION_open (f : Nat) : Fld := ⟨Addr.HIF_FN_VERSION f, 16, 1⟩
def HIF_CPUQ_MAP_rx_ring (c : Nat) : Fld := ⟨Addr.HIF_CPUQ_MAP c, 0, 6⟩
def HIF_CPUQ_MAP_enable (c : Nat) : Fld := ⟨Addr.HIF_CPUQ_MAP c, 6, 1⟩
def HIF_RING_BASE_LO_base_lo (r : Nat) : Fld := ⟨Addr.HIF_RING_BASE_LO r, 0, 32⟩
def HIF_RING_BASE_HI_base_hi (r : Nat) : Fld := ⟨Addr.HIF_RING_BASE_HI r, 0, 32⟩
def HIF_RING_CFG_log2_size (r : Nat) : Fld := ⟨Addr.HIF_RING_CFG r, 0, 5⟩
def HIF_RING_CFG_enable (r : Nat) : Fld := ⟨Addr.HIF_RING_CFG r, 5, 1⟩
def HIF_RING_CFG_owner_fn (r : Nat) : Fld := ⟨Addr.HIF_RING_CFG r, 6, 4⟩
def HIF_RING_CFG_polling (r : Nat) : Fld := ⟨Addr.HIF_RING_CFG r, 10, 1⟩
def HIF_RING_CFG_ro_payload (r : Nat) : Fld := ⟨Addr.HIF_RING_CFG r, 11, 1⟩
def HIF_RING_CFG_ns_payload (r : Nat) : Fld := ⟨Addr.HIF_RING_CFG r, 12, 1⟩
def HIF_RING_CFG_msix_vector (r : Nat) : Fld := ⟨Addr.HIF_RING_CFG r, 13, 6⟩
def HIF_RING_CFG_comp_ring (r : Nat) : Fld := ⟨Addr.HIF_RING_CFG r, 19, 6⟩
def HIF_RING_CFG2_buf_units (r : Nat) : Fld := ⟨Addr.HIF_RING_CFG2 r, 0, 9⟩
def HIF_RING_CFG2_mod_time (r : Nat) : Fld := ⟨Addr.HIF_RING_CFG2 r, 12, 12⟩
def HIF_RING_CFG2_mod_count (r : Nat) : Fld := ⟨Addr.HIF_RING_CFG2 r, 24, 8⟩
def HIF_RING_HEAD_head (r : Nat) : Fld := ⟨Addr.HIF_RING_HEAD r, 0, 17⟩
def HIF_RING_TAIL_tail (r : Nat) : Fld := ⟨Addr.HIF_RING_TAIL r, 0, 17⟩
def HIF_RING_STATUS_state (r : Nat) : Fld := ⟨Addr.HIF_RING_STATUS r, 0, 2⟩
def HIF_RING_STATUS_cause (r : Nat) : Fld := ⟨Addr.HIF_RING_STATUS r, 2, 2⟩
def HIF_RING_POLL_poll_interval (r : Nat) : Fld := ⟨Addr.HIF_RING_POLL r, 0, 16⟩
def DMA_STATUS_active_ch : Fld := ⟨Addr.DMA_STATUS, 0, 5⟩
def DMA_STATUS_busy : Fld := ⟨Addr.DMA_STATUS, 5, 1⟩
def DMA_STATUS_leave_held : Fld := ⟨Addr.DMA_STATUS, 6, 1⟩
def DMA_EVENT_ch_halted : Fld := ⟨Addr.DMA_EVENT, 0, 1⟩
def DMA_EVENT_last_beat_error : Fld := ⟨Addr.DMA_EVENT, 1, 1⟩
def DMA_EVENT_own_stall : Fld := ⟨Addr.DMA_EVENT, 2, 1⟩
def DMA_EVENT_leave_refused : Fld := ⟨Addr.DMA_EVENT, 3, 1⟩
def DMA_EVENT_staging_ecc : Fld := ⟨Addr.DMA_EVENT, 4, 1⟩
def DMA_EVENT_cells_refused : Fld := ⟨Addr.DMA_EVENT, 5, 1⟩
def DMA_EVENT_seq : Fld := ⟨Addr.DMA_EVENT, 24, 8⟩
def DMA_HALT_INFO_channel : Fld := ⟨Addr.DMA_HALT_INFO, 0, 5⟩
def DMA_HALT_INFO_cause : Fld := ⟨Addr.DMA_HALT_INFO, 5, 4⟩
def DMA_LEAVE_THRESHOLD_leave_threshold : Fld := ⟨Addr.DMA_LEAVE_THRESHOLD, 0, 32⟩
def DMA_LEAVE_COST_leave_cost : Fld := ⟨Addr.DMA_LEAVE_COST, 0, 16⟩
def DMA_CH_BASE_LO_base_lo (c : Nat) : Fld := ⟨Addr.DMA_CH_BASE_LO c, 0, 32⟩
def DMA_CH_BASE_HI_base_hi (c : Nat) : Fld := ⟨Addr.DMA_CH_BASE_HI c, 0, 32⟩
def DMA_CH_CFG_log2_size (c : Nat) : Fld := ⟨Addr.DMA_CH_CFG c, 0, 5⟩
def DMA_CH_CFG_enable (c : Nat) : Fld := ⟨Addr.DMA_CH_CFG c, 5, 1⟩
def DMA_CH_CFG_owner_fn (c : Nat) : Fld := ⟨Addr.DMA_CH_CFG c, 6, 4⟩
def DMA_CH_CFG_prio (c : Nat) : Fld := ⟨Addr.DMA_CH_CFG c, 10, 2⟩
def DMA_CH_CFG_msix_vector (c : Nat) : Fld := ⟨Addr.DMA_CH_CFG c, 12, 6⟩
def DMA_CH_CTRL_restart (c : Nat) : Fld := ⟨Addr.DMA_CH_CTRL c, 0, 1⟩
def DMA_CH_HEAD_head (c : Nat) : Fld := ⟨Addr.DMA_CH_HEAD c, 0, 17⟩
def DMA_CH_TAIL_tail (c : Nat) : Fld := ⟨Addr.DMA_CH_TAIL c, 0, 17⟩
def DMA_CH_STATUS_state (c : Nat) : Fld := ⟨Addr.DMA_CH_STATUS c, 0, 3⟩
def DMA_CH_STATUS_cause (c : Nat) : Fld := ⟨Addr.DMA_CH_STATUS c, 3, 4⟩
def SYS_ID_part_number : Fld := ⟨Addr.SYS_ID, 0, 16⟩
def SYS_ID_ordering_code : Fld := ⟨Addr.SYS_ID, 16, 2⟩
def SYS_ID_stepping : Fld := ⟨Addr.SYS_ID, 24, 4⟩
def SYS_SERIAL_LO_serial_lo : Fld := ⟨Addr.SYS_SERIAL_LO, 0, 32⟩
def SYS_SERIAL_HI_serial_hi : Fld := ⟨Addr.SYS_SERIAL_HI, 0, 32⟩
def SYS_UNLOCK_key : Fld := ⟨Addr.SYS_UNLOCK, 0, 16⟩
def SYS_ARMED_armed : Fld := ⟨Addr.SYS_ARMED, 0, 32⟩
def SYS_STATUS_device_state : Fld := ⟨Addr.SYS_STATUS, 0, 3⟩
def SYS_EVENT_key_refused : Fld := ⟨Addr.SYS_EVENT, 0, 1⟩
def SYS_EVENT_bad_width : Fld := ⟨Addr.SYS_EVENT, 1, 1⟩
def SYS_EVENT_seq : Fld := ⟨Addr.SYS_EVENT, 24, 8⟩
def SYS_KEY_ERR_address : Fld := ⟨Addr.SYS_KEY_ERR, 0, 25⟩
def SYS_KEY_ERR_master : Fld := ⟨Addr.SYS_KEY_ERR, 25, 5⟩
def SYS_TMR_ERR_address : Fld := ⟨Addr.SYS_TMR_ERR, 0, 25⟩
def SYS_TMR_ERR_all_differ : Fld := ⟨Addr.SYS_TMR_ERR, 25, 1⟩
def SYS_TMR_ERR_BITS_bits : Fld := ⟨Addr.SYS_TMR_ERR_BITS, 0, 32⟩
def SYS_SCRATCH_scratch : Fld := ⟨Addr.SYS_SCRATCH, 0, 32⟩
def ACC_EVENT_read_denied : Fld := ⟨Addr.ACC_EVENT, 0, 1⟩
def ACC_EVENT_write_denied : Fld := ⟨Addr.ACC_EVENT, 1, 1⟩
def ACC_EVENT_cmd_denied : Fld := ⟨Addr.ACC_EVENT, 2, 1⟩
def ACC_EVENT_table_refused : Fld := ⟨Addr.ACC_EVENT, 3, 1⟩
def ACC_EVENT_seq : Fld := ⟨Addr.ACC_EVENT, 24, 8⟩
def ACC_VIOL_ADDR_address : Fld := ⟨Addr.ACC_VIOL_ADDR, 0, 25⟩
def ACC_VIOL_INFO_master : Fld := ⟨Addr.ACC_VIOL_INFO, 0, 5⟩
def ACC_VIOL_INFO_kind : Fld := ⟨Addr.ACC_VIOL_INFO, 5, 2⟩
def ACC_VIOL_INFO_target : Fld := ⟨Addr.ACC_VIOL_INFO, 8, 8⟩
def ACC_VIOL_INFO_opcode : Fld := ⟨Addr.ACC_VIOL_INFO, 16, 16⟩
def ACC_TABLE_region_0 (t m : Nat) : Fld := ⟨Addr.ACC_TABLE t m, 0, 2⟩
def ACC_TABLE_region_1 (t m : Nat) : Fld := ⟨Addr.ACC_TABLE t m, 2, 2⟩
def ACC_TABLE_region_2 (t m : Nat) : Fld := ⟨Addr.ACC_TABLE t m, 4, 2⟩
def ACC_TABLE_region_3 (t m : Nat) : Fld := ⟨Addr.ACC_TABLE t m, 6, 2⟩
def ACC_TABLE_region_4 (t m : Nat) : Fld := ⟨Addr.ACC_TABLE t m, 8, 2⟩
def ACC_TABLE_region_5 (t m : Nat) : Fld := ⟨Addr.ACC_TABLE t m, 10, 2⟩
def ACC_TABLE_region_6 (t m : Nat) : Fld := ⟨Addr.ACC_TABLE t m, 12, 2⟩
def ACC_TABLE_region_7 (t m : Nat) : Fld := ⟨Addr.ACC_TABLE t m, 14, 2⟩
def ACC_TABLE_region_8 (t m : Nat) : Fld := ⟨Addr.ACC_TABLE t m, 16, 2⟩
def ACC_TABLE_region_9 (t m : Nat) : Fld := ⟨Addr.ACC_TABLE t m, 18, 2⟩
def ACC_TABLE_region_10 (t m : Nat) : Fld := ⟨Addr.ACC_TABLE t m, 20, 2⟩
def ACC_TABLE_region_11 (t m : Nat) : Fld := ⟨Addr.ACC_TABLE t m, 22, 2⟩
def ACC_TABLE_region_12 (t m : Nat) : Fld := ⟨Addr.ACC_TABLE t m, 24, 2⟩
def ACC_TABLE_region_13 (t m : Nat) : Fld := ⟨Addr.ACC_TABLE t m, 26, 2⟩
def ACC_TABLE_region_14 (t m : Nat) : Fld := ⟨Addr.ACC_TABLE t m, 28, 2⟩
def ACC_TABLE_region_15 (t m : Nat) : Fld := ⟨Addr.ACC_TABLE t m, 30, 2⟩
def CNT_CTRL_dump_mode : Fld := ⟨Addr.CNT_CTRL, 0, 2⟩
def CNT_DUMP_EVERY_N_dump_every_n : Fld := ⟨Addr.CNT_DUMP_EVERY_N, 0, 16⟩
def CNT_DUMP_INTERVAL_dump_interval : Fld := ⟨Addr.CNT_DUMP_INTERVAL, 0, 24⟩
def CNT_DUMP_MASK_group_mask : Fld := ⟨Addr.CNT_DUMP_MASK, 0, 29⟩
def CNT_DUMP_STATUS_n_eff : Fld := ⟨Addr.CNT_DUMP_STATUS, 0, 16⟩
def CNT_DUMP_STATUS_writing : Fld := ⟨Addr.CNT_DUMP_STATUS, 16, 1⟩
def CNT_DUMP_STATUS_paused : Fld := ⟨Addr.CNT_DUMP_STATUS, 17, 1⟩
def CNT_EVENT_dump_written : Fld := ⟨Addr.CNT_EVENT, 0, 1⟩
def CNT_EVENT_dump_overrun : Fld := ⟨Addr.CNT_EVENT, 1, 1⟩
def CNT_EVENT_dump_skipped : Fld := ⟨Addr.CNT_EVENT, 2, 1⟩
def CNT_EVENT_pc_overflow : Fld := ⟨Addr.CNT_EVENT, 3, 1⟩
def CNT_EVENT_seq : Fld := ⟨Addr.CNT_EVENT, 24, 8⟩
def CNT_LAST_SEQ_snap_seq : Fld := ⟨Addr.CNT_LAST_SEQ, 0, 32⟩
def CNT_RD_ADDR_counter : Fld := ⟨Addr.CNT_RD_ADDR, 0, 6⟩
def CNT_RD_ADDR_instance : Fld := ⟨Addr.CNT_RD_ADDR, 6, 14⟩
def CNT_RD_ADDR_group : Fld := ⟨Addr.CNT_RD_ADDR, 20, 5⟩
def CNT_RD_VAL_LO_val_lo : Fld := ⟨Addr.CNT_RD_VAL_LO, 0, 32⟩
def CNT_RD_VAL_HI_val_hi : Fld := ⟨Addr.CNT_RD_VAL_HI, 0, 32⟩
def CNT_RD_STATUS_valid : Fld := ⟨Addr.CNT_RD_STATUS, 0, 1⟩
def CNT_RD_STATUS_bad_addr : Fld := ⟨Addr.CNT_RD_STATUS, 1, 1⟩
def CNT_PC_OVF_ovf (j : Nat) : Fld := ⟨Addr.CNT_PC_OVF j, 0, 32⟩
def CNT_PC_CFG_enable (k : Nat) : Fld := ⟨Addr.CNT_PC_CFG k, 0, 1⟩
def CNT_PC_CFG_mode (k : Nat) : Fld := ⟨Addr.CNT_PC_CFG k, 1, 1⟩
def CNT_PC_CFG_chain (k : Nat) : Fld := ⟨Addr.CNT_PC_CFG k, 2, 1⟩
def CNT_PC_CFG_src_bit (k : Nat) : Fld := ⟨Addr.CNT_PC_CFG k, 3, 5⟩
def CNT_PC_CFG_src_word (k : Nat) : Fld := ⟨Addr.CNT_PC_CFG k, 9, 23⟩
def CNT_PC_VAL_value (k : Nat) : Fld := ⟨Addr.CNT_PC_VAL k, 0, 32⟩
def PWR_CTRL_leave_timeout : Fld := ⟨Addr.PWR_CTRL, 0, 16⟩
def PWR_CTRL_wake_boot : Fld := ⟨Addr.PWR_CTRL, 16, 1⟩
def PWR_STATUS_off : Fld := ⟨Addr.PWR_STATUS, 0, 1⟩
def PWR_STATUS_over_budget : Fld := ⟨Addr.PWR_STATUS, 1, 1⟩
def PWR_STATUS_queue_depth : Fld := ⟨Addr.PWR_STATUS, 2, 5⟩
def PWR_STATUS_boot_status : Fld := ⟨Addr.PWR_STATUS, 7, 4⟩
def PWR_EVENT_leave_refused : Fld := ⟨Addr.PWR_EVENT, 0, 1⟩
def PWR_EVENT_domain_change : Fld := ⟨Addr.PWR_EVENT, 1, 1⟩
def PWR_EVENT_off_access : Fld := ⟨Addr.PWR_EVENT, 2, 1⟩
def PWR_EVENT_over_budget : Fld := ⟨Addr.PWR_EVENT, 3, 1⟩
def PWR_EVENT_seq : Fld := ⟨Addr.PWR_EVENT, 24, 8⟩
def PWR_BUDGET_budget : Fld := ⟨Addr.PWR_BUDGET, 0, 16⟩
def PWR_LEDGER_permanent : Fld := ⟨Addr.PWR_LEDGER, 0, 16⟩
def PWR_LEDGER_transient : Fld := ⟨Addr.PWR_LEDGER, 16, 16⟩
def PWR_DOMAIN_ON_LO_on_lo : Fld := ⟨Addr.PWR_DOMAIN_ON_LO, 0, 32⟩
def PWR_DOMAIN_ON_HI_on_hi : Fld := ⟨Addr.PWR_DOMAIN_ON_HI, 0, 6⟩
def PWR_REQ_INFO_requester : Fld := ⟨Addr.PWR_REQ_INFO, 0, 3⟩
def PWR_REQ_INFO_domain : Fld := ⟨Addr.PWR_REQ_INFO, 3, 6⟩
def PWR_REQ_INFO_cost : Fld := ⟨Addr.PWR_REQ_INFO, 9, 16⟩
def PWR_REQ_INFO_reason : Fld := ⟨Addr.PWR_REQ_INFO, 25, 4⟩
def PWR_OFF_ADDR_address : Fld := ⟨Addr.PWR_OFF_ADDR, 0, 25⟩
def PWR_OFF_ADDR_master : Fld := ⟨Addr.PWR_OFF_ADDR, 25, 5⟩
def PWR_RESET_CAUSE_cause : Fld := ⟨Addr.PWR_RESET_CAUSE, 0, 2⟩
def PWR_SW_RESET_go : Fld := ⟨Addr.PWR_SW_RESET, 0, 1⟩
def PWR_CHARGE_charge (d : Nat) : Fld := ⟨Addr.PWR_CHARGE d, 0, 16⟩
def SEC_STATUS_rng_ok : Fld := ⟨Addr.SEC_STATUS, 0, 1⟩
def SEC_STATUS_debug_authorised : Fld := ⟨Addr.SEC_STATUS, 1, 1⟩
def SEC_STATUS_owner_locked : Fld := ⟨Addr.SEC_STATUS, 2, 1⟩
def SEC_STATUS_slot1_active : Fld := ⟨Addr.SEC_STATUS, 3, 1⟩
def SEC_STATUS_slot2_active : Fld := ⟨Addr.SEC_STATUS, 4, 1⟩
def SEC_STATUS_hss_exhausted : Fld := ⟨Addr.SEC_STATUS, 5, 1⟩
def SEC_STATUS_fw_update_busy : Fld := ⟨Addr.SEC_STATUS, 6, 1⟩
def SEC_STATUS_attest_credit : Fld := ⟨Addr.SEC_STATUS, 7, 7⟩
def SEC_STATUS_revoked_count : Fld := ⟨Addr.SEC_STATUS, 14, 5⟩
def SEC_EVENT_verify_fail : Fld := ⟨Addr.SEC_EVENT, 0, 1⟩
def SEC_EVENT_rollback_refused : Fld := ⟨Addr.SEC_EVENT, 1, 1⟩
def SEC_EVENT_rng_fail : Fld := ⟨Addr.SEC_EVENT, 2, 1⟩
def SEC_EVENT_hss_low : Fld := ⟨Addr.SEC_EVENT, 3, 1⟩
def SEC_EVENT_manifest_written : Fld := ⟨Addr.SEC_EVENT, 4, 1⟩
def SEC_EVENT_debug_authorised : Fld := ⟨Addr.SEC_EVENT, 5, 1⟩
def SEC_EVENT_fw_update_done : Fld := ⟨Addr.SEC_EVENT, 6, 1⟩
def SEC_EVENT_seq : Fld := ⟨Addr.SEC_EVENT, 24, 8⟩
def SEC_VERIFY_INFO_object_type : Fld := ⟨Addr.SEC_VERIFY_INFO, 0, 3⟩
def SEC_VERIFY_INFO_reason : Fld := ⟨Addr.SEC_VERIFY_INFO, 3, 4⟩
def SEC_VERIFY_INFO_rollback_class : Fld := ⟨Addr.SEC_VERIFY_INFO, 8, 4⟩
def SEC_FW_INFO_fw_slot : Fld := ⟨Addr.SEC_FW_INFO, 0, 1⟩
def SEC_FW_VERSION_fw_version : Fld := ⟨Addr.SEC_FW_VERSION, 0, 32⟩
def SEC_HSS_INDEX_next_index : Fld := ⟨Addr.SEC_HSS_INDEX, 0, 31⟩
def SEC_RANDOM_random : Fld := ⟨Addr.SEC_RANDOM, 0, 32⟩
def SEC_CERT_SEL_cert : Fld := ⟨Addr.SEC_CERT_SEL, 0, 2⟩
def SEC_CERT_LEN_length : Fld := ⟨Addr.SEC_CERT_LEN, 0, 14⟩
def SEC_ROLLBACK_counter (c : Nat) : Fld := ⟨Addr.SEC_ROLLBACK c, 0, 32⟩
def SEC_CERT_DATA_data (i : Nat) : Fld := ⟨Addr.SEC_CERT_DATA i, 0, 32⟩
def PLB_CTRL_hbm_step_en : Fld := ⟨Addr.PLB_CTRL, 0, 1⟩
def PLB_STATUS_plb_state : Fld := ⟨Addr.PLB_STATUS, 0, 2⟩
def PLB_STATUS_step : Fld := ⟨Addr.PLB_STATUS, 2, 3⟩
def PLB_STATUS_record_used : Fld := ⟨Addr.PLB_STATUS, 5, 1⟩
def PLB_STATUS_boot_test_run : Fld := ⟨Addr.PLB_STATUS, 6, 1⟩
def PLB_STATUS_abandoned : Fld := ⟨Addr.PLB_STATUS, 7, 1⟩
def PLB_STATUS_group : Fld := ⟨Addr.PLB_STATUS, 8, 5⟩
def PLB_EVENT_plumb_done : Fld := ⟨Addr.PLB_EVENT, 0, 1⟩
def PLB_EVENT_net_fail : Fld := ⟨Addr.PLB_EVENT, 1, 1⟩
def PLB_EVENT_step_skipped : Fld := ⟨Addr.PLB_EVENT, 2, 1⟩
def PLB_EVENT_group_done : Fld := ⟨Addr.PLB_EVENT, 3, 1⟩
def PLB_EVENT_record_invalid : Fld := ⟨Addr.PLB_EVENT, 4, 1⟩
def PLB_EVENT_seq : Fld := ⟨Addr.PLB_EVENT, 24, 8⟩
def PLB_NETS_nets_total : Fld := ⟨Addr.PLB_NETS, 0, 16⟩
def PLB_NETS_nets_tested : Fld := ⟨Addr.PLB_NETS, 16, 16⟩
def PLB_RESULT_coverage : Fld := ⟨Addr.PLB_RESULT, 0, 10⟩
def PLB_RESULT_nets_failed : Fld := ⟨Addr.PLB_RESULT, 16, 16⟩
def PLB_STEPS_steps_run : Fld := ⟨Addr.PLB_STEPS, 0, 6⟩
def PLB_STEPS_steps_skipped : Fld := ⟨Addr.PLB_STEPS, 8, 6⟩
def PLB_DURATION_duration : Fld := ⟨Addr.PLB_DURATION, 0, 24⟩
def PLB_GROUP_RESULT_group_failed : Fld := ⟨Addr.PLB_GROUP_RESULT, 0, 10⟩
def PLB_GROUP_RESULT_valid : Fld := ⟨Addr.PLB_GROUP_RESULT, 10, 1⟩
def PLB_FAIL_class (i : Nat) : Fld := ⟨Addr.PLB_FAIL i, 0, 3⟩
def PLB_FAIL_kind (i : Nat) : Fld := ⟨Addr.PLB_FAIL i, 3, 2⟩
def PLB_FAIL_instance (i : Nat) : Fld := ⟨Addr.PLB_FAIL i, 5, 11⟩
def PLB_FAIL_net (i : Nat) : Fld := ⟨Addr.PLB_FAIL i, 16, 12⟩
def PLB_FAIL_step (i : Nat) : Fld := ⟨Addr.PLB_FAIL i, 28, 3⟩

end F

end Sys2Proof.Machine
end

