-- ==== Sys2Proof/Config.lean ====
section
/-! DEFINITION. What the manual leaves open or names by an external standard alone, as constants without a body: nothing
in Lean can evaluate them, so a statement holds for every value of them. -/

namespace Sys2Proof

/-- Fresh values the manual leaves open: DRBG output (R420), the way evicted at random (R168), the cell a free list gives
out (R199), the start of an unstated choice. Applied to a counter of the state that every use advances
(notes/assumptions/3.md). -/
opaque Config.freeNat : Nat → Nat

/-- SHA-384 of a run of bytes, as a 384-bit number, most significant byte first (R404, R418). -/
opaque Config.sha384 : Blob → BitVec 384

/-- Outcome of an ECDSA P-384 verification of a message under a public key (R404, R406 step 6). -/
opaque Config.ecdsaOk : Blob → Blob → Blob → Bool

/-- Outcome of an HSS verification of a message under a public key, type codes included (R404, R406 step 6). -/
opaque Config.hssOk : Blob → Blob → Blob → Bool

/-- Byte `i` of the ECDSA signature of a message under the identity key, drawn with the nonce of a DRBG position (R419). -/
opaque Config.ecdsaSig : Nat → Blob → Nat → Byte

/-- Byte `i` of the HSS signature of a message under the identity key at an index (R416, R419). -/
opaque Config.hssSig : Nat → Blob → Nat → Byte

/-- Whether the read-back of the n-th flash slot write matches (R412). -/
opaque Config.flashOk : Nat → Bool

/-- What the n-th flash slot write leaves in the slot when its read-back does not match (R412). -/
opaque Config.flashLeft : Nat → Blob

end Sys2Proof
end

