-- ==== Sys2Proof/Machine/State.lean ====
section
/-! DEFINITION. The state of the block as plain data, the faults and refusals, and the state after reset. Registers live
in one sparse word store (an unlisted register reads its reset value, Machine/RegMap.lean); counters in one sparse store
keyed by the counter address of R377; what is not a register has a field of its own below. -/

namespace Sys2Proof.Machine

/-- No command of this block stops the machine with a fault: every command has an effect the manual gives it. -/
inductive Fault where
  /-- Raised by nobody (kept because the interface asks for a reason type): safe. -/
  | unreachable
  deriving DecidableEq, Repr

/-- Reasons for which a command is refused. -/
inductive Refusal where
  /-- A constructor whose meaning is not written: raised by the dispatcher alone. Safe. -/
  | notModelled (mnemonic : String)
  deriving DecidableEq, Repr

/-- The device states of R400; OFF is not a value of device_state, which keeps PARKING's. -/
inductive DevState where
  | boot | config | ready | degraded | safeHold | parking | off
  deriving DecidableEq, Repr

/-- What is fixed per part at manufacture or sampled from straps (R1, R373, R445). -/
structure Part where
  en : Bool
  stepping : Nat
  serial : Nat
  straps : BitVec 16
  deriving DecidableEq, Repr

/-- Event count and latch of one SQC register (R368): `advanced` is the core cycle in which the count advanced last, `events` are
the bits raised in it, and `cleared` the core cycle of the last clearing write with the bits it cleared. -/
structure Sqc where
  count : BitVec 16
  latch : BitVec 16
  advanced : Option Nat
  events : Word
  cleared : Option (Nat × Word)
  deriving DecidableEq, Repr

/-! ### Host interface -/

/-- Why an accepted command has not completed yet (R331). -/
inductive Wait where
  | keystone                                  -- deferred by a Keystone switchover gap (R286)
  | flush                                     -- TABLE_FLUSH until every powered pipeline has ended its pass (R175)
  | domainOn (dom : Nat)                      -- POWER_DOMAIN until the domain is up (R390)
  | leave (requester key : Nat)               -- until a queued leave request is decided (R393)
  | drain (ring : Nat)                        -- the load of a ring, held while its bank drains (R150)
  | security                                  -- until the security unit has ended the work accepted before it (R405)
  | snapshot                                  -- COUNTER_SNAPSHOT until its record is written or skipped (R383)
  | group (g : Nat)                           -- PLUMB_GROUP until its test has ended (R430)
  | flash (image : Blob)                      -- FW_UPDATE until both flash slots are written (R412)
  -- RUN_BUNDLE between its items: items left, whether the bundle names this serial, items completed, and the outcome of
  -- the item that ran last (R414)
  | bundle (left : List (List Byte)) (bound : Bool) (ran : Nat) (last : Option Nat)
  deriving DecidableEq, Repr

/-- An accepted command that has not completed. `noComp`: no completion is written (R314); `parent`: sequence number of the
RUN_BUNDLE whose item it is, 0 for a command of a ring (R414). `obj`: the object in its input block, read once at acceptance (R405),
or the head of the report that an ATTEST signs (R418). -/
structure InFlight where
  ring : Nat
  fn : Nat
  opcode : Nat
  tag : Nat
  seq : Nat
  noComp : Bool
  parent : Nat
  desc : CmdDesc
  obj : Blob
  wait : Wait
  deriving DecidableEq, Repr

/-- One entry of the Observing log (R341). -/
structure LogEntry where
  seq : Nat
  ring : Nat
  master : Nat
  result : Nat
  opcode : Nat
  digest : Nat
  tag : Nat
  sec : Nat
  ns : Nat
  epoch : Nat
  deriving DecidableEq, Repr

/-- Interrupt moderation and descriptor reservation of a ring (R326, R338). -/
structure RingRun where
  unsignalled : Nat
  reserved : Nat
  stopping : Bool
  deriving DecidableEq, Repr

/-- A completion written to the entry at `head` of completion ring `q`, with what it took the place of: the bytes at `addr`, the
entries not signalled and the messages sent with the ring's vector. `taken` is the function whose command, accepted in the same core
cycle, it ends (R314). -/
structure Written where
  q : Nat
  taken : Option Nat
  head : Nat
  addr : Nat
  before : List Byte
  unsignalled : Nat
  sent : Nat
  bytes : List Byte
  deriving DecidableEq, Repr

/-- Host interface state beside its registers: negotiated versions and ring indices are registers. `accepted` are the sequence
numbers of the commands accepted in the core cycle it names, and `written` the completions written in the core cycle it names (R314).
`fenced` are the commands taken, with their opcodes, that a fence keeps from being accepted (R323); `denied` is the core cycle of the
access denied last (R366); `txLast` is the TX ring served last (R336). -/
structure Hif where
  rings : SMap RingRun
  inflight : List InFlight
  log : List LogEntry
  nextSeq : Nat
  msix : SMap Nat
  accepted : Nat × List Nat
  denied : Option Nat
  written : Nat × List Written
  fenced : List (Nat × CmdDesc)
  txLast : Nat
  deriving DecidableEq, Repr

/-! ### Images and calendars -/

/-- What each bank keeps of its signed object (R411, R418). -/
structure Signed where
  cls : Nat
  version : Nat
  advance : Bool
  measure : BitVec 384
  deriving DecidableEq, Repr

/-- One Ephemeris bank (R94): header and slot records as loaded, by byte offset (R95, R97). -/
structure EphBank where
  valid : Bool
  blob : Blob
  sig : Signed
  badSlots : List Nat
  deriving DecidableEq, Repr

/-- One Ashlar bank (R143): the 256-byte header and the sections as loaded and patched, by section type. `loaded` are the numbers of
LPM and of CLS entries that its last full load brought (R188). A bank that has been marked empty keeps its content for the headers
that drain from it (R144). -/
structure AshBank where
  valid : Bool
  hdr : Blob
  secs : SMap Blob
  id : Nat
  sig : Signed
  poison : List (Nat × Nat)
  loaded : Nat × Nat
  deriving DecidableEq, Repr

/-- A pending activation (R108, R109): T_req, T and T_eff in ns of the counter. -/
structure PendAct where
  sel : Nat
  tReq : Nat
  t : Nat
  tEff : Nat
  predicted : Bool
  deriving DecidableEq, Repr

/-- The slot flywheel and the sequencer's core-die part (R101, R103 to R106). Times are counter times in ns. -/
structure Flywheel where
  slot : Nat
  cycleStart : Int
  armedStart : Option Int
  fromEdge : Bool
  started : Bool
  armed : Option PendAct
  deriving DecidableEq, Repr

/-! ### Conductor -/

/-- Servo states (R80). -/
inductive ServoState where
  | disabled | acquiring | locked | holdover
  deriving DecidableEq, Repr

/-- A learn-bus event (R162, R165). `cmd` of a flush is the sequence number of the command that issued it, 0 where none did. -/
inductive BusEvent where
  | learn (vlan mac port src : Nat)
  | refresh (vlan mac port src : Nat)
  | sweep
  | epoch
  | flush (sel vlan port mac cmd : Nat)
  | staticAdd (vlan mac cls dest mask : Nat)
  | staticMask (vlan mac cls dest mask : Nat)
  | staticDel (vlan mac cls dest : Nat)
  deriving DecidableEq, Repr

/-- A held grant of the power arbiter (R393, R394): requester, the domain, channel or command it belongs to, cost in units
of 100 mW. -/
structure Grant where
  requester : Nat
  key : Nat
  cost : Nat
  deriving DecidableEq, Repr

/-- The state a Keystone holds and copies to the other (R276, R279). I and f in units of 2^−32 ppb, times in core cycles
or in ns of the counter. -/
structure KsState where
  servo : ServoState
  hold : Bool
  i : Int
  f : Int
  lockRun : Nat
  pend : Option PendAct
  refState : Nat
  edges : List Int
  refMeas : Nat
  ctl : List BusEvent
  grants : List Grant
  queue : List Grant
  deriving DecidableEq, Repr

/-- Inputs that the conductor log records (R282). -/
inductive LogKind where
  | command | theta | hold | power | cycleRef | safety
  | timer                    -- not an input: the expiry of holdover_timeout (R80, notes/assumptions/68.md)
  deriving DecidableEq, Repr

/-- One conductor log entry: the input and the decision, as the state it left (R282, R287). -/
structure LogRec where
  kind : LogKind
  after : KsState
  deriving DecidableEq, Repr

/-- Inputs deferred during a switchover gap or replay (R84, R286, R287). `edge` is the oldest edge that the capture FIFO still
holds; `ctrl` are servo_enable and hold as a write of TRN.CTRL left them. -/
inductive Deferred where
  | command (seq : Nat)
  | theta (t : Int)
  | ctrl (en hold : Bool)
  | holdTimeout
  | edge
  | leave (g : Grant)
  | ctl (e : BusEvent)
  | go (sel tReq : Nat)
  | cancel
  | domainOff (d : Nat)
  | domainUp (d : Nat) (pass : Bool)
  deriving DecidableEq, Repr

/-- A checkpoint on the Mortar link (R279). -/
structure Ckpt where
  bytes : Nat
  mark : Nat
  state : KsState
  deriving DecidableEq, Repr

/-- The Keystone pair (R276 to R293); the unit states are fields of KEY.STATUS. `logDue`: the log has reached 768
or 1,024 entries and the consequence is still due; `behind` is a checkpoint taken at once behind the one in flight (R282); `faultAt` the
core cycle of the fault recorded last (R284) and `faultTime` the counter's time then (R310); `gapAlarm` the levels of SAFE_ALARM_A_N and SAFE_ALARM_B_N at the start of the gap
(R286). -/
structure Keystone where
  ks : KsState
  commit : KsState
  log : List LogRec
  logOn : Bool
  logDue : Bool
  inFlight : Option Ckpt
  behind : Option Ckpt
  faultAt : Option Nat
  faultTime : Nat
  gapAlarm : Bool × Bool
  gapEnd : Option Nat
  gapTime : Nat
  replay : Bool
  forced : Bool
  deferred : List Deferred
  edgeFifo : List Int
  fullCopy : Option Unit2
  firstCkpt : Bool
  bootDoneA : Option Bool
  bootDoneB : Option Bool
  resyncFailsA : Nat
  resyncFailsB : Nat
  doubleFault : Bool
  cyclesSinceCkpt : Nat
  deriving DecidableEq, Repr

/-! ### Time -/

/-- Time unit state beside its registers (R69, R71, R75, R89). `time` is the counter in units of 2^−40 ns, `steps` the sum of
the steps since reset. `ppsOut` counts the active edges of the 1PPS output, `ppsSec` is the second, less pps_out_offset, that the
counter was in at the last edge or step (R90), and `pulse` what is left of the width of the pulse in progress, in units of 2^−40 ns.
`thetaAt` is the core cycle of the last accepted θ, and `expired`: holdover_timeout has expired in this core cycle (R82). -/
structure Trn where
  time : Nat
  setPending : Option Nat
  lastPps : Option Nat
  ppsOut : Nat
  steps : Int
  ppsSec : Int
  pulse : Nat
  thetaAt : Option Nat
  expired : Bool
  deriving DecidableEq, Repr

/-- Levels of TIME_1PPS_IN and CYCLE_REF_IN, whose edges pps_in_edge and ref_edge tell apart (R92, R123, notes/assumptions/72.md). -/
structure Pins where
  pps : Bool
  ref : Bool
  deriving DecidableEq, Repr

/-! ### Tables -/

/-- One way of a learned MAC table (R159). `seen` is the sweep pass that visited the entry last (R174). -/
structure MacEntry where
  vlan : Nat
  mac : Nat
  static : Bool
  port : Nat
  l2class : Nat
  destRef : Nat
  bankMask : Nat
  hit : Bool
  stale : Bool
  stamp : Nat
  frozen : Bool
  moveCount : Nat
  freezeLeft : Nat
  parityGood : Bool
  seen : Nat
  deriving DecidableEq, Repr

/-- Tables and learning of one pipeline (R157 to R175): its ways, seeds, learn queue, apply FIFO, sweep-pass number, the
command number of the flush pass that runs, and the bucket that the sweep pass in progress visits next (R173). -/
structure PipeTab where
  ways : SMap (Option MacEntry)
  seed0 : Nat
  seed1 : Nat
  queue : List BusEvent
  fifo : List BusEvent
  pass : Nat
  flushing : Option Nat
  sweep : Option Nat
  deriving DecidableEq, Repr

/-- One host-route entry as placed (R177): first unit, key and result. -/
structure HrEntry where
  unit : Nat
  vrf : Nat
  v6 : Bool
  addr : Nat
  cls : Nat
  nh : Nat
  mask : Nat
  parityGood : Bool
  deriving DecidableEq, Repr

/-- One TCAM entry as placed (R180 to R182); `value`/`care` over the 160 key bits; `good`: it agrees with the
entry store (R185). -/
structure TcamEntry where
  lpm : Bool
  value : Nat
  care : Nat
  af : Bool
  len : Nat
  prio : Nat
  result : Nat
  nh : Nat
  banks : Nat
  good : Bool
  deriving DecidableEq, Repr

/-! ### Frames, copies and queues -/

/-- What the parser finds in a frame (R128, R130, R131). -/
structure Hdr where
  tags : Nat
  outer : Bool
  outerOff : Nat
  vid : Nat
  vlan : Nat
  pcp : Nat
  dei : Nat
  rtag : Option Nat
  rtagOff : Nat
  a1 : Nat
  etype : Nat
  a2 : Option Nat
  a3 : Option Nat
  a4 : Option Nat
  a5 : Option Nat
  udp : Bool
  l3 : Nat
  exc : Nat
  deriving DecidableEq, Repr

/-- The edits ordered for one copy (R138, R222), with the operands resolved from the image. -/
structure Edit where
  profile : Nat
  pushTpid : Nat
  vid : Nat
  pcp : Nat
  dei : Nat
  dscp : Nat
  da : Nat
  sa : Nat
  deriving DecidableEq, Repr

/-- One copy a frame asks for (R200, R222): its queue and its edits. -/
structure CopyReq where
  queue : Nat
  edit : Edit
  mirror : Bool
  deriving DecidableEq, Repr

/-- Where a frame stands (R26). -/
inductive Stage where
  | fifo                     -- in a header FIFO or arriving before it
  | expand                   -- decided and charged, awaiting expansion (R224)
  | live                     -- its copies are queued
  | done                     -- consumed or dropped; kept while it still arrives
  deriving DecidableEq, Repr

/-- What the SA probe of R162 found for a frame that may be learned: no event, LEARN, REFRESH of its own entry, a frozen
entry of another port, or a static entry. -/
inductive Probe where
  | none | learn | refresh | frozen | fixed
  deriving DecidableEq, Repr

/-- A mirror session. -/
structure Session where
  valid : Bool
  toCpu : Bool
  dest : Nat
  trunc : Nat
  sample : Nat
  encapLen : Nat
  fixup : Bool
  ipOff : Nat
  encap : List Byte
  deriving DecidableEq, Repr

/-- A packet-plane frame inside the device. `hdrAt` is the core cycle in which its header entered a FIFO (R31); `begun`: bytes of it
have left an egress MAC (R50); `mirror` is the session whose request was taken, with its entry as the frame's bank held it when the
frame was decided (R153, R225). -/
structure Frame where
  port : Nat
  cpuRing : Option Nat
  direct : Bool
  noLearn : Bool
  bytes : List Byte
  ended : Bool
  len : Nat
  bad : Bool
  cellBad : Bool
  arrival : Nat
  tRx : Nat
  stepRx : Int
  flags : Nat
  stage : Stage
  bank : Nat
  hdr : Hdr
  learn : Probe
  routed : Bool
  seqNum : Option Nat
  markDei : Bool
  cls : Nat
  charge : Nat
  unit : Nat
  pool : Nat
  owner : Nat
  inHbm : Bool
  copies : List CopyReq
  mirror : Option (Nat × Session)
  mirrorShare : Bool
  refs : Nat
  cells : List Nat
  meter : Option (Nat × Nat × Nat)
  tsReq : Bool
  tsSlot : Option (Nat × Nat)
  oneStep : Option Nat
  hdrAt : Nat
  begun : Bool
  deriving DecidableEq, Repr

/-- One queued copy (R192: queue entry). `enq` is the core cycle in which it entered its queue (R224). -/
structure Copy where
  frame : Nat
  charge : Nat
  len : Nat
  stamp : Nat
  ce : Bool
  dei : Bool
  edit : Edit
  mirror : Bool
  cut : Bool
  prefetched : Bool
  enq : Nat
  deriving DecidableEq, Repr

/-- A shaper's bucket (R257): T in units of 2^−16 byte, and what filling has not yet added to it, in 1/13,200,000 of that unit
(notes/assumptions/62.md). -/
structure Bucket where
  t : Int
  frac : Nat
  deriving DecidableEq, Repr

/-- A queue of R220 with its shaper and its fair-share tag (R252, R257). `flush` are the copies that a flush has removed and not
yet released (R211). -/
structure Queue where
  copies : List Copy
  flush : List Copy
  spilled : Bool
  tokens : Bucket
  stamp : Nat
  tag : Nat
  awake : Bool
  deriving DecidableEq, Repr

/-- The scheduler nodes of one logical port (R247, R252, R257), and of the CPU port. -/
structure PortSched where
  vRoot : Nat
  gTag : List Nat
  gV : List Nat
  gAwake : List Bool
  tokens : Bucket
  stamp : Nat
  deriving DecidableEq, Repr

/-- A policer's buckets (R266), in units of 1/13,200,000 byte. -/
structure Policer where
  c : Nat
  e : Nat
  stamp : Nat
  deriving DecidableEq, Repr

/-- Causes of a stomp (R53), in table order. -/
inductive Stomp where
  | rxError | cellError | overrun | collision | oversize | abort
  deriving DecidableEq, Repr

/-- What the start of a frame charged (R252, R255, R257): the length, whether the buckets of its queue and of its port were
charged, the overhead its tags were charged with, the weight of its queue in a FAIR group, and its group with the group's weight
under a FAIR root. -/
structure Bill where
  len : Nat
  queue : Bool
  port : Bool
  overhead : Int
  inGroup : Option Nat
  atRoot : Option (Nat × Nat)
  deriving DecidableEq, Repr

/-- A frame being sent by an egress MAC. `src` is the ingress port of a Meridian frame; `flow` names the classes and the pause_mode
of a generated flow-control frame; `pre`, `frag` and `mx` are the preemption, the least fragment and the max_frame in force at its
start (R62, R63, R68); `bill` is what its start charged; `done` are the bytes of the fragments before the present one; `tx` is the
core cycle in which the present fragment started, or in which a frame in the skid buffer arrived; `tTx`, `steps` and `flags` are its
transmit timestamp, the sum of the counter's steps and the time flags at its start (R72, R75, R83); `stopAt` are its bytes up to its
last good one where a cell has failed (R53). -/
structure TxFrame where
  meridian : Bool
  src : Nat
  flow : Option (Nat × Nat)
  frame : Nat
  queue : Nat
  bytes : List Byte
  len : Nat
  bill : Bill
  cut : Bool
  stomp : Option Stomp
  edit : Edit
  ce : Bool
  dei : Bool
  pre : Bool
  frag : Nat
  mx : Nat
  done : Nat
  tx : Nat
  tTx : Nat
  steps : Int
  flags : Nat
  stopAt : Option Nat
  deriving DecidableEq, Repr

/-- The last frame that left a port, complete or stomped: the model's own output latch (notes/assumptions/8.md). -/
structure Sent where
  bytes : List Byte
  len : Nat
  stomp : Option Stomp
  meridian : Bool
  tTx : Nat
  deriving DecidableEq, Repr

/-- What is arriving at an ingress MAC: a packet-plane frame; an express frame since core cycle `t0` with its receive timestamp
(R30; `lost`: the egress MAC has already discarded it, R54); the rest of a frame already dropped (`plane`: after it was accepted as
express, R114); or a frame that the MAC consumes or discards (EtherType 0x8808, rx_en clear). -/
inductive Arriving where
  | packet (frame : Nat)
  | express (out : Nat) (lost : Bool) (got : List Byte) (t0 tRx : Nat)
  | ignored (got : List Byte) (plane : Bool)
  | consumed (got : List Byte)
  deriving DecidableEq, Repr

/-- Run-time state of one logical port beside its registers: classes with back-pressure (`bp`, R205), classes a generated
flow-control frame is due for, verify and respond mPackets sent, whether verification restarts after the frame in progress (R62),
MAC_CFG and MAC_ADDR at the start of the frame arriving (R68), and whether a PORT fault holds the port down (R302). `skid` are the
Meridian frames that wait in the skid buffer, first in first out (R54). `matchedAt` is the core cycle in which the port last came to pass
the type check of R116. -/
structure PortRun where
  arriving : Option Arriving
  tx : Option TxFrame
  held : Option TxFrame
  skid : List TxFrame
  sel : Option Nat
  selExpress : Option Nat
  timers : List Nat
  bp : Nat
  fcPend : Nat
  verifyTries : Nat
  responds : Nat
  mmDue : Bool
  rxCfg : Word
  rxAddr : Nat
  eeeAgreed : Bool
  activity : Bool
  downFault : Bool
  holdNow : Bool
  sent : Option Sent
  matchedAt : Option Nat
  deriving DecidableEq, Repr

/-- The running configuration of a macro (R44): the words of PORT.MODE, LANE_CFG and SUB_CFG last applied. -/
structure MacroRun where
  mode : Word
  lanes : List Word
  subs : List Word
  deriving DecidableEq, Repr

/-- A cell descriptor (R192). -/
structure Cell where
  next : Nat
  last : Bool
  bytes : Nat
  refcount : Nat
  owner : Nat
  pool : Nat
  bad : Bool
  crc : Nat
  deriving DecidableEq, Repr

/-- A request to a pool (R202): the core cycle, the requester, the cells and the frame. `lost`: it failed, and the frame that it was
for; `full`: the HBM's write path could not accept a frame then (R208). -/
structure Ask where
  time : Nat
  requester : Nat
  cells : Nat
  frame : Nat
  lost : Option Frame
  full : Bool
  deriving DecidableEq, Repr

/-- A pool as applied (R196), with its use (R195). `freed` are the cells, on chip and in HBM, that came back in the core cycle it
names, which that core cycle's requests do not see (R203); `asks` the requests of the latest core cycle, and `contended`
the last core cycle in which requests exceeded what the pool could grant, with rr_ptr at its start (R202). -/
structure Pool where
  threshold : Bool
  onchip : Nat
  hbm : Nat
  headroom : Nat
  used : Nat
  usedHbm : Nat
  bp : Bool
  warned : Bool
  fulled : Bool
  exhausted : Bool
  rr : Nat
  freed : Nat × Nat × Nat
  asks : List Ask
  contended : Option (Nat × Nat)
  deriving DecidableEq, Repr

/-- FRER recovery function state (R238 to R240). `timer` is the core cycle in which the reset timer that runs was started. -/
structure Recovery where
  recov : Nat
  history : Nat
  takeAny : Bool
  resetAsked : Bool
  timer : Option Nat
  passed : Nat
  dups : Nat
  heard : List Nat
  deriving DecidableEq, Repr

/-- A load or patch that waits for leave or for its bank to drain (R144, R150): the ring of its command, whether it is a
patch, the role of its bank, the content to write, its items, and whether leave is still asked for. -/
structure Load where
  ring : Nat
  isPatch : Bool
  shadow : Bool
  content : AshBank
  items : Nat
  written : List (Nat × Nat)
  asking : Bool
  deriving DecidableEq, Repr

/-- A copy that the mirror engine has yet to build (R228): the frame, its session and the session's entry as the frame's bank held
it (R225). -/
structure MirrorJob where
  frame : Nat
  session : Nat
  entry : Session
  deriving DecidableEq, Repr

/-- Buffers, queues, scheduling, replication and FRER state. `owners` is what the descriptors of free cells still record as their
owner (R204); `freed` are the cells freed in a core cycle, each with its requester (R203, R204); `ingHigh` tells the ports and
classes that have reached ing_xoff and not fallen xon_delta below it (R205); `served` gives, of each egress pipeline, the core cycle
in which it last took copies, the ingress pipeline served last before that core cycle, and the one served last (R224); `hbmReloc` is
the channel being relocated with its cells in use when that started (R217); `lateCfg` holds, of each queue and limit register written in
the core cycle it names, the value before that core cycle (R220). -/
structure Fabric where
  frames : SMap (Option Frame)
  nextFrame : Nat
  fifos : SMap (List Nat)
  rrMacro : SMap Nat
  expand : SMap (List Nat)
  queues : SMap Queue
  scheds : SMap PortSched
  cpuV : Nat
  cpuTokens : Bucket
  cpuStamp : Nat
  policers : SMap (Option Policer)
  cells : SMap (Option Cell)
  owners : SMap Nat
  freed : Nat × List (Nat × Nat)
  quarantined : List Nat
  lost : Nat
  pools : SMap Pool
  charged : SMap Nat
  ingHigh : SMap Bool
  served : SMap (Nat × Nat × Nat)
  recovery : SMap Recovery
  nextSeqs : SMap Nat
  mirrorReq : SMap Nat
  mirrorJobs : List MirrorJob
  mirrorPort : SMap (Option Nat)
  hbmReloc : Option (Nat × List Nat)
  crcErrs : SMap (List Nat)
  spareWanted : Bool
  lateCfg : Nat × SMap (Option Word)
  deriving DecidableEq, Repr

/-! ### Power, safety, security, Plumb, DMA, counters -/

/-- A reason for which DEGRADED is held (R301, R302), with the thing whose recovery withdraws it. -/
inductive Cause where
  | redundancy (diag inst : Nat) | port (p : Nat) | pipeline (n : Nat)
  deriving DecidableEq, Repr

/-- One entry of the persistent fault record (R310, R334). -/
structure FaultRec where
  diag : Nat
  cls : Nat
  inst : Nat
  sec : Nat
  ns : Nat
  rep : Nat
  deriving DecidableEq, Repr

/-- Safety monitor state beside its registers. `gateSlot` is the slot last applied to the gates, with its calendar
(R306); `recorded` a core cycle and how many entries it added to the persistent record (R302). -/
structure Safety where
  causes : List Cause
  safeA : Bool
  safeB : Bool
  testing : Option Unit2
  xbarMismatch : Option Nat
  gateSlot : Option (Blob × Nat)
  timeBad : Bool
  recorded : Nat × Nat
  deriving DecidableEq, Repr

/-- One key slot of the boot manifest (R407): `none` is EMPTY, otherwise the ECDSA and the HSS public key. -/
structure KeyPair where
  ecdsa : Blob
  hss : Blob
  deriving DecidableEq, Repr

/-- One copy of the boot manifest (R407): its generation number, whether its CRC-32C agrees with it, the three key slots and the
revocation list. -/
structure Manifest where
  gen : Nat
  crcOk : Bool
  slots : List (Option KeyPair)
  revoked : List (BitVec 384)
  deriving DecidableEq, Repr

/-- One of the rotating slots of the HSS index (R416): `crcOk` tells whether its CRC-32C agrees with it. -/
structure HssSlot where
  index : Nat
  gen : Nat
  crcOk : Bool
  deriving DecidableEq, Repr

/-- MRAM, fuses and flash: what every reset keeps (R310, R397, R407, R409, R412, R416, R427, R428): the two copies of the boot
manifest, the key ID held in fuses, the two copies of each anti-rollback counter, the 64 slots of the HSS index, and the two firmware
slots of the flash, 8 MiB each. -/
structure Mram where
  manifestA : Manifest
  manifestB : Manifest
  fusedId : BitVec 384
  ownerLocked : Bool
  rollback : List (Nat × Nat)
  hssSlots : List HssSlot
  certs : List Blob
  identity : KeyPair
  faults : List FaultRec
  bootCount : Nat
  plumb : Blob
  fw0 : Blob
  fw1 : Blob
  deriving DecidableEq, Repr

/-- Security unit state beside its registers (R412, R415 to R418). -/
structure Sec where
  debug : Bool
  credits : Nat
  rngOk : Bool
  fwSlot : Nat
  fwVersion : Nat
  fwMeasure : BitVec 384
  fwAdvance : Bool
  flashWrites : Nat
  hssIndex : Nat
  deriving DecidableEq, Repr

/-- Boot and parking progress (R398, R401). -/
inductive Phase where
  | none                     -- neither booting nor parking
  | held                     -- PWRON_RST_N asserted
  | bootTest (step : Nat)    -- step 5: boot-time interconnect test (R428)
  | keystones                -- step 7: waiting for the Keystone self-tests
  | training (left : List Nat)   -- step 8: HBM stacks still training
  | stuck                    -- firmware failed: only a reset leaves (R399)
  | draining (plumb : Bool)  -- parking, before park_drain
  | plumb (step : Nat) (running : Bool) (start : List Byte)   -- parking, native Plumb; `start`: its start time (R322)
  deriving DecidableEq, Repr

/-- Power state beside its registers: domains being powered up (R390), the reset that SYS_RST_N or software has asked for
with the core cycle it takes effect in (R397), the HBM stacks trained, and what Plumb found, each failing net with its step,
and the core cycle from which its duration counts. The retained store (R392) is the register store itself. -/
structure Power where
  phase : Phase
  rising : List Nat
  pendingReset : Option (Nat × Nat)
  steps : Nat
  stepsSkipped : Nat
  fails : List (NetFail × Nat)
  nFails : Nat
  plumbFrom : Nat
  trained : List Nat
  deriving DecidableEq, Repr

/-- A DMA descriptor in progress (R349, R351, R352). -/
structure DmaDesc where
  index : Nat
  src : Nat
  dst : Nat
  length : Nat
  op : Nat
  irq : Bool
  count : Nat
  written : Nat
  err : Option (Nat × Nat)
  mismatch : Option Nat
  leave : Bool
  deriving DecidableEq, Repr

/-- An outstanding DMA read request: which descriptor, which operand, its offset and beats (R351). -/
structure DmaRead where
  index : Nat
  second : Bool
  off : Nat
  beats : Nat
  deriving DecidableEq, Repr

/-- One DMA channel beside its registers (R345, R351 to R357): the descriptors started and not written back, outstanding
reads, staged beats of the first and the second operand (descriptor index, offset, bytes), the descriptor that waits for
leave, the staging cells, and what happens at the next descriptor boundary. `ended`: it is inside no
descriptor that it has been served for (R355). -/
structure DmaCh where
  active : List DmaDesc
  reads : List DmaRead
  staged : List (Nat × Nat × List Byte)
  stagedB : List (Nat × Nat × List Byte)
  waiting : Option DmaDesc
  cells : List Nat
  disabling : Bool
  ended : Bool
  haltAfter : Option Nat
  deriving DecidableEq, Repr

/-- The snapshot store and the pacing of latches (R382 to R386). `lastCtrs` are the octet counters at the latest latch, from which
the next window counts, `prevCtrs` those at the latch before it. `pcSet` are the programmable counters that writes of the core cycle
it names have set, `pcLate` the configurations that writes of the core cycle it names have replaced and that stand to its end (R380), and `rdAt` is the core cycle of the capture held in CNT.RD_VAL (R378). -/
structure Snapshot where
  busy : Bool
  values : SMap Nat
  periodic : Bool
  command : Bool
  seq : Nat
  time : Nat
  flags : Nat
  window : Nat
  lastLatch : Nat
  lastCtrs : SMap Nat
  prevCtrs : SMap Nat
  bw : SMap Nat
  ephCycles : Nat
  ashId : Nat
  ephId : Nat
  mask : Nat
  starts : Nat
  pcSet : Nat × List Nat
  pcLate : Nat × SMap (Option Word)
  rdAt : Option Nat
  deriving DecidableEq, Repr

/-- The machine. `refLost` are the SerDes references that are lost (R35); `stopped`: the system reference has failed and the core die
has stopped (R20). `dmaServed` are the DMA channel served last and, of each priority, the one served last (R355). -/
structure State where
  pending : List Instr
  part : Part
  now : Nat
  dev : DevState
  regs : SMap Word
  tmrB : SMap Word
  tmrC : SMap Word
  sqc : SMap Sqc
  raised : SMap Nat
  ctrs : SMap Nat
  host : List Host.Cell
  rd : BitVec 64
  freeCtr : Nat
  trn : Trn
  pins : Pins
  eph : EphBank × EphBank
  ash : AshBank × AshBank
  draining : Bool
  ashBank : Bool
  loads : List Load
  fly : Flywheel
  key : Keystone
  tabs : SMap PipeTab
  learnPtr : Nat
  hr : List HrEntry
  tcam : SMap (Option TcamEntry)
  ports : SMap PortRun
  macros : SMap MacroRun
  fab : Fabric
  hif : Hif
  pwr : Power
  saf : Safety
  mram : Mram
  sec : Sec
  dma : SMap DmaCh
  dmaServed : Nat × SMap Nat
  snap : Snapshot
  led : List Bool
  refLost : List Nat
  stopped : Bool
  deriving DecidableEq, Repr

/-! ### Reset -/

/-- An SQC register after reset: its count and its latch are zero (R368). -/
def Sqc.init : Sqc := ⟨0, 0, none, 0, none⟩

/-- An empty bank's signature data: an empty bank has a measurement of 48 zero bytes (R418). -/
def Signed.empty : Signed := ⟨0, 0, false, 0⟩

/-- An empty Ephemeris bank. -/
def EphBank.empty : EphBank := ⟨false, ⟨0, []⟩, .empty, []⟩

/-- An empty Ashlar bank. -/
def AshBank.empty : AshBank := ⟨false, ⟨0, []⟩, [], 0, .empty, [], (0, 0)⟩

/-- Conductor state before firmware loads it: servo DISABLED (R92 reset), nothing pending, no grant (R278). -/
def KsState.init : KsState := ⟨.disabled, false, 0, 0, 0, none, 0, [], 0, [], [], []⟩

/-- The pair before boot: both units in INIT (KEY.STATUS reset). -/
def Keystone.init : Keystone :=
  { ks := .init, commit := .init, log := [], logOn := false, logDue := false, inFlight := none,
    behind := none, faultAt := none, faultTime := 0, gapAlarm := (true, true), gapEnd := none, gapTime := 0,
    replay := false, forced := false, deferred := [], edgeFifo := [], fullCopy := none, firstCkpt := false,
    bootDoneA := none, bootDoneB := none, resyncFailsA := 0, resyncFailsB := 0, doubleFault := false,
    cyclesSinceCkpt := 0 }

/-- A pipeline's tables at power-up (R167): empty. -/
def PipeTab.init : PipeTab := ⟨[], 0, 0, [], [], 0, none, none⟩

/-- An idle port. -/
def PortRun.init : PortRun :=
  ⟨none, none, none, [], none, none, [0, 0, 0, 0, 0, 0, 0, 0], 0, 0, 0, 0, false, 0, 0, false, false, false, false, none, none⟩

/-- A macro after reset: DISABLED, lane maps straight (PORT block reset values). -/
def MacroRun.init : MacroRun := ⟨0, [0x000, 0x0A0, 0x140, 0x1E0], [0, 0, 0, 0]⟩

/-- An empty queue; its shaper is disabled and its tokens read 0 (TM.Q_TOKENS reset). -/
def Queue.init : Queue := ⟨[], [], false, ⟨0, 0⟩, 0, 0, false⟩

/-- A port's scheduler nodes after reset. -/
def PortSched.init : PortSched := ⟨0, [0, 0, 0, 0], [0, 0, 0, 0], [false, false, false, false], ⟨0, 0⟩, 0⟩

/-- A pool after reset: sizes 0 (BUF.POOL_* reset), mode per R194. -/
def Pool.init (en : Bool) (k : Nat) : Pool :=
  ⟨!en && decide (k < 12), 0, 0, 0, 0, 0, false, false, false, false, 0, (0, 0, 0), [], none⟩

/-- A recovery function before its first frame: take_any set (R239, R241). -/
def Recovery.init : Recovery := ⟨0, 0, true, false, none, 0, 0, []⟩

/-- A ring's run-time state after reset. -/
def RingRun.init : RingRun := ⟨0, 0, false⟩

/-- A DMA channel after reset: DISABLED. -/
def DmaCh.init : DmaCh := ⟨[], [], [], [], none, [], false, true, none⟩

/-- Buffers and queues after reset. The aggregate CPU shaper is enabled at reset with T = 16,384 bytes (TM.CPU_TOKENS). -/
def Fabric.init : Fabric :=
  { frames := [], nextFrame := 0, fifos := [], rrMacro := [], expand := [], queues := [], scheds := [], cpuV := 0,
    cpuTokens := ⟨0x4000 * 2 ^ 16, 0⟩, cpuStamp := 0, policers := [], cells := [], owners := [], freed := (0, []), quarantined := [],
    lost := 0, pools := [], charged := [], ingHigh := [], served := [], recovery := [], nextSeqs := [], mirrorReq := [], mirrorJobs := [],
    mirrorPort := [], hbmReloc := none, crcErrs := [], spareWanted := true, lateCfg := (0, []) }

/-- Host interface after reset. -/
def Hif.init : Hif := ⟨[], [], [], 1, [], (0, []), none, (0, []), [], 0xFF⟩

/-- Safety monitor after reset: no cause held. -/
def Safety.init : Safety := ⟨[], false, false, none, none, none, false, (0, 0)⟩

/-- Snapshot store after reset. -/
def Snapshot.init : Snapshot := ⟨false, [], false, false, 0, 0, 0, 0, 0, [], [], [], 0, 0, 0, 0, 0, (0, []), (0, []), none⟩

/-- Security unit before boot: 64 credits (SEC.STATUS reset), random source not yet healthy (R420). -/
def Sec.init : Sec := ⟨false, 64, false, 0, 0, 0, false, 0, 0⟩

/-- MRAM and flash of the modelled part: owner slots EMPTY, counters 0, no fault, no Plumb record (as manufactured; key and
image contents are the model's choice, notes/assumptions/5.md). -/
def Mram.asShipped : Mram :=
  { manifestA := ⟨1, true, [some ⟨⟨97, []⟩, ⟨60, []⟩⟩, none, none], []⟩, manifestB := ⟨0, true, [some ⟨⟨97, []⟩, ⟨60, []⟩⟩, none, none], []⟩,
    fusedId := Config.sha384 ⟨157, []⟩, ownerLocked := false, rollback := List.replicate 16 (0, 0),
    hssSlots := List.replicate 64 ⟨0, 0, true⟩,
    certs := [⟨0, []⟩, ⟨0, []⟩, ⟨0, []⟩], identity := ⟨⟨97, []⟩, ⟨60, []⟩⟩, faults := [], bootCount := 0,
    plumb := ⟨580, []⟩, fw0 := ⟨0x800000, []⟩, fw1 := ⟨0x800000, []⟩ }

/-- The part as modelled at reset: SV-E5128-EH, stepping 0, serial 1 (per part: notes/assumptions/5.md). -/
def Part.modelled : Part := ⟨false, 0, 1, 0⟩

/-- Right after PWRON_RST_N has been asserted and before its release: D0 alone is on, the device is in BOOT, every register
at its reset value, the counter at zero (R71, R397). -/
def State.reset : State :=
  { pending := [], part := .modelled, now := 0, dev := .boot, regs := [], tmrB := [], tmrC := [], sqc := [],
    raised := [], ctrs := [], host := [], rd := 0, freeCtr := 0, trn := ⟨0, none, none, 0, 0, 0, 0, none, false⟩, pins := ⟨false, false⟩,
    eph := (.empty, .empty),
    ash := (.empty, .empty), draining := false, ashBank := false, loads := [], fly := ⟨0, 0, none, false, false, none⟩, key := .init, tabs := [],
    learnPtr := 7, hr := [], tcam := [], ports := [], macros := [], fab := .init, hif := .init,
    pwr := ⟨.held, [], none, 0, 0, [], 0, 0, []⟩, saf := .init, mram := .asShipped, sec := .init, dma := [], dmaServed := (0, []),
    snap := .init, led := [], refLost := [], stopped := false }

end Sys2Proof.Machine
end

