-- ==== Sys2Proof/Machine/Ops.lean ====
section
/-! DEFINITION. The named operations every command is made of: byte runs, registers and their triplicated copies, power
domains, events, counters, host memory, free values, time. -/

namespace Sys2Proof

/-! ### Byte runs -/

/-- One byte of a run; unlisted bytes are zero. -/
def Blob.byte (b : Blob) (i : Nat) : Byte := Machine.SMap.get (fun _ => 0) i b.bytes

/-- `n` bytes of a run from an offset. -/
def Blob.list (b : Blob) (off n : Nat) : List Byte := Machine.SMap.getN (fun _ => 0) off n b.bytes

/-- A little-endian field of `n` bytes at an offset (R9). -/
def Blob.le (b : Blob) (off n : Nat) : Nat := Machine.leNat (b.list off n)

/-- A network-order field of `n` bytes at an offset (R9). -/
def Blob.be (b : Blob) (off n : Nat) : Nat := Machine.beNat (b.list off n)

/-- Write bytes into a run at an offset. -/
def Blob.write (b : Blob) (off : Nat) (l : List Byte) : Blob :=
  { b with bytes := Machine.SMap.setAll (fun _ => 0) off l b.bytes }

/-- The part of a run from `off`, `n` bytes long, moved to offset 0. -/
def Blob.slice (b : Blob) (off n : Nat) : Blob :=
  ⟨n, (b.bytes.filter fun p => decide (off ≤ p.1) && decide (p.1 < off + n)).map fun p => (p.1 - off, p.2)⟩

/-- Two runs, the second after the first. -/
def Blob.append (a b : Blob) : Blob :=
  ⟨a.len + b.len, (a.bytes.filter fun p => decide (p.1 < a.len)) ++ b.bytes.map fun p => (p.1 + a.len, p.2)⟩

/-- A run from its bytes. -/
def Blob.ofList (l : List Byte) : Blob :=
  ⟨l.length, l.zipIdx.filterMap fun p => if p.1 = 0 then none else some (p.2, p.1)⟩

/-- Every byte from `off` to `off + n - 1` is zero. -/
def Blob.zeroIn (b : Blob) (off n : Nat) : Bool :=
  b.bytes.all fun p => decide (p.1 < off) || decide (off + n ≤ p.1) || decide (p.2 = 0)

namespace Machine

/-! ### Registers -/

/-- Whether a descriptor covers a register address. -/
def RegDesc.holds (d : RegDesc) (a : Nat) : Bool :=
  decide (d.base ≤ a) && decide ((a - d.base) / d.s1 < d.c1) && decide ((a - d.base) % d.s1 / d.s2 < d.c2)
    && decide ((a - d.base) % d.s1 % d.s2 = 0)

/-- The descriptor of a register address; none where no register is implemented. -/
def regDesc (a : Nat) : Option RegDesc := regMap.find? fun d => d.holds a

/-- Ledger charge of a domain in units of 100 mW; 0 for absent domains (R388, PWR.CHARGE). -/
def chargeOf (p : Part) (d : Nat) : Nat :=
  if d = 0 then 50 else if d ≤ 16 then 180 else if d ≤ 24 then 220 else if d ≤ 26 then 80
  else if d ≤ 28 then (if p.en then 0 else 300) else if d ≤ 32 then 120 else if d = 33 then 100
  else if d = 34 then 120 else if d = 35 then 100 else if d = 36 then 50 else if d = 37 then 1300 else 0

/-- Access-table entry with code `c` in the regions from `lo` to `hi`. -/
def grantRegions (c lo hi : Nat) : Nat :=
  (List.range 16).foldl (fun a k => if lo ≤ k ∧ k ≤ hi then a + c * 4 ^ k else a) 0

/-- Access tables after a device reset: entry of master `m` at target `t` (R367). Target 15 is absent (R374). -/
def resetGrant (t m : Nat) : Nat :=
  if t = 15 ∨ 152 ≤ t then 0
  else if m = 0 then 0xAAAAAAAA
  else if m ≤ 15 then
    if t = 0 then grantRegions 1 0 0
    else if t = 1 then grantRegions 1 0 0 + grantRegions 2 1 3
    else if t = 12 then grantRegions 2 0 3 + grantRegions 2 8 8
    else if t = 2 then grantRegions 2 1 1
    else 0
  else if m = 16 then if t = 11 then 0x55555555 else 0xAAAAAAAA
  else if m = 18 then if t = 0 ∨ t = 3 ∨ t = 10 then 0x55555555 else 0
  else if m = 20 ∨ m = 21 then
    if t = 5 ∨ t = 6 ∨ t = 7 ∨ t = 3 ∨ t = 10 then 0x55555555 else 0
  else 0

/-- Reset value of a register: the fields' reset values, or the per-part and per-instance values the manual gives. -/
def resetWord (p : Part) (a : Nat) : Word :=
  BitVec.ofNat 32 <|
    if a = Addr.SYS_ID then 0x5128 + b2n p.en * 2 ^ 16 + p.stepping % 16 * 2 ^ 24
    else if a = Addr.SYS_SERIAL_LO then p.serial
    else if a = Addr.SYS_SERIAL_HI then p.serial / 2 ^ 32
    else if 0xC1000 ≤ a ∧ a < 0xC1000 + 0x80 * 152 ∧ a % 4 = 0 then
      resetGrant ((a - 0xC1000) / 0x80) ((a - 0xC1000) % 0x80 / 4)
    else if 0x40100 ≤ a ∧ a < 0x40198 ∧ a % 4 = 0 then chargeOf p ((a - 0x40100) / 4)
    else match regDesc a with
      | none => 0
      | some d =>
        if p.en && a = Addr.PLB_CTRL then 0
        else if p.en && a = Addr.BUF_CTRL then 0
        else if d.base = 0x1000010 then (a % 0x10 / 4) * 0xA0
        else if d.base = 0x400100 then b2n (!p.en && decide ((a - 0x400100) / 0x20 < 12))
        else d.fields.foldl (fun n f => n + f.reset * 2 ^ f.lo) 0

/-- The word stored at a register address: the bitwise majority of its three copies (R371). Only TMR registers ever hold
copies that differ. -/
def State.reg (s : State) (a : Nat) : Word :=
  let x := SMap.get (resetWord s.part) a s.regs
  let y := SMap.get (fun _ => x) a s.tmrB
  let z := SMap.get (fun _ => x) a s.tmrC
  (x &&& y) ||| (x &&& z) ||| (y &&& z)

/-- Store a word in all three copies of a register. -/
def State.setReg (s : State) (a : Nat) (w : Word) : State :=
  { s with regs := SMap.set (resetWord s.part) a w s.regs, tmrB := SMap.del a s.tmrB, tmrC := SMap.del a s.tmrC }

/-- Store the bits of `w` under `mask` in all three copies of a register, each copy's other bits unchanged. -/
def State.setRegBits (s : State) (a : Nat) (mask w : Word) : State :=
  let x := SMap.get (resetWord s.part) a s.regs
  let y := SMap.get (fun _ => x) a s.tmrB
  let z := SMap.get (fun _ => x) a s.tmrC
  let x' := (x &&& ~~~mask) ||| (w &&& mask)
  { s with
    regs := SMap.set (resetWord s.part) a x' s.regs
    tmrB := SMap.set (fun _ => x') a ((y &&& ~~~mask) ||| (w &&& mask)) s.tmrB
    tmrC := SMap.set (fun _ => x') a ((z &&& ~~~mask) ||| (w &&& mask)) s.tmrC }

/-- A field's value in a word of its register. -/
def Fld.of (f : Fld) (w : Word) : Nat := fldOf w f.lo f.width

/-- Value of a register field as stored. -/
def State.getF (s : State) (f : Fld) : Nat := fldOf (s.reg f.addr) f.lo f.width

/-- A one-bit field. -/
def State.getB (s : State) (f : Fld) : Bool := decide (s.getF f ≠ 0)

/-- Set a register field. -/
def State.setF (s : State) (f : Fld) (v : Nat) : State := s.setReg f.addr (putFld (s.reg f.addr) f.lo f.width v)

/-- Set a triplicated field in all three copies of its register, the other fields of each copy unchanged (R371). -/
def State.setTmr (s : State) (f : Fld) (v : Nat) : State :=
  s.setRegBits f.addr (BitVec.ofNat 32 ((2 ^ f.width - 1) * 2 ^ f.lo)) (BitVec.ofNat 32 (v * 2 ^ f.lo))

/-- Set one bit of a register field. -/
def State.setFBit (s : State) (f : Fld) (i : Nat) (b : Bool) : State :=
  s.setF f (putBits (s.getF f) i 1 (b2n b))

/-- One bit of a register field. -/
def State.getFBit (s : State) (f : Fld) (i : Nat) : Bool := bitAt (s.getF f) i

/-! ### Address map (R361) and power domains (R21) -/

/-- Target index of a register address; `none` outside every block span. -/
def targetOf (a : Nat) : Option Nat :=
  if a < 0x10000 then some 0
  else if a < 0x20000 then some 1
  else if a < 0x30000 then none
  else if a < 0xD0000 then some (a / 0x10000 - 1)
  else if 0x100000 ≤ a ∧ a < 0x102000 then some 12
  else if 0x400000 ≤ a ∧ a < 0x500000 then some 13
  else if 0x500000 ≤ a ∧ a < 0x600000 then some 14
  else if 0x200000 ≤ a ∧ a < 0x300000 then some (16 + (a - 0x200000) / 0x20000)
  else if 0x1000000 ≤ a ∧ a < 0x1800000 then some (24 + (a - 0x1000000) / 0x10000)
  else none

/-- Access region of an address within its target (R361). -/
def regionOf (a : Nat) : Nat :=
  if 0x100000 ≤ a ∧ a < 0x102000 then (a - 0x100000) / 0x200
  else if 0x400000 ≤ a ∧ a < 0x600000 then a % 0x100000 / 0x10000
  else if 0x200000 ≤ a ∧ a < 0x300000 then a % 0x20000 / 0x2000
  else a % 0x10000 / 0x1000

/-- Block base of a target. -/
def targetBase (t : Nat) : Nat :=
  if t ≤ 1 then t * 0x10000 else if t ≤ 11 then (t + 1) * 0x10000 else if t = 12 then 0x100000
  else if t = 13 then 0x400000 else if t = 14 then 0x500000 else if t < 24 then 0x200000 + (t - 16) * 0x20000
  else 0x1000000 + (t - 24) * 0x10000

/-- Device-wide PIPE registers are one register seen in every PIPE block (R156, R190). -/
def sharedPipe (a : Nat) : Bool :=
  let o := a % 0x20000
  decide (0x200000 ≤ a) && decide (a < 0x300000) && ((decide (0x8 < o) && decide (o < 0x20)) || decide (o = 0x28)
    || decide (o = 0x100) || decide (o = 0x104) || decide (o = 0x130) || decide (o = 0x134)
    || (decide (0x140 ≤ o) && decide (o < 0x150)) || decide (o = 0x20C))

/-- The address a register is stored at: device-wide PIPE registers in PIPE 0's block. -/
def canonAddr (a : Nat) : Nat := if sharedPipe a then 0x200000 + a % 0x20000 else a

/-- Power domain of a register (R21, R392): its block's, or D0 where the manual says so (R44, R65). -/
def domainOf (a : Nat) : Nat :=
  match targetOf a with
  | none => 0
  | some t =>
    if t = 1 ∨ t = 2 ∨ t = 12 then 34
    else if t = 4 then 36
    else if t = 8 ∨ t = 13 ∨ t = 14 then 37
    else if t < 16 then 0
    else if t < 24 then 17 + (t - 16)
    else
      let o := a % 0x10000
      if o = 0x4 ∨ o = 0x8 ∨ o = 0x300 ∨ o = 0x304 then 0 else 1 + (t - 24) / 8

/-- Domain `d` is on (PWR.DOMAIN_ON). -/
def State.domainOn (s : State) (d : Nat) : Bool :=
  if d < 32 then bitAt (s.reg Addr.PWR_DOMAIN_ON_LO).toNat d else bitAt (s.reg Addr.PWR_DOMAIN_ON_HI).toNat (d - 32)

/-- Switch the bit of domain `d` in PWR.DOMAIN_ON. -/
def State.setDomain (s : State) (d : Nat) (on : Bool) : State :=
  if d < 32 then s.setFBit F.PWR_DOMAIN_ON_LO_on_lo d on else s.setFBit F.PWR_DOMAIN_ON_HI_on_hi (d - 32) on

/-- The random source is healthy, or is not (R420). -/
def State.rngHealth (s : State) (ok : Bool) : State := { s with sec := { s.sec with rngOk := ok } }

/-! ### Events and counters -/

/-- Raise bit `i` of an event field. It takes effect with the command's end (`settle`, R368 step 1). -/
def State.raiseBit (s : State) (f : Fld) (i : Nat) : State :=
  { s with raised := SMap.set (fun _ => 0) f.addr (SMap.get (fun _ => 0) f.addr s.raised ||| 2 ^ (f.lo + i)) s.raised }

/-- Raise a one-bit event. -/
def State.raise (s : State) (f : Fld) : State := s.raiseBit f 0

/-- Raise an event when a condition holds. -/
def State.raiseIf (s : State) (c : Bool) (f : Fld) : State := if c then s.raise f else s

/-- Address code of a counter: group, instance and index as CNT.RD_ADDR holds them (R377). -/
def ctrKey (g i c : Nat) : Nat := g * 2 ^ 20 + i * 2 ^ 6 + c

/-- Value of a counter. -/
def State.ctr (s : State) (k : Nat) : Nat := SMap.get (fun _ => 0) k s.ctrs

/-- Set a counter. -/
def State.setCtr (s : State) (k v : Nat) : State := { s with ctrs := SMap.set (fun _ => 0) k v s.ctrs }

/-- Advance a 64-bit counter, modulo 2^64 (R376). -/
def State.addCtr (s : State) (k n : Nat) : State := s.setCtr k ((s.ctr k + n) % 2 ^ 64)

/-- Advance counter `c` of instance `i` of group `g` by `n`. -/
def State.countN (s : State) (g i c n : Nat) : State := s.addCtr (ctrKey g i c) n

/-- Advance counter `c` of instance `i` of group `g` by one. -/
def State.count (s : State) (g i c : Nat) : State := s.countN g i c 1

/-! ### Free values -/

/-- A value below `n` that the manual leaves open (notes/assumptions/3.md): the next free value, and the state that has
used it. -/
def State.free (s : State) (n : Nat) : Nat × State :=
  (Config.freeNat s.freeCtr % n, { s with freeCtr := s.freeCtr + 1 })

/-! ### Host memory -/

/-- What a byte of host memory that nothing has written reads as (notes/assumptions/4.md). -/
def hostDefault : Nat → Byte := fun _ => 0

/-- Read one byte of host memory; addresses wrap at 2^64. -/
def State.hostByte (s : State) (a : Nat) : Byte := SMap.get hostDefault (a % 2 ^ 64) s.host

/-- Write one byte of host memory. -/
def State.hostPut (s : State) (a : Nat) (b : Byte) : State :=
  { s with host := SMap.set hostDefault (a % 2 ^ 64) b s.host }

/-- Write bytes to host memory, lowest address first. -/
def State.hostWrite (s : State) (a : Nat) : List Byte → State
  | [] => s
  | b :: r => (s.hostPut a b).hostWrite (a + 1) r

/-- Read `n` bytes of host memory. -/
def State.hostRead (s : State) (a : Nat) : Nat → List Byte
  | 0 => []
  | n + 1 => s.hostByte a :: s.hostRead (a + 1) n

/-- A run of host memory as a sparse run of bytes. -/
def State.hostBlob (s : State) (a n : Nat) : Blob := (⟨a + n, s.host⟩ : Blob).slice a n

/-- Write a sparse run of bytes to host memory: every byte of the run, zeros included. -/
def State.hostPutBlob (s : State) (a : Nat) (b : Blob) : State :=
  let kept := s.host.filter fun p => decide (p.1 < a) || decide (a + b.len ≤ p.1)
  let put := fun m (p : Nat × Byte) => if p.1 < b.len then SMap.set hostDefault ((a + p.1) % 2 ^ 64) p.2 m else m
  { s with host := b.bytes.foldl put kept }

/-- The canonical form of host memory. -/
def Memory.wf (m : List Host.Cell) : Bool := SMap.wf hostDefault m

/-! ### Time -/

/-- The counter in whole ns (R69). -/
def State.timeNs (s : State) : Nat := s.trn.time / 2 ^ 40

/-- The first whole ns at or after the counter, its fraction included (R69, R75). -/
def State.nsCeil (s : State) : Nat := (s.trn.time + (2 ^ 40 - 1)) / 2 ^ 40

/-- Time flags (R83): bit 0 holdover, bit 1 held, bit 2 unlocked. A time-counter fault marks every later stamp unlocked
(R303, 0x0D). -/
def State.timeFlags (s : State) (held : Bool) : Nat :=
  b2n (decide (s.key.ks.servo = .holdover)) + 2 * b2n held
    + 4 * b2n (decide (s.key.ks.servo ≠ .locked) || s.saf.timeBad)

/-- The 16-byte timestamp layout (R322) of a time in units of 2^−40 ns. -/
def tsBytes (t flags : Nat) : List Byte :=
  leBytes 2 (t / 2 ^ 24) ++ leBytes 4 (t / 2 ^ 40 % 10 ^ 9) ++ leBytes 6 (t / 2 ^ 40 / 10 ^ 9)
    ++ [BitVec.ofNat 8 (1 + 2 * flags), 0, 0, 0]

/-- The present time as a timestamp. -/
def State.tsNow (s : State) : List Byte := tsBytes s.trn.time (s.timeFlags false)

/-- Seconds field of a time in units of 2^−40 ns. -/
def secOf (t : Nat) : Nat := t / 2 ^ 40 / 10 ^ 9 % 2 ^ 48

/-- Nanoseconds field of a time in units of 2^−40 ns. -/
def nsOf (t : Nat) : Nat := t / 2 ^ 40 % 10 ^ 9

/-! ### Lists of per-instance data -/

/-- Pipeline `n`'s tables. -/
def State.tab (s : State) (n : Nat) : PipeTab := SMap.get (fun _ => PipeTab.init) n s.tabs

/-- Set pipeline `n`'s tables. -/
def State.setTab (s : State) (n : Nat) (t : PipeTab) : State :=
  { s with tabs := SMap.set (fun _ => PipeTab.init) n t s.tabs }

/-- Run-time state of logical port `p`. -/
def State.port (s : State) (p : Nat) : PortRun := SMap.get (fun _ => PortRun.init) p s.ports

/-- Set the run-time state of logical port `p`. -/
def State.setPort (s : State) (p : Nat) (r : PortRun) : State :=
  { s with ports := SMap.set (fun _ => PortRun.init) p r s.ports }

/-- Running configuration of macro `m`. -/
def State.mac (s : State) (m : Nat) : MacroRun := SMap.get (fun _ => MacroRun.init) m s.macros

/-- Set the running configuration of macro `m`. -/
def State.setMac (s : State) (m : Nat) (r : MacroRun) : State :=
  { s with macros := SMap.set (fun _ => MacroRun.init) m r s.macros }

/-- Queue `x` of R220. -/
def State.queue (s : State) (x : Nat) : Queue := SMap.get (fun _ => Queue.init) x s.fab.queues

/-- Set queue `x`. -/
def State.setQueue (s : State) (x : Nat) (q : Queue) : State :=
  { s with fab := { s.fab with queues := SMap.set (fun _ => Queue.init) x q s.fab.queues } }

/-- Pool `k`. -/
def State.pool (s : State) (k : Nat) : Pool := SMap.get (Pool.init s.part.en) k s.fab.pools

/-- Set pool `k`. -/
def State.setPool (s : State) (k : Nat) (p : Pool) : State :=
  { s with fab := { s.fab with pools := SMap.set (Pool.init s.part.en) k p s.fab.pools } }

/-- Frame `i`, if it is inside the device. -/
def State.frame (s : State) (i : Nat) : Option Frame := SMap.get (fun _ => none) i s.fab.frames

/-- Set or remove frame `i`. -/
def State.setFrame (s : State) (i : Nat) (f : Option Frame) : State :=
  { s with fab := { s.fab with frames := SMap.set (fun _ => none) i f s.fab.frames } }

/-- Run-time state of ring `r`. -/
def State.ringRun (s : State) (r : Nat) : RingRun := SMap.get (fun _ => RingRun.init) r s.hif.rings

/-- Set the run-time state of ring `r`. -/
def State.setRingRun (s : State) (r : Nat) (x : RingRun) : State :=
  { s with hif := { s.hif with rings := SMap.set (fun _ => RingRun.init) r x s.hif.rings } }

/-- DMA channel `c`. -/
def State.ch (s : State) (c : Nat) : DmaCh := SMap.get (fun _ => DmaCh.init) c s.dma

/-- Set DMA channel `c`. -/
def State.setCh (s : State) (c : Nat) (x : DmaCh) : State := { s with dma := SMap.set (fun _ => DmaCh.init) c x s.dma }

/-- SQC count and latch of a register. -/
def State.sqcOf (s : State) (a : Nat) : Sqc := SMap.get (fun _ => Sqc.init) a s.sqc

/-- Set the SQC count and latch of a register. -/
def State.setSqc (s : State) (a : Nat) (x : Sqc) : State := { s with sqc := SMap.set (fun _ => Sqc.init) a x s.sqc }

/-- Apply an update to every element of a list in turn. -/
def State.each {α : Type} (s : State) (l : List α) (f : State → α → State) : State := l.foldl f s

/-- Copy A of the boot manifest is the one in use: the valid copy with the higher generation number (R407). -/
def Mram.usesA (m : Mram) : Bool := m.manifestA.crcOk && (!m.manifestB.crcOk || decide (m.manifestB.gen ≤ m.manifestA.gen))

/-- A copy of the boot manifest is valid. -/
def Mram.manifestOk (m : Mram) : Bool := m.manifestA.crcOk || m.manifestB.crcOk

/-- The boot manifest in use (R407). -/
def Mram.manifest (m : Mram) : Manifest := if m.usesA then m.manifestA else m.manifestB

/-- Anti-rollback counter of a class: the larger of its two copies, since a counter is only ever raised (R409). -/
def Mram.counter (m : Mram) (c : Nat) : Nat := max (m.rollback.getD c (0, 0)).1 (m.rollback.getD c (0, 0)).2

/-- A FW_UPDATE is executing (R412). -/
def State.fwBusy (s : State) : Bool := s.hif.inflight.any fun e => decide (e.opcode = 0x52)

/-- An accepted command waits for the security unit (R405), and is one of `p`. -/
def State.unitWaits (s : State) (p : InFlight → Bool) : Bool := s.hif.inflight.any fun e => decide (e.wait = .security) && p e

/-- The security unit is at the work of an earlier command (R405): a bundle, a FW_UPDATE, or one that itself waits for them. An item
of a bundle is part of the bundle's work. -/
def State.unitTaken (s : State) (e : InFlight) : Bool :=
  decide (e.parent = 0) && s.hif.inflight.any fun f => decide (f.seq < e.seq) && match f.wait with
    | .bundle _ _ _ _ => true
    | .flash _ => true
    | w => decide (w = .security)

/-- Apply an update when a condition holds. -/
def State.doIf (s : State) (c : Bool) (f : State → State) : State := if c then f s else s

end Machine
end Sys2Proof
end

