-- ==== Sys2Proof/Machine/Operands.lean ====
section
/-! DEFINITION. The operand forms: command descriptors and their inline arguments, the command table (R331, R340, R365),
ring descriptors, CRC-32C, and the FCS of a frame. -/

namespace Sys2Proof.Machine

/-! ### CRC-32C -/

/-- One bit of a reflected CRC-32C. -/
def crcBit (c : Nat) : Nat := if c % 2 = 1 then (c / 2) ^^^ 0x82F63B78 else c / 2

/-- One byte of a reflected CRC-32C. -/
def crcByte (c : Nat) (b : Byte) : Nat :=
  crcBit (crcBit (crcBit (crcBit (crcBit (crcBit (crcBit (crcBit (c ^^^ b.toNat))))))))

/-- CRC-32C (Castagnoli) of bytes: initial value and final inversion of all ones. -/
def crc32c (l : List Byte) : Nat := (l.foldl crcByte 0xFFFFFFFF) ^^^ 0xFFFFFFFF

/-! ### The frame check sequence (R52) -/

/-- One bit of a reflected CRC-32 (IEEE 802.3, notes/assumptions/60.md). -/
def fcsBit (c : Nat) : Nat := if c % 2 = 1 then (c / 2) ^^^ 0xEDB88320 else c / 2

/-- One byte of a reflected CRC-32. -/
def fcsByte (c : Nat) (b : Byte) : Nat :=
  fcsBit (fcsBit (fcsBit (fcsBit (fcsBit (fcsBit (fcsBit (fcsBit (c ^^^ b.toNat))))))))

/-- CRC-32 of bytes: initial value and final inversion of all ones. -/
def crc32 (l : List Byte) : Nat := (l.foldl fcsByte 0xFFFFFFFF) ^^^ 0xFFFFFFFF

/-- The four bytes of the FCS of a frame, in the order sent. -/
def fcs (l : List Byte) : List Byte := leBytes 4 (crc32 l)

/-- A complete frame: its bytes and their FCS. -/
def withFcs (l : List Byte) : List Byte := l ++ fcs l

/-- A frame stomped after `n` bytes (R52): those bytes and the complement of the FCS they require. Where fewer are known, the known
ones (notes/assumptions/8.md). -/
def stompAfter (l : List Byte) (n : Nat) : List Byte :=
  if n ≤ l.length then l.take n ++ (fcs (l.take n)).map (~~~ ·) else l

/-! ### Command descriptors (R323) and the command table (R331) -/

/-- Inline argument: the little-endian number in `n` bytes from descriptor byte `b` (R331). -/
def argLe (d : CmdDesc) (b n : Nat) : Nat := leNat ((d.inl.drop (b - 24)).take n)

/-- Inline argument in network order. -/
def argBe (d : CmdDesc) (b n : Nat) : Nat := beNat ((d.inl.drop (b - 24)).take n)

/-- One row of the command table, with its access need of R365 (`0` none, `1` READ, `2` READ_WRITE) and its legality of
R340 (the device states, by their codes, in which it is legal). `target` is the target index of R361. -/
structure CmdInfo where
  opcode : Nat
  since : Nat
  target : Nat
  need : Nat
  legal : List Nat
  epoch : Bool
  input : Bool
  deriving DecidableEq, Repr

/-- The commands (R331, R340, R365). -/
def cmdTable : List CmdInfo := [
  ⟨0x0001, 0x200, 1, 0, [0, 1, 2, 3, 4, 5], false, false⟩,
  ⟨0x0002, 0x200, 1, 0, [0, 1, 2, 3, 4, 5], false, false⟩,
  ⟨0x0003, 0x200, 1, 0, [0, 1, 2, 3, 4, 5], false, false⟩,
  ⟨0x0004, 0x200, 0, 1, [0, 1, 2, 3, 4, 5], false, false⟩,
  ⟨0x0010, 0x200, 16, 2, [1, 2, 3], true, true⟩,
  ⟨0x0011, 0x300, 16, 2, [1, 2, 3], true, true⟩,
  ⟨0x0012, 0x200, 7, 2, [1, 2, 3], true, true⟩,
  ⟨0x0013, 0x200, 7, 2, [1, 2, 3], true, false⟩,
  ⟨0x0014, 0x200, 7, 2, [1, 2, 3], true, false⟩,
  ⟨0x0020, 0x300, 16, 1, [1, 2, 3, 4], false, false⟩,
  ⟨0x0021, 0x200, 16, 2, [1, 2, 3], true, false⟩,
  ⟨0x0030, 0x300, 10, 1, [0, 1, 2, 3, 4, 5], false, false⟩,
  ⟨0x0031, 0x300, 1, 1, [0, 1, 2, 3, 4, 5], false, false⟩,
  ⟨0x0040, 0x300, 3, 2, [1, 2, 3], true, false⟩,
  ⟨0x0041, 0x300, 3, 2, [1, 2, 3], true, false⟩,
  ⟨0x0042, 0x200, 0, 2, [1, 2, 3], true, false⟩,
  ⟨0x0050, 0x300, 4, 2, [1, 2, 3, 4], false, false⟩,
  ⟨0x0051, 0x301, 4, 2, [1, 2, 3], true, true⟩,
  ⟨0x0052, 0x300, 4, 2, [1, 2, 3, 4], true, true⟩,
  ⟨0x0060, 0x200, 9, 2, [1, 2, 3], false, false⟩,
  ⟨0x0070, 0x300, 8, 2, [1, 2, 3, 4], false, false⟩]

/-- The row of an opcode; none where the device does not know it. -/
def cmdInfo (op : Nat) : Option CmdInfo := cmdTable.find? fun i => i.opcode = op

/-- Commands that the active Keystone decides (R286): in a switchover gap or replay they wait. -/
def keystoneBound (op : Nat) : Bool := op = 0x13 || op = 0x14 || op = 0x21 || op = 0x40 || op = 0x41

/-- Commands that the conductor log records as its inputs (R282). A load is accepted in a gap and waits at its Keystone step, which is
its leave (R286). -/
def keystoneInput (op : Nat) : Bool := keystoneBound op || op = 0x10 || op = 0x11 || op = 0x12

/-- What a command's body answers (R331): final status with result0 and result1, or what it still waits for. -/
inductive CmdRes where
  | done (status r0 r1 : Nat)
  | wait (w : Wait)
  deriving DecidableEq, Repr

/-- Completed with OK and no result. -/
def CmdRes.ok : CmdRes := .done 0 0 0

/-- Completed with a status and no result. -/
def CmdRes.fail (status : Nat) : CmdRes := .done status 0 0

/-! ### Ring descriptors -/

/-- TX descriptor (R335), read from its 32 bytes. -/
structure TxDesc where
  addr : Nat
  fragLen : Nat
  port : Nat
  queue : Nat
  forward : Bool
  tsOffset : Nat
  sop : Bool
  eop : Bool
  tsReq : Bool
  oneStep : Bool
  own : Bool
  deriving DecidableEq, Repr

/-- Read a TX descriptor. -/
def txDesc (l : List Byte) : TxDesc :=
  let f := fun b n => leNat ((l.drop b).take n)
  ⟨f 0 8, f 24 2, bitsOf (f 26 2) 0 9, bitsOf (f 26 2) 9 3, bitAt (f 26 2) 12, f 28 1, bitAt (f 29 1) 0,
    bitAt (f 29 1) 1, bitAt (f 29 1) 2, bitAt (f 29 1) 3, bitAt (f 31 1) 7⟩

/-- A command descriptor as read from its 64 bytes, and its opcode. -/
def cmdDesc (ring : Nat) (l : List Byte) : Nat × CmdDesc :=
  let f := fun b n => leNat ((l.drop b).take n)
  (f 0 2, { ring := ring, flags := (l.drop 2).headD 0, rsv3 := (l.drop 3).headD 0, tag := f 4 4, argAddr := f 8 8,
            argLen := f 16 4, rsv20 := f 20 4, inl := (l.drop 24).take 39, last := (l.drop 63).headD 0,
            memErr := false, ringErr := false })

end Sys2Proof.Machine
end

