-- ==== Sys2Proof/Machine/Calendar.lean ====
section
/-! DEFINITION. The Ephemeris as the device consumes it (R93 to R99): fields of the header, slots and map entries, the
content check, the position of the running schedule, and what a port runs (R36 to R41). Times are in ns. -/

namespace Sys2Proof.Machine

/-! ### Layout (R95, R97, R98) -/

/-- Cycle length. -/
def ephCycleLen (b : Blob) : Nat := b.le 0x10 4

/-- Number of slots. -/
def ephSlots (b : Blob) : Nat := b.le 0x14 2

/-- Bound to CYCLE_REF_IN and not to TIME. -/
def ephRefBound (b : Blob) : Bool := decide (b.le 0x16 1 = 1)

/-- Offset of the cycle grid from zero seconds. -/
def ephPhase (b : Blob) : Nat := b.le 0x18 4

/-- ephemeris_id. -/
def ephId (b : Blob) : Nat := b.le 8 8

/-- expected_type code of a logical port. -/
def ephType (b : Blob) (p : Nat) : Nat := bitsOf (b.le (0x100 + p / 2) 1) (4 * (p % 2)) 4

/-- Offset of a slot record. -/
def slotBase (i : Nat) : Nat := 0x200 + i * 0x480

/-- Length of a slot. -/
def slotLen (b : Blob) (i : Nat) : Nat := bitsOf (b.le (slotBase i) 4) 0 26 * 16

/-- A map entry (R98): window times are offsets from the slot start. -/
structure MapEntry where
  valid : Bool
  inSub : Nat
  outMacro : Nat
  outSub : Nat
  winOpen : Nat
  winClose : Nat
  deriving DecidableEq, Repr

/-- Egress logical port of an entry. -/
def MapEntry.out (e : MapEntry) : Nat := 4 * e.outMacro + e.outSub

/-- Entry of ingress macro `m` in slot `i`; every entry reads as invalid when map_present is 0. -/
def slotEntry (b : Blob) (i m : Nat) : MapEntry :=
  let w := b.le (slotBase i + 0x10 + 4 * m) 4
  ⟨bitAt w 0 && bitAt (b.le (slotBase i + 4) 4) 0, bitsOf w 1 2, bitsOf w 3 7, bitsOf w 10 2, 16 * bitsOf w 12 10,
    16 * bitsOf w 22 10⟩

/-- Gate bit of queue `q` of logical port `p` in slot `i`. -/
def slotGate (b : Blob) (i p q : Nat) : Bool := bitAt (b.le (slotBase i + 0x210 + p) 1) q

/-- HOLD bit of logical port `p` in slot `i`. -/
def slotHold (b : Blob) (i p : Nat) : Bool := bitAt (b.le (slotBase i + 0x410 + p / 8) 1) (p % 8)

/-- Offset of slot `i` from the cycle start. -/
def slotStart (b : Blob) (i : Nat) : Nat := ((List.range i).map fun j => slotLen b j).sum

/-- The slot that contains an offset of the cycle, searching from slot `i` at offset `at` with `n` slots to go. -/
def slotAtFrom (b : Blob) (off at_ i : Nat) : Nat → Nat
  | 0 => i - 1
  | n + 1 => if off < at_ + slotLen b i then i else slotAtFrom b off (at_ + slotLen b i) (i + 1) n

/-- The slot that contains an offset of the cycle. -/
def slotAt (b : Blob) (off : Nat) : Nat := slotAtFrom b off 0 0 (ephSlots b)

/-- Some slot has a valid entry that satisfies a test on its ingress macro. -/
def anyEntry (b : Blob) (f : Nat → MapEntry → Bool) : Bool :=
  (List.range (ephSlots b)).any fun i => (List.range 128).any fun m =>
    let e := slotEntry b i m
    e.valid && f m e

/-- A macro is named in a calendar (R452). -/
def macroNamed (b : Blob) (k : Nat) : Bool := anyEntry b fun m e => m = k || e.outMacro = k

/-- A logical port is the ingress or egress port of a valid entry (R44). -/
def portNamed (b : Blob) (p : Nat) : Bool := anyEntry b fun m e => 4 * m + e.inSub = p || e.out = p

/-- Reserved fields of the header and of every slot are zero (R99). -/
def ephReservedOk (b : Blob) : Bool :=
  b.zeroIn 0x1E 2 && b.zeroIn 0x2C 212 && (List.range (ephSlots b)).all fun i =>
    decide (b.le (slotBase i) 4 < 2 ^ 26) && decide (b.le (slotBase i + 4) 4 < 2) && b.zeroIn (slotBase i + 8) 8
      && b.zeroIn (slotBase i + 0x450) 48

/-- The entries of one slot satisfy R99. -/
def slotOk (b : Blob) (i : Nat) : Bool :=
  let es := (List.range 128).filterMap fun m => let e := slotEntry b i m; if e.valid then some (m, e) else none
  decide (slotLen b i ≠ 0)
    && es.all (fun (m, e) => decide (e.winOpen < e.winClose) && decide (e.winClose ≤ slotLen b i)
        && decide (ephType b (4 * m + e.inSub) ≠ 0) && decide (ephType b e.out ≠ 0))
    && decide ((es.map fun (_, e) => e.outMacro).Nodup)

/-- Content check of R99 on a calendar whose signature block begins at byte `sigAt`: a status code, 0 when it passes. -/
def ephCheck (b : Blob) (sigAt : Nat) : Nat :=
  if b.le 0 4 ≠ 0x4D485045 ∨ b.le 6 2 ≠ 0x200 then 0x02
  else if b.le 4 2 ≠ 1 then 0x04
  else if !(ephReservedOk b) then 0x02
  else if 1 < b.le 0x16 1 then 0x02
  else if sigAt ≠ slotBase (ephSlots b) then 0x02
  else if ephCycleLen b < 1000 ∨ 1000000000 < ephCycleLen b ∨ ephSlots b = 0 ∨ 8192 < ephSlots b then 0x02
  else if ephCycleLen b % 16 ≠ 0 ∨ ephCycleLen b ≤ ephPhase b then 0x02
  else if slotStart b (ephSlots b) ≠ ephCycleLen b then 0x02
  else if !((List.range (ephSlots b)).all fun i => slotOk b i) then 0x02
  else if b.le 0x17 1 = 0 ∧ anyEntry b (fun _ _ => true) then 0x02
  else if ephRefBound b ∧ (b.le 0x20 4 < 1000 ∨ ephCycleLen b ≤ b.le 0x28 4 ∨ b.le 0x24 4 ≤ ephCycleLen b
      ∨ 2 * ephCycleLen b < b.le 0x24 4) then 0x02
  else 0

/-! ### The running schedule -/

/-- An Ephemeris is active. -/
def State.ephOn (s : State) : Bool := s.eph.1.valid

/-- The active calendar. -/
def State.cal (s : State) : Blob := s.eph.1.blob

/-- Sequencer state under CYCLE_REF binding (EPH.STATUS): 0 not bound, 1 WAITING, 2 LOCKED, 3 FREERUN. -/
def State.refState (s : State) : Nat := if s.ephOn && ephRefBound s.cal then s.key.ks.refState else 0

/-- Start of the cycle of a TIME-bound calendar's grid that contains time `t`. -/
def gridStart (b : Blob) (t : Nat) : Int :=
  (t : Int) - ((t + ephCycleLen b - ephPhase b) % ephCycleLen b : Nat)

/-- First instant of a TIME-bound calendar's grid at or after `t`. -/
def gridNext (b : Blob) (t : Nat) : Nat :=
  let off := (t + ephCycleLen b - ephPhase b) % ephCycleLen b
  if off = 0 then t else t + (ephCycleLen b - off)

/-- Start of the present slot. -/
def State.slotBegan (s : State) : Int := s.fly.cycleStart + slotStart s.cal s.fly.slot

/-- Gate of queue `q` of logical port `p` (R94, R117), by the last slot applied (R306). -/
def State.gateOpen (s : State) (p q : Nat) : Bool :=
  !s.ephOn || !s.getB F.EPH_CTRL_gates_en || s.saf.gateSlot.all fun r => slotGate r.1 r.2 p q

/-- HOLD asserted on logical port `p` (R117, R119), by the last slot applied (R306). -/
def State.holdOn (s : State) (p : Nat) : Bool :=
  s.ephOn && s.getB F.EPH_CTRL_gates_en && s.saf.gateSlot.any fun r => slotHold r.1 r.2 p

/-- Slots of the cycle in progress that have not begun. -/
def State.slotsLeft (s : State) : Nat := if s.fly.started then ephSlots s.cal - 1 - s.fly.slot else 0

/-- Time, in units of 2^−40 ns, until the gate of a queue next closes, searching `n` slots from slot `i`, which ends `left`
units from now; `none` when it stays open all that way. -/
def nextClose (b : Blob) (p q i left : Nat) : Nat → Option Nat
  | 0 => none
  | n + 1 =>
    let j := (i + 1) % ephSlots b
    if slotGate b j p q then (nextClose b p q j (left + slotLen b j * 2 ^ 40) n) else some left

/-- What takes over from the running schedule next, where the flywheel is armed with it (R277): the counter time, the calendar that
runs from then on, its slot, and whether that slot waits for an edge (R103). A cycle start of a CYCLE_REF-bound calendar, or a bank switch, which a start may carry (R108). -/
def State.nextTurn (s : State) : Option (Int × Blob × Nat × Bool) :=
  let b := s.eph.2.blob
  let switch := fun (u : Int) => (u, b, if ephRefBound b then ephSlots b - 1 else 0, ephRefBound b)
  let start := if ephRefBound s.cal then s.fly.armedStart.map fun u =>
      if s.fly.armed.any fun a => a.predicted && bitAt a.sel 0 && decide ((a.t : Int) ≤ u) then switch u else (u, s.cal, 0, false) else none
  let sw := (s.fly.armed.filter fun a => !a.predicted && bitAt a.sel 0).map fun a => switch a.tEff
  match start, sw with
  | some x, some y => some (if x.1 < y.1 then x else y)
  | some x, none => some x
  | none, o => o

/-- Slots that follow the present one for certain, before an armed start: those of the cycle in progress where the start comes from an
edge or is the first; otherwise the elastic slot counts with its compiled length (notes/assumptions/22.md). -/
def State.slotsAhead (s : State) : Nat :=
  if ephRefBound s.cal && (s.fly.fromEdge || !s.fly.started) then s.slotsLeft else ephSlots s.cal

/-- Time until queue `q` of port `p` next closes, in units of 2^−40 ns; `none` when it never does: at the boundary of a slot whose gate
is closed, of the running schedule or of what takes over from it. -/
def State.untilClose (s : State) (p q : Nat) : Option Nat :=
  if !s.ephOn || !s.getB F.EPH_CTRL_gates_en then none
  else
    let dist := fun (t : Int) => (t * 2 ^ 40 - (s.trn.time : Int)).toNat
    let own := nextClose s.cal p q s.fly.slot (dist (s.slotBegan + slotLen s.cal s.fly.slot)) s.slotsAhead
    match s.nextTurn with
    | none => own
    | some (u, b, k, waits) =>
      if own.any fun x => decide (x < dist u) then own
      else if !slotGate b k p q then some (dist u)
      else if waits then none
      else nextClose b p q k (dist u + slotLen b k * 2 ^ 40) (ephSlots b)

/-- The crossbar is closed by SAFE_HOLD (R121). -/
def State.closed (s : State) : Bool := decide (s.dev = .safeHold)

/-- The crossbar connects per the active bank now (R94, R103, R111, R121). -/
def State.connects (s : State) : Bool :=
  s.ephOn && s.getB F.EPH_CTRL_meridian_en && !s.closed && decide (s.refState ≠ 1) && s.domainOn 33

/-- Entry of ingress macro `m` in the present slot; invalid while the crossbar connects nothing. -/
def State.entryNow (s : State) (m : Nat) : MapEntry :=
  let e := slotEntry s.cal s.fly.slot m
  { e with valid := e.valid && s.connects }

/-! ### Lanes and port modes (R36, R37) -/

/-- Whether sub-port `i` exists under a PORT.MODE word in macro `m`. -/
def subExists (mode : Word) (m i : Nat) : Bool :=
  let k := fldOf mode 0 4
  if k = 0 then false
  else if k = 1 then (if fldOf mode (4 + 2 * (i / 2)) 2 = 0 then decide (i < 4) else i = 0 || i = 2)
  else if k = 6 then decide (i = 0) && decide (m % 2 = 0)
  else decide (i = 0)

/-- Logical lanes of sub-port `i`. -/
def subLanes (mode : Word) (i : Nat) : List Nat :=
  let k := fldOf mode 0 4
  if k = 1 then (if fldOf mode (4 + 2 * (i / 2)) 2 = 0 then [i] else [i, i + 1]) else [0, 1, 2, 3]

/-- Number of lanes of sub-port `i` (eight for a bond). -/
def subWidth (mode : Word) (i : Nat) : Nat := if fldOf mode 0 4 = 6 then 8 else (subLanes mode i).length

/-- lane_rate code that a mode gives lane `l` (R36, R37); in LANES halves the lane's own code. -/
def modeRate (mode lane : Word) (l : Nat) : Nat :=
  let k := fldOf mode 0 4
  if k = 1 then (if fldOf mode (4 + 2 * (l / 2)) 2 = 0 then fldOf lane 0 3 else 0)
  else if k = 3 then 1 else if k = 4 then 2 else if k = 5 then 3 else 0

/-- FEC codes allowed to sub-port `i` (R36, R37). -/
def fecAllowed (mode lane : Word) (i : Nat) : List Nat :=
  let k := fldOf mode 0 4
  if k = 1 then
    if fldOf mode (4 + 2 * (i / 2)) 2 = 0 then
      let r := fldOf lane 0 3
      if r ≤ 1 then [3] else if r = 2 then [2, 1, 0] else if r = 3 then [1, 0] else [0]
    else [3]
  else if k = 4 then [2, 0] else if k = 5 then [1, 0] else [3]

/-- expected_type code of a configured sub-port with FEC `fec` (R96); 0 where none applies. -/
def modeType (mode lane : Word) (i fec : Nat) : Nat :=
  let k := fldOf mode 0 4
  if k = 1 then
    if fldOf mode (4 + 2 * (i / 2)) 2 = 0 then
      let r := fldOf lane 0 3
      if r = 0 then 3 else if r = 1 then 5 else if r = 2 then (if fec = 2 then 8 else if fec = 1 then 9 else 10)
      else if r = 3 then (if fec = 1 then 13 else 14) else 15
    else 2
  else if k = 2 then 1 else if k = 3 then 4 else if k = 4 then (if fec = 2 then 6 else 7)
  else if k = 5 then (if fec = 1 then 11 else 12) else 0

/-- expected_type code of a negotiated technology (R41, R96). -/
def techType (tech fec : Nat) : Nat :=
  if tech = 0 then 15 else if tech = 1 then (if fec = 1 then 13 else 14)
  else if tech = 2 then (if fec = 2 then 8 else if fec = 1 then 9 else 10)
  else if tech = 3 then 5 else if tech = 4 then 3 else if tech = 5 then (if fec = 1 then 11 else 12)
  else if tech = 6 then (if fec = 2 then 6 else 7) else if tech = 7 then 4 else if tech = 8 then 1
  else if tech = 9 then 2 else 0

/-- Lanes a technology uses (R41). -/
def techWidth (tech : Nat) : Nat :=
  if tech ≤ 4 then 1 else if tech ≤ 8 then 4 else if tech = 9 then 2 else if tech = 10 then 8 else 0

/-- Logical port `p` exists in the running configuration (R36). -/
def State.portExists (s : State) (p : Nat) : Bool :=
  decide (p < 512) && subExists (s.mac (p / 4)).mode (p / 4) (p % 4)

/-- Running type of a port as an expected_type code. -/
def State.runType (s : State) (p : Nat) : Nat :=
  let m := p / 4
  let tech := s.getF (F.PORT_LINK_STATUS_resolved_tech m (p % 4))
  let fec := s.getF (F.PORT_LINK_STATUS_fec_active m (p % 4))
  if tech = 15 then modeType (s.mac m).mode ((s.mac m).lanes.getD (p % 4) 0) (p % 4) fec else techType tech fec

/-- MAC rate in kbit/s of the types of R96 and of an 800G bond. -/
def typeRate (t : Nat) : Nat :=
  if t = 1 then 400000000 else if t = 2 ∨ t = 4 then 200000000 else if t = 3 ∨ t = 6 ∨ t = 7 then 100000000
  else if t = 5 then 50000000 else if 8 ≤ t ∧ t ≤ 10 then 25000000 else if t = 11 ∨ t = 12 then 40000000
  else if t = 13 ∨ t = 14 then 10000000 else if t = 15 then 1000000 else 800000000

/-- MAC rate of a running port in kbit/s. -/
def State.macRate (s : State) (p : Nat) : Nat := typeRate (s.runType p)

/-- PCS lock and alignment of a port, as PORT.LINK_STATUS shows. -/
def State.linkUp (s : State) (p : Nat) : Bool := s.getB (F.PORT_LINK_STATUS_link_up (p / 4) (p % 4))

/-- The port's group and pipeline are powered (R22). -/
def State.portPowered (s : State) (p : Nat) : Bool := s.domainOn (1 + p / 32) && s.domainOn (17 + p / 64)

/-- The port is link_up and usable (R22, R49). -/
def State.portUp (s : State) (p : Nat) : Bool := s.portExists p && s.linkUp p && s.portPowered p

/-- Running SUB_CFG word of a port. -/
def State.subCfg (s : State) (p : Nat) : Word := (s.mac (p / 4)).subs.getD (p % 4) 0

/-- an_enable in the running configuration. -/
def State.anOn (s : State) (p : Nat) : Bool := bitAt (s.subCfg p).toNat 2

/-- lt_enable in the running configuration. -/
def State.ltOn (s : State) (p : Nat) : Bool := bitAt (s.subCfg p).toNat 3

/-- The sub-port runs Clause 37 auto-negotiation (R41): 1000BASE-X without Clause 73 abilities. -/
def State.clause37 (s : State) (p : Nat) : Bool :=
  s.anOn p && decide (fldOf (s.subCfg p) 16 11 = 0)
    && decide (modeType (s.mac (p / 4)).mode ((s.mac (p / 4)).lanes.getD (p % 4) 0) (p % 4) 0 = 15)

/-- A port runs a type: it exists, and Clause 73 has resolved where it runs (R41, R96). -/
def State.typed (s : State) (p : Nat) : Bool :=
  s.portExists p && (!s.anOn p || s.clause37 p || decide (s.getF (F.PORT_LINK_STATUS_resolved_tech (p / 4) (p % 4)) ≠ 15))

/-- The port passes the check of R116. -/
def State.portMatches (s : State) (p : Nat) : Bool :=
  s.linkUp p && decide (s.runType p = ephType s.cal p)

end Sys2Proof.Machine
end

