-- ==== Sys2Proof/Machine/Flags.lean ====
section
/-! DEFINITION. Status computations: the flags and status fields that registers show but that follow from the rest of the
state (device state, alarm levels, ledger, pair redundancy, bank identities, levels), and the value a read returns. -/

namespace Sys2Proof.Machine

/-! ### Device, power and safety -/

/-- device_state code (R332); OFF keeps PARKING's (R400). -/
def DevState.code : DevState → Nat
  | .boot => 0 | .config => 1 | .ready => 2 | .degraded => 3 | .safeHold => 4 | .parking => 5 | .off => 5

/-- Charges of the domains that are on, or granted and rising (R390 step 1), units of 100 mW (R393). -/
def State.permanent (s : State) : Nat :=
  ((List.range 38).map fun d => if s.domainOn d || decide (d ∈ s.pwr.rising) then chargeOf s.part d else 0).sum

/-- Costs of the grants held (R393). A power-up's grant is not among them: its charge is permanent. -/
def State.transient (s : State) : Nat := (s.key.ks.grants.map Grant.cost).sum

/-- Board budget (PWR.BUDGET). -/
def State.budget (s : State) : Nat := s.getF F.PWR_BUDGET_budget

/-- KEY.STATUS code of a unit. -/
def State.unitState (s : State) (u : Unit2) : Nat :=
  match u with
  | .a => s.getF F.KEY_STATUS_state_a
  | .b => s.getF F.KEY_STATUS_state_b

/-- Set a unit's state. -/
def State.setUnit (s : State) (u : Unit2) (v : Nat) : State :=
  match u with
  | .a => s.setF F.KEY_STATUS_state_a v
  | .b => s.setF F.KEY_STATUS_state_b v

/-- The other unit. -/
def other (u : Unit2) : Unit2 := match u with | .a => .b | .b => .a

/-- The active unit: the one in ACTIVE (R278). -/
def State.activeUnit (s : State) : Option Unit2 :=
  if s.unitState .a = 4 then some .a else if s.unitState .b = 4 then some .b else none

/-- One unit ACTIVE and the other SYNCED (R278). -/
def State.pairRedundant (s : State) : Bool :=
  (decide (s.unitState .a = 4) && decide (s.unitState .b = 3)) || (decide (s.unitState .b = 4) && decide (s.unitState .a = 3))

/-- A switchover gap is in progress (R285). -/
def State.inGap (s : State) : Bool := s.key.gapEnd.isSome

/-- Keystone inputs wait: during the gap and the replay (R286, R287). -/
def State.ksBusy (s : State) : Bool := s.inGap || s.key.replay

/-- Both outputs may be released: READY, or DEGRADED with degraded_alarm clear, with alarm_release set (R308). -/
def State.alarmFree (s : State) : Bool :=
  (decide (s.dev = .ready) || (decide (s.dev = .degraded) && !s.getB F.SAF_CTRL_degraded_alarm))
    && s.getB F.SAF_CTRL_alarm_release

/-- The level a channel orders, before a test: true when the output is asserted (R308). -/
def State.alarmOrder (s : State) (u : Unit2) : Bool :=
  !s.alarmFree || (match u with | .a => s.saf.safeA | .b => s.saf.safeB)

/-- SAFE_ALARM output asserted: a test inverts the level its channel orders; in a switchover gap both hold their levels (R286). -/
def State.alarm (s : State) (u : Unit2) : Bool :=
  if s.inGap then (match u with | .a => s.key.gapAlarm.1 | .b => s.key.gapAlarm.2)
  else if s.saf.testing = some u then !s.alarmOrder u else s.alarmOrder u

/-- safe_state of SAF.STATUS. -/
def State.safeState (s : State) : Nat :=
  if s.dev = .safeHold then 2 else if s.dev = .degraded then 1 else 0

/-- Port queue `q` is a safety-class queue (R300). -/
def State.safetyQ (s : State) (q : Nat) : Bool := s.getFBit F.SAF_SAFETY_QMAP_safety_q q

/-- CPU-port queue `c` is a safety-class queue (R300). -/
def State.safetyCpuQ (s : State) (c : Nat) : Bool :=
  if c < 32 then s.getFBit F.SAF_SAFETY_CPUQ_LO_cpuq_lo c else s.getFBit F.SAF_SAFETY_CPUQ_HI_cpuq_hi (c - 32)

/-! ### Host interface and counters -/

/-- Oldest and newest sequence numbers of the Observing log; both 0 while it is empty (R341). -/
def State.logFirst (s : State) : Nat := (s.hif.log.head?.map LogEntry.seq).getD 0

/-- Newest sequence number retained. -/
def State.logLast (s : State) : Nat := (s.hif.log.getLast?.map LogEntry.seq).getD 0

/-- N_eff of R384 in EPHEMERIS mode, 0 otherwise. -/
def State.nEff (s : State) : Nat :=
  if s.getF F.CNT_CTRL_dump_mode = 1 then
    if s.ephOn then max (s.getF F.CNT_DUMP_EVERY_N_dump_every_n) (ceilDiv 100000 (ephCycleLen s.cal))
    else s.getF F.CNT_DUMP_EVERY_N_dump_every_n
  else 0

/-- Checkpoint interval N (R280); 4 as at reset while no Ephemeris is active. -/
def State.copyEveryN (s : State) : Nat := if s.ephOn then max 1 (ceilDiv 4000 (ephCycleLen s.cal)) else 4

/-! ### Image banks -/

/-- image_id of a bank, 0 when empty. -/
def AshBank.ident (b : AshBank) : Nat := if b.valid then b.id else 0

/-- ephemeris_id of a bank, 0 when empty. -/
def EphBank.ident (b : EphBank) : Nat := if b.valid then ephId b.blob else 0

end Sys2Proof.Machine
end

