-- ==== Sys2Proof/Machine/Levels.lean ====
section
/-! DEFINITION. Levels of the buffer and the schedulers as status shows them: pool use (R195), capacities (R197), queue
depths, shaper buckets (R257), and eligibility (R249, R264). -/

namespace Sys2Proof.Machine

/-- Shared size S. -/
def Pool.shared (p : Pool) : Nat := p.onchip + p.hbm - (if p.threshold then p.headroom else 0)

/-- Largest use that a grant may reach. -/
def Pool.cap (p : Pool) : Nat := if p.threshold then p.shared + p.headroom else p.shared

/-- Cells allocated in both memories. -/
def Pool.total (p : Pool) : Nat := p.used + p.usedHbm

/-- Level code of BUF.POOL_STATUS. A pool of size 0 that uses no cell stands below WARN, as its reset value says (R220). -/
def Pool.level (p : Pool) : Nat :=
  let t := p.total
  let s := p.shared
  if t = 0 ∧ p.onchip + p.hbm = 0 then 0
  else if p.threshold ∧ s + p.headroom ≤ t then 4 else if s ≤ t then 3
  else if p.threshold ∧ ceilDiv (7 * s) 8 ≤ t then 2 else if ceilDiv (3 * s) 4 ≤ t then 1 else 0

/-- Level flags after the use of a pool has moved from `t0`: re-arming, pool back-pressure (R195). -/
def Pool.levels (p : Pool) (t0 : Nat) : Pool :=
  let t := p.total
  let s := p.shared
  let p := if t < ceilDiv (5 * s) 8 then { p with warned := false, fulled := false, exhausted := false } else p
  let crossed := fun thr => decide (t0 < thr) && decide (thr ≤ t)
  { p with
    warned := p.warned || crossed (ceilDiv (3 * s) 4)
    fulled := p.fulled || crossed s
    exhausted := p.exhausted || (p.threshold && crossed (s + p.headroom))
    bp := p.threshold && (decide (ceilDiv (7 * s) 8 ≤ t) || (p.bp && !decide (t < ceilDiv (13 * s) 16))) }

/-- Cells, on chip and in HBM, that a core cycle has returned to a pool and cannot yet grant (R203). -/
def Pool.late (p : Pool) (now : Nat) : Nat × Nat := if p.freed.1 = now then p.freed.2 else (0, 0)

/-- Cells of a pool that the requests of a core cycle find taken (R203). -/
def Pool.taken (p : Pool) (now : Nat) : Nat := p.total + (p.late now).1 + (p.late now).2

/-- A field of a queue or limit register as the admissions of this core cycle have it: a write takes effect from the next one (R220). -/
def State.limitF (s : State) (f : Fld) : Nat :=
  match (if s.fab.lateCfg.1 = s.now then SMap.get (fun _ => none) f.addr s.fab.lateCfg.2 else none) with
  | some w => fldOf w f.lo f.width
  | none => s.getF f

/-- Whether pool `k` grants `n` cells (R195). -/
def State.poolGrants (s : State) (k n : Nat) : Bool := decide ((s.pool k).taken s.now + n ≤ (s.pool k).cap)

/-- Cells charged to port `p` with ingress class `k` (R200). -/
def State.charged (s : State) (p k : Nat) : Nat := SMap.get (fun _ => 0) (8 * p + k) s.fab.charged

/-- On-chip cells available to pools (R197). -/
def State.onchipAvail (s : State) : Nat :=
  786432 - (if s.getB F.BUF_CTRL_hbm_en then 32768 else 0) - s.fab.quarantined.length

/-- Logical HBM channels usable (R197, R218): the spare in force at the last pool apply is not allocated, nor is a retired
channel that the spare does not replace. One that is being relocated is still used (R217). -/
def State.hbmLive (s : State) : List Nat :=
  (List.range (if s.fab.spareWanted then 31 else 32)).filter fun c => !s.getFBit F.BUF_HBM_RETIRED_retired c
    || (s.getB F.BUF_HBM_SPARE_MAP_in_use && decide (s.getF F.BUF_HBM_SPARE_MAP_replaced = c))
    || s.fab.hbmReloc.any fun r => decide (r.1 = c)

/-- HBM cells available to pools (R197). -/
def State.hbmAvail (s : State) : Nat :=
  if s.getB F.BUF_CTRL_hbm_en && !s.part.en then 4194304 * s.hbmLive.length else 0

/-- `n` more cells exist in a memory: cells in quarantine, lost or in retired channels make grants fail earlier than the
pools' levels predict (R214, R216, R218). -/
def State.cellsLeft (s : State) (hbm : Bool) (n : Nat) : Bool :=
  let held := (s.fab.pools.map fun p =>
    if hbm then p.2.usedHbm + (p.2.late s.now).2 else p.2.used + (p.2.late s.now).1).sum
  if hbm then decide (held + n ≤ s.hbmAvail) else decide (held + n + s.fab.lost ≤ s.onchipAvail)

/-- The quota of pool `k` in a memory has room for `n` cells (R206). -/
def State.quotaLeft (s : State) (hbm : Bool) (k n : Nat) : Bool :=
  let p := s.pool k
  (if hbm then decide (p.usedHbm + (p.late s.now).2 + n ≤ p.hbm) else decide (p.used + (p.late s.now).1 + n ≤ p.onchip))
    && s.cellsLeft hbm n

/-- The copies whose cells a queue holds: those that a flush has still to release come first (R211). -/
def Queue.all (q : Queue) : List Copy := q.flush ++ q.copies

/-- depth(x): cells of the copies in a queue. -/
def Queue.depth (q : Queue) : Nat := (q.all.map Copy.charge).sum

/-- A copy's frame lies in HBM and has not been prefetched (R207). -/
def State.copyInHbm (s : State) (c : Copy) : Bool :=
  match s.frame c.frame with
  | none => false
  | some f => f.inHbm && !c.prefetched

/-- Admitted frames that await expansion. -/
def State.expanding (s : State) : List Frame := (s.fab.expand.flatMap Prod.snd).filterMap s.frame

/-- Cells of a frame's copies that have still to enter queue `x`. -/
def Frame.bound (f : Frame) (x : Nat) : Nat := (f.copies.filter fun c => decide (c.queue = x)).length * f.charge

/-- depth(x) of R200: cells of the copies in queue `x` and of the admitted copies that have still to enter it. -/
def State.depthOf (s : State) (x : Nat) : Nat := (s.queue x).depth + (s.expanding.map fun f => f.bound x).sum

/-- A copy can be sent: it is cut through, or its frame has been fully received (R28). -/
def State.copyReady (s : State) (c : Copy) : Bool :=
  c.cut || (match s.frame c.frame with | none => true | some f => f.ended)

/-- On-chip depth of queue `x` (R206). -/
def State.depthOnchip (s : State) (x : Nat) : Nat :=
  s.depthOf x - (((s.queue x).all.filter s.copyInHbm).map Copy.charge).sum
    - ((s.expanding.filter Frame.inHbm).map fun f => f.bound x).sum

/-- Queue `x` holds an HBM-resident frame (R206). -/
def State.holdsHbm (s : State) (x : Nat) : Bool :=
  (s.queue x).all.any s.copyInHbm || s.expanding.any fun f => f.inHbm && f.copies.any fun c => decide (c.queue = x)

/-- Egress logical port of a queue: of port queues by number, of mirror queues by the session they are attached to. -/
def State.queuePort (s : State) (x : Nat) : Option Nat :=
  if x < 4096 then some (x / 8) else if x < 4160 then none else SMap.get (fun _ => none) (x - 4160) s.fab.mirrorPort

/-- Mirror queues attached to a port (R263). -/
def State.mirrorQueues (s : State) (p : Nat) : List Nat :=
  ((List.range 16).filter fun i => decide (SMap.get (fun _ => none) i s.fab.mirrorPort = some p)).map fun i => 4160 + i

/-- Bytes in units of a bucket. -/
def byteUnits (b : Nat) : Nat := b * 2 ^ 16

/-- A bucket that holds `burst` bytes. -/
def Bucket.full (burst : Nat) : Bucket := ⟨byteUnits burst, 0⟩

/-- A bucket held to its burst: T above it is set to it. -/
def Bucket.upTo (b : Bucket) (burst : Nat) : Bucket := if (byteUnits burst : Int) ≤ b.t then Bucket.full burst else b

/-- A bucket after `dt` core cycles: in each T rises by R ÷ 13,200,000 bytes, never above the burst. -/
def filled (b : Bucket) (rate burst dt : Nat) : Bucket :=
  let n := b.frac + rate * dt * 2 ^ 16
  Bucket.upTo ⟨b.t + (n / 13200000 : Nat), n % 13200000⟩ burst

/-- Tokens of queue `x` now. -/
def State.qTokens (s : State) (x : Nat) : Bucket :=
  let q := s.queue x
  if s.getB (F.TM_Q_CFG_shaper_en x) then
    filled q.tokens (s.getF (F.TM_Q_RATE_rate x)) (s.getF (F.TM_Q_BURST_burst x)) (s.now - q.stamp)
  else q.tokens

/-- Scheduler state of a port. -/
def State.sched (s : State) (p : Nat) : PortSched := SMap.get (fun _ => PortSched.init) p s.fab.scheds

/-- Tokens of port shaper `p` now. -/
def State.pTokens (s : State) (p : Nat) : Bucket :=
  let d := s.sched p
  if s.getB (F.TM_PORT_CFG_pshaper_en p) then
    filled d.tokens (s.getF (F.TM_PSHAPER_RATE_rate p)) (s.getF (F.TM_PSHAPER_BURST_burst p)) (s.now - d.stamp)
  else d.tokens

/-- Tokens of the aggregate CPU shaper now. -/
def State.cpuTokensNow (s : State) : Bucket :=
  if s.getB F.TM_CPU_CFG_cpu_shaper_en then
    filled s.fab.cpuTokens (s.getF F.TM_CPU_RATE_rate) (s.getF F.TM_CPU_BURST_burst) (s.now - s.fab.cpuStamp)
  else s.fab.cpuTokens

/-- Token register value: signed bytes, whole (TM.Q_TOKENS). -/
def tokenWord (b : Bucket) : Word := BitVec.ofInt 32 (b.t / 2 ^ 16)

/-! ### Eligibility (R249, R264) -/

/-- Queues that priority `i`'s mask names on sub-port `p` (R56). -/
def State.pfcMap (s : State) (p i : Nat) : Nat :=
  let m := p / 4
  let u := p % 4
  if i < 4 then bitsOf (s.reg (Addr.PORT_PFC_RX_MAP_LO m u)).toNat (8 * i) 8
  else bitsOf (s.reg (Addr.PORT_PFC_RX_MAP_HI m u)).toNat (8 * (i - 4)) 8

/-- Queue `q` of port `p` is paused: some paused priority maps to it (R56). -/
def State.queuePaused (s : State) (p q : Nat) : Bool :=
  (List.range 8).any fun i => s.getFBit (F.PORT_MAC_STATUS_rx_paused (p / 4) (p % 4)) i && bitAt (s.pfcMap p i) q

/-- Bytes of a copy that the length-aware check and the shapers count at its start: its length, or max_frame of the egress
sub-port for a cut-through copy (R118, R255). -/
def State.startLen (s : State) (p : Nat) (c : Copy) : Nat :=
  if c.cut ∨ c.len = 0 then s.getF (F.PORT_MAC_CFG_max_frame (p / 4) (p % 4)) else c.len

/-- The head copy of queue `q` of a length-aware port fits before the gate closes (R118). -/
def State.fits (s : State) (p q : Nat) (c : Copy) : Bool :=
  if s.getFBit (F.EPH_LEN_AWARE_len_aware (p / 32)) (p % 32) then
    match s.untilClose p q with
    | none => true
    | some left => decide ((s.startLen p c + 20) * 8000000 * 2 ^ 40 ≤ left * s.macRate p)
  else true

/-- Port `p` preempts: preempt_enable is set and preempt_active reads 1 (R62). -/
def State.preempts (s : State) (p : Nat) : Bool :=
  s.getB (F.PORT_MAC_CFG_preempt_enable (p / 4) (p % 4)) && s.getB (F.PORT_MAC_STATUS_preempt_active (p / 4) (p % 4))

/-- Queue `q` of port `p` is preemptable and preemption is in use (R63). -/
def State.preemptable (s : State) (p q : Nat) : Bool :=
  s.preempts p && s.getFBit (F.PORT_PREEMPT_CFG_preemptable (p / 4) (p % 4)) q

/-- The port may send packet-plane frames (R249 item 5). -/
def State.txOpen (s : State) (p : Nat) : Bool := s.portUp p && s.getB (F.PORT_MAC_CFG_tx_en (p / 4) (p % 4))

/-- The MAC generates flow control. -/
def State.fcGen (s : State) (p : Nat) : Bool :=
  s.getB (F.PORT_MAC_CFG_fc_gen_en (p / 4) (p % 4)) && decide (s.getF (F.PORT_MAC_CFG_pause_mode (p / 4) (p % 4)) ≠ 0)

/-- The Ephemeris allows a generated frame to start (R59, R119). -/
def State.fcSlot (s : State) (p : Nat) : Bool := !s.holdOn p && (List.range 8).any fun q => s.gateOpen p q

/-- A queue's shaper, when enabled, holds tokens ≥ 0. -/
def State.qFunded (s : State) (x : Nat) : Bool := !s.getB (F.TM_Q_CFG_shaper_en x) || decide (0 ≤ (s.qTokens x).t)

/-- A port's shaper, when enabled, holds tokens ≥ 0. -/
def State.pFunded (s : State) (p : Nat) : Bool := !s.getB (F.TM_PORT_CFG_pshaper_en p) || decide (0 ≤ (s.pTokens p).t)

/-- A queue's shaper does not hold its frames: one with a rate above the MAC rate of its port never does (R258). -/
def State.qShaperOk (s : State) (x : Nat) : Bool :=
  s.qFunded x || (match s.queuePort x with | some p => decide (s.macRate p < s.getF (F.TM_Q_RATE_rate x)) | none => false)

/-- A port's shaper does not hold its frames (R258). -/
def State.pShaperOk (s : State) (p : Nat) : Bool :=
  s.pFunded p || decide (s.macRate p < s.getF (F.TM_PSHAPER_RATE_rate p))

/-- Queue `q` of port `p` is eligible (R249); safety-class queues are closed in SAFE_HOLD (R300). -/
def State.queueEligible (s : State) (p q : Nat) : Bool :=
  match (s.queue (8 * p + q)).copies with
  | [] => false
  | c :: _ =>
    (s.queue (8 * p + q)).flush.isEmpty && s.copyReady c && !s.copyInHbm c && s.gateOpen p q && s.fits p q c && !s.queuePaused p q && s.qShaperOk (8 * p + q) && s.txOpen p
      && !(s.holdOn p && s.preemptable p q) && !(decide (s.dev = .safeHold) && s.safetyQ q)

/-- A mirror queue attached to port `p` is eligible (R247, R257, R263). -/
def State.mirrorEligible (s : State) (p x : Nat) : Bool :=
  match (s.queue x).copies with
  | [] => false
  | c :: _ => (s.queue x).flush.isEmpty && s.copyReady c && !s.copyInHbm c && s.qShaperOk x && s.txOpen p

/-- CPU-port queue `c` is eligible (R264). -/
def State.cpuEligible (s : State) (c : Nat) : Bool :=
  (match (s.queue (4096 + c)).copies with | [] => false | k :: _ => (s.queue (4096 + c)).flush.isEmpty && s.copyReady k)
    && s.qShaperOk (4096 + c)
    && (!s.getB F.TM_CPU_CFG_cpu_shaper_en || decide (0 ≤ s.cpuTokensNow.t))
    && !(decide (s.dev = .safeHold) && s.safetyCpuQ c)

end Sys2Proof.Machine
end

