-- ==== Sys2Proof/Machine/View.lean ====
section
/-! DEFINITION. What a register reads as (R366, R392): stored fields, and the status fields computed from the rest of the
state. -/

namespace Sys2Proof.Machine

/-- Replace the bits of a field in a word. -/
def Fld.put (f : Fld) (v : Nat) (w : Word) : Word := putFld w f.lo f.width v

/-- A register whose events follow R368: it has a seq field. -/
def isSqc (a : Nat) : Bool :=
  match regDesc a with
  | none => false
  | some d => d.fields.any fun f => f.lo = 24 && decide (f.acc = .sqc)

/-- Low or high word of a number, as two registers show it. -/
def halfWord (hi : Bool) (n : Nat) : Word := BitVec.ofNat 32 (if hi then n / 2 ^ 32 else n)

/-- SYS, HIF, DMA and KEY status. The Mortar link stands while both units run (notes/assumptions/33.md). -/
def State.viewA (s : State) (a : Nat) (w : Word) : Word :=
  if a = Addr.SYS_STATUS then F.SYS_STATUS_device_state.put s.dev.code w
  else if a = Addr.HIF_LOG_FIRST_LO then halfWord false s.logFirst
  else if a = Addr.HIF_LOG_FIRST_HI then halfWord true s.logFirst
  else if a = Addr.HIF_LOG_LAST_LO then halfWord false s.logLast
  else if a = Addr.HIF_LOG_LAST_HI then halfWord true s.logLast
  else if a = Addr.KEY_STATUS then
    F.KEY_STATUS_gap.put (b2n s.inGap) <| F.KEY_STATUS_replaying.put (b2n s.key.replay) <|
      F.KEY_STATUS_pair_redundant.put (b2n s.pairRedundant) <| F.KEY_STATUS_copy_every_n.put s.copyEveryN w
  else if a = Addr.KEY_LOG_STATUS then F.KEY_LOG_STATUS_log_depth.put s.key.log.length w
  else if a = Addr.KEY_MORTAR_STATUS then
    let up := fun (u : Unit2) => decide (2 ≤ s.unitState u) && decide (s.unitState u ≤ 4)
    F.KEY_MORTAR_STATUS_lanes_up.put (if up .a && up .b then 0xF else 0) <|
      F.KEY_MORTAR_STATUS_heartbeat_ok.put (b2n (up .a && up .b)) w
  else if a = Addr.DMA_STATUS then
    F.DMA_STATUS_active_ch.put s.dmaServed.1 <|
      F.DMA_STATUS_busy.put (b2n ((List.range 32).any fun c => s.getF (F.DMA_CH_STATUS_state c) = 2)) <|
      F.DMA_STATUS_leave_held.put (b2n (s.dma.any fun c => c.2.active.any DmaDesc.leave)) w
  else w

/-- PWR, TRN and EPH status. While PWRON_RST_N is asserted the ledger shows its reset value (R402, notes/assumptions/81.md). -/
def State.viewB (s : State) (a : Nat) (w : Word) : Word :=
  if a = Addr.PWR_STATUS then
    F.PWR_STATUS_off.put (b2n (decide (s.dev = .off))) <|
      F.PWR_STATUS_over_budget.put (b2n (decide (s.budget < s.permanent + s.transient))) <|
      F.PWR_STATUS_queue_depth.put s.key.ks.queue.length w
  else if a = Addr.PWR_LEDGER then
    (if s.pwr.phase = .held then w else BitVec.ofNat 32 (s.permanent % 2 ^ 16 + s.transient % 2 ^ 16 * 2 ^ 16))
  else if a = Addr.TRN_STATUS then
    let st := match s.key.ks.servo with | .disabled => 0 | .acquiring => 1 | .locked => 2 | .holdover => 3
    F.TRN_STATUS_servo_state.put st <| F.TRN_STATUS_holdover.put (b2n (decide (st = 3))) <|
      F.TRN_STATUS_held.put (b2n s.inGap) <| F.TRN_STATUS_lock_run.put s.key.ks.lockRun w
  else if a = Addr.EPH_STATUS then
    F.EPH_STATUS_active_valid.put (b2n s.eph.1.valid) <| F.EPH_STATUS_shadow_valid.put (b2n s.eph.2.valid) <|
      F.EPH_STATUS_ref_state.put s.refState <| F.EPH_STATUS_closed.put (b2n s.closed) <|
      F.EPH_STATUS_slot_now.put (if s.ephOn then s.fly.slot else 0) w
  else if a = Addr.EPH_ACTIVE_ID_LO then halfWord false s.eph.1.ident
  else if a = Addr.EPH_ACTIVE_ID_HI then halfWord true s.eph.1.ident
  else if a = Addr.EPH_SHADOW_ID_LO then halfWord false s.eph.2.ident
  else if a = Addr.EPH_SHADOW_ID_HI then halfWord true s.eph.2.ident
  else if a = Addr.EPH_REF_MEAS then BitVec.ofNat 32 s.key.ks.refMeas
  else w

/-- SAF, CNT and SEC status. -/
def State.viewC (s : State) (a : Nat) (w : Word) : Word :=
  if a = Addr.SAF_STATUS then
    F.SAF_STATUS_safe_state.put s.safeState <| F.SAF_STATUS_alarm_a.put (b2n (s.alarm .a)) <|
      F.SAF_STATUS_alarm_b.put (b2n (s.alarm .b)) <| F.SAF_STATUS_persist_count.put s.mram.faults.length w
  else if a = Addr.CNT_DUMP_STATUS then
    F.CNT_DUMP_STATUS_n_eff.put s.nEff <| F.CNT_DUMP_STATUS_writing.put (b2n s.snap.busy) <|
      F.CNT_DUMP_STATUS_paused.put (b2n (decide (s.getF F.CNT_CTRL_dump_mode = 1) && !s.ephOn)) w
  else if 0x94000 ≤ a ∧ a < 0x98000 ∧ a % 8 = 4 then BitVec.ofNat 32 (s.ctr (ctrKey 26 ((a - 0x94000) / 8) 0))
  else w

/-- Byte of the selected certificate; zero beyond its length (R421). -/
def State.certByte (s : State) (i : Nat) : Nat :=
  let c := s.mram.certs.getD (s.getF F.SEC_CERT_SEL_cert) ⟨0, []⟩
  if i < c.len then (c.byte i).toNat else 0

/-- SEC status: what MRAM and the boot left (R421). -/
def State.viewSec (s : State) (a : Nat) (w : Word) : Word :=
  let active := fun k => b2n (s.mram.manifest.slots.getD k none).isSome
  if a = Addr.SEC_STATUS then
    F.SEC_STATUS_rng_ok.put (b2n s.sec.rngOk) <| F.SEC_STATUS_debug_authorised.put (b2n s.sec.debug) <|
      F.SEC_STATUS_owner_locked.put (b2n s.mram.ownerLocked) <| F.SEC_STATUS_slot1_active.put (active 1) <|
      F.SEC_STATUS_slot2_active.put (active 2) <| F.SEC_STATUS_hss_exhausted.put (b2n (decide (2 ^ 30 ≤ s.sec.hssIndex))) <|
      F.SEC_STATUS_fw_update_busy.put (b2n s.fwBusy) <| F.SEC_STATUS_attest_credit.put s.sec.credits <| F.SEC_STATUS_revoked_count.put s.mram.manifest.revoked.length w
  else if a = Addr.SEC_FW_INFO then BitVec.ofNat 32 s.sec.fwSlot
  else if a = Addr.SEC_FW_VERSION then BitVec.ofNat 32 s.sec.fwVersion
  else if a = Addr.SEC_HSS_INDEX then BitVec.ofNat 32 (s.sec.hssIndex % 2 ^ 31)
  else if a = Addr.SEC_CERT_LEN then BitVec.ofNat 32 (s.mram.certs.getD (s.getF F.SEC_CERT_SEL_cert) ⟨0, []⟩).len
  else if 0x50040 ≤ a ∧ a < 0x50080 ∧ a % 4 = 0 then BitVec.ofNat 32 (s.mram.counter ((a - 0x50040) / 4))
  else if 0x51000 ≤ a ∧ a < 0x53000 ∧ a % 4 = 0 then
    BitVec.ofNat 32 (s.certByte (a - 0x51000) + s.certByte (a - 0x51000 + 1) * 2 ^ 8 + s.certByte (a - 0x51000 + 2) * 2 ^ 16
      + s.certByte (a - 0x51000 + 3) * 2 ^ 24)
  else w

/-- Table status of pipeline `n` at block offset `o`: the seeds in use, learned and static entries, host-route units, TCAM
entries (R190) and the expansion queue (R246). -/
def State.viewTab (s : State) (n o : Nat) (w : Word) : Word :=
  let t := s.tab n
  let held := fun (static : Bool) =>
    (t.ways.filter fun (_, e) => match e with | some x => decide (x.static = static) | none => false).length
  let tcam := fun (lpm : Bool) =>
    (s.tcam.filter fun (g, e) => decide (g / 32768 = (o - 0x140) / 4) && match e with
      | some x => decide (x.lpm = lpm)
      | none => false).length
  if o = 0x10C then BitVec.ofNat 32 t.seed0
  else if o = 0x110 then BitVec.ofNat 32 t.seed1
  else if o = 0x114 then
    (F.PIPE_LRN_STATUS_learned_count n).put (held false) <| (F.PIPE_LRN_STATUS_queue_depth n).put t.queue.length <|
      (F.PIPE_LRN_STATUS_flushing n).put (b2n t.flushing.isSome) w
  else if o = 0x118 then BitVec.ofNat 32 (held true)
  else if o = 0x134 then BitVec.ofNat 32 ((s.hr.map fun e => if e.v6 then 4 else 1).sum)
  else if 0x140 ≤ o ∧ o < 0x150 then BitVec.ofNat 32 (tcam true % 2 ^ 16 + tcam false % 2 ^ 16 * 2 ^ 16)
  else if o = 0x204 then (F.PIPE_REP_STATUS_expand_depth n).put (SMap.get (fun _ => []) n s.fab.expand).length w
  else w

/-- PIPE status: image identities and banks (R156). -/
def State.viewPipe (s : State) (a : Nat) (w : Word) : Word :=
  let o := a % 0x20000
  let fmt := fun (b : AshBank) => if b.valid then b.hdr.le 4 2 else 0
  if o = 4 then
    let n := (a - 0x200000) / 0x20000
    (F.PIPE_STATUS_active_valid n).put (b2n s.ash.1.valid) <| (F.PIPE_STATUS_shadow_valid n).put (b2n s.ash.2.valid) <|
      (F.PIPE_STATUS_active_bank n).put (b2n s.ashBank) <| (F.PIPE_STATUS_draining n).put (b2n s.draining) <|
      (F.PIPE_STATUS_patch_busy n).put (b2n (s.loads.any Load.isPatch)) <| (F.PIPE_STATUS_active_format n).put (fmt s.ash.1) <|
      (F.PIPE_STATUS_shadow_format n).put (fmt s.ash.2) w
  else if o = 0x10 then halfWord false s.ash.1.ident
  else if o = 0x14 then halfWord true s.ash.1.ident
  else if o = 0x18 then halfWord false s.ash.2.ident
  else if o = 0x1C then halfWord true s.ash.2.ident
  else s.viewTab ((a - 0x200000) / 0x20000) o w

/-- BUF status. -/
def State.viewBuf (s : State) (a : Nat) (w : Word) : Word :=
  if a = Addr.BUF_STATUS then
    F.BUF_STATUS_hbm_present.put (b2n (!s.part.en)) <|
      F.BUF_STATUS_relocating.put (b2n s.fab.hbmReloc.isSome) <|
      F.BUF_STATUS_scrub_fast_active.put (b2n (s.key.ks.grants.any fun g => decide (g.requester = 6))) <|
      F.BUF_STATUS_spare_used.put (s.getF F.BUF_HBM_SPARE_MAP_in_use) <|
      F.BUF_STATUS_retired_count.put (popCount 32 (s.reg Addr.BUF_HBM_RETIRED).toNat) w
  else if a = Addr.BUF_QUARANTINED then BitVec.ofNat 32 s.fab.quarantined.length
  else if a = Addr.BUF_ONCHIP_AVAIL then BitVec.ofNat 32 s.onchipAvail
  else if a = Addr.BUF_HBM_AVAIL then BitVec.ofNat 32 s.hbmAvail
  else if 0x400100 ≤ a ∧ a < 0x400300 then
    let p := s.pool ((a - 0x400100) / 0x20)
    if a % 0x20 = 0x10 then BitVec.ofNat 32 p.used
    else if a % 0x20 = 0x14 then BitVec.ofNat 32 p.usedHbm
    else if a % 0x20 = 0x18 then BitVec.ofNat 32 (p.level + 8 * b2n p.bp + 16 * p.rr)
    else w
  else if 0x440000 ≤ a ∧ a % 16 = 12 then
    let q := s.queue ((a - 0x440000) / 16)
    BitVec.ofNat 32 (s.depthOf ((a - 0x440000) / 16) % 2 ^ 28 + b2n q.spilled * 2 ^ 28 + b2n (!q.flush.isEmpty) * 2 ^ 29)
  else w

/-- Bits of PORT_STATUS. -/
def State.portStatus (s : State) (p : Nat) : Nat :=
  ((List.range 8).map fun q => b2n (s.queueEligible p q) * 2 ^ q).sum
    + 256 * b2n ((s.mirrorQueues p).any fun x => s.mirrorEligible p x) + 512 * b2n (decide ((s.pTokens p).t < 0))
    + 1024 * b2n (s.holdOn p)

/-- TM status. -/
def State.viewTm (s : State) (a : Nat) (w : Word) : Word :=
  if a = Addr.TM_CPU_TOKENS then tokenWord s.cpuTokensNow
  else if 0x510000 ≤ a ∧ a < 0x520000 ∧ a % 0x20 = 0x14 then tokenWord (s.pTokens ((a - 0x510000) / 0x20))
  else if 0x510000 ≤ a ∧ a < 0x520000 ∧ a % 0x20 = 0x18 then BitVec.ofNat 32 (s.portStatus ((a - 0x510000) / 0x20))
  else if 0x520000 ≤ a ∧ a % 0x10 = 0xC then tokenWord (s.qTokens ((a - 0x520000) / 0x10))
  else w

/-- PORT status: classes whose XOFF the MAC holds asserted (R58). -/
def State.viewPort (s : State) (a : Nat) (w : Word) : Word :=
  let m := (a - 0x1000000) / 0x10000
  let o := a % 0x10000
  if 0x124 ≤ o ∧ o < 0x224 ∧ o % 0x40 = 0x24 then
    let i := (o - 0x124) / 0x40
    let on := s.getB (F.PORT_MAC_CFG_fc_gen_en m i) && decide (s.getF (F.PORT_MAC_CFG_pause_mode m i) ≠ 0)
    (F.PORT_MAC_STATUS_fc_xoff m i).put (if on then (s.port (4 * m + i)).bp else 0) w
  else w

/-- Bits of WO fields, which read as zero (R13). -/
def woMask (a : Nat) : Nat :=
  match regDesc a with
  | none => 0
  | some d => (d.fields.filter fun f => decide (f.acc = .wo)).foldl (fun n f => n + (2 ^ f.width - 1) * 2 ^ f.lo) 0

/-- What a register reads as while its domain is on. -/
def State.view (s : State) (a0 : Nat) : Word :=
  let a := canonAddr a0
  let w := s.reg a &&& ~~~ BitVec.ofNat 32 (woMask a)
  if isSqc a then w ||| BitVec.ofNat 32 ((s.sqcOf a).count.toNat % 256 * 2 ^ 24)
  else if a < 0x40000 ∨ (0x60000 ≤ a ∧ a < 0x70000) then s.viewA a w
  else if (0x40000 ≤ a ∧ a < 0x50000) ∨ (0x70000 ≤ a ∧ a < 0x90000) then s.viewB a w
  else if 0x50000 ≤ a ∧ a < 0x60000 then s.viewSec a w
  else if 0x200000 ≤ a ∧ a < 0x300000 then s.viewPipe a w
  else if a < 0xD0000 then s.viewC a w
  else if 0x400000 ≤ a ∧ a < 0x500000 then s.viewBuf a w
  else if 0x500000 ≤ a ∧ a < 0x600000 then s.viewTm a w
  else if 0x1000000 ≤ a then s.viewPort a w
  else w

end Sys2Proof.Machine
end

