-- ==== Sys2Proof/Machine/Rings.lean ====
section
/-! DEFINITION. Rings (R315 to R326), the event ring (R339), interrupts, programmable counters (R379 to R381), and how a
command ends: the events it raised take effect together (R368). -/

namespace Sys2Proof.Machine

/-! ### Rings -/

/-- Entry size of a ring in bytes (R315). -/
def ringEntry (r : Nat) : Nat := if r < 0x40 then 64 else 32

/-- Number of entries. -/
def State.ringSize (s : State) (r : Nat) : Nat := 2 ^ s.getF (F.HIF_RING_CFG_log2_size r)

/-- The ring is in state RUNNING and its domain is on. -/
def State.ringRuns (s : State) (r : Nat) : Bool :=
  decide (r ≤ 0x101) && s.domainOn 34 && decide (s.getF (F.HIF_RING_STATUS_state r) = 1)

/-- The ring is enabled and has not faulted: it runs, or has stalled. -/
def State.ringHolds (s : State) (r : Nat) : Bool :=
  decide (r ≤ 0x101) && s.domainOn 34 && (decide (s.getF (F.HIF_RING_STATUS_state r) = 1) || decide (s.getF (F.HIF_RING_STATUS_state r) = 2))

/-- Head index, modulo twice the size. -/
def State.ringHead (s : State) (r : Nat) : Nat := s.getF (F.HIF_RING_HEAD_head r)

/-- Host address of the entry `i` places after head. -/
def State.ringAddr (s : State) (r i : Nat) : Nat :=
  (s.reg (Addr.HIF_RING_BASE_LO r)).toNat + (s.reg (Addr.HIF_RING_BASE_HI r)).toNat * 2 ^ 32
    + (s.ringHead r + i) % s.ringSize r * ringEntry r

/-- Entries between head and the last doorbell index. -/
def State.ringSpan (s : State) (r : Nat) : Nat :=
  (s.getF (F.HIF_RING_TAIL_tail r) + 2 * s.ringSize r - s.ringHead r) % (2 * s.ringSize r)

/-- Ownership bit of the entry `i` places after head, as host memory holds it (R316). -/
def State.ringOwn (s : State) (r i : Nat) : Bool :=
  bitAt (s.hostByte (s.ringAddr r i + ringEntry r - 1)).toNat 7

/-- Consecutive entries from head with own set, at most `n` (R319). -/
def State.ownRun (s : State) (r i : Nat) : Nat → Nat
  | 0 => 0
  | n + 1 => if s.ringOwn r i then 1 + s.ownRun r (i + 1) n else 0

/-- Entries available to the device: by doorbell, or by own in polling mode (R318, R319), at most `n`. -/
def State.ringAvail (s : State) (r n : Nat) : Nat :=
  if s.getB (F.HIF_RING_CFG_polling r) then s.ownRun r 0 (min n (s.ringSize r)) else min n (s.ringSpan r)

/-- Move head on by `n` entries. -/
def State.ringAdvance (s : State) (r n : Nat) : State :=
  s.setF (F.HIF_RING_HEAD_head r) ((s.ringHead r + n) % (2 * s.ringSize r))

/-- Signal an MSI-X vector of a function: the model counts the messages sent. -/
def State.msix (s : State) (fn vec : Nat) : State :=
  let k := fn * 64 + vec
  { s with hif := { s.hif with msix := SMap.set (fun _ => 0) k (SMap.get (fun _ => 0) k s.hif.msix + 1) s.hif.msix } }

/-- Signal a ring's vector and start its moderation afresh (R326). -/
def State.ringSignal (s : State) (r : Nat) : State :=
  (s.msix (s.getF (F.HIF_RING_CFG_owner_fn r)) (s.getF (F.HIF_RING_CFG_msix_vector r))).setRingRun r
    { s.ringRun r with unsignalled := 0 }

/-- One entry of a ring passes to the host: interrupt moderation of R326. -/
def State.entryPass (s : State) (r : Nat) : State :=
  let u := (s.ringRun r).unsignalled + 1
  if s.getF (F.HIF_RING_CFG2_mod_count r) ≤ u then s.ringSignal r
  else s.setRingRun r { s.ringRun r with unsignalled := u }

/-- `n` entries of a ring pass to the host, one after the other. -/
def State.ringPass (s : State) (r : Nat) : Nat → State
  | 0 => s
  | n + 1 => (s.entryPass r).ringPass r n

/-- Stop a host-produced ring at an entry inside the doorbell range that reads with own 0 (R318). -/
def State.ownStall (s : State) (r : Nat) : State :=
  ((s.setF (F.HIF_RING_STATUS_state r) 2).count 18 r 0).raise F.HIF_EVENT_own_stall

/-- Halt a ring in FAULTED with a cause (R317, R320): 1 DOORBELL_RANGE, 2 READ_ERROR. -/
def State.ringFault (s : State) (r cause : Nat) : State :=
  ((((s.setF (F.HIF_RING_STATUS_state r) 3).setF (F.HIF_RING_STATUS_cause r) cause).setF
    F.HIF_RING_FAULT_INFO_ring r).setF F.HIF_RING_FAULT_INFO_cause cause).raise F.HIF_EVENT_ring_fault

/-! ### Event ring (R339) -/

/-- Bit of HIF.EVENT_MASK of the block a register belongs to. -/
def blockBit (a : Nat) : Nat :=
  match targetOf a with
  | none => 0
  | some t => if t ≤ 11 then t else if t = 13 then 13 else if t = 14 then 14 else if t < 24 then 12 else 15

/-- Post one event descriptor for a register, or count the loss. -/
def State.postEvent (s : State) (a : Nat) : State :=
  if s.ringRuns 0x100 && s.getFBit F.HIF_EVENT_MASK_block_mask (blockBit a) then
    if s.ringAvail 0x100 1 = 0 then
      ((s.count 21 0 0).setF F.HIF_STATUS_event_overflow 1).raise F.HIF_EVENT_event_lost
    else
      let d := leBytes 4 (a % 2 ^ 24) ++ leBytes 4 (s.view a).toNat ++ s.tsNow ++ [0, 0, 0, 0, 0, 0, 0, 0]
      (((s.hostWrite (s.ringAddr 0x100 0) d).ringAdvance 0x100 1).setF F.HIF_STATUS_event_overflow 0).ringPass 0x100 1
  else s

/-! ### Programmable counters -/

/-- Programmable counter `k` has been configured, or had a configuration, in this core cycle: what it still counts by (R380). -/
def State.pcLate (s : State) : SMap (Option Word) := if s.snap.pcLate.1 = s.now then s.snap.pcLate.2 else []

/-- The configuration that counter `k` counts by: a write takes effect from the next core cycle (R380). -/
def State.pcCfg (s : State) (k : Nat) : Word := (SMap.get (fun _ => none) k s.pcLate).getD (s.reg (Addr.CNT_PC_CFG k))

/-- A field of the configuration that counter `k` counts by. -/
def State.pcField (s : State) (f : Nat → Fld) (k : Nat) : Nat := (f k).of (s.pcCfg k)

/-- Register word that counter `k` watches, as an address. -/
def State.pcWord (s : State) (k : Nat) : Nat := 4 * s.pcField F.CNT_PC_CFG_src_word k

/-- Numbers of the counters whose register holds a configuration. -/
def State.pcHeld (s : State) : List Nat :=
  (s.regs.filter fun p => decide (0x94000 ≤ p.1) && decide (p.1 < 0x98000) && decide (p.1 % 8 = 0)).map fun p => (p.1 - 0x94000) / 8

/-- Configured programmable counters: numbers of those whose enable bit is set. -/
def State.pcOn (s : State) : List Nat :=
  (s.pcHeld ++ (s.pcLate.map Prod.fst).filter fun k => decide (k ∉ s.pcHeld)).filter fun k =>
    decide (k < 2048) && decide (s.pcField F.CNT_PC_CFG_enable k = 1)

/-- Counter `k`'s chain bit, ignored in odd counters (R381). -/
def State.pcChain (s : State) (k : Nat) : Bool := decide (k % 2 = 0) && decide (s.pcField F.CNT_PC_CFG_chain k = 1)

/-- A write of this core cycle has set counter `k`: its increments are discarded (R380). -/
def State.pcWritten (s : State) (k : Nat) : Bool := decide (s.snap.pcSet.1 = s.now) && decide (k ∈ s.snap.pcSet.2)

/-- One increment of counter `k`, its wrap and its carry into a chained partner (R381); `fuel` 2 covers the pair. -/
def State.pcIncr (s : State) (k : Nat) : Nat → State
  | 0 => s
  | fuel + 1 =>
    let v := s.ctr (ctrKey 26 k 0) + 1
    if s.pcWritten k then s
    else if v < 2 ^ 32 then s.setCtr (ctrKey 26 k 0) v
    else
      let s1 := s.setCtr (ctrKey 26 k 0) 0
      if s.pcChain k then s1.pcIncr (k + 1) fuel
      else (s1.setFBit (F.CNT_PC_OVF_ovf (k / 32)) (k % 32) true).raise F.CNT_EVENT_pc_overflow

/-- The source bit of counter `k` is not in the doorbell page, nor in a domain that is off (R379). -/
def State.pcLive (s : State) (k : Nat) : Bool :=
  let a := s.pcWord k
  decide (targetOf a ≠ some 12) && (regDesc (canonAddr a)).isSome && s.domainOn (domainOf a)

/-- Bit of the register word that counter `k` watches. -/
def State.pcIndex (s : State) (k : Nat) : Nat := s.pcField F.CNT_PC_CFG_src_bit k

/-- The source bit of counter `k` reads 1 in state `t`. -/
def State.pcBit (s : State) (k : Nat) (t : State) : Bool := bitAt (t.view (s.pcWord k)).toNat (s.pcIndex k)

/-- An odd counter chained to the one below it ignores its own source and enable (R381). -/
def State.pcChained (s : State) (k : Nat) : Bool := decide (k % 2 = 1) && s.pcChain (k - 1)

/-- Counters that count by themselves in a mode: 0 EDGE, 1 LEVEL (R379, R381). -/
def State.pcMode (s : State) (m : Nat) : List Nat :=
  s.pcOn.filter fun k => decide (s.pcField F.CNT_PC_CFG_mode k = m) && !s.pcChained k && s.pcLive k

/-- Event bit `i` of the SQC register at `a` is raised now, for the first time in this core cycle. -/
def State.pcEvent (s : State) (a i : Nat) : Bool :=
  let q := s.sqcOf a
  bitAt (SMap.get (fun _ => 0) a s.raised) i && !(decide (q.advanced = some s.now) && q.events.toNat.testBit i)

/-- EDGE counters (R379) that count now: those whose source bit rose from `old`, or whose source event is raised. -/
def State.pcHits (s old : State) : List Nat :=
  (s.pcMode 0).filter fun k =>
    let a := canonAddr (s.pcWord k)
    if isSqc a && decide (s.pcIndex k < 24) then s.pcEvent a (s.pcIndex k) else s.pcBit k s && !s.pcBit k old

/-- Count counters of a list once each. -/
def State.pcCount (s : State) (l : List Nat) : State := s.each l fun t k => t.pcIncr k 2

/-- LEVEL counters count this core cycle (R379). -/
def State.pcLevels (s : State) : State := s.pcCount ((s.pcMode 1).filter fun k => s.pcBit k s)

/-! ### The end of a command -/

/-- Set the raised bits of one register. Its count advances once in a core cycle, and bits that a write of this core cycle has
cleared stand again (R368 steps 1 and 4). A register of a domain that is off records nothing (R392). -/
def State.commitReg (s : State) (r : Nat × Nat) : State :=
  if s.domainOn (domainOf r.1) || sharedPipe r.1 then
    let q := s.sqcOf r.1
    let back := match q.cleared with
      | some (t, w) => if t = s.now then w else 0
      | none => 0
    let ev := BitVec.ofNat 32 r.2
    (s.setReg r.1 (s.reg r.1 ||| ev ||| back)).setSqc r.1
      (if q.advanced = some s.now then { q with events := q.events ||| ev, cleared := none }
       else { q with count := q.count + 1, advanced := some s.now, events := ev, cleared := none })
  else s

/-- The count of the register of `r` has not yet advanced in this core cycle, and will. -/
def State.advances (s : State) (r : Nat × Nat) : Bool :=
  (s.domainOn (domainOf r.1) || sharedPipe r.1) && decide ((s.sqcOf r.1).advanced ≠ some s.now)

/-- Count the programmable counters `l`, apply the events raised and post one descriptor for each register that advances (R339). -/
def State.settleRound (s : State) (l : List Nat) : State :=
  ((({ s with raised := [] } : State).pcCount l).each s.raised State.commitReg).each (s.raised.filter s.advances) fun t e =>
    t.postEvent e.1

/-- Settle the events raised and the EDGE counters that count. What these raise or change in turn is met in the same core cycle by
another round (a lost descriptor raises event_lost, a wrapped counter pc_overflow). -/
def State.settleN : Nat → State → State → State
  | 0, _, s => { s with raised := [] }
  | n + 1, old, s =>
    if s.raised.isEmpty && (s.pcHits old).isEmpty then s else State.settleN n s (s.settleRound (s.pcHits old))

/-- Settle the events of a command that took the block from `old` to `s`. -/
def State.settle (old s : State) : State := State.settleN 6 old s

end Sys2Proof.Machine
end

