-- ==== Sys2Proof/Machine/Fabric.lean ====
section
/-! DEFINITION. The shared cell buffer (R191 to R218): pools and their levels, cells, shares of a frame, queues and their
flush. -/

namespace Sys2Proof.Machine

/-! ### Pools (R195) -/

/-- Move the use of pool `k` and raise the level events that this crosses (R195). -/
def State.poolMove (s : State) (k : Nat) (d dHbm : Int) : State :=
  let p := s.pool k
  let l := p.late s.now
  let p1 := { p with used := (p.used + d).toNat, usedHbm := (p.usedHbm + dHbm).toNat,
                     freed := (s.now, l.1 + (-d).toNat, l.2 + (-dHbm).toNat) }
  let p2 := p1.levels p.total
  let up := fun (a b : Bool) => b && !a
  let ev := up p.warned p2.warned || up p.fulled p2.fulled || up p.exhausted p2.exhausted
  let s1 := (((s.setPool k p2).raiseIf (up p.warned p2.warned) F.BUF_EVENT_pool_warn).raiseIf
    (up p.fulled p2.fulled) F.BUF_EVENT_pool_full).raiseIf (up p.exhausted p2.exhausted) F.BUF_EVENT_pool_exhausted
  if ev then s1.raiseBit F.BUF_POOL_EVENT_pool_level_event k else s1

/-- The requester after `r` in the service order 0–7, 9–12 (R202). -/
def nextRequester (r : Nat) : Nat := if r = 7 ∨ r = 8 then 9 else if 12 ≤ r then 0 else r + 1

/-- rr_ptr of a pool at the start of core cycle `now` (R202). -/
def Pool.rrBase (p : Pool) (now : Nat) : Nat :=
  match p.contended with
  | some (t, r) => if t = now then r else p.rr
  | none => p.rr

/-- Place of requester `r` in the service order of a core cycle whose rr_ptr is `base` (R202). -/
def servicePlace (base r : Nat) : Nat :=
  let i := fun n => if n ≤ 8 then n else n - 1
  (i r + 12 - i base) % 12

/-- A request that a pool does not grant: counted, and the service pointer advances, once in a core cycle (R202). -/
def State.poolFail (s : State) (k : Nat) : State :=
  let p := s.pool k
  let again := p.contended.any fun c => decide (c.1 = s.now)
  (s.setPool k (if again then p else { p with rr := nextRequester p.rr, contended := some (s.now, p.rr) })).count 7 k 0

/-- Class `k` on port `p` with `u` cells charged has reached ing_xoff and not fallen xon_delta below it; `held`: it had before
(R205). -/
def State.overXoff (s : State) (p k u : Nat) (held : Bool) : Bool :=
  let xoff := 16 * s.getF (F.BUF_ING_LIMIT_ing_xoff (8 * p + k))
  decide (xoff ≠ 0) && (decide (xoff ≤ u) || (held && !decide (u + s.getF F.BUF_BP_CFG_xon_delta < xoff)))

/-- Class `k` on port `p` stands above ing_xoff with its hysteresis (R205). -/
def State.ingOver (s : State) (p k : Nat) : Bool :=
  s.overXoff p k (s.charged p k) (SMap.get (fun _ => false) (8 * p + k) s.fab.ingHigh)

/-- Move u(p, k). -/
def State.chargeMove (s : State) (p k : Nat) (d : Int) : State :=
  let u := ((s.charged p k : Int) + d).toNat
  { s with fab := { s.fab with
      charged := SMap.set (fun _ => 0) (8 * p + k) u s.fab.charged,
      ingHigh := SMap.set (fun _ => false) (8 * p + k) (s.overXoff p k u (s.ingOver p k)) s.fab.ingHigh } }

/-! ### Cells (R191, R192) -/

/-- Descriptor of a cell; `none` when it is free. -/
def State.cell (s : State) (a : Nat) : Option Cell := SMap.get (fun _ => none) a s.fab.cells

/-- Set or free a cell's descriptor. -/
def State.setCell (s : State) (a : Nat) (c : Option Cell) : State :=
  { s with fab := { s.fab with cells := SMap.set (fun _ => none) a c s.fab.cells } }

/-- Cells that a memory can give out: all on-chip cells, or those of the live HBM channels (R191, R218). -/
def State.cellsIn (s : State) (hbm : Bool) : Nat := if hbm then 4194304 * s.hbmLive.length else 786432

/-- Pointer of the `i`-th of those cells. -/
def State.cellNo (s : State) (hbm : Bool) (i : Nat) : Nat :=
  if hbm then 2 ^ 27 + 4194304 * s.hbmLive.getD (i / 4194304) 0 + i % 4194304 else i

/-- Cells freed in the present core cycle, each with the requester that freed it (R203). -/
def State.freedNow (s : State) : List (Nat × Nat) := if s.fab.freed.1 = s.now then s.fab.freed.2 else []

/-- A cell can be given out: it is not in use, not in quarantine, and was not freed in this core cycle (R203, R216). -/
def State.cellFree (s : State) (a : Nat) : Bool :=
  (s.cell a).isNone && decide (a ∉ s.fab.quarantined) && !s.freedNow.any fun e => decide (e.1 = a)

/-- First pointer from the `i`-th cell of a memory, round to its first, that can be given out. -/
def State.nextFree (s : State) (hbm : Bool) (i : Nat) : Nat → Nat
  | 0 => s.cellNo hbm (i % s.cellsIn hbm)
  | n + 1 =>
    let a := s.cellNo hbm (i % s.cellsIn hbm)
    if s.cellFree a then a else s.nextFree hbm (i + 1) n

/-- Draw `n` cells from a free list, each with descriptor `c`. Which pointers a list gives is left open
(notes/assumptions/3.md). -/
def State.drawCells (s : State) (hbm : Bool) (c : Cell) : Nat → List Nat × State
  | 0 => ([], s)
  | n + 1 =>
    let (f, s1) := s.free (s.cellsIn hbm)
    let a := s1.nextFree hbm f (s1.fab.cells.length + s1.fab.quarantined.length + s1.freedNow.length)
    let (l, s2) := (s1.setCell a (some c)).drawCells hbm c n
    (a :: l, s2)

/-- CRC that an HBM cell holds: over 256 data bytes and the pointer (R192; notes/assumptions/71.md). -/
def cellCrc (data : List Byte) (a : Nat) : Nat :=
  crc32c (data.take 256 ++ List.replicate (256 - data.length) 0 ++ leBytes 4 a)

/-- Link the cells of a chain that holds `data`; its final cell is marked where the frame has `ended` with `len` bytes (R191, R192). -/
def State.linkCells (s : State) (ended : Bool) (len : Nat) (data : List Byte) : List Nat → State
  | [] => s
  | a :: r =>
    let last := r.isEmpty && ended
    (match s.cell a with
      | none => s
      | some c => s.setCell a (some { c with next := r.headD 0, last := last, bytes := if last then len % 256 else 0,
                                             crc := if 2 ^ 27 ≤ a then cellCrc data a else 0 })).linkCells ended len
      (data.drop 256) r

/-- A cell's last share goes: the cell returns to its free list. One marked bad is tested with two patterns first; one that fails is
quarantined (R216). The test's result is the hardware's own. -/
def State.freeCell (s : State) (req a : Nat) : State :=
  match s.cell a with
  | none => s
  | some c =>
    let s1 := s.setCell a none
    let s1 : State := { s1 with fab := { s1.fab with
      owners := SMap.set (fun _ => 0) a c.owner s1.fab.owners, freed := (s1.now, s1.freedNow ++ [(a, req)]) } }
    if c.bad && decide (a < 2 ^ 27) then
      let (f, s2) := s1.free 2
      if f = 1 then
        ({ s2 with fab := { s2.fab with quarantined := s2.fab.quarantined ++ [a] } } : State).raise F.BUF_EVENT_quarantine
      else s2
    else s1

/-! ### Frames and their shares (R201, R204) -/

/-- Return the part of a frame's charge that its pool, port and class hold (R199): `n` cells. -/
def State.unchargeFrame (s : State) (f : Frame) (n : Nat) : State :=
  let s1 := if f.inHbm then s.poolMove f.pool 0 (-(n : Int)) else s.poolMove f.pool (-(n : Int)) 0
  if f.direct then s1 else s1.chargeMove f.port f.cls (-(n : Int))

/-- A frame holds nothing any more: it leaves the device unless it is still arriving. -/
def State.dropFrame (s : State) (i : Nat) (f : Frame) : State :=
  if f.ended then s.setFrame i none else s.setFrame i (some { f with stage := .done, refs := 0, charge := 0, cells := [] })

/-- A release or free that the buffer manager refuses (R204): it changes nothing, is counted and recorded. `master` is the bus
master behind the request, 0x1F where it is internal. -/
def State.freeRefused (s : State) (a req reason master : Nat) : State :=
  let owner := match s.cell a with | some c => c.owner | none => SMap.get (fun _ => 0) a s.fab.owners
  let s1 := ((s.count 8 0 3).setF F.BUF_FREE_ERR_pointer a).setF F.BUF_FREE_ERR_requester req
  (((s1.setF F.BUF_FREE_ERR_INFO_reason reason).setF F.BUF_FREE_ERR_INFO_owner owner).setF
    F.BUF_FREE_ERR_INFO_master_id master).raise F.BUF_EVENT_free_refused

/-- Requester `req` releases one share of a cell, or frees it (R204). Refused for a free cell, and for one of another owner where the
request is not the traffic manager's (8). Of two in one core cycle that meet the last share, the lower requester's stands. -/
def State.releaseCell (s : State) (req master a : Nat) : State :=
  match s.cell a with
  | none =>
    let other := (s.freedNow.find? fun e => decide (e.1 = a)).map Prod.snd
    s.freeRefused a (max req (other.getD req)) 0 master
  | some c =>
    if req ≠ 8 ∧ req ≠ c.owner then s.freeRefused a req 1 master
    else if c.refcount ≤ 1 then s.freeCell req a
    else s.setCell a (some { c with refcount := c.refcount - 1 })

/-- Nothing of a frame is queued any more: its charge returns and it leaves (R201, R204). -/
def State.endFrame (s : State) (i : Nat) (f : Frame) : State := (s.unchargeFrame f f.charge).dropFrame i f

/-- The traffic manager releases one share of frame `i`: of each of its cells, and with the last one the frame's charge (R204). -/
def State.release (s : State) (i : Nat) : State :=
  match s.frame i with
  | none => s
  | some f =>
    let s1 := s.each f.cells fun t a => t.releaseCell 8 0x1F a
    if f.refs ≤ 1 then s1.endFrame i f else s1.setFrame i (some { f with refs := f.refs - 1 })

/-- Write back the eop descriptor of ts_req frame `i`, once (R336): status and timestamp. A ring that is DISABLED or FAULTED
is not written. -/
def State.txReport (s : State) (i : Nat) (status : Nat) (ts : List Byte) : State :=
  match s.frame i with
  | none => s
  | some f =>
    match f.tsSlot with
    | none => s
    | some (ring, addr) =>
      let s1 := s.setFrame i (some { f with tsSlot := none })
      if s1.ringHolds ring then ((s1.hostWrite (addr + 8) ts).hostPut (addr + 30) (BitVec.ofNat 8 status)).hostPut (addr + 31) 0
      else s1

/-- A queued copy is lost (discarded, flushed) or did not reach the wire whole: the share is released, and with the last one a
ts_req frame that was never sent is reported NOT_SENT. -/
def State.loseShare (s : State) (i : Nat) : State :=
  match s.frame i with
  | none => s
  | some f => (s.doIf (decide (f.refs ≤ 1)) fun t => t.txReport i 3 (List.replicate 16 0)).release i

/-- A queued copy is lost. -/
def State.loseCopy (s : State) (c : Copy) : State := s.loseShare c.frame

/-! ### Queues (R220) -/

/-- A queue stays spilled until it holds no HBM-resident frame (R206). -/
def State.fixSpill (s : State) (x : Nat) : State :=
  if (s.queue x).spilled && !s.holdsHbm x then s.setQueue x { s.queue x with spilled := false } else s

/-- The queues that copies were to enter lose an HBM-resident frame. -/
def State.fixSpills (s : State) (l : List CopyReq) : State := s.each l fun t c => t.fixSpill c.queue

/-- Remove the head copy of a queue. -/
def State.popCopy (s : State) (x : Nat) : State :=
  (s.setQueue x { s.queue x with copies := (s.queue x).copies.drop 1 }).fixSpill x

/-- Discard the head copy of a queue and count it in queue counter `c`. -/
def State.discardHead (s : State) (x c : Nat) : State :=
  match (s.queue x).copies with
  | [] => s
  | h :: _ => ((s.popCopy x).loseCopy h).count 6 x c

/-- Flush queue `x` (R211): every copy is removed and counted in q_flush, and waits for its release. -/
def State.flushQueue (s : State) (x : Nat) : State :=
  let q := s.queue x
  ((s.setQueue x { q with copies := [], flush := q.flush ++ q.copies }).fixSpill x).countN 6 x 4 q.copies.length

/-- Release the first flushed copy of queue `x` that lies in HBM (`hbm`) or on chip (R211). -/
def State.flushOne (s : State) (hbm : Bool) (x : Nat) : State :=
  let q := s.queue x
  match q.flush.findIdx? fun c => s.copyInHbm c == hbm with
  | none => s
  | some i => match q.flush[i]? with
    | none => s
    | some c => ((s.setQueue x { q with flush := q.flush.eraseIdx i }).loseCopy c).fixSpill x

/-- Egress pipeline of a queue; 8 for the queues of no logical port. -/
def State.queueUnit (s : State) (x : Nat) : Nat := match s.queuePort x with | some p => p / 64 | none => 8

/-- One core cycle of the flushes in progress: each egress pipeline releases one on-chip copy, of its queue of lowest number
(R211, notes/assumptions/19.md). -/
def State.flushCycle (s : State) : State :=
  let l := s.fab.queues.filter fun e => e.2.flush.any fun c => !s.copyInHbm c
  if l.isEmpty then s
  else s.each (List.range 9) fun t u => match l.find? fun e => decide (t.queueUnit e.1 = u) with
    | none => t
    | some e => t.flushOne false e.1

/-- Flush every queue of a logical port (R211, R263). -/
def State.flushPort (s : State) (p : Nat) : State :=
  (s.each ((List.range 8).map fun q => 8 * p + q) State.flushQueue).each (s.mirrorQueues p) State.flushQueue

/-! ### Shaper buckets (R257, R258) -/

/-- Set the scheduler state of a port. -/
def State.setSched (s : State) (p : Nat) (x : PortSched) : State :=
  { s with fab := { s.fab with scheds := SMap.set (fun _ => PortSched.init) p x s.fab.scheds } }

/-- Bring the bucket of queue `x` up to the present cycle. -/
def State.syncQ (s : State) (x : Nat) : State := s.setQueue x { s.queue x with tokens := s.qTokens x, stamp := s.now }

/-- Bring the bucket of port `p` up to the present cycle. -/
def State.syncP (s : State) (p : Nat) : State := s.setSched p { s.sched p with tokens := s.pTokens p, stamp := s.now }

/-- Bring the CPU bucket up to the present cycle. -/
def State.syncCpu (s : State) : State :=
  { s with fab := { s.fab with cpuTokens := s.cpuTokensNow, cpuStamp := s.now } }

end Sys2Proof.Machine
end

