-- ==== Sys2Proof/Machine/Headers.lean ====
section
/-! DEFINITION. Frame headers: the parser and its exception vector (R128, R130, R131), and the edits of a copy (R138 to
R140, R213, R268). A frame's bytes run from the destination address to the last byte of the FCS. -/

namespace Sys2Proof.Machine

/-! ### Image fields the parser needs (R127, R129, R141) -/

/-- Section `t` of a bank. -/
def AshBank.sec (b : AshBank) (t : Nat) : Blob := SMap.get (fun _ => ⟨0, []⟩) t b.secs

/-- Header TPID `k`. -/
def AshBank.tpid (b : AshBank) (k : Nat) : Nat := b.hdr.le (0x2C + 2 * k) 2

/-- A TPID is one of the image's (0 is unused). -/
def AshBank.anyTpid (b : AshBank) (v : Nat) : Bool := decide (v ≠ 0) && (List.range 4).any fun k => b.tpid k = v

/-- Port profile word 0 of port `p`. -/
def AshBank.profile (b : AshBank) (p : Nat) : Nat := (b.sec 1).le (16 * p) 4

/-- Egress queue of PCP `k` for ingress port `p`. -/
def AshBank.pcpQueue (b : AshBank) (p k : Nat) : Nat := bitsOf ((b.sec 1).le (16 * p + 4) 4) (3 * k) 3

/-- Member bit of port `p` in VLAN `v`. -/
def AshBank.member (b : AshBank) (v p : Nat) : Bool := bitAt ((b.sec 2).le (88 * v + p / 8) 1) (p % 8)

/-! ### Bytes of a header -/

/-- Byte `i` of a frame. -/
def byteAt (l : List Byte) (i : Nat) : Nat := (l.getD i 0).toNat

/-- Two bytes in network order. -/
def be16 (l : List Byte) (i : Nat) : Nat := 256 * byteAt l i + byteAt l (i + 1)

/-- `n` bytes in network order. -/
def beAt (l : List Byte) (i n : Nat) : Nat := beNat ((l.drop i).take n)

/-- Replace bytes from an offset. -/
def patchAt (l : List Byte) (i : Nat) (v : List Byte) : List Byte := l.take i ++ v ++ l.drop (i + v.length)

/-- Insert bytes at an offset. -/
def insertAt (l : List Byte) (i : Nat) (v : List Byte) : List Byte := l.take i ++ v ++ l.drop i

/-- Remove `n` bytes at an offset. -/
def removeAt (l : List Byte) (i n : Nat) : List Byte := l.take i ++ l.drop (i + n)

/-- One's complement sum of `n` 16-bit words from an offset. -/
def onesSum (l : List Byte) (i : Nat) : Nat → Nat
  | 0 => 0
  | n + 1 => be16 l i + onesSum l (i + 2) n

/-- Fold carries into 16 bits. -/
def fold16 (n : Nat) : Nat := let m := n % 65536 + n / 65536; m % 65536 + m / 65536

/-- Incremental update of a one's complement checksum when a 16-bit word changes from `a` to `b`. -/
def ckUpdate (ck a b : Nat) : Nat := 65535 - fold16 ((65535 - ck) + (65535 - a) + b)

/-! ### Parser (R130) -/

/-- Extension headers of IPv6 that the parser walks. -/
def isExt (n : Nat) : Bool := n = 0 || n = 43 || n = 44 || n = 60

/-- Walk at most `n` extension headers from offset `o` with next header `nh`: final next header, offset, whether a
fragment header was seen and whether it was not of the first fragment. A header whose first 8 bytes do not lie inside the window of
`win` bytes ends the walk with no next header: what follows it lies beyond the window (notes/assumptions/70.md). -/
def walkExt (win : Nat) (l : List Byte) (nh o : Nat) (frag later : Bool) : Nat → Option Nat × Nat × Bool × Bool
  | 0 => (some nh, o, frag, later)
  | n + 1 =>
    if isExt nh then
      let isF := decide (nh = 44)
      if win < o + 8 then (none, o, frag || isF, later)
      else
        let len := if isF then 8 else 8 * (byteAt l (o + 1) + 1)
        walkExt win l (byteAt l o) (o + len) (frag || isF) (later || (isF && decide (be16 l (o + 2) / 8 ≠ 0))) n
    else (some nh, o, frag, later)

/-- An anchor inside the parse window; `none` beyond it. -/
def anchor (win : Nat) (o : Option Nat) : Option Nat := o.bind fun x => if x < win then some x else none

/-- Parse a frame of which `l` has arrived, received on port `p` under an image. `len` is the frame's whole length when it
is known (R130). No byte beyond the first 256 is read; a protocol that cannot be read sets window_exceeded, since the header it would
name lies beyond the window (notes/assumptions/70.md). -/
def parse (b : AshBank) (p : Nat) (all : List Byte) (len : Option Nat) : Hdr :=
  let l := all.take 256
  let win := l.length
  let prof := b.profile p
  let outerMask := bitsOf prof 17 4
  let t0 := be16 l 12
  let outer := decide (t0 ≠ 0) && (List.range 4).any fun k => bitAt outerMask k && b.tpid k = t0
  let o1 := if outer then 16 else 12
  let inner := outer && b.anyTpid (be16 l 16)
  let o2 := if inner then o1 + 4 else o1
  let hasR := decide (be16 l o2 = 0xF1C1)
  let a1 := if hasR then o2 + 6 else o2
  let ety := be16 l a1
  let tci := be16 l 14
  let vid := bitsOf tci 0 12
  let v4 := decide (ety = 0x800)
  let v6 := decide (ety = 0x86DD)
  let i := a1 + 2
  let ip := v4 || v6
  let ver := byteAt l i / 16
  let ihl := byteAt l i % 16
  let bad := (v4 && (decide (ver ≠ 4) || decide (ihl < 5))) || (v6 && decide (ver ≠ 6))
  let fo := be16 l (i + 6)
  let w := if i + 6 < win then walkExt win l (byteAt l (i + 6)) (i + 40) false false 2 else (none, i, false, false)
  let proto := if v4 then (if i + 9 < win then some (byteAt l (i + 9)) else none) else w.1
  let deep := v6 && (w.1.map isExt).getD false
  let l4 := if v4 then i + 4 * ihl else w.2.1
  let frag := if v4 then decide (fo / 8192 % 2 = 1) || decide (fo % 8192 ≠ 0) else v6 && w.2.2.1
  let later := if v4 then decide (fo % 8192 ≠ 0) else w.2.2.2
  let a2 := if ip then some i else none
  let a3 := if ip && !bad && !later && !deep && (decide (proto = some 17) || decide (proto = some 6)) then some l4 else none
  let udp := decide (proto = some 17)
  let a4 := a3.map fun o => if udp then o + 8 else if o + 12 < win then o + 4 * (byteAt l (o + 12) / 16) else win
  let ptpU := udp && (a3.map fun o => decide (be16 l (o + 2) = 319) || decide (be16 l (o + 2) = 320)).getD false
  let a5 := if ety = 0x88F7 then some i else if ptpU then a4 else none
  let beyond := (ip && proto.isNone) || [some a1, a2, a3, a4, a5].any fun o => decide (o.isSome) && decide ((anchor win o).isNone)
  let vlan := if outer && decide (1 ≤ vid) && decide (vid ≤ 4094) then vid else bitsOf prof 0 12
  let ck := v4 && !bad && decide (fold16 (onesSum l i (2 * ihl)) ≠ 65535)
  let tl := be16 l (i + 2)
  let past := fun n => match len with | none => false | some m => decide (m < i + n + 4)
  let acc := bitsOf prof 15 2
  let ttl := if v4 then byteAt l (i + 8) else byteAt l (i + 7)
  let sa := beAt l 6 6
  let exc := b2n (!b.member vlan p) + 2 * b2n (outer && decide (vid = 4095))
    + 4 * b2n ((decide (acc = 1) && !(outer && decide (vid ≠ 0))) || (decide (acc = 2) && outer && decide (vid ≠ 0)))
    + 8 * b2n (decide (beAt l 0 6 / 16 = 0x0180C200000)) + 16 * b2n (decide (byteAt l 6 % 2 = 1)) + 32 * b2n (decide (sa = 0))
    + 64 * b2n (v4 && (bad || ck || decide (tl < 4 * ihl) || past tl)) + 128 * b2n (v4 && decide (5 < ihl))
    + 256 * b2n (v6 && (decide (ver ≠ 6) || past (40 + be16 l (i + 4)))) + 512 * b2n deep + 1024 * b2n (ip && decide (ttl ≤ 1))
    + 2048 * b2n (ip && frag) + 4096 * b2n beyond
  { tags := b2n outer + b2n inner, outer := outer, outerOff := 12, vid := vid, vlan := vlan,
    pcp := if outer then tci / 8192 else bitsOf prof 12 3, dei := if outer then tci / 4096 % 2 else 0,
    rtag := if hasR then some (be16 l (o2 + 4)) else none, rtagOff := o2, a1 := a1, etype := ety, a2 := anchor win a2,
    a3 := anchor win a3, a4 := anchor win a4, a5 := anchor win a5, udp := udp,
    l3 := if v4 then 1 else if v6 then 2 else if ety = 0x88F7 then 3 else 0, exc := exc }

/-! ### Edits (R138, R139) -/

/-- Field of an edit profile word. -/
def Edit.op (e : Edit) (lo w : Nat) : Nat := bitsOf e.profile lo w

/-- Tags of a copy after inner_pop and outer_op. -/
def Edit.tagsAfter (e : Edit) (h : Hdr) : Nat :=
  let t := if e.op 5 1 = 1 ∧ h.tags = 2 then 1 else h.tags
  if e.op 0 2 = 1 then t - 1 else if e.op 0 2 = 2 then t + 1 else t

/-- PCP and DEI that push and rewrite write. -/
def Edit.tci (e : Edit) (h : Hdr) : Nat :=
  if e.op 4 1 = 1 then h.pcp * 8192 + h.dei * 4096 + e.vid % 4096 else e.pcp % 8 * 8192 + e.dei % 2 * 4096 + e.vid % 4096

/-- Edits 1 to 3 of R139, on the bytes without FCS: tags and R-TAG. `seq` is the frame's sequence number: an insert without
one does nothing, and rewrites the number of an R-TAG already there (R231). -/
def Edit.tagEdits (e : Edit) (h : Hdr) (seq : Option Nat) (l : List Byte) : List Byte :=
  let l1 := if e.op 5 1 = 1 ∧ h.tags = 2 then removeAt l 16 4 else l
  let t1 := if e.op 5 1 = 1 ∧ h.tags = 2 then 1 else h.tags
  let l2 := if e.op 0 2 = 1 ∧ h.outer then removeAt l1 12 4
    else if e.op 0 2 = 2 then insertAt l1 12 (beBytes 2 e.pushTpid ++ beBytes 2 (e.tci h))
    else if e.op 0 2 = 3 ∧ h.outer then patchAt l1 14 (beBytes 2 (e.tci h))
    else l1
  let t2 := if e.op 0 2 = 1 ∧ h.outer then t1 - 1 else if e.op 0 2 = 2 then t1 + 1 else t1
  let r := 12 + 4 * t2
  if e.op 10 2 = 1 then
    match seq with
    | none => l2
    | some n => if h.rtag.isSome then patchAt l2 (r + 4) (beBytes 2 n) else insertAt l2 r (beBytes 2 0xF1C1 ++ [0, 0] ++ beBytes 2 n)
  else if e.op 10 2 = 2 ∧ h.rtag.isSome then removeAt l2 r 6
  else l2

/-- Write one 16-bit word of an IPv4 header at `i` and update its checksum incrementally. -/
def ipWord (l : List Byte) (i o v : Nat) : List Byte :=
  let l1 := patchAt l (i + o) (beBytes 2 v)
  patchAt l1 (i + 10) (beBytes 2 (ckUpdate (be16 l (i + 10)) (be16 l (i + o)) v))

/-- Decrement the TTL or hop limit of the IP header at `i`. -/
def ttlDec (l3 i : Nat) (l : List Byte) : List Byte :=
  if l3 = 1 then ipWord l i 8 (be16 l (i + 8) - 256) else patchAt l (i + 7) [BitVec.ofNat 8 (byteAt l (i + 7) - 1)]

/-- Set the DSCP or the ECN bits (the traffic class byte becomes `v`) of the IP header at `i`. -/
def setTos (l3 i v : Nat) (l : List Byte) : List Byte :=
  if l3 = 1 then ipWord l i 0 (byteAt l i * 256 + v % 256)
  else patchAt l i (beBytes 2 (be16 l i / 4096 * 4096 + v % 256 * 16 + be16 l i % 16))

/-- Traffic class byte of the IP header at `i`. -/
def tosOf (l3 i : Nat) (l : List Byte) : Nat := if l3 = 1 then byteAt l (i + 1) else be16 l i / 16 % 256

/-- The bytes of a copy without FCS after the edits of R139 but ptp_op, and the marks of R213 and R268. -/
def Edit.apply (e : Edit) (h : Hdr) (seq : Option Nat) (ce dei : Bool) (l : List Byte) : List Byte :=
  let l1 := e.tagEdits h seq l
  let d := l1.length
  let sh := fun a => a + d - l.length
  let l2 := if e.op 6 1 = 1 then patchAt l1 0 (beBytes 6 e.da) else l1
  let l3 := if e.op 7 1 = 1 then patchAt l2 6 (beBytes 6 e.sa) else l2
  let l6 := match h.a2 with
    | none => l3
    | some a =>
      let i := sh a
      let l4 := if e.op 8 1 = 1 then ttlDec h.l3 i l3 else l3
      let l5 := if e.op 9 1 = 1 then setTos h.l3 i (e.dscp % 64 * 4 + tosOf h.l3 i l4 % 4) l4 else l4
      if ce then setTos h.l3 i (tosOf h.l3 i l5 / 4 * 4 + 3) l5 else l5
  if dei && decide (0 < e.tagsAfter h) then patchAt l6 14 (beBytes 2 (be16 l6 14 / 8192 * 8192 + 4096 + be16 l6 14 % 4096)) else l6

/-- Length sent, FCS included, padded to 64 bytes (R139). -/
def sentLen (l : List Byte) : Nat := max 64 (l.length + 4)

/-- An edit that cannot be made (R140). -/
def Edit.bad (e : Edit) (h : Hdr) (l : List Byte) : Bool :=
  (decide (e.op 8 1 = 1) && (match h.a2 with
    | none => false
    | some i => decide ((if h.l3 = 1 then byteAt l (i + 8) else byteAt l (i + 7)) ≤ 1)))
  || (decide (e.op 12 2 ≠ 0) && (match h.a5 with
    | none => false
    | some i => decide (256 < i + e.op 14 6 + 10)))

/-- Complete ptp_op at transmission (R85): add `res` (2^−16 ns) to the correctionField, or insert the 10 bytes `tx` of
T_tx; the UDP checksum of IPv4 becomes zero, that of IPv6 is updated. `d` is how far the tag edits moved the anchors. -/
def Edit.ptp (e : Edit) (h : Hdr) (d : Int) (res : Int) (tx : List Byte) (l : List Byte) : List Byte :=
  match h.a5 with
  | none => l
  | some a =>
    let o := ((a : Int) + d).toNat + e.op 14 6
    if e.op 12 2 = 0 then l
    else
      let new := if e.op 12 2 = 1 then beBytes 8 (unsigned 64 (signed 64 (beAt l o 8) + res)) else tx
      let l1 := patchAt l o new
      match h.a3 with
      | none => l1
      | some u =>
        let c := ((u : Int) + d).toNat + 6
        if !h.udp then l1
        else if h.l3 = 1 then patchAt l1 c [0, 0]
        else
          let s0 := o - (o - c) % 2
          let n := (new.length + 2) / 2
          patchAt l1 c (beBytes 2 (65535 - fold16 (fold16 ((65535 - be16 l1 c)
            + (65535 * n - onesSum l s0 n)) + onesSum l1 s0 n)))

end Sys2Proof.Machine
end

