-- ==== Sys2Proof/Machine/Stamps.lean ====
section
/-! DEFINITION. Frame timestamps and their corrections (R72 to R75), and the age of a copy (R212). -/

namespace Sys2Proof.Machine

/-- Correction terms of a running type (R73), in hundredths of a ns: rx_fixed, tx_fixed, codeword period, marker time. -/
def corrTable (t : Nat) : Nat × Nat × Nat × Nat :=
  match t with
  | 1 => (8460, 3200, 1280, 450)
  | 2 => (7820, 3200, 2560, 450)
  | 3 => (6540, 3200, 5120, 1210)
  | 4 => (8320, 3500, 2560, 450)
  | 5 => (9480, 4200, 10240, 900)
  | 6 => (7040, 3500, 5120, 1280)
  | 7 => (2600, 1500, 0, 1280)
  | 8 => (14360, 4200, 20480, 0)
  | 9 => (6504, 2700, 8192, 0)
  | 10 => (1800, 1100, 0, 0)
  | 11 => (15360, 6100, 20480, 640)
  | 12 => (3600, 2500, 0, 640)
  | 13 => (14860, 5900, 20480, 0)
  | 14 => (4400, 2700, 0, 0)
  | 15 => (25600, 17700, 0, 0)
  | _ => (8780, 3200, 640, 450)

/-- Hundredths of a ns in units of 2^−40 ns. -/
def centiNs (n : Nat) : Nat := n * 2 ^ 40 / 100

/-- Increment of the counter per core cycle, in units of 2^−40 ns (RATE_NOW). -/
def State.rateNow (s : State) : Nat := (s.reg Addr.TRN_RATE_NOW_LO).toNat + s.getF F.TRN_RATE_NOW_HI_now_hi * 2 ^ 32

/-- Place of a delimiter within its core cycle, measured by the device frame by frame: a fraction of the increment. -/
def State.subCycle (s : State) : Nat × State :=
  let (f, s1) := s.free (s.rateNow / 2 ^ 24 + 1)
  (f * 2 ^ 24, s1)

/-- Alignment-marker term: the marker time or zero, as measured (R72). -/
def State.markerTerm (s : State) (m : Nat) : Nat × State :=
  let (f, s1) := s.free 2
  (if f = 1 then centiNs m else 0, s1)

/-- A running type of more than one lane (R73). -/
def multiLane (t : Nat) : Bool := t ∈ [0, 1, 2, 4, 6, 7, 11, 12]

/-- Deskew offset of the lane that carries the delimiter, as measured: zero on a port of one lane (R72, notes/assumptions/61.md). -/
def State.deskew (s : State) (p : Nat) : Nat × State :=
  if multiLane (s.runType p) then (s.free (2 ^ 24)).map (· * 2 ^ 24) id else (0, s)

/-- Corrected receive timestamp of a frame whose delimiter arrives now on port `p` (R72). The codeword position is what the
device measures, a free value within one period. A stamp that would fall below zero is 0 (notes/assumptions/61.md). -/
def State.rxStamp (s : State) (p : Nat) : Nat × State :=
  let (rx, _, per, am) := corrTable (s.runType p)
  let (sub, s1) := s.subCycle
  let (cw, s2) := if per = 0 then (0, s1) else (s1.free (centiNs per / 2 ^ 24)).map (fun f => (f + 1) * 2 ^ 24) id
  let (m, s3) := s2.markerTerm am
  let (d, s4) := s3.deskew p
  let board : Int := signed 16 (s.getF (F.TRN_PORT_CORR_A_rx_board_delay p)) * 2 ^ 36
  (((s.trn.time + sub : Nat) - (centiNs rx + cw + m + d : Nat) - board : Int).toNat, s4)

/-- Corrected transmit timestamp of a frame that starts now on port `p` (R72). -/
def State.txStamp (s : State) (p : Nat) : Nat × State :=
  let (_, tx, _, am) := corrTable (s.runType p)
  let (sub, s1) := s.subCycle
  let (m, s2) := s1.markerTerm am
  let (d, s3) := s2.deskew p
  let board : Int := signed 16 (s.getF (F.TRN_PORT_CORR_A_tx_board_delay p)) * 2 ^ 36
  (((s.trn.time + sub + centiNs tx + m + d : Nat) + board : Int).toNat, s3)

/-- Residence time of a frame sent as `t` in 2^−16 ns: T_tx − T_rx without the steps between the two stamps, plus the ingress port's
peer_delay (R75, R85). -/
def State.residence (s : State) (f : Frame) (t : TxFrame) : Int :=
  (((t.tTx : Int) - t.steps) - ((f.tRx : Int) - f.stepRx)) / 2 ^ 24
    + (s.getF (F.TRN_PORT_CORR_B_peer_delay f.port) : Nat) * 2 ^ 12

/-- The 10 bytes of an inserted T_tx: 6 of seconds, 4 of ns, in network order (R85, R336). -/
def txField (t : Nat) : List Byte := beBytes 6 (secOf t) ++ beBytes 4 (nsOf t)

/-- A copy's age exceeds its queue's limit (R212). -/
def State.aged (s : State) (x : Nat) (c : Copy) : Bool :=
  let l := s.getF (F.BUF_QCFG_B_age_limit x)
  decide (l ≠ 0) && decide (l * 1650 < s.now - c.stamp)

end Sys2Proof.Machine
end

