-- ==== Sys2Proof/Machine/Egress.lean ====
section
/-! DEFINITION. Egress: the scheduler's nodes (R247 to R256), the start and the end of a frame at the egress MAC, stomps
(R52, R53) and the meeting of the planes (R54, R260). -/

namespace Sys2Proof.Machine

/-! ### Fair-share tags (R252, R253) -/

/-- `a` precedes `b` by the signed difference modulo 2^48. -/
def tagLt (a b : Nat) : Bool := decide ((a + 2 ^ 48 - b) % 2 ^ 48 ≥ 2 ^ 47)

/-- The later of two tags. -/
def tagMax (a b : Nat) : Nat := if tagLt a b then b else a

/-- Weighted length ⌈l × 256 ÷ w⌉. -/
def tagCost (l w : Nat) : Nat := ceilDiv (l * 256) w

/-- Start tag of a child at its wake: VT_FRESH or CREDIT_BURST with credit `b` bytes (R253). -/
def wakeTag (creditBurst : Bool) (tag v b w : Nat) : Nat :=
  tagMax tag (if creditBurst then (v + 2 ^ 48 - tagCost b w % 2 ^ 48) % 2 ^ 48 else v)

/-- Among eligible children (index, tag), the one a node selects: highest index when STRICT, smallest tag when FAIR, equal
tags to the higher index. -/
def pick (fair : Bool) : List (Nat × Nat) → Option (Nat × Nat)
  | [] => none
  | c :: r =>
    match pick fair r with
    | none => some c
    | some d => if fair then (if tagLt c.2 d.2 then some c else some d) else some (if c.1 < d.1 then d else c)

/-- Group of a port queue. -/
def State.groupOf (s : State) (p q : Nat) : Nat := s.getF (F.TM_Q_CFG_group (8 * p + q))

/-- Weight of a queue. -/
def State.weightOf (s : State) (x : Nat) : Nat := s.getF (F.TM_Q_CFG_weight x)

/-- Weight of group `g` at the root. -/
def State.groupWeight (s : State) (p g : Nat) : Nat := bitsOf (s.reg (Addr.TM_GROUP_WEIGHT p)).toNat (8 * g) 8

/-- Wake queue `q` of port `p` if it has become eligible, or note that it is not (R253). -/
def State.wakeQueue (s : State) (p q : Nat) : State :=
  let x := 8 * p + q
  let u := s.queue x
  let el := s.queueEligible p q
  let g := s.groupOf p q
  let tag := wakeTag (s.getFBit (F.TM_PORT_CFG_group_wake p) g) u.tag ((s.sched p).gV.getD g 0)
    (64 * s.getF (F.TM_Q_CFG_credit_burst x)) (s.weightOf x)
  if el && !u.awake then s.setQueue x { u with awake := true, tag := tag }
  else if u.awake && !el then s.setQueue x { u with awake := false } else s

/-- Wake group `g` of port `p` if it has become eligible, or note that it is not (R253). -/
def State.wakeGroup (s : State) (p g : Nat) : State :=
  let d := s.sched p
  let el := (List.range 8).any fun q => s.groupOf p q = g && s.queueEligible p q
  let aw := d.gAwake.getD g false
  let credit := 64 * bitsOf (s.reg (Addr.TM_GROUP_BURST p)).toNat (8 * g) 8
  let tag := wakeTag (s.getB (F.TM_PORT_CFG_root_wake p)) (d.gTag.getD g 0) d.vRoot credit (s.groupWeight p g)
  if el && !aw then s.setSched p { d with gAwake := d.gAwake.set g true, gTag := d.gTag.set g tag }
  else if aw && !el then s.setSched p { d with gAwake := d.gAwake.set g false } else s

/-- Wake one queue of a port and its group. -/
def State.wakeChild (s : State) (p q : Nat) : State := (s.wakeQueue p q).wakeGroup p (s.groupOf p q)

/-- Wake the queues and groups of a port. -/
def State.wakePort (s : State) (p : Nat) : State :=
  (s.each (List.range 8) fun t q => t.wakeQueue p q).each (List.range 4) fun t g => t.wakeGroup p g

/-- The wakes of a core cycle on every port that has queued a copy or has a child awake: they follow the starts of the same core
cycle (R253). -/
def State.wakePorts (s : State) : State :=
  let l := (s.fab.queues.map fun e => e.1 / 8) ++ s.fab.scheds.map Prod.fst
  s.each (l.eraseDups.filter fun p => decide (p < 512)) State.wakePort

/-- The queue a port's hierarchy selects; `express` counts preemptable queues as ineligible (R248, R252, R262). -/
def State.selectQueue (s : State) (p : Nat) (express : Bool) : Option Nat :=
  if !s.pShaperOk p then none
  else
    let el := (List.range 8).filter fun q => s.queueEligible p q && !(express && s.preemptable p q)
    let gs := ((List.range 4).filter fun g => el.any fun q => s.groupOf p q = g).map
      fun g => (g, (s.sched p).gTag.getD g 0)
    match pick (s.getB (F.TM_PORT_CFG_root_mode p)) gs with
    | some (g, _) =>
      (pick (s.getFBit (F.TM_PORT_CFG_group_mode p) g)
        ((el.filter fun q => s.groupOf p q = g).map fun q => (q, (s.queue (8 * p + q)).tag))).map
        fun c => 8 * p + c.1
    | none => (s.mirrorQueues p).find? fun x => s.mirrorEligible p x

/-! ### Charging (R254 to R257) -/

/-- Counted length under a length profile (R254). -/
def State.counted (s : State) (prof len : Nat) : Int := (len : Int) + signed 7 (s.getF (F.TM_LEN_PROFILE_overhead prof))

/-- Largest debt of a shaper in bytes (R258). -/
def maxDebt : Nat := 16000 + 63

/-- Move a bucket down by a counted length, never below the largest debt, or up by a returned one, never above its burst (R256, R257,
R258; notes/assumptions/62.md). -/
def moveTokens (b : Bucket) (bytes : Int) (burst : Nat) : Bucket :=
  if 0 ≤ bytes then { b with t := max (b.t - bytes * 2 ^ 16) (-(byteUnits maxDebt : Int)) }
  else { b with t := min (b.t - bytes * 2 ^ 16) (max b.t (byteUnits burst : Nat)) }

/-- Charge queue `x`'s shaper with a counted length. -/
def State.chargeQ (s : State) (x : Nat) (b : Int) : State :=
  if s.getB (F.TM_Q_CFG_shaper_en x) then
    let t := s.syncQ x
    t.setQueue x { t.queue x with tokens := moveTokens (t.queue x).tokens b (t.getF (F.TM_Q_BURST_burst x)) }
  else s

/-- Charge port `p`'s shaper. -/
def State.chargeP (s : State) (p : Nat) (b : Int) : State :=
  if s.getB (F.TM_PORT_CFG_pshaper_en p) then
    let t := s.syncP p
    t.setSched p { t.sched p with tokens := moveTokens (t.sched p).tokens b (t.getF (F.TM_PSHAPER_BURST_burst p)) }
  else s

/-- A tag moves on by the cost of a counted length. -/
def tagOn (tag : Nat) (l : Int) (w : Nat) : Nat := (tag + tagCost l.toNat w) % 2 ^ 48

/-- A tag charged with one length is corrected to another (R252, R256). -/
def tagFix (tag : Nat) (was l : Int) (w : Nat) : Nat :=
  (tag + 2 ^ 48 - tagCost was.toNat w % 2 ^ 48 + tagCost l.toNat w) % 2 ^ 48

/-- What the start of a frame of length `len` from queue `x` charges on port `p`. A mirror queue has no tag. -/
def State.billOf (s : State) (p x len : Nat) : Bill :=
  let g := s.groupOf p (x % 8)
  { len := len, queue := s.getB (F.TM_Q_CFG_shaper_en x), port := s.getB (F.TM_PORT_CFG_pshaper_en p),
    overhead := s.counted (s.getF (F.TM_Q_CFG_len_profile x)) 0,
    inGroup := if x < 4096 ∧ s.getFBit (F.TM_PORT_CFG_group_mode p) g then some (s.weightOf x) else none,
    atRoot := if x < 4096 ∧ s.getB (F.TM_PORT_CFG_root_mode p) then some (g, s.groupWeight p g) else none }

/-- Charge the fair-share tags on a port queue's path at the start of a frame (R252). -/
def State.chargeTags (s : State) (p x : Nat) (b : Bill) : State :=
  let l := b.overhead + b.len
  let g := s.groupOf p (x % 8)
  let s1 := match b.inGroup with
    | none => s
    | some w =>
      let u := s.queue x
      let d := s.sched p
      (s.setSched p { d with gV := d.gV.set g (tagMax (d.gV.getD g 0) u.tag) }).setQueue x { u with tag := tagOn u.tag l w }
  match b.atRoot with
  | none => s1
  | some (g, w) =>
    let d := s1.sched p
    let tg := d.gTag.getD g 0
    s1.setSched p { d with vRoot := tagMax d.vRoot tg, gTag := d.gTag.set g (tagOn tg l w) }

/-- Correct the tags that a frame's start charged when the length sent differs (R252, R256). -/
def State.correctTags (s : State) (p x : Nat) (b : Bill) (sent : Nat) : State :=
  let was := b.overhead + b.len
  let l := b.overhead + sent
  let s1 := match b.inGroup with
    | none => s
    | some w => s.setQueue x { s.queue x with tag := tagFix (s.queue x).tag was l w }
  match b.atRoot with
  | none => s1
  | some (g, w) =>
    let d := s1.sched p
    s1.setSched p { d with gTag := d.gTag.set g (tagFix (d.gTag.getD g 0) was l w) }

/-- Return the difference between the length charged and the length sent to each bucket and tag that was charged (R255, R256). -/
def State.settleBill (s : State) (p x : Nat) (b : Bill) (sent : Nat) : State :=
  let diff : Int := (sent : Int) - b.len
  let s1 := s.doIf b.queue fun s => let t := s.syncQ x
    t.setQueue x { t.queue x with tokens := moveTokens (t.queue x).tokens diff (t.getF (F.TM_Q_BURST_burst x)) }
  let s2 := s1.doIf b.port fun s => let t := s.syncP p
    t.setSched p { t.sched p with tokens := moveTokens (t.sched p).tokens diff (t.getF (F.TM_PSHAPER_BURST_burst p)) }
  s2.correctTags p x b sent

/-! ### The end of a frame at the MAC -/

/-- Index of a stomp cause in table order (R53) and of its counter in group 0. -/
def Stomp.idx : Stomp → Nat
  | .rxError => 17 | .cellError => 18 | .overrun => 19 | .collision => 20 | .oversize => 21 | .abort => 22

/-- The first of two causes in table order. -/
def firstCause (a : Option Stomp) (b : Stomp) : Stomp :=
  match a with
  | none => b
  | some c => if c.idx < b.idx then c else b

/-- Bytes of the present fragment that have been sent, by elapsed core cycles at the MAC rate
(notes/assumptions/9.md). -/
def State.fragOut (s : State) (p : Nat) (t : TxFrame) : Nat := (s.now - t.tx) * s.macRate p / 13200000

/-- Bytes of a frame that have reached an ingress MAC since its first byte at core cycle `t0`, max_frame at most
(notes/assumptions/9.md). -/
def State.bytesIn (s : State) (p t0 : Nat) : Nat := min ((s.now - t0) * s.macRate p / 13200000) (fldOf (s.port p).rxCfg 0 14)

/-- Bytes of a frame that have been sent. -/
def State.bytesOut (s : State) (p : Nat) (t : TxFrame) : Nat := t.done + s.fragOut p t

/-- Least fragment with its mCRC, as PORT.MAC_CFG has it (R63). -/
def State.leastFrag (s : State) (p : Nat) : Nat := 64 * (1 + s.getF (F.PORT_MAC_CFG_add_frag_size (p / 4) (p % 4)))

/-- A preemptable frame in progress can be interrupted at its present byte: the fragment sent, mCRC included, is long enough, and at
least 64 bytes remain (R63). -/
def State.canCut (s : State) (p : Nat) (t : TxFrame) : Bool :=
  t.pre && decide (t.frag - 4 ≤ s.fragOut p t) && (decide (t.len = 0) || decide (s.bytesOut p t + 64 ≤ t.len))

/-- Interrupt the frame a port is sending at its present byte: it is held, and its fragment is counted. -/
def State.interrupt (s : State) (p : Nat) (t : TxFrame) : State :=
  (s.setPort p { s.port p with tx := none, held := some { t with done := s.bytesOut p t } }).count 0 p 30

/-- HOLD on port `p` interrupts a preemptable frame at the first point where it can be interrupted (R63, R119). -/
def State.holdCut (s : State) (p : Nat) : State :=
  match (s.port p).tx with
  | some t => if (s.port p).holdNow && s.canCut p t then s.interrupt p t else s
  | none => s

/-- The ports on which HOLD is asserted, at their present bytes. -/
def State.holdCuts (s : State) : State := s.each ((s.ports.filter fun e => e.2.holdNow).map Prod.fst) State.holdCut

/-- A frame starts on port `p`: the transmitter leaves Low Power Idle (R64). -/
def State.startTx (s : State) (p : Nat) (t : TxFrame) : State :=
  (s.setPort p { s.port p with tx := some t, activity := true }).setF (F.PORT_MAC_STATUS_tx_lpi (p / 4) (p % 4)) 0

/-- A frame as it starts on port `p`, with its transmit timestamp (R72, R75, R83). -/
def State.stampTx (s : State) (p : Nat) (t : TxFrame) : TxFrame × State :=
  let (ts, s1) := s.txStamp p
  ({ t with tx := s.now, tTx := ts, steps := s.trn.steps, flags := s.timeFlags false }, s1)

/-- The bytes of a packet-plane frame as sent, without FCS: edits, marks and ptp_op applied (R139, R85), `whole` padded to 60
bytes. Of a frame still arriving, those of the bytes that are known. -/
def State.sentBytes (s : State) (t : TxFrame) (f : Frame) (whole : Bool) : List Byte :=
  let body := if f.ended then f.bytes.take (f.bytes.length - 4) else f.bytes
  let l := t.edit.apply f.hdr f.seqNum t.ce t.dei body
  let l1 := t.edit.ptp f.hdr ((l.length : Int) - body.length) (s.residence f t) (txField t.tTx) l
  let l2 := if whole then l1 ++ List.replicate (60 - l1.length) 0 else l1
  match f.oneStep with
  | none => l2
  | some o => if o < l2.length then (patchAt l2 o (txField t.tTx)).take l2.length else l2

/-- The known bytes of a frame that is cut short: of one that has arrived whole, padding and FCS too. -/
def State.knownBytes (s : State) (t : TxFrame) : List Byte :=
  if t.meridian || t.flow.isSome then t.bytes
  else match s.frame t.frame with
    | none => []
    | some f => if f.ended then withFcs (s.sentBytes t f true) else s.sentBytes t f false

/-- The first cause for which a frame is already to be stomped: an error found at ingress, a bad cell, or one noted (R53). -/
def State.causeOf (s : State) (t : TxFrame) : Option Stomp :=
  let f := if t.meridian || t.flow.isSome then none else s.frame t.frame
  if f.any Frame.bad then some .rxError else if f.any Frame.cellBad then some (firstCause t.stomp .cellError) else t.stomp

/-- A packet-plane frame's charges are corrected to the length sent, and its bytes counted (R255, R256). -/
def State.settleTx (s : State) (p : Nat) (t : TxFrame) (sent : Nat) : State :=
  (s.settleBill p t.queue t.bill sent).countN 6 t.queue 8 sent

/-- Verification starts anew (R62): preempt_active reads 1 at once when verify_enable is clear. -/
def State.restartVerify (s : State) (p : Nat) : State :=
  let m := p / 4
  let i := p % 4
  let en := s.getB (F.PORT_MAC_CFG_preempt_enable m i)
  let ve := s.getB (F.PORT_MAC_CFG_verify_enable m i)
  ((s.setF (F.PORT_MAC_STATUS_verify_status m i) (if en && ve then 1 else 0)).setF (F.PORT_MAC_STATUS_preempt_active m i)
    (b2n !ve)).setPort p { s.port p with verifyTries := 0, mmDue := false }

/-- A restart of verification that waits for the frame in progress (R62). -/
def State.verifyDue (s : State) (p : Nat) : State :=
  let r := s.port p
  if r.mmDue && r.tx.isNone && r.held.isNone then s.restartVerify p else s

/-- The frame that port `p` is sending ends: complete (`cause` none) with `bytes` and `len`, or stomped. Meridian and
generated flow-control frames are charged to nothing (R260). -/
def State.endTx (s : State) (p : Nat) (t : TxFrame) (cause : Option Stomp) (bytes : List Byte) (len : Nat) : State :=
  let r := s.port p
  let s0 := (s.setPort p { r with tx := none, activity := true, sent := some ⟨bytes, len, cause, t.meridian, t.tTx⟩ }).verifyDue p
  let s1 := match cause with
    | some c => s0.count 0 p c.idx
    | none => (s0.count 0 p 13).countN 0 p 14 len
  if t.meridian then (if cause.isNone then s1.count 1 p 5 else s1)
  else if t.flow.isSome then
    (match t.flow, cause with
      | some (_, mode), none => s1.count 0 p (if mode = 1 then 15 else 16)
      | _, _ => s1)
  else
    let s2 := s1.settleTx p t len
    match cause with
    | none => (s2.txReport t.frame 0 (tsBytes t.tTx t.flags)).release t.frame
    | some _ => s2.loseShare t.frame

/-- End the frame being sent after `n` bytes, stomped with a cause: the complemented FCS counts as four bytes sent (R52), unless
the PCS has stopped (R53). A generated flow-control frame so ended is sent again (R54). -/
def State.stompAt (s : State) (p : Nat) (t : TxFrame) (c : Stomp) (pcs : Bool) (n : Nat) : State :=
  let l := s.knownBytes t
  let s1 := s.endTx p t (some (firstCause (s.causeOf t) c)) (if pcs then stompAfter l n else l.take n) (n + if pcs then 4 else 0)
  match t.flow with
  | none => s1
  | some (k, _) =>
    let r := s1.port p
    s1.setPort p { r with fcPend := r.fcPend ||| k }

/-- End the frame being sent at once, stomped with a cause (R52, R53). -/
def State.stompNow (s : State) (p : Nat) (c : Stomp) (pcs : Bool) : State :=
  match (s.port p).tx with
  | none => s
  | some t => s.stompAt p t c pcs (if t.len = 0 then s.bytesOut p t else min (s.bytesOut p t) t.len)

/-- End the interrupted frame of port `p` at once, stomped with a cause; the frame being sent goes on. -/
def State.stompHeld (s : State) (p : Nat) (c : Stomp) (pcs : Bool) : State :=
  let r := s.port p
  match r.held with
  | none => s
  | some t =>
    let s1 := (s.setPort p { r with tx := some { t with tx := s.now }, held := none, mmDue := false }).stompNow p c pcs
    (s1.setPort p { s1.port p with tx := r.tx, mmDue := r.mmDue }).verifyDue p

/-- The port goes down: frames being sent or interrupted are stomped with ABORT, waiting ones are dropped (R53, R211). -/
def State.abortPort (s : State) (p : Nat) (pcs : Bool) : State :=
  let s1 := (s.stompNow p .abort pcs).stompHeld p .abort pcs
  s1.setPort p { s1.port p with skid := [], sel := none, selExpress := none }

/-- A frame being sent or interrupted is a copy from one of the queues of a list. -/
def TxFrame.fromQueues (l : List Nat) (t : TxFrame) : Bool := !t.meridian && t.flow.isNone && decide (t.queue ∈ l)

/-- Copies from the queues of a list that port `p` is sending or has interrupted are stomped with ABORT (R61, R211). -/
def State.abortQueues (s : State) (p : Nat) (l : List Nat) : State :=
  let s1 := if (s.port p).tx.any (TxFrame.fromQueues l) then s.stompNow p .abort true else s
  if (s1.port p).held.any (TxFrame.fromQueues l) then s1.stompHeld p .abort true else s1

/-! ### A Meridian frame reaches the egress MAC (R54, R115) -/

/-- A frame that is charged to nothing: a Meridian frame, or one that the MAC generates. -/
def TxFrame.unbilled (bytes : List Byte) (len : Nat) : TxFrame :=
  { meridian := false, src := 0, flow := none, frame := 0, queue := 0, bytes := bytes, len := len,
    bill := ⟨0, false, false, 0, none, none⟩, cut := false, stomp := none, edit := ⟨0, 0, 0, 0, 0, 0, 0, 0⟩, ce := false, dei := false,
    pre := false, frag := 0, mx := 0, done := 0, tx := 0, tTx := 0, steps := 0, flags := 0, stopAt := none }

/-- A new Meridian transmission, from ingress port `i`. -/
def State.meridianTx (s : State) (i : Nat) (bytes : List Byte) : TxFrame :=
  { TxFrame.unbilled bytes 0 with meridian := true, src := i, cut := true, tx := s.now }

/-- A Meridian frame of ingress port `i` whose last byte has not reached the egress MAC. -/
def TxFrame.crossing (t : TxFrame) (i : Nat) : Bool := t.meridian && decide (t.src = i) && decide (t.len = 0)

/-- Bytes of a frame in the skid buffer that have arrived. -/
def State.skidBytes (s : State) (t : TxFrame) : Nat := if t.len = 0 then s.bytesIn t.src t.tx else t.len

/-- The frames of a skid buffer that fit its 64 bytes with what has arrived of each, and those that do not (R54). -/
def State.skidFit (s : State) (used : Nat) : List TxFrame → List TxFrame × List TxFrame
  | [] => ([], [])
  | t :: r =>
    let n := used + s.skidBytes t
    let (kept, gone) := s.skidFit (if 64 < n then used else n) r
    if 64 < n then (kept, t :: gone) else (t :: kept, gone)

/-- A Meridian frame that overflows the skid buffer of port `p` is not sent: the rest of it is discarded (R54). -/
def State.skidOverflow (s : State) (p : Nat) (t : TxFrame) : State :=
  let s1 := (s.count 0 p 20).raise (F.PORT_MAC_EVENT_meridian_collision (p / 4) (p % 4))
  match (s1.port t.src).arriving with
  | some (.express out _ got t0 tRx) =>
    if t.len = 0 ∧ out = p ∧ t0 = t.tx then s1.setPort t.src { s1.port t.src with arriving := some (.express out true got t0 tRx) }
    else s1
  | _ => s1

/-- The skid buffer of port `p` holds what has arrived by now (R54). -/
def State.skidCheck (s : State) (p : Nat) : State :=
  let (kept, gone) := s.skidFit 0 (s.port p).skid
  if gone.isEmpty then s else (s.setPort p { s.port p with skid := kept }).each gone fun t f => t.skidOverflow p f

/-- First bytes of a Meridian frame from ingress port `i` reach egress MAC `p`: it starts, or waits behind the Meridian frames ahead
of it. -/
def State.expressArrive (s : State) (i p : Nat) (bytes : List Byte) : State :=
  let r := s.port p
  let send := fun (t : State) => let (f, u) := t.stampTx p (t.meridianTx i bytes); u.startTx p f
  let wait := s.setPort p { r with skid := r.skid ++ [s.meridianTx i bytes] }
  if !r.skid.isEmpty then wait
  else match r.tx with
    | none => send s
    | some t =>
      if t.meridian then wait
      else if s.canCut p t then send (s.interrupt p t)
      else send ((s.stompNow p .collision true).raise (F.PORT_MAC_EVENT_meridian_collision (p / 4) (p % 4)))

/-- Change the Meridian frame from ingress port `i` that is crossing to egress MAC `p`, being sent or waiting in the skid buffer. -/
def State.onCrossing (s : State) (p i : Nat) (f : TxFrame → TxFrame) : State :=
  let r := s.port p
  match r.tx with
  | some t =>
    if t.crossing i then s.setPort p { r with tx := some (f t) }
    else s.setPort p { r with skid := r.skid.map fun t => if t.crossing i then f t else t }
  | none => s.setPort p { r with skid := r.skid.map fun t => if t.crossing i then f t else t }

/-- The Meridian frame from ingress port `i` to egress port `p` ends after `n` bytes, those that crossed before a hard end (R114):
at once, or, where the egress MAC is behind, when it has sent them. -/
def State.overrunAt (s : State) (p i n : Nat) : State :=
  let mark := s.onCrossing p i fun t => { t with len := n, bytes := t.bytes.take n, stomp := some (firstCause t.stomp .overrun) }
  match (s.port p).tx with
  | some t => if t.crossing i && decide (n ≤ s.bytesOut p t) then s.stompAt p t .overrun true n else mark
  | none => mark

/-- A connection's hard end arrives while a frame from ingress port `i` is crossing (R114). -/
def State.hardEnd (s : State) (i : Nat) : State :=
  match (s.port i).arriving with
  | some (.express out lost got t0 _) =>
    let n := max 1 (s.bytesIn i t0)
    let s1 := (((s.setPort i { s.port i with arriving := some (.ignored got true) }).count 1 i 3).countN 1 i 1 n).raise F.EPH_EVENT_overrun
    if lost then s1 else s1.overrunAt out i n
  | _ => s

/-! ### Selection and start of a packet-plane frame -/

/-- Why a copy that the scheduler has selected is discarded without using the wire, as the counter to advance: age (R212),
wd_action DROP (R61), a bad cell (R209, R214), an edit that cannot be made (R140), a length over max_frame (R51). -/
def State.lossOf (s : State) (p x : Nat) (c : Copy) : Option (Nat × Nat × Nat) :=
  match s.frame c.frame with
  | none => some (6, x, 4)
  | some f =>
    if s.aged x c then some (6, x, 2)
    else if f.cellBad then some (6, x, 3)
    else if s.getF (F.PORT_MAC_CFG_wd_action (p / 4) (p % 4)) = 2 && decide (x < 4096)
        && (List.range 8).any (fun i => s.getFBit (F.PORT_MAC_STATUS_wd_recovering (p / 4) (p % 4)) i && bitAt (s.pfcMap p i) (x % 8))
      then some (0, p, 24)
    else if c.edit.bad f.hdr f.bytes then some (3, p / 64, 20)
    else if !c.cut && decide (s.getF (F.PORT_MAC_CFG_max_frame (p / 4) (p % 4)) < c.len) then some (0, p, 23)
    else none

/-- Discard the selected head copy for a reason of `lossOf`. -/
def State.dropSelected (s : State) (x : Nat) (k : Nat × Nat × Nat) : State :=
  match (s.queue x).copies with
  | [] => s
  | h :: _ =>
    let s1 := ((s.popCopy x).loseCopy h).count k.1 k.2.1 k.2.2
    if k.1 = 3 then s1.raise (F.PIPE_EVENT_edit_error k.2.1) else s1

/-- A queue has been picked for port `p`: its head copy is discarded where a rule says so, otherwise the selection is noted. -/
def State.selectHead (s : State) (p x : Nat) (note : PortRun → PortRun) : State :=
  match (s.queue x).copies with
  | [] => s
  | c :: _ => match s.lossOf p x c with
    | some k => s.dropSelected x k
    | none => s.setPort p (note (s.port p))

/-- Provisional selection of a port's next queue (R250, R262), with the tags that the children awake in this core cycle would have:
the tags themselves are set at the cycle's end (R253, notes/assumptions/62.md). -/
def State.select (s : State) (p : Nat) : State :=
  let s1 := s.wakePort p
  let r := s.port p
  let second := match r.tx with
    | some t => t.pre
    | none => r.held.isSome
  if second && r.selExpress.isNone && (r.sel.isSome || (s1.selectQueue p true).isSome) then
    match s1.selectQueue p true with
    | none => s
    | some x => s.selectHead p x fun r => { r with selExpress := some x }
  else if r.sel.isNone then
    match s1.selectQueue p false with
    | none => s
    | some x => s.selectHead p x fun r => { r with sel := some x }
  else s

/-- A selected queue still satisfies R249; a mirror queue has stayed attached to the port (R263). -/
def State.stillEligible (s : State) (p x : Nat) : Bool :=
  s.pShaperOk p && (if x < 4096 then s.queueEligible p (x % 8) else decide (s.queuePort x = some p) && s.mirrorEligible p x)

/-- Start the head copy of queue `x` on port `p`: tokens and tags are charged (R250, R252, R257). -/
def State.startCopy (s : State) (p x : Nat) : State :=
  match (s.queue x).copies with
  | [] => s
  | c :: _ =>
    let b := s.billOf p x (s.startLen p c)
    let s1 := (if x < 4096 then s.wakeChild p (x % 8) else s).popCopy x
    let s2 := s1.chargeQ x (b.overhead + b.len)
    let s3 := s2.chargeP p (s2.counted (s2.getF (F.TM_PORT_CFG_len_profile p)) b.len)
    let t : TxFrame := { TxFrame.unbilled [] c.len with
      frame := c.frame, queue := x, bill := b, cut := c.cut, edit := c.edit, ce := c.ce, dei := c.dei,
      pre := decide (x < 4096) && s3.preemptable p (x % 8), frag := s3.leastFrag p,
      mx := s3.getF (F.PORT_MAC_CFG_max_frame (p / 4) (p % 4)) }
    let (f, s4) := (s3.chargeTags p x b).stampTx p t
    ((s4.startTx p f).setFrame c.frame ((s4.frame c.frame).map fun g => { g with begun := true })).count 6 x 7

/-- Start test of a selection (R250): the frame starts, or the selection is withdrawn. -/
def State.startTest (s : State) (p x : Nat) (clear : PortRun → PortRun) : State :=
  let s1 := s.setPort p (clear (s.port p))
  match (s1.queue x).copies with
  | [] => s1.count 6 x 9
  | c :: _ => match s1.lossOf p x c with
    | some k => s1.dropSelected x k
    | none => if s1.stillEligible p x then s1.startCopy p x else s1.count 6 x 9

/-- A copy may start from queue `x`: nothing discards it, and its queue is eligible. -/
def State.mayStart (s : State) (p x : Nat) : Bool :=
  s.stillEligible p x && (match (s.queue x).copies with | [] => false | c :: _ => (s.lossOf p x c).isNone)

/-- A generated flow-control frame is due, and the Ephemeris allows it to start: it goes ahead of every packet-plane frame (R59). -/
def State.fcWaits (s : State) (p : Nat) : Bool :=
  decide ((s.port p).fcPend ≠ 0) && s.fcGen p && s.portUp p && s.fcSlot p

/-- Start of a selected frame at egress MAC `p`, or resumption of an interrupted one (R250, R262, R63). A Meridian frame in
the skid buffer goes first (R54), then a flow-control frame that is due (R59). While a preemptable frame is being sent the test is that
of the express selection: one that fails it is withdrawn, and one that passes it interrupts the frame where it can be interrupted; until
then it stays selected (notes/assumptions/9.md). -/
def State.frameStartAt (s : State) (p : Nat) : State :=
  let r := s.port p
  if !r.skid.isEmpty || s.fcWaits p then s
  else match r.tx with
  | some t =>
    (match r.selExpress with
    | some x =>
      if !t.pre then s
      else if s.mayStart p x then
        (if s.canCut p t then (s.interrupt p t).startTest p x fun r => { r with selExpress := none } else s)
      else s.startTest p x fun r => { r with selExpress := none }
    | none => s)
  | none =>
    match r.selExpress, r.held, r.sel with
    | some x, _, _ => s.startTest p x fun r => { r with selExpress := none }
    | none, some t, sel =>
      (match sel.filter fun x => decide (4096 ≤ x) || !s.preemptable p (x % 8) with
      | some x => s.startTest p x fun r => { r with sel := none }
      | none =>
        if s.holdOn p || (s.selectQueue p true).isSome then s
        else s.setPort p { r with tx := some { t with tx := s.now }, held := none })
    | none, none, some x => s.startTest p x fun r => { r with sel := none }
    | none, none, none => s

/-- The last byte of the frame that port `p` is sending leaves (R256). A frame still arriving has none yet, but for a cut-through
copy that ends with a stomp: at its last good byte, or after max_frame bytes where the ingress port takes longer frames
(R51, R53). -/
def State.transmitEndAt (s : State) (p : Nat) : State :=
  match (s.port p).tx with
  | none => s
  | some t =>
    if t.meridian then
      if t.len = 0 then s
      else s.endTx p t t.stomp (if t.stomp.isSome then stompAfter t.bytes t.len else t.bytes) (t.len + if t.stomp.isSome then 4 else 0)
    else if t.flow.isSome then s.endTx p t t.stomp t.bytes t.len
    else match s.frame t.frame with
      | none => s.setPort p { s.port p with tx := none }
      | some f =>
        let b := s.sentBytes t f false
        if !f.ended then
          if f.cellBad then s.stompAt p t .cellError true (t.stopAt.getD (s.bytesOut p t))
          else if t.cut && decide (t.mx < fldOf (s.port f.port).rxCfg 0 14) then s.stompAt p t .oversize true t.mx
          else s
        else
          let full := withFcs (s.sentBytes t f true)
          let long := t.cut && decide (t.mx < full.length)
          let n := min (if long then t.mx else b.length) (if f.cellBad then t.stopAt.getD b.length else b.length)
          if f.bad then s.stompAt p t .rxError true n
          else if f.cellBad then s.stompAt p t .cellError true n
          else match t.stomp with
            | some c => s.stompAt p t c true n
            | none =>
              if long then s.endTx p t (some .oversize) (stompAfter full t.mx) (t.mx + 4)
              else s.endTx p t none full full.length

end Sys2Proof.Machine
end

