-- ==== Sys2Proof/Machine/Sections.lean ====
section
/-! DEFINITION. Sections 11 to 14 of an Ashlar bank as the device reads them (R229, R242, R243, R270), and what a change
of the active bank does to the state they describe (R241, R263, R272). -/

namespace Sys2Proof.Machine

/-! ### Policers (section 14, R270) -/

/-- A policer entry. -/
structure PolEntry where
  mode : Nat
  aware : Bool
  prof : Nat
  yellow : Nat
  red : Nat
  cir : Nat
  cbs : Nat
  rate2 : Nat
  burst2 : Nat
  deriving DecidableEq, Repr

/-- Policer `i` of a bank; mode 0 when the section does not hold it. -/
def AshBank.policer (b : AshBank) (i : Nat) : PolEntry :=
  let x := b.sec 14
  if i = 0 ∨ x.le 0 4 < i then ⟨0, false, 0, 0, 0, 0, 0, 0, 0⟩
  else
    let o := 16 + 32 * (i - 1)
    let w := x.le o 4
    ⟨bitsOf w 0 2, bitAt w 2, bitsOf w 3 4, bitsOf w 7 2, bitsOf w 9 1, x.le (o + 4) 4, bitsOf (x.le (o + 8) 4) 0 24,
      x.le (o + 12) 4, bitsOf (x.le (o + 16) 4) 0 24⟩

/-- Buckets of a policer now, filled since their stamp (R266). Tokens are in units of 1/13,200,000 byte. -/
def PolEntry.fill (e : PolEntry) (p : Policer) (now : Nat) : Policer :=
  let dt := now - p.stamp
  let c := p.c + e.cir * dt
  let spare := c - e.cbs * 13200000
  let add := if e.mode = 1 then spare else e.rate2 * dt
  ⟨min c (e.cbs * 13200000), min (p.e + add) (e.burst2 * 13200000), now⟩

/-- Full buckets. -/
def PolEntry.full (e : PolEntry) (now : Nat) : Policer := ⟨e.cbs * 13200000, e.burst2 * 13200000, now⟩

/-- Policer `i` under the active bank; one that has not been used since it was last set full is full. -/
def State.policerNow (s : State) (i : Nat) : Policer :=
  let e := s.ash.1.policer i
  match SMap.get (fun _ => none) i s.fab.policers with
  | none => e.full s.now
  | some p => e.fill p s.now

/-- Set a policer's buckets. -/
def State.setPolicer (s : State) (i : Nat) (p : Option Policer) : State :=
  { s with fab := { s.fab with policers := SMap.set (fun _ => none) i p s.fab.policers } }

/-- A policer whose entry changes from `e` to `e'` (R272): one that was unused starts full, one that differs keeps its
contents up to its new bursts. -/
def State.policerChange (s : State) (i : Nat) (e e' : PolEntry) : State :=
  match SMap.get (fun _ => none) i s.fab.policers with
  | none => if e.mode = 0 ∨ e = e' then s else
      let p := e.full s.now
      s.setPolicer i (some ⟨min p.c (e'.cbs * 13200000), min p.e (e'.burst2 * 13200000), s.now⟩)
  | some p =>
    if e.mode = 0 then s.setPolicer i none
    else
      let q := e.fill p s.now
      s.setPolicer i (some ⟨min q.c (e'.cbs * 13200000), min q.e (e'.burst2 * 13200000), s.now⟩)

/-- Physical bank that is active, or that is the shadow (PIPE.STATUS active_bank). -/
def State.physBank (s : State) (shadow : Bool) : Nat := b2n (s.ashBank != shadow)

/-! ### Mirror sessions (section 12, R229) -/

/-- Session `i` of a bank; one that has never been loaded has no valid session. -/
def AshBank.session (b : AshBank) (i : Nat) : Session :=
  let x := b.sec 12
  let o := 128 * i
  let w := x.le o 4
  ⟨bitAt w 0, bitAt w 1, bitsOf w 2 9, x.le (o + 4) 2, x.le (o + 6) 2, x.le (o + 8) 1, bitAt (x.le (o + 9) 1) 0,
    x.le (o + 10) 1, x.list (o + 16) (x.le (o + 8) 1)⟩

/-- Attach mirror queue `i` to the port its session names, or flush it (R263). -/
def State.attachMirror (s : State) (i : Nat) : State :=
  let m := s.ash.1.session i
  let at_ := fun (t : State) (p : Option Nat) =>
    ({ t with fab := { t.fab with mirrorPort := SMap.set (fun _ => none) i p t.fab.mirrorPort } } : State)
  if m.valid && !m.toCpu then at_ s (some m.dest) else at_ (s.flushQueue (4160 + i)) none

/-! ### FRER (section 13, R243) -/

/-- A stream entry. -/
structure StreamEntry where
  kind : Nat
  home : Nat
  init : Nat
  port : Nat
  deriving DecidableEq, Repr

/-- Stream entry `k` of a bank. -/
def AshBank.stream (b : AshBank) (k : Nat) : StreamEntry :=
  let x := b.sec 13
  let o := 64 + 8 * k
  if x.le 0 4 ≤ k then ⟨0, 0, 0, 0⟩
  else ⟨bitsOf (x.le o 2) 0 2, bitsOf (x.le o 2) 2 3, x.le (o + 2) 2, bitsOf (x.le (o + 4) 2) 0 9⟩

/-- A recovery entry. -/
structure RecEntry where
  valid : Bool
  isMatch : Bool
  home : Nat
  hist : Nat
  members : Nat
  first : Nat
  resetTime : Nat
  period : Nat
  threshold : Nat
  deriving DecidableEq, Repr

/-- Recovery entry `k` of a bank. -/
def AshBank.recovery (b : AshBank) (k : Nat) : RecEntry :=
  let x := b.sec 13
  let o := 64 + 8 * x.le 0 4 + 16 * k
  if x.le 4 4 ≤ k then ⟨false, false, 0, 0, 0, 0, 0, 0, 0⟩
  else
    let w := x.le o 2
    ⟨bitAt w 0, bitAt w 1, bitsOf w 2 3, x.le (o + 2) 1, x.le (o + 3) 1, bitsOf (x.le (o + 4) 2) 0 14,
      bitsOf (x.le (o + 8) 4) 0 20, x.le (o + 12) 2, x.le (o + 14) 2⟩

/-- Recovery state of function `k`. -/
def State.recState (s : State) (k : Nat) : Recovery := SMap.get (fun _ => Recovery.init) k s.fab.recovery

/-- Set the recovery state of function `k`. -/
def State.setRec (s : State) (k : Nat) (r : Recovery) : State :=
  { s with fab := { s.fab with recovery := SMap.set (fun _ => Recovery.init) k r s.fab.recovery } }

/-- next_seq of a stream: its init_seq until the first number is taken (R241). -/
def State.nextSeq (s : State) (k : Nat) : Nat := SMap.get (fun k => (s.ash.1.stream k).init) k s.fab.nextSeqs

/-- Set next_seq of a stream. -/
def State.setNextSeq (s : State) (k v : Nat) : State :=
  { s with fab := { s.fab with nextSeqs := SMap.set (fun k => (s.ash.1.stream k).init) k v s.fab.nextSeqs } }

/-! ### The active bank changes -/

/-- A recovery function whose entry differs is set to take_any (R241), and its latent tests start afresh (R240). -/
def State.recoveryChange (s : State) (old : AshBank) (k : Nat) : State :=
  if old.recovery k ≠ s.ash.1.recovery k then s.setRec k { s.recState k with takeAny := true, passed := 0, dups := 0, heard := [] }
  else s

/-- The loss of pipeline `n` ends the functions and generation streams that have their home in it (R234). -/
def State.endHomed (s : State) (n : Nat) : State :=
  { s with fab := { s.fab with
    recovery := s.fab.recovery.filter fun e => decide ((s.ash.1.recovery e.1).home ≠ n)
    nextSeqs := s.fab.nextSeqs.filter fun e => decide ((s.ash.1.stream e.1).home ≠ n) } }

/-- next_seq of the streams whose entry was GENERATION and is the same in the old bank; the others load init_seq
(R241). -/
def keptSeqs (old new : AshBank) (m : SMap Nat) : SMap Nat :=
  (m.filter fun e => decide (old.valid) && decide ((old.stream e.1).kind = 1) && decide (old.stream e.1 = new.stream e.1)).filter
    fun e => decide (e.2 ≠ (new.stream e.1).init)

/-- What the sections of the newly active bank do to running state (R241, R263, R272). -/
def State.sectionsChanged (s : State) (old : AshBank) : State :=
  let s1 := s.each (s.fab.recovery.map Prod.fst) fun t k => t.recoveryChange old k
  let s2 : State := { s1 with fab := { s1.fab with nextSeqs := keptSeqs old s1.ash.1 s1.fab.nextSeqs } }
  let n := max ((old.sec 14).le 0 4) ((s2.ash.1.sec 14).le 0 4)
  let s3 := s2.each ((List.range n).map (· + 1)) fun t i =>
    t.policerChange i (if old.valid then old.policer i else ⟨0, false, 0, 0, 0, 0, 0, 0, 0⟩) (t.ash.1.policer i)
  s3.each (List.range 16) State.attachMirror

end Sys2Proof.Machine
end

