-- ==== Sys2Proof/Machine/Arrival.lean ====
section
/-! DEFINITION. The arrival of a packet-plane frame (R26, R31): its header FIFO, and what becomes of a frame accepted as express
when its entry is suspended in the same core cycle (R116). -/

namespace Sys2Proof.Machine

/-! ### Header FIFOs (R31) -/

/-- Header FIFO of macro `m`. -/
def State.fifo (s : State) (m : Nat) : List Nat := SMap.get (fun _ => []) m s.fab.fifos

/-- Set a header FIFO. -/
def State.setFifo (s : State) (m : Nat) (l : List Nat) : State :=
  { s with fab := { s.fab with fifos := SMap.set (fun _ => []) m l s.fab.fifos } }

/-- A frame whose header entered its FIFO in the present core cycle from a sub-port above `p` (R31). -/
def State.enteredAfter (s : State) (p j : Nat) : Bool :=
  match s.frame j with
  | some f => decide (f.hdrAt = s.now) && decide (p < f.port)
  | none => false

/-- A header that a full FIFO turns away: its frame is dropped whole and counted in rx_hdr_overrun (R31). What a frame that had
arrived whole was counted as is taken back. -/
def State.turnAway (s : State) (j : Nat) : State :=
  match s.frame j with
  | none => s
  | some f =>
    let s1 := (s.setFrame j none).count 0 f.port 8
    if !f.ended then s1.setPort f.port { s1.port f.port with arriving := some (.ignored f.bytes false) }
    else if f.bad then s1 else (s1.countN 0 f.port 0 (2 ^ 64 - 1)).countN 0 f.port 1 (2 ^ 64 - f.len)

/-- Frame `i` of port `p` enters its macro's header FIFO, ahead of the headers that higher sub-ports have completed in the same core
cycle (R31); none where the FIFO is full without them. -/
def State.enterFifo (s : State) (p i : Nat) : Option State :=
  let l := s.fifo (p / 4)
  let l0 := l.filter fun j => !s.enteredAfter p j
  let later := l.filter (s.enteredAfter p)
  if 16 ≤ l0.length then none
  else
    let all := l0 ++ i :: later
    let s1 := (s.setFifo (p / 4) (all.take 16)).each (all.drop 16) State.turnAway
    match s1.frame i with
    | some f => some (s1.setFrame i (some { f with hdrAt := s1.now }))
    | none => some s1

/-! ### Arrival -/

/-- A header with nothing found, for frames that no pipeline parses. -/
def Hdr.blank : Hdr :=
  { tags := 0, outer := false, outerOff := 12, vid := 0, vlan := 0, pcp := 0, dei := 0, rtag := none, rtagOff := 12, a1 := 12,
    etype := 0, a2 := none, a3 := none, a4 := none, a5 := none, udp := false, l3 := 0, exc := 0 }

/-- A frame whose first bytes have arrived on port `p`. -/
def State.newFrame (s : State) (p : Nat) (bytes : List Byte) (tRx : Nat) : Frame :=
  { port := p, cpuRing := none, direct := false, noLearn := false, bytes := bytes, ended := false, len := 0, bad := false,
    cellBad := false, arrival := s.now, tRx := tRx, stepRx := s.trn.steps, flags := s.timeFlags false, stage := .fifo,
    bank := s.physBank false, hdr := .blank, learn := .none, routed := false, seqNum := none,
    markDei := false, cls := 0, charge := 0, unit := p / 64, pool := 0, owner := p / 64, inHbm := false, copies := [],
    mirror := none, mirrorShare := false, refs := 0, cells := [], meter := none, tsReq := false, tsSlot := none,
    oneStep := none, hdrAt := 0, begun := false }

/-- Store a new frame under the next number. -/
def State.addFrame (s : State) (f : Frame) : Nat × State :=
  let i := s.fab.nextFrame
  let s1 := s.setFrame i (some f)
  (i, { s1 with fab := { s1.fab with nextFrame := i + 1 } })

/-- A frame for the packet plane arrives on port `p`, with its receive timestamp. With its first 256 bytes its header enters the FIFO at once; a shorter
one waits for its end (R26 step 2, R50). -/
def State.packetStart (s : State) (p : Nat) (head : List Byte) (t : Nat) : State :=
  let (i, s2) := s.addFrame (s.newFrame p head t)
  let s3 := s2.setPort p { s2.port p with arriving := some (.packet i) }
  if head.length < 256 then s3
  else match s3.enterFifo p i with
    | some s4 => s4
    | none => ((s.count 0 p 8).setPort p { s.port p with arriving := some (.ignored head false) })

/-- A frame for the packet plane arrives on port `p`. -/
def State.packetArrive (s : State) (p : Nat) (head : List Byte) : State :=
  let (t, s1) := s.rxStamp p
  s1.packetStart p head t

/-! ### Suspension in the core cycle of an acceptance (R116) -/

/-- The frame from ingress port `i` that has started crossing to egress MAC `out` in this core cycle leaves it. -/
def State.uncross (s : State) (out i : Nat) : State :=
  let r := s.port out
  let gone := fun (t : TxFrame) => t.crossing i
  s.setPort out { r with tx := r.tx.filter fun t => !gone t, skid := r.skid.filter fun t => !gone t }

/-- A frame that port `i` has accepted as express in this core cycle goes to the packet plane after all: an entry of port `p` is
suspended (R116, notes/assumptions/74.md). -/
def State.fallBack (s : State) (p i : Nat) : State :=
  match (s.port i).arriving with
  | some (.express out lost got t0 tRx) =>
    if t0 ≠ s.now ∨ lost ∨ (i ≠ p ∧ out ≠ p) then s
    else (((s.uncross out i).countN 1 i 0 (2 ^ 64 - 1)).count 1 i 4).packetStart i got tRx
  | _ => s

/-- The entries of port `p` are suspended: of frames accepted through them in the same core cycle none stays express. -/
def State.suspend (s : State) (p : Nat) : State := s.each (s.ports.map Prod.fst) fun t i => t.fallBack p i

/-- The type check of R116 on port `p` after a change to it since `old`: entries are suspended at once, and active again from the
next core cycle. -/
def State.rematch (s old : State) (p : Nat) : State :=
  if old.portMatches p && !s.portMatches p then s.suspend p
  else if s.portMatches p && !old.portMatches p then s.setPort p { s.port p with matchedAt := some s.now } else s

end Sys2Proof.Machine
end

