-- ==== Sys2Proof/Machine/Reports.lean ====
section
/-! DEFINITION. What several families share: ports going down (R46, R65, R211), domains switched off (R391, R392), the
persistent fault record and the reaction to a fault report (R299 to R302, R310), SAFE_HOLD, and the device state
(R400). -/

namespace Sys2Proof.Machine

/-! ### Frames whose end is bad, ports that go down -/

/-- Remove every queued copy of frame `i`. -/
def State.unqueue (s : State) (i : Nat) : State :=
  s.each s.fab.queues fun t (x, q) =>
    let l := q.all.filter fun c => decide (c.frame = i)
    let rest := fun (k : List Copy) => k.filter fun c => decide (c.frame ≠ i)
    if l.isEmpty then t
    else ((t.setQueue x { t.queue x with copies := rest (t.queue x).copies, flush := rest (t.queue x).flush }).each l
      State.loseCopy).fixSpill x

/-- Drop a frame that has not been admitted: it leaves its header FIFO (R27). -/
def State.leaveFifo (s : State) (i : Nat) : State :=
  let l := (s.fab.fifos.map fun (m, l) => (m, l.filter fun j => decide (j ≠ i))).filter fun e => !e.2.isEmpty
  { s with fab := { s.fab with fifos := l } }

/-- Drop an admitted frame from its expansion queue; a queue that it was to enter from HBM may no longer be spilled (R206). -/
def State.leaveExpand (s : State) (i : Nat) : State :=
  let l := (s.fab.expand.map fun (n, l) => (n, l.filter fun j => decide (j ≠ i))).filter fun e => !e.2.isEmpty
  ({ s with fab := { s.fab with expand := l } } : State).fixSpills (((s.frame i).map Frame.copies).getD [])

/-- The mirror engine gives up the copies of frame `i` that it has not built, and their shares (R201). -/
def State.dropJobs (s : State) (i : Nat) : State :=
  let l := s.fab.mirrorJobs.filter fun j => decide (j.frame = i)
  ({ s with fab := { s.fab with mirrorJobs := s.fab.mirrorJobs.filter fun j => decide (j.frame ≠ i) } } : State).each l
    fun t j => t.release j.frame

/-- A frame ended bad (R50, R201): it is dropped whole while none of its bytes have left an egress MAC, otherwise its copies
are stomped when they end. -/
def State.endBad (s : State) (i : Nat) (bytes : List Byte) (len : Nat) : State :=
  match s.frame i with
  | none => s
  | some f =>
    let s1 := s.setFrame i (some { f with bad := true, ended := true, bytes := bytes, len := len })
    match f.stage with
    | .fifo => (s1.leaveFifo i).setFrame i none
    | .done => s1.setFrame i none
    | .expand => (s1.leaveExpand i).endFrame i { f with ended := true }
    | .live => if f.begun then s1 else (s1.unqueue i).dropJobs i

/-- Reception on a port stops in the middle of a frame. -/
def State.abandonRx (s : State) (p : Nat) : State :=
  let s1 := s.setPort p { s.port p with arriving := none }
  match (s.port p).arriving with
  | some (.packet i) => (match s1.frame i with
    | none => s1
    | some f =>
      if f.stage = .fifo && decide (256 ≤ f.bytes.length) then
        s1.setFrame i (some { f with bad := true, ended := true, len := f.bytes.length })
      else s1.endBad i f.bytes f.bytes.length)
  | some (.express out lost got t0 _) =>
    let n := max 1 (s.bytesIn p t0)
    let s2 := s1.countN 1 p 1 n
    if lost then s2
    else s2.onCrossing out p fun t => { t with len := n, bytes := got.take n, stomp := some (firstCause t.stomp .rxError) }
  | _ => s1

/-- Raise rate_mismatch for a port of the active calendar that runs another type, and report it in EPH.MISMATCH (R116). A port on
which Clause 73 has not resolved runs none (notes/assumptions/63.md). -/
def State.checkType (s : State) (p : Nat) : State :=
  if s.ephOn && portNamed s.cal p && s.typed p && decide (s.runType p ≠ ephType s.cal p) then
    ((s.setF F.EPH_MISMATCH_port p).setF F.EPH_MISMATCH_running_type (s.runType p)).raise F.EPH_EVENT_rate_mismatch
  else s

/-- Apply to every copy of the conducted state a change whose result the core die holds, so that a takeover reads it back
(R279, R282): working copy, committed copy, checkpoint in flight and recorded decisions. -/
def State.allKs (s : State) (f : KsState → KsState) : State :=
  { s with key := { s.key with ks := f s.key.ks, commit := f s.key.commit,
                               log := s.key.log.map fun r => { r with after := f r.after },
                               inFlight := s.key.inFlight.map fun c => { c with state := f c.state },
                               behind := s.key.behind.map fun c => { c with state := f c.state } } }

/-- The Keystone issues a control event on the learn bus (R165); in a switchover gap it waits. During a replay the sweeps and the learn
bus run on (R287): the replay's decisions do not undo what is issued meanwhile. -/
def State.issueCtl (s : State) (e : BusEvent) : State :=
  if s.inGap then { s with key := { s.key with deferred := s.key.deferred ++ [.ctl e] } }
  else if s.activeUnit.isNone then s
  else if s.key.replay then s.allKs fun k => { k with ctl := k.ctl ++ [e] }
  else { s with key := { s.key with ks := { s.key.ks with ctl := s.key.ks.ctl ++ [e] } } }

/-- A port goes down: frames in progress are stomped with ABORT (`pcs`: the PCS still runs), its queues are flushed, pause
state and recovery windows end, what a link brought up is undone, and link_up clears (R46, R57, R61, R211); the loss is
flushed from the learned tables while port_flush_en is set (R165). fec_active keeps the FEC resolved last
(notes/assumptions/17.md). -/
def State.portDown (s : State) (p : Nat) (pcs : Bool) : State :=
  let m := p / 4
  let i := p % 4
  let was := s.linkUp p
  let s1 := (((s.doIf (s.portMatches p) fun t => t.suspend p).abortPort p pcs).flushPort p).abandonRx p
  let s2 := ((s1.setF (F.PORT_MAC_STATUS_rx_paused m i) 0).setF (F.PORT_MAC_STATUS_wd_recovering m i) 0).setF
    (F.PORT_LINK_STATUS_link_up m i) 0
  let s3 := (((s2.setF (F.PORT_MAC_STATUS_tx_lpi m i) 0).setF (F.PORT_MAC_STATUS_rx_lpi m i) 0).setF
    (F.PORT_LINK_STATUS_an_done m i) 0).setF (F.PORT_LINK_STATUS_lt_done m i) 0
  let s4 := (s3.setF (F.PORT_LINK_STATUS_resolved_tech m i) 15).restartVerify p
  let s5 := (s4.setPort p { s4.port p with timers := [0, 0, 0, 0, 0, 0, 0, 0], fcPend := 0, eeeAgreed := false }).checkType p
  if was then
    (s5.raiseBit (F.PORT_EVENT_link_change m) i).doIf (s5.getB (F.PIPE_LRN_GLOBAL_port_flush_en 0)) fun t =>
      t.issueCtl (.flush 2 0 p 0 0)
  else s5

/-! ### Domains -/

/-- Domain of a port group or pipeline that a logical port lies in is being switched off. -/
def domainPorts (d : Nat) : List Nat :=
  if 1 ≤ d ∧ d ≤ 16 then (List.range 32).map fun i => 32 * (d - 1) + i
  else if 17 ≤ d ∧ d ≤ 24 then (List.range 64).map fun i => 64 * (d - 17) + i
  else []

/-- Bits of a register that the retained store keeps: those of RW and KEY fields (R392). -/
def keptMask (a : Nat) : Nat :=
  match regDesc a with
  | none => 0
  | some d => (d.fields.filter fun f => decide (f.acc = .rw) || decide (f.acc = .key)).foldl
      (fun n f => n + (2 ^ f.width - 1) * 2 ^ f.lo) 0

/-- RO and SQC fields of a domain's registers return to their reset values, with event counts and latches (R392). -/
def State.dropStatus (s : State) (d : Nat) : State :=
  let s1 := s.each (s.regs.filter fun e => domainOf e.1 = d && !sharedPipe e.1) fun t (a, _) =>
    t.setRegBits a (~~~(BitVec.ofNat 32 (keptMask a))) (resetWord t.part a)
  { s1 with sqc := s1.sqc.filter fun e => decide (domainOf e.1 ≠ d) }

/-- Frames waiting in pipeline `n` are lost with its domain. -/
def State.dropPipe (s : State) (n : Nat) : State :=
  let ids := (s.fab.frames.filter fun (_, f) => match f with
    | some f => decide (f.unit = n) && (decide (f.stage = .fifo) || decide (f.stage = .expand))
    | none => false).map Prod.fst
  s.each ids fun t i => match t.frame i with
    | none => t
    | some f => t.endBad i f.bytes f.bytes.length

/-- Switch one domain off (R65, R391, R392). A power-up in progress is abandoned (R22). -/
def State.switchOff (s : State) (d : Nat) : State :=
  if !s.domainOn d then { s with pwr := { s.pwr with rising := s.pwr.rising.filter fun x => decide (x ≠ d) } }
  else
    let s1 := s.each ((domainPorts d).filter fun p => s.portExists p) fun t p => t.portDown p true
    let s2 := if 17 ≤ d ∧ d ≤ 24 then ((s1.dropPipe (d - 17)).setTab (d - 17) .init).endHomed (d - 17)
      else if 1 ≤ d ∧ d ≤ 16 then s1.each (List.range 8) fun t i => t.setMac (8 * (d - 1) + i) .init
      else s1
    let s3 := if d = 33 then s2.each (s2.ports.map Prod.fst) State.hardEnd else s2
    let s4 := if d = 27 ∨ d = 28 then
        ({ s3 with pwr := { s3.pwr with trained := s3.pwr.trained.filter fun k => decide (k ≠ d - 27) } } : State).setF
          F.BUF_STATUS_hbm_ready 0
      else s3
    let s5 := if d = 36 then s4.rngHealth false else s4
    ((s5.dropStatus d).setDomain d false).raise F.PWR_EVENT_domain_change

/-- Domains that depend on domain `d` (R22) and are on or being powered up, in descending number. -/
def State.dependants (s : State) (d : Nat) : List Nat :=
  let groups := if 17 ≤ d ∧ d ≤ 24 then [2 * (d - 17) + 2, 2 * (d - 17) + 1]
    else if d = 37 then (List.range 16).reverse.map fun i => i + 1 else []
  let pipes := if d = 37 then [28, 27] ++ (List.range 8).reverse.map fun i => 17 + i else []
  let named := fun (g : Nat) => s.ephOn && (List.range 8).any fun i => macroNamed s.cal (8 * (g - 1) + i)
  let x := if (groups.any named) || (decide (1 ≤ d) && decide (d ≤ 16) && named d) then [33] else []
  (x ++ pipes ++ groups).filter fun e => s.domainOn e || decide (e ∈ s.pwr.rising)

/-- A safety reaction switches a domain off, its dependants first; it is never refused (R301). -/
def State.faultOff (s : State) (d : Nat) : State := (s.each (s.dependants d) State.switchOff).switchOff d

/-! ### Activation requests that are withdrawn -/

/-- Withdraw the pending activation and report it as refused (R109, R331). -/
def State.refusePending (s : State) (code : Nat) : State :=
  match s.key.ks.pend with
  | none => s
  | some _ => (({ s with key := { s.key with ks := { s.key.ks with pend := none } }, fly := { s.fly with armed := none } } :
      State).setF F.EPH_ACT_STATUS_act_state 3).setF F.EPH_ACT_STATUS_result code

/-! ### Faults -/

/-- Entries of the persistent record that the present core cycle has added. -/
def State.cycleRecords (s : State) : Nat := if s.saf.recorded.1 = s.now then s.saf.recorded.2 else 0

/-- Write a fault to the persistent record, or count its repeat where the newest entry is of a time within 1 s of the counter's
(R310). Faults of one core cycle stand in ascending diagnostic ID (R302). -/
def State.persist (s : State) (diag cls inst : Nat) : State :=
  let t := s.trn.time
  let e : FaultRec := ⟨diag, cls, inst, secOf t, nsOf t, 0⟩
  let l := s.mram.faults
  let again := match l.getLast? with
    | some x =>
      let at_ := x.sec * 10 ^ 9 + x.ns
      decide (x.diag = diag) && decide (x.inst = inst) && decide (s.timeNs ≤ at_ + 10 ^ 9) && decide (at_ ≤ s.timeNs + 10 ^ 9)
    | none => false
  if again then
    { s with mram := { s.mram with faults := l.dropLast ++ l.getLast?.toList.map fun x => { x with rep := (x.rep + 1) % 65536 } } }
  else
    let n := s.cycleRecords
    let old := l.take (l.length - n)
    let new := l.drop (l.length - n)
    let l' := old ++ new.filter (fun x => decide (x.diag ≤ diag)) ++ [e] ++ new.filter fun x => decide (diag < x.diag)
    { s with mram := { s.mram with faults := l'.drop (l'.length - 256) }, saf := { s.saf with recorded := (s.now, n + 1) } }

/-- Record a fault above MASKED in SAF.FAULT_INFO and SAF.FAULT_* (R312), of those of one core cycle the one recorded last. -/
def State.faultInfo (s : State) (diag cls inst : Nat) : State :=
  let t := s.trn.time
  let w := F.SAF_FAULT_INFO_diag.addr
  if 1 < s.cycleRecords ∧ diag < s.getF F.SAF_FAULT_INFO_diag then s else
  (((s.setReg w (BitVec.ofNat 32 (diag + cls * 2 ^ 8 + inst % 2 ^ 16 * 2 ^ 11))).setReg Addr.SAF_FAULT_SEC_LO
    (BitVec.ofNat 32 (secOf t))).setReg Addr.SAF_FAULT_SEC_HI (BitVec.ofNat 32 (secOf t / 2 ^ 32))).setReg Addr.SAF_FAULT_NS
    (BitVec.ofNat 32 (nsOf t))

/-- An alarm test ends, at its time or at a fault (R308). -/
def State.endTest (s : State) : State :=
  if s.saf.testing.isSome then ({ s with saf := { s.saf with testing := none } } : State).raise F.SAF_EVENT_alarm_test_done else s

/-- Instance of an Ashlar entry in fault records: section in the top four of sixteen bits, entry number below
(notes/assumptions/42.md). -/
def entryInst (sec entry : Nat) : Nat := sec % 16 * 2 ^ 12 + entry % 2 ^ 12

/-- Entry into SAFE_HOLD (R300, R121, R331): the crossbar connects nothing, the safety-class queues are flushed, a pending
activation is refused with ILLEGAL_IN_STATE, and both channels hold a SAFE cause. A Plumb step in progress is
abandoned. A device that PWRON_RST_N holds in reset enters no state (R397). -/
def State.enterSafeHold (s : State) : State :=
  if s.dev = .safeHold ∨ s.dev = .off ∨ s.pwr.phase = .held then s
  else
    let s1 := (s.each (s.ports.map Prod.fst) State.hardEnd).refusePending 0x03
    let s2 := s1.each ((s1.fab.queues.map Prod.fst).filter fun x =>
      (decide (x < 4096) && s1.safetyQ (x % 8)) || (decide (4096 ≤ x) && decide (x < 4160) && s1.safetyCpuQ (x - 4096)))
      State.flushQueue
    let drop := fun (l : List Grant) => l.filter fun g => !(decide (g.requester = 3) && decide (g.key < 100))
    let gone := fun (t : State) =>
      (((({ t with key := { t.key with ks := { t.key.ks with grants := drop t.key.ks.grants, queue := drop t.key.ks.queue } } } :
        State).setF F.PLB_STATUS_abandoned 1).setF F.PLB_STATUS_plb_state 0).setF F.PLB_STATUS_step 0)
    let s3 := match s2.pwr.phase with
      | .plumb _ _ _ => gone s2
      | .bootTest _ => gone s2
      | _ => s2
    let s4 := s3.endTest
    ({ s4 with dev := .safeHold, saf := { s4.saf with safeA := true, safeB := true },
               pwr := { s4.pwr with phase := .none } } : State).raise F.SAF_EVENT_safe_hold

/-- Hold a DEGRADED cause (R301). -/
def State.addCause (s : State) (c : Cause) : State :=
  if c ∈ s.saf.causes then s else { s with saf := { s.saf with causes := s.saf.causes ++ [c] } }

/-- Withdraw a DEGRADED cause (R302). -/
def State.dropCause (s : State) (f : Cause → Bool) : State :=
  { s with saf := { s.saf with causes := s.saf.causes.filter fun c => !f c } }

/-- A PORT fault holds a port down until an accepted apply or the relock of its reference (R302). -/
def State.holdDown (s : State) (p : Nat) : State := s.setPort p { s.port p with downFault := true }

/-- A fault of class REDUNDANCY, PORT or PIPELINE is recorded and counted (R301, R310, R312). -/
def State.faultNoted (s : State) (diag cls inst : Nat) : State :=
  ((((s.endTest).persist diag cls inst).faultInfo diag cls inst).count 16 0 1).raise F.SAF_EVENT_fault_degraded

/-- Record an input in the conductor log with the decision on it (R282). At 768 and at 1,024 entries something follows with the
command's end (`logCheck`); a full log records nothing more. -/
def State.ksLog (s : State) (k : LogKind) : State :=
  if !s.key.logOn || decide (1024 ≤ s.key.log.length) then s
  else
    let l := s.key.log ++ [⟨k, s.key.ks⟩]
    let due := s.key.logDue || decide (l.length = 768) || decide (l.length = 1024)
    let s1 : State := { s with key := { s.key with log := l, logDue := due } }
    if s1.getF F.KEY_LOG_STATUS_log_peak < l.length then s1.setF F.KEY_LOG_STATUS_log_peak l.length else s1

/-- React to a fault of a class that has been decided (R301): MASKED 0, REDUNDANCY 1, PORT 2, PIPELINE 3, SAFE 4. `inst`
is the instance recorded, `at` the port, pipeline or domain that the reaction acts on. -/
def State.reaction (s : State) (diag cls inst at_ : Nat) : State :=
  if cls = 0 then (s.endTest.count 16 0 0).raise F.SAF_EVENT_fault_masked
  else if cls = 4 then (((s.endTest).persist diag cls inst).faultInfo diag cls inst).enterSafeHold
  else
      let s2 := s.faultNoted diag cls inst
      if cls = 1 then s2.addCause (.redundancy diag inst)
      else if cls = 2 then
        if diag = 0x16 then
          (s2.each ((domainPorts at_).filter s.portExists) fun t p => (t.addCause (.port p)).holdDown p).faultOff at_
        else ((s2.addCause (.port at_)).holdDown at_).portDown at_ false
      else (s2.addCause (.pipeline at_)).faultOff (17 + at_)

/-- Apply an update as of counter time `t`: what it records carries that time. -/
def State.asOf (s : State) (t : Nat) (f : State → State) : State :=
  let r := f { s with trn := { s.trn with time := t } }
  { r with trn := { r.trn with time := s.trn.time } }

/-- A report to the safety monitor: the reaction, and its record in the conductor log (R282). -/
def State.react (s : State) (diag cls inst at_ : Nat) : State := (s.reaction diag cls inst at_).ksLog .safety

/-! ### Device state (R400) -/

/-- One evaluation of the state table's conditions that follow from the rest of the state. -/
def State.devStep (s : State) : State :=
  if s.dev = .config ∧ s.eph.1.valid ∧ s.ash.1.valid then
    { s with dev := if s.saf.causes.isEmpty then .ready else .degraded }
  else if s.dev = .ready ∧ (!s.saf.causes.isEmpty ∨ !s.pairRedundant) then
    ({ s with dev := .degraded } : State).raise F.SAF_EVENT_fault_degraded
  else if s.dev = .degraded ∧ s.saf.causes.isEmpty ∧ s.pairRedundant then { s with dev := .ready }
  else s

/-- The device state after a command: two evaluations reach a state that no condition leaves. -/
def State.devUpdate (s : State) : State := s.devStep.devStep

end Sys2Proof.Machine
end

