-- ==== Sys2Proof/Machine/Keystone.lean ====
section
/-! DEFINITION. The Keystone pair (R276 to R293): unit states, checkpoints, the conductor log, switchover, resync and the
double fault; and the increment of the counter that the servo sets (R76). -/

namespace Sys2Proof.Machine

/-! ### Rates (R70, R76, R77) -/

/-- One ppb in the units of I and f (2^−32 ppb). -/
def ppb : Int := 2 ^ 32

/-- Nominal increment (TRN.RATE_BASE). -/
def State.rateBase (s : State) : Nat := s.getF F.TRN_RATE_BASE_LO_base_lo + s.getF F.TRN_RATE_BASE_HI_base_hi * 2 ^ 32

/-- RATE_BASE × (1 − f × 10^−9), rounded to the nearest unit (R76). The rule does not say how a tie is rounded: the model rounds it
up (DESIGN CHOICE, notes/assumptions/68.md). -/
def rateOf (base : Nat) (f : Int) : Nat :=
  let den : Int := 10 ^ 9 * 2 ^ 32
  ((2 * ((base : Int) * (den - f)) + den) / (2 * den)).toNat

/-- Make the counter run at the increment of frequency correction `f`. -/
def State.setRate (s : State) (f : Int) : State :=
  let r := rateOf s.rateBase f
  (s.setF F.TRN_RATE_NOW_LO_now_lo (r % 2 ^ 32)).setF F.TRN_RATE_NOW_HI_now_hi (r / 2 ^ 32 % 2 ^ 16)

/-- I or f rounded to the register's unit of 2^−8 ppb (R77). The rule does not say how a tie is rounded: the model rounds it up
(DESIGN CHOICE, notes/assumptions/68.md). -/
def ppbReg (v : Int) : Nat := unsigned 32 ((2 * v + 2 ^ 24) / 2 ^ 25)

/-- Show I and f in TRN.SERVO_I and TRN.SERVO_F. -/
def State.showServo (s : State) : State :=
  (s.setF F.TRN_SERVO_I_i_term (ppbReg s.key.ks.i)).setF F.TRN_SERVO_F_f_term (ppbReg s.key.ks.f)

/-! ### Units -/

/-- Code of a unit in KEY.STATUS and KEY.FAULT_INFO: 0 A, 1 B. -/
def unitCode (u : Unit2) : Nat := match u with | .a => 0 | .b => 1

/-- Set the working copy of the conducted state. -/
def State.setKs (s : State) (f : KsState → KsState) : State := { s with key := { s.key with ks := f s.key.ks } }

/-- Access-table entries of a Keystone (R288, R367): with the conductor's write grants, or without them. -/
def State.keyGrants (s : State) (u : Unit2) (on : Bool) : State :=
  let m := 20 + unitCode u
  let s1 := s.each [3, 5, 6, 7] fun t g => t.setReg (Addr.ACC_TABLE g m) (if on then 0xAAAAAAAA else 0x55555555)
  s1.each (List.range 8) fun t n => t.setReg (Addr.ACC_TABLE (16 + n) m) (if on then 2 else 0)

/-- Record a fault in KEY.FAULT_INFO and its detection time in KEY.SWITCH_*. -/
def State.keyFaultInfo (s : State) (cause : Nat) (u : Unit2) : State :=
  let t := s.trn.time
  ((({ s with key := { s.key with faultAt := some s.now, faultTime := t } }.setReg Addr.KEY_FAULT_INFO (BitVec.ofNat 32 (cause + 16 * unitCode u))).setReg Addr.KEY_SWITCH_SEC_LO
    (BitVec.ofNat 32 (secOf t))).setReg Addr.KEY_SWITCH_SEC_HI (BitVec.ofNat 32 (secOf t / 2 ^ 32))).setReg
    Addr.KEY_SWITCH_NS (BitVec.ofNat 32 (nsOf t))

/-- Failed resyncs of a unit since reset. -/
def State.resyncFails (s : State) (u : Unit2) : Nat := match u with | .a => s.key.resyncFailsA | .b => s.key.resyncFailsB

/-- A self-test or resync of unit `u` failed (R278, R291). -/
def State.resyncFail (s : State) (u : Unit2) : State :=
  let k := match u with
    | .a => { s.key with resyncFailsA := s.key.resyncFailsA + 1 }
    | .b => { s.key with resyncFailsB := s.key.resyncFailsB + 1 }
  ((({ s with key := k } : State).setUnit u 5).count 15 0 7).raise F.KEY_EVENT_resync_fail

/-- Stop logging and copying: no usable standby is left (R282). -/
def State.stopCopies (s : State) : State :=
  { s with key := { s.key with logOn := false, log := [], logDue := false, inFlight := none, behind := none, fullCopy := none, firstCkpt := false } }

/-- A resync of unit `u` starts: its domain is cycled and it enters INIT (R291). -/
def State.resyncStart (s : State) (u : Unit2) : State := (s.setUnit u 1).raise F.PWR_EVENT_domain_change

/-- A FAILED unit is resynchronised automatically (R291). -/
def State.autoResync (s : State) (u : Unit2) : State :=
  if s.unitState u = 5 && s.activeUnit.isSome && s.getB F.KEY_CTRL_auto_resync
      && decide (s.resyncFails u < s.getF F.KEY_CTRL_auto_resync_limit) then s.resyncStart u
  else s

/-! ### Checkpoints (R279 to R281) -/

/-- The active unit takes a checkpoint; while one is in flight the interval is skipped (R281). Its size is the
implementation's (notes/assumptions/3.md). -/
def State.takeCheckpoint (s : State) : State :=
  match s.key.inFlight with
  | some c => (s.count 15 0 3).raiseIf (decide (32768 < c.bytes)) F.KEY_EVENT_copy_overlong
  | none =>
    let (n, s1) := s.free (2 ^ 20 + 1)
    { s1 with key := { s1.key with inFlight := some ⟨n, s1.key.log.length, s1.key.ks⟩, cyclesSinceCkpt := 0 } }

/-- A checkpoint outside the interval (R282, R290): one that is in flight stays so, and the new one follows it. -/
def State.forceCheckpoint (s : State) : State :=
  match s.key.inFlight with
  | none => s.takeCheckpoint
  | some _ =>
    let (n, s1) := s.free (2 ^ 20 + 1)
    { s1 with key := { s1.key with behind := some ⟨n, s1.key.log.length, s1.key.ks⟩, cyclesSinceCkpt := 0 } }

/-- The standby commits a whole checkpoint and acknowledges it: the log is trimmed up to it (R281, R282). -/
def State.commitCheckpoint (s : State) (c : Ckpt) : State :=
  let next := s.key.behind.map fun b => { b with mark := b.mark - c.mark }
  let s1 : State := { s with key := { s.key with commit := c.state, log := s.key.log.drop c.mark, inFlight := next,
                                                 behind := none } }
  ((s1.setF F.KEY_COPY_STATUS_last_ckpt_bytes c.bytes).count 15 0 1).countN 15 0 4 c.bytes

/-- The first checkpoint after the full copy has committed: unit `u` is SYNCED (R278, R291). -/
def State.reachSynced (s : State) (u : Unit2) : State :=
  ((({ s with key := { s.key with firstCkpt := false, fullCopy := none } } : State).setUnit u 3).count 15 0 6).raise
    F.KEY_EVENT_resync_done |>.dropCause fun c => match c with | .redundancy d _ => d = 0x0F || d = 0x10 | _ => false

/-! ### Faults -/

/-- Diagnostic of a Keystone fault cause (R303): STATE_ECC is 0x10, every other 0x0F. -/
def causeDiag (cause : Nat) : Nat := if cause = 6 then 0x10 else 0x0F

/-- The standby faults (R284): FAILED, conduction unaffected. -/
def State.standbyFault (s : State) (u : Unit2) (cause : Nat) : State :=
  let was := s.unitState u
  let s1 := (((s.setUnit u 5).stopCopies).keyFaultInfo cause u).raise F.KEY_EVENT_standby_fault
  let s2 := if was = 2 then s1.resyncFail u else s1
  (s2.react (causeDiag cause) 1 (unitCode u) 0).autoResync u

/-- A double fault (R293): no unit conducts, and the device enters SAFE_HOLD. Unit `u` is FAILED, the other unit in state
`st2`. -/
def State.doubleFaultAt (s : State) (u : Unit2) (cause st2 cause2 : Nat) : State :=
  let u2 := other u
  let i := signed 32 (s.getF F.TRN_SERVO_I_i_term) * 2 ^ 24
  let s1 := (s.setUnit u 5).setUnit u2 st2
  let s2 : State := { s1.stopCopies with key := { s1.stopCopies.key with doubleFault := true, gapEnd := none, replay := false,
                                                                          forced := false } }
  let s3 := ((s2.setKs fun k => { k with servo := .holdover, i := i, f := i }).setRate i).raiseIf
    (decide (s.key.ks.servo ≠ .holdover)) F.TRN_EVENT_holdover_enter |>.raiseIf (decide (s.key.ks.servo = .locked)) F.TRN_EVENT_unlocked
  let s4 := ((s3.showServo.keyFaultInfo cause u).setF F.KEY_FAULT_INFO_cause_2 cause2).setF F.KEY_FAULT_INFO_unit_2
    (unitCode u2)
  (((s4.keyGrants .a false).keyGrants .b false).raise F.KEY_EVENT_double_fault).react (causeDiag cause) 4 (unitCode u) 0

/-- The switchover sequence starts (R285): `forced` for a planned one, after which the former active unit is SYNCED. The alarm
outputs hold their levels from here (R286). -/
def State.startSwitch (s : State) (u : Unit2) (cause : Nat) (forced : Bool) : State :=
  let s1 := if forced then s else s.setUnit u 5
  let s2 := s1.keyFaultInfo cause u
  { s2 with key := { s2.key with gapEnd := some (s2.now + 96), gapTime := s2.trn.time, forced := forced, inFlight := none,
                                 behind := none, gapAlarm := (s.alarm .a, s.alarm .b) } }

/-- Step 6 of R285: the standby is ACTIVE with its committed checkpoint, the flywheel's armed switch read back, and the
log waiting to be replayed. The fault is recorded with the time of its detection (R310, R312). -/
def State.endGap (s : State) : State :=
  match s.key.gapEnd with
  | none => s
  | some _ =>
    let old : Unit2 := if s.key.forced then (s.activeUnit.getD .a) else (if s.unitState .a = 3 then .b else .a)
    let new := other old
    let s1 := (s.setUnit new 4).doIf s.key.forced fun t => t.setUnit old 3
    let ks := { s1.key.commit with pend := s1.fly.armed }
    let work := !s1.key.log.isEmpty || !s1.key.deferred.isEmpty
    let s2 : State := { s1 with key := { s1.key with gapEnd := none, ks := ks, commit := ks, replay := work,
                                                     logOn := s1.key.forced } }
    let s3 := ((((s2.keyGrants old false).keyGrants new true).setF F.KEY_STATUS_active_unit (unitCode new)).count 15 0 0).raise
      F.KEY_EVENT_switchover
    if s3.key.forced then { s3 with key := { s3.key with forced := false } }
    else (s3.asOf s3.key.faultTime fun t => t.react (causeDiag (t.getF F.KEY_FAULT_INFO_cause)) 1 (unitCode old) 0).autoResync old

/-- Cause recorded last, when it was charged to unit `u`; else 0 (notes/assumptions/43.md). -/
def State.pastCause (s : State) (u : Unit2) : Nat :=
  if s.getF F.KEY_FAULT_INFO_unit = unitCode u then s.getF F.KEY_FAULT_INFO_cause else 0

/-- A fault of `u` has been recorded in this very core cycle: several detectors make one fault, under the lowest cause (R284). The unit
is FAILED, or its resync has started at once. -/
def State.sameFault (s : State) (u : Unit2) : Bool :=
  decide (s.key.faultAt = some s.now) && decide (s.getF F.KEY_FAULT_INFO_unit = unitCode u) && !s.key.forced
    && (decide (s.unitState u = 5) || decide (s.unitState u = 1))

/-- A fault of `u` has been recorded in this core cycle as the second of a double fault. -/
def State.sameSecond (s : State) (u : Unit2) : Bool :=
  decide (s.key.faultAt = some s.now) && s.key.doubleFault && decide (s.getF F.KEY_FAULT_INFO_unit_2 = unitCode u)
    && decide (s.unitState u = 5) && decide (s.getF F.KEY_FAULT_INFO_cause_2 ≠ 0)

/-- A fault of unit `u` that the safety monitor has decided on (R283 to R285, R289, R293). A unit that is resynchronised, before its
full copy too, goes back to FAILED (R291). A fault of the former active unit in the gap of a planned switchover ends that unit in
FAILED (notes/assumptions/69.md). -/
def State.unitFault (s : State) (u : Unit2) (cause : Nat) : State :=
  let st := s.unitState u
  let o := other u
  if s.sameFault u then s.setF F.KEY_FAULT_INFO_cause (min cause (s.getF F.KEY_FAULT_INFO_cause))
  else if s.sameSecond u then s.setF F.KEY_FAULT_INFO_cause_2 (min cause (s.getF F.KEY_FAULT_INFO_cause_2))
  else if s.inGap then
    if st = 3 then s.doubleFaultAt o (s.getF F.KEY_FAULT_INFO_cause) 5 cause
    else if st = 4 then
      { (s.setUnit u 5).keyFaultInfo cause u with key := { ((s.setUnit u 5).keyFaultInfo cause u).key with forced := false } }
    else s
  else if st = 4 then
    if s.unitState o = 3 then s.startSwitch u cause false
    else s.doubleFaultAt u cause (s.unitState o) (s.pastCause o)
  else if st = 2 ∨ st = 3 then
    if s.key.replay then s.doubleFaultAt o (s.getF F.KEY_FAULT_INFO_cause) 5 cause
    else s.standbyFault u cause
  else if st = 1 ∧ s.activeUnit.isSome ∧ s.pwr.phase ≠ .keystones then
    ((s.keyFaultInfo cause u).resyncFail u |>.react (causeDiag cause) 1 (unitCode u) 0).autoResync u
  else s

/-! ### The conductor log (R282) -/

/-- What the log's length leads to: at 768 entries a checkpoint is taken at once, and at 1,024 without an acknowledgement the standby
is declared faulty with cause SYNC_LOST. -/
def State.logCheck (s : State) : State :=
  if !s.key.logDue then s
  else
    let s1 : State := { s with key := { s.key with logDue := false } }
    if 1024 ≤ s1.key.log.length then
      match s1.activeUnit with
      | some u => s1.unitFault (other u) 8
      | none => s1
    else s1.forceCheckpoint.raise F.KEY_EVENT_log_checkpoint

end Sys2Proof.Machine
end

