-- ==== Sys2Proof/Machine/Security.lean ====
section
/-! DEFINITION. The security unit (R403 to R421, R453): signature blocks and the order of verification, anti-rollback
counters, measurements, keys, attestation and the random source. -/

namespace Sys2Proof.Machine

/-! ### Signature blocks (R403) -/

/-- Length of the signature block at an offset. -/
def blockLen (b : Blob) (p : Nat) : Nat := ceilDiv (192 + b.le (p + 0x0E) 2) 64 * 64

/-- The magic of a signature block stands at an offset. -/
def sigMagic (b : Blob) (p : Nat) : Bool := decide (b.le p 4 = 0x42474953)

/-- signed_len of a block at an offset names that offset. -/
def sigNamed (b : Blob) (p : Nat) : Bool := decide (b.le (p + 8) 4 = p)

/-- A block at an offset has its magic, names the offset and reaches exactly to the object's end (R403, R453). -/
def sigPlaced (b : Blob) (p : Nat) : Bool := sigMagic b p && sigNamed b p && decide (blockLen b p + p = b.len)

/-- Multiples of 64 at which a signature block of an object can begin, the highest first. -/
def sigPlaces (b : Blob) : List Nat :=
  ((List.range 73).filter fun i => decide (i + 21 ≤ b.len / 64)).map fun i => 64 * (b.len / 64 - (i + 21))

/-- Offset of an object's signature block: where a block is placed rightly; for one that step 1 of R406 will refuse, where a
magic stands, else where a signed_len names its own place (notes/assumptions/20.md). -/
def sigBlockAt (b : Blob) : Option Nat :=
  let l := sigPlaces b
  match l.find? (sigPlaced b), l.find? (sigMagic b) with
  | some p, _ => some p
  | none, some p => some p
  | none, none => l.find? (sigNamed b)

/-- The signed message: the object up to its block, then bytes 0 to 63 of the block. -/
def signedMessage (b : Blob) (p : Nat) : Blob := (b.slice 0 p).append (b.slice p 64)

/-- Rollback class, version and measurement that a block gives its object (R410, R418). -/
def signedOf (b : Blob) (p : Nat) : Signed :=
  { cls := b.le (p + 0x0C) 1, version := b.le (p + 0x10) 4, advance := bitAt (b.le (p + 0x0D) 1) 0,
    measure := Config.sha384 (signedMessage b p) }

/-- Step 1 of R406: the block's place and its own fields (classes of images and calendars: notes/assumptions/20.md). -/
def sigBlockOk (b : Blob) (p typ : Nat) : Bool :=
  let cls := b.le (p + 0x0C) 1
  sigPlaced b p && decide (b.le (p + 4) 2 = 1) && b.zeroIn (p + 0x1C) 36 && b.zeroIn (p + 0xA0) 32 && decide (b.le (p + 0x0D) 1 < 2)
    && decide (b.le (p + 7) 1 ≤ 2) && decide (1124 ≤ b.le (p + 0x0E) 2) && decide (b.le (p + 0x0E) 2 ≤ 5716)
    && decide (cls ≤ 15) && (if typ = 1 then decide (cls = 0) && decide (p ≤ 6 * 2 ^ 20)
        else decide (typ ≠ 4 ∨ cls = 1))

/-- Slots permitted to sign an object type (R408). -/
def slotPermitted (typ slot : Nat) (ownerLocked : Bool) : Bool :=
  if typ = 1 then slot = 0 else if typ = 4 then slot = 1 || slot = 2 || (slot = 0 && !ownerLocked)
  else slot = 1 || slot = 2

/-- Key ID of a key pair (R407). -/
def KeyPair.id (k : KeyPair) : BitVec 384 := Config.sha384 (k.ecdsa.append k.hss)

/-- Write the boot manifest: to the copy that is not in use, under the next generation number (R407). -/
def Mram.putManifest (m : Mram) (slots : List (Option KeyPair)) (revoked : List (BitVec 384)) : Mram :=
  let c : Manifest := ⟨m.manifest.gen + 1, true, slots, revoked⟩
  if m.usesA then { m with manifestB := c } else { m with manifestA := c }

/-- The keys of a slot; slot 0 counts as EMPTY where its key ID disagrees with the one in the fuses (R407). -/
def State.keySlot (s : State) (k : Nat) : Option KeyPair :=
  match s.mram.manifest.slots.getD k none with
  | none => none
  | some x => if k = 0 ∧ x.id ≠ s.mram.fusedId then none else some x

/-- Anti-rollback counter of a class. -/
def State.rollback (s : State) (c : Nat) : Nat := s.mram.counter c

/-! ### The form of an HSS signature (R404) -/

/-- Height of an LMS tree of a permitted type code. -/
def lmsHeight (t : Nat) : Nat := if t = 6 then 10 else if t = 7 then 15 else 20

/-- Hash values in an LM-OTS signature of a permitted type code. -/
def otsChains (t : Nat) : Nat := if t = 3 then 67 else 34

/-- An LMS signature at an offset uses permitted type codes: where it ends (layout of RFC 8554, notes/assumptions/82.md). -/
def lmsSigEnd (b : Blob) (o : Nat) : Option Nat :=
  let ots := b.be (o + 4) 4
  let p := o + 40 + 32 * otsChains ots
  let t := b.be p 4
  if (ots = 3 ∨ ots = 4) ∧ 6 ≤ t ∧ t ≤ 8 then some (p + 4 + 32 * lmsHeight t) else none

/-- An HSS signature is within the table of R404 for a public key: one or two levels, permitted types, and the key's top-level LMS
type. -/
def hssFormOk (key sig : Blob) : Bool :=
  let levels := sig.be 0 4 + 1
  let ots := sig.be 8 4
  decide (sig.be (44 + 32 * otsChains ots) 4 = key.be 4 4) && decide (key.be 0 4 = levels) &&
    match lmsSigEnd sig 4 with
    | none => false
    | some e => decide (levels = 1) || (decide (levels = 2) && decide (6 ≤ sig.be e 4) && decide (sig.be e 4 ≤ 8)
        && (decide (sig.be (e + 4) 4 = 3) || decide (sig.be (e + 4) 4 = 4)) && (lmsSigEnd sig (e + 56)).isSome)

/-- An HSS signature verifies (R404, R406 step 6). -/
def hssVerifies (key : Blob) (msg sig : Blob) : Bool := hssFormOk key sig && Config.hssOk key msg sig

/-- Outcome of R406 for an object of a type whose block stands at `p`: the reason code, 0 when it passes. -/
def State.verifyAt (s : State) (b : Blob) (typ p : Nat) : Nat :=
  let slot := b.le (p + 7) 1
  let serial := b.le (p + 0x14) 8
  let ver := b.le (p + 0x10) 4
  if !sigBlockOk b p typ then 1
  else if b.le (p + 6) 1 ≠ typ then 2
  else if serial ≠ 0 ∧ serial ≠ s.part.serial then 3
  else if !slotPermitted typ slot s.mram.ownerLocked then 4
  else match s.keySlot slot with
    | none => 5
    | some k =>
      if !Config.ecdsaOk k.ecdsa (signedMessage b p) (b.slice (p + 0x40) 96) then 6
      else if !hssVerifies k.hss (signedMessage b p) (b.slice (p + 0xC0) (b.le (p + 0x0E) 2)) then 7
      else if typ = 4 ∧ ver ≤ s.rollback 1 then 8
      else if typ ≠ 4 ∧ ver < s.rollback (b.le (p + 0x0C) 1) then 8
      else 0

/-- Record a refusal in SEC.VERIFY_INFO and raise its event (R406, R411). -/
def State.noteVerify (s : State) (typ reason cls : Nat) : State :=
  ((((s.setF F.SEC_VERIFY_INFO_object_type typ).setF F.SEC_VERIFY_INFO_reason reason).setF
    F.SEC_VERIFY_INFO_rollback_class cls).raise
    (if reason = 8 then F.SEC_EVENT_rollback_refused else F.SEC_EVENT_verify_fail))

/-- Status code of a verification reason. -/
def reasonCode (reason : Nat) : Nat := if reason = 8 then 0x0D else 0x08

/-- Verify an object as one of type `typ` (R406): where its block stands, or the status code of the refusal. -/
def State.verify (s : State) (b : Blob) (typ : Nat) : Except Nat Nat × State :=
  match sigBlockAt b with
  | none => (.error 0x08, s.noteVerify typ 1 0)
  | some p =>
    match s.verifyAt b typ p with
    | 0 => (.ok p, s)
    | r => (.error (reasonCode r), s.noteVerify typ r (b.le (p + 0x0C) 1))

/-! ### Anti-rollback (R410, R411) -/

/-- Raise an anti-rollback counter, in both copies: it is only ever raised (R409). -/
def State.advanceRollback (s : State) (cls v : Nat) : State :=
  if s.rollback cls < v then
    ({ s with mram := { s.mram with rollback := s.mram.rollback.set cls (v, v) } } : State).raise F.SEC_EVENT_manifest_written
  else s

/-- Raise the counter of a bank that becomes active, when its object asked for it. -/
def State.advanceFor (s : State) (g : Signed) : State := if g.advance then s.advanceRollback g.cls g.version else s

/-- A retained bank is older than its class allows (R411). -/
def State.rolledBack (s : State) (g : Signed) : Bool := decide (g.version < s.rollback g.cls)

/-- The check of R411 on a selection: the state after the refusal, when it is refused. -/
def State.activationRollback (s : State) (sel : Nat) : Option State :=
  if bitAt sel 0 && s.rolledBack s.eph.2.sig then some (s.noteVerify 3 8 s.eph.2.sig.cls)
  else if bitAt sel 1 && s.rolledBack s.ash.2.sig then some (s.noteVerify 2 8 s.ash.2.sig.cls)
  else none

/-! ### Measurements and attestation (R418, R419) -/

/-- The 48 bytes of a digest. -/
def digestBytes (d : BitVec 384) : List Byte := beBytes 48 d.toNat

/-- State byte, padding and key ID of a slot; an EMPTY slot has no key and contributes zeros (notes/assumptions/21.md). -/
def slotBytes (k : Option KeyPair) : List Byte :=
  match k with
  | none => List.replicate 52 0
  | some k => [1, 0, 0, 0] ++ digestBytes k.id

/-- Measurement of a patched bank. -/
def patchMeasure (m patch : BitVec 384) : BitVec 384 := Config.sha384 (.ofList (digestBytes m ++ digestBytes patch))

/-- The configuration measurement of R418. -/
def State.configMeasure (s : State) : BitVec 384 :=
  let acc := (List.range (152 * 32)).flatMap fun i => leBytes 4 (s.reg (Addr.ACC_TABLE (i / 32) (i % 32))).toNat
  let set := [Addr.SAF_CTRL, Addr.SAF_SAFETY_QMAP, Addr.SAF_SAFETY_CPUQ_LO, Addr.SAF_SAFETY_CPUQ_HI, Addr.EPH_CTRL].flatMap
    fun a => leBytes 4 (s.reg a).toNat
  let keys := [0, 1, 2].flatMap fun k => slotBytes (s.keySlot k)
  Config.sha384 (.ofList (acc ++ set ++ keys ++ [BitVec.ofNat 8 (b2n s.sec.debug)]))

/-- Bytes 0 to 575 of the report (R419). -/
def State.attestHead (s : State) (nonce : List Byte) : List Byte :=
  let id := (s.reg Addr.SYS_ID).toNat
  let bank := fun (i : Nat) (m : BitVec 384) => leBytes 8 i ++ digestBytes m
  leBytes 4 0x54535441 ++ [1, 0, 0, 0] ++ leBytes 4 3956 ++ [0, 0, 0, 0] ++ nonce ++ leBytes 8 s.part.serial
    ++ leBytes 2 0x5128 ++ [BitVec.ofNat 8 (bitsOf id 16 8), BitVec.ofNat 8 (bitsOf id 24 4), BitVec.ofNat 8 s.dev.code,
      BitVec.ofNat 8 (b2n s.sec.debug), 0, 0] ++ s.tsNow ++ leBytes 8 s.sec.hssIndex ++ leBytes 4 s.sec.fwVersion
    ++ [BitVec.ofNat 8 s.sec.fwSlot, 0, 0, 0] ++ digestBytes s.sec.fwMeasure
    ++ bank s.ash.1.ident s.ash.1.sig.measure ++ bank s.ash.2.ident s.ash.2.sig.measure
    ++ bank s.eph.1.ident s.eph.1.sig.measure ++ bank s.eph.2.ident s.eph.2.sig.measure
    ++ digestBytes s.configMeasure ++ (List.range 16).flatMap (fun c => leBytes 4 (s.rollback c))
    ++ digestBytes (Config.sha384 s.mram.identity.ecdsa) ++ digestBytes (Config.sha384 s.mram.identity.hss)

/-- Place of the newest slot of the HSS index: the valid one with the highest generation number (R416). -/
def Mram.hssNewest (m : Mram) : Nat :=
  ((List.range 64).foldl (fun (b : Nat × Nat) i =>
    match m.hssSlots[i]? with
    | some x => if x.crcOk && decide (b.2 ≤ x.gen) then (i, x.gen) else b
    | none => b) (0, 0)).1

/-- The index that the MRAM holds (R416, notes/assumptions/21.md). -/
def Mram.hssHeld (m : Mram) : Nat :=
  match m.hssSlots[m.hssNewest]? with
  | some x => if x.crcOk then x.index else 0
  | none => 0

/-- Write an index into the next of the rotating slots (R416). -/
def Mram.putHss (m : Mram) (index : Nat) : Mram :=
  let g := match m.hssSlots[m.hssNewest]? with | some x => x.gen | none => 0
  { m with hssSlots := m.hssSlots.set ((m.hssNewest + 1) % 64) ⟨index, g + 1, true⟩ }

/-- The next index goes from `old` to that of the state: hss_low when it reaches 2^30 − 2^20 (R416). -/
def State.hssMoved (s : State) (old : Nat) : State :=
  s.raiseIf (decide (old < 2 ^ 30 - 2 ^ 20) && decide (2 ^ 30 - 2 ^ 20 ≤ s.sec.hssIndex)) F.SEC_EVENT_hss_low

/-- Consume one HSS signature index, reserving a block of 64 before its first use (R416). -/
def State.useHssIndex (s : State) : State :=
  let n := s.sec.hssIndex
  let m := if s.mram.hssHeld ≤ n then s.mram.putHss (n + 64) else s.mram
  ({ s with mram := m, sec := { s.sec with hssIndex := n + 1 } } : State).hssMoved n

/-- At boot the next index is the one that the MRAM holds (R416). -/
def State.bootHss (s : State) : State := ({ s with sec := { s.sec with hssIndex := s.mram.hssHeld } } : State).hssMoved 0

/-- At parking the exact next index is written (R401, R416). -/
def State.parkHss (s : State) : State := { s with mram := s.mram.putHss s.sec.hssIndex }

/-- Bytes 0 to 575 of a report with its two signatures: the whole report, and the state that has used a nonce. -/
def State.attestReport (s : State) (msg : Blob) : List Byte × State :=
  let ec := (List.range 96).map fun i => Config.ecdsaSig s.freeCtr msg i
  let hs := (List.range 3284).map fun i => Config.hssSig (msg.le 80 8) msg i
  (msg.list 0 576 ++ ec ++ hs, { s with freeCtr := s.freeCtr + 1 })

/-- A command's work on its object, or its wait for the security unit (R405). -/
def State.unitWork (s : State) (e : InFlight) (w : InFlight → State → CmdRes × State) : CmdRes × State :=
  if s.unitTaken e then (.wait .security, s) else w e s

/-- The work of an ATTEST: its report is signed and written to host memory. -/
def State.attestWork (e : InFlight) (s : State) : CmdRes × State :=
  let (rep, s1) := s.attestReport e.obj
  if e.desc.memErr then (.fail 0x0E, s1) else (.done 0 3956 0, s1.hostWrite e.desc.argAddr rep)

/-- ATTEST's body (R416 to R420). A random source that is not healthy or no credit gives BUSY, an exhausted index NO_RESOURCE, a short
buffer BAD_ARGUMENT. Every value of the report, the index it uses among them, is that of the acceptance (R418); it is signed in the
security unit's turn (R405). -/
def State.attestBody (s : State) (e : InFlight) : CmdRes × State :=
  if e.desc.argLen < 3956 ∨ e.desc.argAddr = 0 then (.fail 0x02, s)
  else if s.sec.credits = 0 ∨ !s.sec.rngOk then (.fail 0x07, s)
  else if 2 ^ 30 ≤ s.sec.hssIndex then (.fail 0x0B, s)
  else
    let head := Blob.ofList (s.attestHead (e.desc.inl.take 32))
    let s1 := ({ s with sec := { s.sec with credits := s.sec.credits - 1 } } : State).useHssIndex
    let keep := fun (f : InFlight) => if f.seq = e.seq then { f with obj := head } else f
    ({ s1 with hif := { s1.hif with inflight := s1.hif.inflight.map keep } } : State).unitWork { e with obj := head } State.attestWork

/-! ### Keys (R407, R408, R413) -/

/-- INSTALL_KEY: status of the item and its effect. -/
def State.installKey (s : State) (slot : Nat) (k : KeyPair) : Nat × State :=
  if slot ≠ 1 ∧ slot ≠ 2 then (0x02, s)
  else
    let c := s.mram.manifest
    if (c.slots.getD slot none).isSome ∨ k.id ∈ c.revoked then (0x02, s)
    else (0, ({ s with mram := { s.mram.putManifest (c.slots.set slot (some k)) c.revoked with ownerLocked := true } } : State).raise
      F.SEC_EVENT_manifest_written)

/-- REVOKE_KEY. Revoking an EMPTY slot is refused as the last ACTIVE owner slot is: the other slot is EMPTY, or the slot
holds no key (BAD_ARGUMENT; notes/assumptions/21.md). -/
def State.revokeKey (s : State) (slot : Nat) : Nat × State :=
  if slot ≠ 1 ∧ slot ≠ 2 then (0x02, s)
  else match s.mram.manifest.slots.getD slot none, s.mram.manifest.slots.getD (3 - slot) none with
    | some k, some _ =>
      let c := s.mram.manifest
      if 16 ≤ c.revoked.length then (0x0B, s)
      else (0, ({ s with mram := s.mram.putManifest (c.slots.set slot none) (c.revoked ++ [k.id]) } : State).raise
        F.SEC_EVENT_manifest_written)
    | _, _ => (0x02, s)

/-! ### Firmware (R399, R412) -/

/-- FW_UPDATE ends with a status (R421). -/
def State.fwEnds (s : State) (status : Nat) : Nat × State := (status, s.raise F.SEC_EVENT_fw_update_done)

/-- What a flash slot of 8 MiB holds of an image whose signature block stands at `p`: the block at 0, the object at 0x2000 (R412). -/
def slotOf (b : Blob) (p : Nat) : Blob :=
  { (({ b.slice p (b.len - p) with len := 0x2000 } : Blob).append (b.slice 0 p)) with len := 0x800000 }

/-- The image that a flash slot holds, as verified: the object with its block behind it. -/
def slotImage (x : Blob) : Blob := (x.slice 0x2000 (x.le 8 4)).append (x.slice 0 (blockLen x 0))

/-- Write one flash slot with the image of an FW_UPDATE, read it back and verify it again (R412): the status, 0 when it is good. A
read-back that does not match ends it with NO_RESOURCE; the slot then holds whatever the interrupted write left, a value of Config
(notes/assumptions/3.md). -/
def State.fwSlotWrite (s : State) (slot1 : Bool) (b : Blob) : Nat × State :=
  let w := fun (t : State) (x : Blob) =>
    ({ t with mram := if slot1 then { t.mram with fw1 := x } else { t.mram with fw0 := x } } : State)
  let n := s.sec.flashWrites
  let s1 : State := { s with sec := { s.sec with flashWrites := n + 1 } }
  if !Config.flashOk n then (0x0B, w s1 (Config.flashLeft n))
  else
    let x := slotOf b ((sigBlockAt b).getD 0)
    match (w s1 x).verify (slotImage x) 1 with
    | (.ok _, s2) => (0, s2)
    | (.error c, s2) => (c, s2)

/-- Write both flash slots with a verified image, slot 1 first; each is checked before the next is touched (R412). -/
def State.fwWrite (s : State) (b : Blob) : Nat × State :=
  match s.fwSlotWrite true b with
  | (0, s1) => let (c, s2) := s1.fwSlotWrite false b; s2.fwEnds c
  | (c, s1) => s1.fwEnds c

/-- The work of an FW_UPDATE: a verified image is then written to the flash. -/
def State.fwWork (e : InFlight) (s : State) : CmdRes × State :=
  match s.verify e.obj 1 with
  | (.error c, s1) => (.fail c, (s1.fwEnds c).2)
  | (.ok _, s1) => (.wait (.flash e.obj), s1)

/-- FW_UPDATE (R412). -/
def State.fwBody (s : State) (e : InFlight) : CmdRes × State :=
  if e.desc.memErr then (.fail 0x0E, (s.fwEnds 0x0E).2) else s.unitWork e State.fwWork

/-- The ROM verifies the flash slots in order (R399, R412): the slot that boots, or the boot status of the failure (2 FW_INVALID,
3 FW_ROLLBACK). Without a valid manifest nothing boots (R407); an empty slot holds no valid object (notes/assumptions/5.md). -/
def State.bootFirmware (s : State) : Nat × State :=
  let boots := fun (slot : Nat) (t : State) (g : Signed) =>
    ({ t with sec := { t.sec with fwSlot := slot, fwVersion := g.version, fwMeasure := g.measure, fwAdvance := g.advance } } :
      State)
  let (x0, x1) := (slotImage s.mram.fw0, slotImage s.mram.fw1)
  if !s.mram.manifestOk then (2, s)
  else match s.verify x0 1 with
    | (.ok p, s1) => (0, boots 0 s1 (signedOf x0 p))
    | (.error c0, s1) => match s1.verify x1 1 with
      | (.ok p, s2) => (0, boots 1 s2 (signedOf x1 p))
      | (.error c1, s2) => (if c0 = 0x0D ∨ c1 = 0x0D then 3 else 2, s2)

/-! ### Random source (R420) -/

/-- One word of DRBG output: fresh on each read, 0 while rng_ok is clear. -/
def State.randomWord (s : State) : Word × State :=
  if s.sec.rngOk then
    let (v, s1) := s.free (2 ^ 32)
    (BitVec.ofNat 32 v, s1)
  else (0, s)

/-- Hash seeds of pipeline `n` at its power-up (R158, R420). -/
def State.drawSeeds (s : State) (n : Nat) : State :=
  let fixed := s.getB (F.PIPE_LRN_CTRL_seed_fixed n) || !s.sec.rngOk
  if fixed then
    s.setTab n { s.tab n with seed0 := (s.reg (Addr.PIPE_LRN_SEED0 n)).toNat, seed1 := (s.reg (Addr.PIPE_LRN_SEED1 n)).toNat }
  else
    let (a, s1) := s.free (2 ^ 32)
    let (b, s2) := s1.free (2 ^ 32)
    s2.setTab n { s2.tab n with seed0 := a, seed1 := b }

end Sys2Proof.Machine
end

