-- ==== Sys2Proof/Machine/Access.lean ====
section
/-! DEFINITION. Register accesses (R361 to R374): access tables and violations, the order of checks on a write, KEY arming,
reads with their vote, and sequence-cleared status. What the owning block then does is a parameter of the write (step 6 of
R372), given by Machine/RegWrite.lean. -/

namespace Sys2Proof.Machine

/-! ### Access tables (R364 to R366) -/

/-- Access code of master `m` on a register address; master 31 is not subject to the tables (R363). -/
def State.accessCode (s : State) (m t region : Nat) : Nat :=
  if m = 31 then 2 else bitsOf (s.reg (Addr.ACC_TABLE t m)).toNat (2 * region) 2

/-- Ring whose register block holds an address. -/
def ringAt (a : Nat) : Option Nat := if 0x11000 ≤ a ∧ a < 0x11000 + 0x20 * 0x102 then some ((a - 0x11000) / 0x20) else none

/-- DMA channel whose registers hold an address (R360). -/
def channelAt (a : Nat) : Option Nat := if 0x31000 ≤ a ∧ a < 0x31000 + 0x20 * 32 then some ((a - 0x31000) / 0x20) else none

/-- Ownership beside the tables: a function reaches the registers of rings it owns alone, and channel set-up is written by
the owner function and the PF alone (R344, R358). -/
def State.ownedBy (s : State) (m a need : Nat) : Bool :=
  if m = 0 ∨ m = 31 then true
  else match ringAt a, channelAt a with
    | some r, _ => decide (16 ≤ m) || decide (s.getF (F.HIF_RING_CFG_owner_fn r) = m)
    | none, some c => decide (need = 1) || decide (s.getF (F.DMA_CH_CFG_owner_fn c) = m)
    | none, none => true

/-- The record of denied accesses holds one of this core cycle with a lower master than `m`, or with the same master and an address
that is not above `addr` (R366). -/
def State.recordStays (s : State) (m addr : Nat) : Bool :=
  let held := fldOf (s.reg Addr.ACC_VIOL_INFO) 0 5
  decide (s.hif.denied = some s.now)
    && (decide (held < m) || (decide (held = m) && decide ((s.reg Addr.ACC_VIOL_ADDR).toNat ≤ addr % 2 ^ 25)))

/-- Record a denied access: `kind` 0 read, 1 write, 2 command (R366). -/
def State.violation (s : State) (m kind target addr opcode : Nat) : State :=
  let ev := if kind = 0 then F.ACC_EVENT_read_denied else if kind = 1 then F.ACC_EVENT_write_denied else F.ACC_EVENT_cmd_denied
  let s1 := s.doIf (!s.recordStays m addr) fun t =>
    (t.setReg Addr.ACC_VIOL_ADDR (BitVec.ofNat 32 (addr % 2 ^ 25))).setReg Addr.ACC_VIOL_INFO
      (BitVec.ofNat 32 (m + kind * 2 ^ 5 + target * 2 ^ 8 + opcode * 2 ^ 16))
  let s2 : State := { s1 with hif := { s1.hif with denied := some s1.now } }
  (s2.count 24 m 0).raise ev

/-- Master `m` is the unit that the gap of a switchover has isolated: its writes are refused (R285, R288). -/
def State.isolated (s : State) (m : Nat) : Bool := s.inGap && decide (m = 20 + s.getF F.KEY_FAULT_INFO_unit)

/-- Whether master `m` may read (`need` 1) or write (`need` 2) an address. -/
def State.permitted (s : State) (m a need : Nat) : Bool :=
  match targetOf a with
  | none => true
  | some t =>
    let c := s.accessCode m t (regionOf a)
    (if need = 1 then decide (c = 1) || decide (c = 2) else decide (c = 2)) && s.ownedBy m a need && !(s.isolated m && decide (need = 2))

/-- An access to a register whose domain is off (R392). -/
def State.offAccess (s : State) (m a : Nat) : State :=
  (s.setReg Addr.PWR_OFF_ADDR (BitVec.ofNat 32 (a % 2 ^ 25 + m * 2 ^ 25))).raise F.PWR_EVENT_off_access

/-- The domain of a register is on. -/
def State.regOn (s : State) (a : Nat) : Bool := s.domainOn (domainOf a)

/-! ### Triplication (R371) -/

/-- Report a disagreement of the copies of register `a` over the bits `bits`. -/
def State.tmrReport (s : State) (a : Nat) (bits : Word) (allDiffer : Bool) : State :=
  let s1 := s.setReg Addr.SYS_TMR_ERR (BitVec.ofNat 32 (a % 2 ^ 25 + b2n allDiffer * 2 ^ 25))
  let s2 := s1.setReg Addr.SYS_TMR_ERR_BITS bits
  if allDiffer then s2.react 0x12 4 0 0
  else ((s2.count 16 0 2).raise F.SAF_EVENT_tmr_corrected).react 0x12 0 0 0

/-- The three copies of one TMR field. -/
def State.copies (s : State) (a : Nat) (f : FieldDesc) : Nat × Nat × Nat :=
  let x := SMap.get (resetWord s.part) a s.regs
  (fldOf x f.lo f.width, fldOf (SMap.get (fun _ => x) a s.tmrB) f.lo f.width, fldOf (SMap.get (fun _ => x) a s.tmrC) f.lo f.width)

/-- Vote one TMR field: two identical copies rewrite the third; three different ones are reported as SAFE and left
(R371). `seen` is the address through which the register was read (R190). -/
def State.voteField (s : State) (seen a : Nat) (f : FieldDesc) : State :=
  let (x, y, z) := s.copies a f
  let at_ := fun (n : Nat) => BitVec.ofNat 32 (n * 2 ^ f.lo)
  let fix := fun (v d : Nat) => (s.setRegBits a (at_ (2 ^ f.width - 1)) (at_ v)).tmrReport seen (at_ d) false
  if x = y ∧ y = z then s
  else if x = y then fix x (x ^^^ z)
  else if x = z then fix x (x ^^^ y)
  else if y = z then fix y (x ^^^ y)
  else s.tmrReport seen (at_ ((x ^^^ y) ||| (y ^^^ z) ||| (x ^^^ z))) true

/-- Vote every TMR field of a register. -/
def State.voteReg (s : State) (seen a : Nat) : State :=
  match regDesc a with
  | none => s
  | some d => s.each (d.fields.filter FieldDesc.tmr) fun t f => t.voteField seen a f

/-! ### Reads (R362, R366, R368, R392) -/

/-- Copy an SQC register's count into its latch (R368 step 2). -/
def State.latchSqc (s : State) (a : Nat) : State := s.setSqc a { s.sqcOf a with latch := (s.sqcOf a).count }

/-- Read one register: its value, after the checks of access and domain, and the side effects of the read. -/
def State.readWord (s : State) (m a0 : Nat) : Word × State :=
  let a := canonAddr a0
  if !s.permitted m a0 1 then (0xFFFFFFFF, s.violation m 0 ((targetOf a0).getD 0) a0 0)
  else if (regDesc a).isNone then (0, s)
  else if !s.regOn a0 then (0, s.offAccess m a0)
  else if a = Addr.SEC_RANDOM then s.randomWord
  else
    let s1 := if s.tmrB.any (fun e => e.1 = a) || s.tmrC.any (fun e => e.1 = a) then s.voteReg a0 a else s
    (s1.view a0, if isSqc a then s1.latchSqc a else s1)

/-- Read the registers at the addresses of a list: their words side by side. -/
def State.readWords (s : State) (m : Nat) : List Nat → Nat × State
  | [] => (0, s)
  | a :: r =>
    let (w, s1) := s.readWord m a
    let (n, s2) := s1.readWords m r
    (w.toNat + n * 2 ^ 32, s2)

/-- Addresses of the registers that hold some of `size` bytes from an address. -/
def wordsOf (a size : Nat) : List Nat := (List.range ((a % 4 + size + 3) / 4)).map fun i => a / 4 * 4 + 4 * i

/-- Read `size` bytes (1, 2, 4 or 8) at an address into the read latch `rd`: the bytes addressed (R362). A read that meets a register
the master may not read is one denied access and returns ones (R366). -/
def State.readBytes (s : State) (m a size : Nat) : State :=
  match (wordsOf a size).find? fun x => !s.permitted m x 1 with
  | some x => { s.violation m 0 ((targetOf x).getD 0) x 0 with rd := BitVec.ofNat 64 (2 ^ (8 * size) - 1) }
  | none =>
    let (n, s1) := s.readWords m (wordsOf a size)
    { s1 with rd := BitVec.ofNat 64 (bitsOf n (8 * (a % 4)) (8 * size)) }

/-! ### Writes (R368 to R372) -/

/-- Master `m` is armed. -/
def State.armed (s : State) (m : Nat) : Bool := s.getFBit F.SYS_ARMED_armed m

/-- Set or clear the arming of a master. -/
def State.setArmed (s : State) (m : Nat) (on : Bool) : State := s.setFBit F.SYS_ARMED_armed m on

/-- A value is one of a field's encodings (R12). -/
def FieldDesc.accepts (f : FieldDesc) (v : Nat) : Bool := f.legal.isEmpty || f.legal.any fun r => decide (r.1 ≤ v) && decide (v ≤ r.2)

/-- Bits of a write that change fields, by access code (R372 step 5): RW and WO fields, and KEY fields of an armed
master, each when the value is not reserved. -/
def writeMask (d : RegDesc) (armed : Bool) (v : Word) : Nat :=
  d.fields.foldl (fun n f =>
    let open_ := match f.acc with | .rw | .wo => true | .key => armed | .ro | .sqc => false
    if open_ && f.accepts (fldOf v f.lo f.width) then n + (2 ^ f.width - 1) * 2 ^ f.lo else n) 0

/-- Some KEY field of a register differs between two words (R370). -/
def keyDiffers (d : RegDesc) (v w : Word) : Bool :=
  d.fields.any fun f => decide (f.acc = .key) && decide (fldOf v f.lo f.width ≠ fldOf w f.lo f.width)

/-- An unarmed write of a KEY field with another value (R370). -/
def State.keyRefused (s : State) (m a : Nat) : State :=
  ((s.setReg Addr.SYS_KEY_ERR (BitVec.ofNat 32 (a % 2 ^ 25 + m * 2 ^ 25))).count 25 0 0).raise F.SYS_EVENT_key_refused

/-- A write to an SQC register (R368 steps 3 and 4): it clears the event bits written 1 when seq matches, the count equals the
latch and no event of the register falls in this core cycle. -/
def State.clearSqc (s : State) (a : Nat) (v : Word) : State :=
  let q := s.sqcOf a
  if fldOf v 24 8 = q.count.toNat % 256 ∧ q.count = q.latch ∧ q.advanced ≠ some s.now then
    let ev := match regDesc a with
      | none => 0
      | some d => (d.fields.filter fun f => decide (f.acc = .sqc) && decide (f.lo ≠ 24)).foldl
          (fun n f => n + (2 ^ f.width - 1) * 2 ^ f.lo) 0
    let gone := s.reg a &&& v &&& BitVec.ofNat 32 ev
    (s.setReg a (s.reg a &&& ~~~ gone)).setSqc a { q with cleared := some (s.now, gone) }
  else s

/-- What a block's own rules say of a write: the bits it may change now, and what follows from it. -/
structure BlockRules where
  allow : Nat → Nat → Bool → Word → State → Word
  after : Nat → Nat → Bool → Word → State → State → State

/-- Steps 4 to 6 of R372 for one register write of a permitted master. -/
def State.writeFields (b : BlockRules) (s : State) (m a0 : Nat) (armed : Bool) (v : Word) : State :=
  let a := canonAddr a0
  match regDesc a with
  | none => s
  | some d =>
    if !s.regOn a0 then s.offAccess m a0
    else if isSqc a then s.clearSqc a v
    else
      let s1 := if !armed && keyDiffers d v (s.view a) then s.keyRefused m a0 else s
      let mask := BitVec.ofNat 32 (writeMask d armed v) &&& b.allow m a armed v s
      b.after m a armed v s (s1.setRegBits a mask v)

/-- One 4-byte register write (R372). A write outside every register block is ignored and consumes no arming (R13, R361, R369,
notes/assumptions/80.md). -/
def State.writeWord (b : BlockRules) (s : State) (m a : Nat) (v : Word) : State :=
  if (targetOf a).isNone then s
  else if !s.permitted m a 2 then s.violation m 1 ((targetOf a).getD 0) a 0
  else (s.setArmed m false).writeFields b m a (s.armed m) v

/-- A register write of 1, 2, 4 or 8 bytes (R362). -/
def State.writeBytes (b : BlockRules) (s : State) (m a size : Nat) (v : BitVec 64) : State :=
  if size < 4 then s.raise F.SYS_EVENT_bad_width
  else
    let s1 := s.writeWord b m a (BitVec.ofNat 32 v.toNat)
    if size = 8 then s1.writeWord b m (a + 4) (BitVec.ofNat 32 (v.toNat / 2 ^ 32)) else s1

end Sys2Proof.Machine
end

