-- ==== Sys2Proof/Machine/Power.lean ====
section
/-! DEFINITION. The power arbiter (R389 to R396): dependencies, power-up and power-down, requests for leave and their
queue. -/

namespace Sys2Proof.Machine

/-! ### Dependencies and refusals (R22, R389, R391) -/

/-- The domain exists on this part. -/
def State.hasDomain (s : State) (d : Nat) : Bool := decide (d < 38) && !(s.part.en && (d = 27 || d = 28))

/-- Domains that POWER_DOMAIN switches (R389). -/
def State.switchable (s : State) (d : Nat) : Bool :=
  ((decide (1 ≤ d) && decide (d ≤ 24)) || (decide (27 ≤ d) && decide (d ≤ 33))) && s.hasDomain d

/-- Domains that must be on before domain `d` may be (R22). -/
def State.requires (s : State) (d : Nat) : List Nat :=
  if 1 ≤ d ∧ d ≤ 16 then [17 + (d - 1) / 2, 37]
  else if 17 ≤ d ∧ d ≤ 24 then [37]
  else if d = 27 ∨ d = 28 then [37]
  else if d = 33 then
    if s.ephOn then ((List.range 16).filter fun g => (List.range 8).any fun i => macroNamed s.cal (8 * g + i)).map (· + 1) else []
  else []

/-- A pending activation selects the shadow Ephemeris. -/
def State.pendEph (s : State) : Bool := match s.key.ks.pend with | some p => bitAt p.sel 0 | none => false

/-- A macro of group domain `d` is named in a calendar. -/
def groupNamed (b : Blob) (d : Nat) : Bool := (List.range 8).any fun i => macroNamed b (8 * (d - 1) + i)

/-- Port group under test by PLUMB_GROUP, 0 when none is (R430). -/
def State.groupTested (s : State) : Nat :=
  if s.getF F.PLB_STATUS_plb_state = 2 then s.getF F.PLB_STATUS_group else 0

/-- Reason for which one domain may not be switched off now (R391); 0 when it may. -/
def State.offRefusal (s : State) (d : Nat) : Nat :=
  if 1 ≤ d ∧ d ≤ 16 ∧ ((s.ephOn ∧ groupNamed s.cal d) ∨ (s.pendEph ∧ groupNamed s.eph.2.blob d)) then 1
  else if d = 33 ∧ ((s.getB F.EPH_CTRL_meridian_en ∧ s.ephOn ∧ anyEntry s.cal fun _ _ => true)
      ∨ (s.pendEph ∧ anyEntry s.eph.2.blob fun _ _ => true)) then 1
  else if (d = 27 ∨ d = 28) ∧ (List.range 16).any fun k => decide ((s.pool k).usedHbm ≠ 0) then 2
  else if 29 ≤ d ∧ d ≤ 32 ∧ s.tcam.any fun e => e.2.isSome && decide (e.1 / 32768 = d - 29) then 3
  else 0

/-! ### Leave (R393) -/

/-- What became of a request for leave. -/
inductive Leave where
  | granted | queued | refused (reason : Nat)
  deriving DecidableEq, Repr

/-- Domain a request concerns; 0 for requesters 2 to 7 (PWR.REQ_INFO). -/
def Grant.domain (g : Grant) : Nat := if g.requester < 2 then g.key else 0

/-- Record a refusal in PWR.REQ_INFO and raise leave_refused (R393). -/
def State.noteRefusal (s : State) (requester dom cost reason : Nat) : State :=
  (s.setReg Addr.PWR_REQ_INFO (BitVec.ofNat 32 (requester % 8 + dom % 64 * 2 ^ 3 + cost % 2 ^ 16 * 2 ^ 9 + reason % 16 * 2 ^ 25))).raise
    F.PWR_EVENT_leave_refused

/-- A request for a native Plumb step, the only ones decided in PARKING (R425); a group test's has a key from 100 up. -/
def Grant.isStep (g : Grant) : Bool := decide (g.requester = 3) && decide (g.key < 100)

/-- The device is in a state listed under reason 8 (R391). Plumb's own steps run in PARKING (R401, R425). -/
def State.leaveClosed (s : State) (g : Grant) : Bool :=
  s.key.doubleFault || ((decide (s.dev = .parking) || decide (s.dev = .off)) && !g.isStep)

/-- The decision of R393 on a request, with `waiting` requests queued before it; a power-up whose required domains are off is refused
with DEPENDENCY (R22, R391). -/
def State.decideLeave (s : State) (g : Grant) (waiting : Nat) : Leave :=
  if s.leaveClosed g then .refused 8
  else if g.requester < 2 ∧ !(s.requires g.key).all s.domainOn then .refused 4
  else if s.budget < s.permanent + g.cost then .refused 5
  else if s.permanent + s.transient + g.cost ≤ s.budget ∧ waiting = 0 then .granted
  else if 16 ≤ waiting then .refused 6
  else .queued

/-- Requests that a new one waits behind: all that are queued, in PARKING only Plumb's (R425). -/
def State.leaveWaiting (s : State) : Nat :=
  (s.key.ks.queue.filter fun g => decide (s.dev ≠ .parking) || g.isStep).length

/-- Enter a grant into the ledger: a power-up's charge becomes permanent at once (R390 step 1), every other cost is held. -/
def State.enterGrant (s : State) (g : Grant) : State :=
  if g.requester < 2 then { s with pwr := { s.pwr with rising := s.pwr.rising ++ [g.key] } }
  else s.setKs fun k => { k with grants := k.grants ++ [g] }

/-- Ask leave (R393). In a switchover gap or replay the request is deferred (R395). -/
def State.askLeave (s : State) (g : Grant) : Leave × State :=
  if s.ksBusy then (.queued, { s with key := { s.key with deferred := s.key.deferred ++ [.leave g] } })
  else
    match s.decideLeave g s.leaveWaiting with
    | .granted => (.granted, (s.enterGrant g).ksLog .power)
    | .queued => (.queued, (s.setKs fun k => { k with queue := k.queue ++ [g] }).ksLog .power)
    | .refused r => (.refused r, (s.noteRefusal g.requester g.domain g.cost r).ksLog .power)

/-- Give back a held grant. A standby that takes over does not hold it again. -/
def State.returnGrant (s : State) (requester key : Nat) : State :=
  s.allKs fun k => { k with grants := k.grants.filter fun g => !(decide (g.requester = requester) && decide (g.key = key)) }

/-- A grant is held. -/
def State.holdsGrant (s : State) (requester key : Nat) : Bool :=
  s.key.ks.grants.any fun g => decide (g.requester = requester) && decide (g.key = key)

/-- The ledger fits the budget again or not (R396): over_budget is a level of PWR.STATUS, raised when a new budget lies below
the ledger. -/
def State.setBudget (s : State) (v : Nat) : State :=
  let s1 := s.setF F.PWR_BUDGET_budget v
  s1.raiseIf (decide (v < s1.permanent + s1.transient)) F.PWR_EVENT_over_budget

/-! ### Power-down (R391) -/

/-- Domains that a power-down of `d` switches, dependants first, and the first refusal among them. -/
def State.offPlan (s : State) (d : Nat) : List Nat × Nat :=
  let l := s.dependants d ++ [d]
  (l, (l.find? fun x => decide (s.offRefusal x ≠ 0)).elim 0 s.offRefusal)

/-- Switch a domain and its dependants off, unless one is refused, or the device is in a state listed under reason 8: the answer is the
refusal's reason, 0 when done. -/
def State.powerDown (s : State) (d : Nat) : Nat × State :=
  let (l, r0) := s.offPlan d
  let r := if s.key.doubleFault || decide (s.dev = .parking) then 8 else r0
  if r ≠ 0 then (r, s.noteRefusal 0 d (chargeOf s.part d) r) else (0, s.each l State.switchOff)

/-- Status code of a refusal reason (R391). -/
def refusalCode (reason : Nat) : Nat := if reason ≤ 3 then 0x07 else if reason = 4 then 0x02 else 0x06

/-! ### Power-up (R390) -/

/-- Ask for the power-up of a domain for a requester (0 POWER_DOMAIN, 1 wake AUTO). A domain already rising or asked for stands. -/
def State.askPowerUp (s : State) (requester d : Nat) : Leave × State :=
  if d ∈ s.pwr.rising then (.queued, s) else s.askLeave ⟨requester, d, chargeOf s.part d⟩

end Sys2Proof.Machine
end

