-- ==== Sys2Proof/Machine/Commands.lean ====
section
/-! DEFINITION. How a command is taken, checked, accepted and completed (R314, R323 to R331, R341). -/

namespace Sys2Proof.Machine

/-- A command's own part: its argument check (R327 step 6) and busy check (step 7), each a status code or 0, and its
body, given the command as accepted. -/
structure CmdDef where
  args : CmdDesc → State → Nat
  busy : CmdDesc → State → Nat
  body : InFlight → State → CmdRes × State

/-! ### Completion (R325, R331, R341) -/

/-- Completion ring of a command ring. -/
def State.compRing (s : State) (r : Nat) : Nat := 0x40 + s.getF (F.HIF_RING_CFG_comp_ring r)

/-- Owner function of a ring. -/
def State.ownerFn (s : State) (r : Nat) : Nat := s.getF (F.HIF_RING_CFG_owner_fn r)

/-- Free entries of a device-produced ring that no one has reserved: at least one beyond those reserved. -/
def State.entryFree (s : State) (q : Nat) : Bool :=
  s.ringRuns q && decide ((s.ringRun q).reserved < s.ringAvail q ((s.ringRun q).reserved + 1))

/-- Change the reservation count of a ring. -/
def State.reserve (s : State) (q : Nat) (d : Int) : State :=
  s.setRingRun q { s.ringRun q with reserved := (((s.ringRun q).reserved : Int) + d).toNat }

/-- The 32 bytes of a completion. -/
def completionBytes (ring op status tag seq r0 r1 : Nat) : List Byte :=
  leBytes 2 op ++ [BitVec.ofNat 8 status, 0] ++ leBytes 4 tag ++ leBytes 6 seq ++ leBytes 2 ring ++ leBytes 8 r0 ++ leBytes 7 r1
    ++ [0]

/-- Write the entry at head of a completion ring and signal (R325, R326). -/
def State.putEntry (s : State) (q : Nat) (bytes : List Byte) : State :=
  ((s.hostWrite (s.ringAddr q 0) bytes).ringAdvance q 1).ringPass q 1

/-- Keep what the next entry of a completion ring takes the place of, in case a function is reset in the same core cycle (R314). -/
def State.noteEntry (s : State) (q : Nat) (taken : Option Nat) (bytes : List Byte) : State :=
  let a := s.ringAddr q 0
  let k := s.getF (F.HIF_RING_CFG_owner_fn q) * 64 + s.getF (F.HIF_RING_CFG_msix_vector q)
  let w : Written := ⟨q, taken, s.ringHead q, a, s.hostRead a 32, (s.ringRun q).unsignalled, SMap.get (fun _ => 0) k s.hif.msix, bytes⟩
  { s with hif := { s.hif with written := (s.now, (if s.hif.written.1 = s.now then s.hif.written.2 else []) ++ [w]) } }

/-- The function whose command of this core cycle bears a sequence number, if it was accepted in this core cycle. -/
def State.takenNow (s : State) (fn seq : Nat) : Option Nat :=
  if s.hif.accepted.1 = s.now ∧ seq ∈ s.hif.accepted.2 then some fn else none

/-- Write a completion to a command ring's completion ring, using the entry reserved for it, and signal (R325, R326). -/
def State.writeCompletion (s : State) (ring op status tag seq r0 r1 : Nat) : State :=
  let q := s.compRing ring
  let s1 := s.reserve q (-1)
  let l := completionBytes ring op status tag seq r0 r1
  if s1.ringRuns q then (s1.noteEntry q (s1.takenNow (s1.ownerFn ring) seq) l).putEntry q l else s1

/-- Advance HIF.EPOCH (R331). -/
def State.bumpEpoch (s : State) : State :=
  s.setF F.HIF_EPOCH_config_epoch ((s.getF F.HIF_EPOCH_config_epoch + 1) % 2 ^ 32)

/-- Rewrite the result of a log entry (R341). -/
def State.logResult (s : State) (seq status : Nat) : State :=
  let e := s.getF F.HIF_EPOCH_config_epoch % 2 ^ 16
  { s with hif := { s.hif with log := s.hif.log.map fun l => if l.seq = seq then { l with result := status, epoch := e } else l } }

/-- An accepted command ends: epoch, log and completion. After a reset of its function no completion is written (R314); an
item of a bundle gives its status to the bundle (R414). -/
def State.complete (s : State) (e : InFlight) (status r0 r1 : Nat) : State :=
  let s1 : State := { s with hif := { s.hif with inflight := s.hif.inflight.filter fun f => decide (f.seq ≠ e.seq) } }
  let ep := match cmdInfo e.opcode with | some i => i.epoch | none => false
  let s2 := (s1.doIf ep State.bumpEpoch).logResult e.seq status
  if e.parent ≠ 0 then
    { s2 with hif := { s2.hif with inflight := s2.hif.inflight.map fun f => match f.wait with
        | .bundle l b n _ => if f.seq = e.parent then { f with wait := .bundle l b n (some status) } else f
        | _ => f } }
  else if (s.hif.inflight.find? fun f => decide (f.seq = e.seq)).elim e.noComp InFlight.noComp then s2
  else s2.writeCompletion e.ring e.opcode status e.tag e.seq r0 r1

/-- Apply a body's answer to the command it belongs to. -/
def State.answer (s : State) (e : InFlight) (r : CmdRes) : State :=
  match r with
  | .done st r0 r1 => s.complete e st r0 r1
  | .wait w => { s with hif := { s.hif with inflight := s.hif.inflight.map fun f => if f.seq = e.seq then { f with wait := w } else f } }

/-- Complete every command that waits for a given thing. -/
def State.completeWaiting (s : State) (p : Wait → Bool) (status r0 r1 : Nat) : State :=
  s.each (s.hif.inflight.filter fun e => p e.wait) fun t e => t.complete e status r0 r1

/-! ### Checks (R327) -/

/-- Negotiated version of a function, with its open bit. -/
def State.fnVersion (s : State) (fn : Nat) : Nat := s.getF (F.HIF_FN_VERSION_version fn)

/-- The function has an interface open. -/
def State.fnOpen (s : State) (fn : Nat) : Bool := s.getB (F.HIF_FN_VERSION_open fn)

/-- Reserved fields of a descriptor are zero (R323). -/
def descClean (d : CmdDesc) : Bool :=
  decide (d.flags.toNat < 2) && decide (d.rsv3 = 0) && decide (d.rsv20 = 0) && decide (d.last.toNat % 128 = 0)

/-- Target of a command: for PIPE the pipeline named in the arguments, PIPE 0 when none is (R365). -/
def cmdTarget (i : CmdInfo) (d : CmdDesc) : Nat := if i.opcode = 0x20 then 16 + argLe d 24 1 % 8 else i.target

/-- The access a command needs is granted (R365). -/
def State.cmdPermitted (s : State) (i : CmdInfo) (fn : Nat) (d : CmdDesc) : Bool :=
  let c := s.accessCode fn (cmdTarget i d) 0
  decide (i.need = 0) || (if i.need = 1 then decide (c = 1) || decide (c = 2) else decide (c = 2))

/-- Steps 1 to 7 of R327 for a command of function `fn`: a status code, 0 when every check passes. -/
def State.checkCommand (s : State) (c : CmdDef) (op fn : Nat) (d : CmdDesc) : Nat :=
  match cmdInfo op with
  | none => 0x01
  | some i =>
    if !descClean d then 0x02
    else if op ≠ 1 ∧ (!s.fnOpen fn ∨ s.fnVersion fn < i.since) then 0x04
    else if !s.cmdPermitted i fn d then 0x05
    else if s.dev.code ∉ i.legal then 0x03
    else
      let a := c.args d s
      if a ≠ 0 then a
      else if d.argAddr % 64 ≠ 0 then 0x09
      else c.busy d s

/-! ### Acceptance (R324, R327, R341) -/

/-- The input block of a command, read once (R405); empty where it has none or its read fails on the host link. -/
def State.inputBlock (s : State) (op : Nat) (d : CmdDesc) : Blob :=
  let inp := match cmdInfo op with | some i => i.input && !d.memErr && decide (d.argAddr ≠ 0) | none => false
  if inp then s.hostBlob d.argAddr d.argLen else ⟨0, []⟩

/-- Digest of a log entry: CRC-32C over the inline bytes and, for an input block, its bytes as read. -/
def digest (d : CmdDesc) (b : Blob) : Nat := crc32c (d.inl ++ b.list 0 b.len)

/-- Accept a command: sequence number, log entry, and the record of a command that runs. -/
def State.accept (s : State) (op fn parent : Nat) (d : CmdDesc) : InFlight × State :=
  let seq := s.hif.nextSeq
  let t := s.trn.time
  let b := s.inputBlock op d
  let e : InFlight := ⟨d.ring, fn, op, d.tag, seq, false, parent, d, b, .keystone⟩
  let l : LogEntry := ⟨seq, d.ring, fn, 0xFF, op, digest d b, d.tag, secOf t, nsOf t, s.getF F.HIF_EPOCH_config_epoch % 2 ^ 16⟩
  let log := s.hif.log ++ [l]
  let again := decide (s.hif.accepted.1 = s.now)
  let s1 : State := { s with hif := { s.hif with nextSeq := seq + 1, log := log.drop (log.length - 65536),
                                                 inflight := s.hif.inflight ++ [e],
                                                 accepted := (s.now, (if again then s.hif.accepted.2 else []) ++ [seq]) } }
  (e, s1.count 17 d.ring 0)

/-- Run an accepted command's body; a Keystone-bound one waits out a switchover gap or replay (R286, R287). -/
def State.runBody (s : State) (c : CmdDef) (e : InFlight) : State :=
  if keystoneBound e.opcode && s.ksBusy then
    { s with key := { s.key with deferred := s.key.deferred ++ [.command e.seq] } }
  else
    let (r, s1) := c.body e s
    (s1.answer e r).doIf (keystoneInput e.opcode && !s.ksBusy) fun t => t.ksLog .command

/-- A command is rejected: counted, and ACCESS_DENIED is recorded as a violation (R366). -/
def State.noteReject (s : State) (op fn : Nat) (d : CmdDesc) (code : Nat) : State :=
  let t := match cmdInfo op with | some i => cmdTarget i d | none => 0
  (if code = 0x05 then s.violation fn 2 t (targetBase t) op else s).count 17 d.ring 1

/-- Reject a command: no side effect but its completion. -/
def State.reject (s : State) (op fn : Nat) (d : CmdDesc) (code : Nat) : State :=
  (s.noteReject op fn d code).writeCompletion d.ring op code d.tag 0 0 0

/-- A command that has been taken is checked and accepted or rejected (R327). -/
def State.admitCommand (s : State) (c : CmdDef) (op : Nat) (d : CmdDesc) : State :=
  let fn := s.ownerFn d.ring
  match s.checkCommand c op fn d with
  | 0 => let (e, s1) := s.accept op fn 0 d; s1.runBody c e
  | code => s.reject op fn d code

/-- A command of the function is accepted and has not completed. -/
def State.fnBusy (s : State) (fn : Nat) : Bool := s.hif.inflight.any fun e => decide (e.fn = fn)

/-- A command of ring `r` is in progress: the ring's commands run one at a time (R324). -/
def State.ringBusy (s : State) (r : Nat) : Bool :=
  s.hif.inflight.any (fun e => decide (e.ring = r)) || s.hif.fenced.any (fun x => decide (x.2.ring = r))

/-- Take the entry at head of a command ring: its own is cleared and its completion's entry is reserved. A fence keeps the command
waiting while a command of its function runs (R316, R323, R324). -/
def State.takeEntry (s : State) (c : CmdDef) (op : Nat) (d : CmdDesc) : State :=
  let r := d.ring
  let a := s.ringAddr r 0 + 63
  let s1 := ((s.hostPut a (s.hostByte a &&& 0x7F)).ringAdvance r 1).reserve (s.compRing r) 1
  if bitAt d.flags.toNat 0 && s1.fnBusy (s1.ownerFn r) then { s1 with hif := { s1.hif with fenced := s1.hif.fenced ++ [(op, d)] } }
  else s1.admitCommand c op d

/-- What keeps a command ring in doorbell mode from taking the entry at its head: no free completion entry, then an error of the read,
then own 0 (R318, R320, R324); none when it can be taken. -/
def State.headStop (s : State) (r : Nat) (err : Bool) : Option State :=
  if !s.entryFree (s.compRing r) then some (s.raise F.HIF_EVENT_cq_stall)
  else if err then some (s.ringFault r 2)
  else if !s.ringOwn r 0 then some (s.ownStall r)
  else none

/-- Opcode and descriptor of the entry at head of a command ring, as host memory holds it. -/
def State.headDesc (s : State) (r : Nat) : Nat × CmdDesc := cmdDesc r (s.hostRead (s.ringAddr r 0) 64)

/-- Ring `r` is a command ring in doorbell mode that can go on to its next entry. -/
def State.readsHead (s : State) (r : Nat) : Bool :=
  decide (r < 64) && s.ringRuns r && !s.getB (F.HIF_RING_CFG_polling r) && !s.ringBusy r && decide (s.ringSpan r ≠ 0)

/-- Take and reject the entries at head whose opcode the device does not know (R327 step 1); at most `n`. A known one is taken by the
row of its command. -/
def State.passUnknown (s : State) (r : Nat) : Nat → State
  | 0 => s
  | n + 1 =>
    let (op, d) := s.headDesc r
    if s.readsHead r && (s.headStop r false).isNone && (cmdInfo op).isNone then
      (s.takeEntry ⟨fun _ _ => 0, fun _ _ => 0, fun _ s => (.ok, s)⟩ op d).passUnknown r n
    else s

/-- A command ring in doorbell mode reads the entry at its head: what it meets there, a known command apart (R318, R324, R327). -/
def State.readHead (s : State) (r : Nat) : State :=
  if !s.readsHead r then s
  else
    let s1 := s.passUnknown r (s.ringSpan r)
    if s1.readsHead r then (s1.headStop r false).getD s1 else s1

/-- Take one command from the head of its ring (R318, R319, R323, R324). The row's operand is the descriptor read; own is that of the
entry in host memory. Nothing happens while the ring does not run, while the ring's last command is in progress, or while no entry is
available; a ring without a free completion entry waits with cq_stall, one whose entry has own 0 inside the doorbell range stalls. -/
def State.takeCommand (s : State) (c : CmdDef) (op : Nat) (d : CmdDesc) : State :=
  let r := d.ring
  if 64 ≤ r ∨ !s.ringRuns r ∨ s.ringBusy r then s
  else if s.getB (F.HIF_RING_CFG_polling r) then
    if d.ringErr then s.ringFault r 2
    else if !s.ringOwn r 0 then s
    else if !s.entryFree (s.compRing r) then s.raise F.HIF_EVENT_cq_stall
    else s.takeEntry c op d
  else
    let s1 := s.passUnknown r (s.ringSpan r)
    if !s1.readsHead r then s1
    else match s1.headStop r d.ringErr with
      | some t => t
      | none => s1.takeEntry c op d

/-- A fence no longer keeps command `x` waiting. -/
def State.fenceOver (s : State) (x : Nat × CmdDesc) : Bool := !s.fnBusy (s.ownerFn x.2.ring)

/-- Drop the command of ring `r` that a fence keeps waiting. -/
def State.dropFenced (s : State) (r : Nat) : State :=
  { s with hif := { s.hif with fenced := s.hif.fenced.filter fun x => decide (x.2.ring ≠ r) } }

end Sys2Proof.Machine
end

