-- ==== Sys2Proof/Machine/Sequencer.lean ====
section
/-! DEFINITION. The Ephemeris sequencer (R100 to R110) and the switch of the banks (R107, R149 to R151): slot boundaries,
cycle starts under CYCLE_REF binding, activation, and the effect of a step of the counter. -/

namespace Sys2Proof.Machine

/-! ### Slots and cycles -/

/-- A cycle boundary has taken effect (R100, R122): counters and the pacing of checkpoints and snapshots. -/
def State.cycleTick (s : State) : State :=
  let s1 := (s.count 2 0 0).setF F.EPH_CYCLE_COUNT_cycles ((s.getF F.EPH_CYCLE_COUNT_cycles + 1) % 2 ^ 32)
  { s1 with snap := { s1.snap with starts := s1.snap.starts + 1 },
            key := { s1.key with cyclesSinceCkpt := s1.key.cyclesSinceCkpt + 1 } }

/-- Hard ends of the connections that slot `new` does not continue from slot `old` of the same calendar (R113); `all`: of
every connection. -/
def State.cutConnections (s : State) (b : Blob) (old new : Nat) (all : Bool) : State :=
  let goesOn := fun (p : Nat) =>
    let x := slotEntry b old (p / 4)
    let y := slotEntry b new (p / 4)
    y.valid && decide (x.inSub = y.inSub) && decide (x.outMacro = y.outMacro) && decide (x.outSub = y.outSub)
  s.each (s.ports.map Prod.fst) fun t p => if all || !goesOn p then t.hardEnd p else t

/-- HOLD and RELEASE of one port at a slot boundary (R119): while preemption is in use, HOLD interrupts a preemptable frame
at once where it can be interrupted, and otherwise as soon as it can be (R63). -/
def State.applyHold (s : State) (p : Nat) : State :=
  let h := s.holdOn p && s.preempts p
  if h = (s.port p).holdNow then s
  else
    let s1 := s.setPort p { s.port p with holdNow := h }
    if h then (s1.count 0 p 31).holdCut p else s1

/-- HOLD and RELEASE of every port on which preemption is in use. -/
def State.applyHolds (s : State) : State :=
  s.each ((List.range 512).filter fun p => s.preempts p || (s.port p).holdNow) State.applyHold

/-- The flywheel enters a slot: a record that cannot be read is not applied (R306), gates and HOLD of the last slot applied
staying in force and the device entering SAFE_HOLD under diagnostic 0x07. -/
def State.enterSlot (s : State) (i : Nat) : State :=
  let s1 : State := { s with fly := { s.fly with slot := i } }
  if i ∈ s.eph.1.badSlots then s1.react 0x07 4 i 0
  else ({ s1 with saf := { s1.saf with gateSlot := some (s1.cal, i) } } : State).applyHolds

/-- Counter time at which the elastic slot begins (R104). -/
def State.elasticStart (s : State) : Int := s.fly.cycleStart + slotStart s.cal (ephSlots s.cal - 1)

/-! ### Activation (R107 to R110) -/

/-- Show an effective time in EPH.ACT_EFF_*. -/
def State.showEff (s : State) (t : Nat) : State :=
  ((s.setReg Addr.EPH_ACT_EFF_SEC_LO (BitVec.ofNat 32 (t / 10 ^ 9))).setReg Addr.EPH_ACT_EFF_SEC_HI
    (BitVec.ofNat 32 (t / 10 ^ 9 / 2 ^ 32 % 2 ^ 16))).setReg Addr.EPH_ACT_EFF_NS (BitVec.ofNat 32 (t % 10 ^ 9))

/-- First instant of grid `b` at or after `t` that satisfies a test, within `n` grid points. -/
def firstOn (b : Blob) (ok : Nat → Bool) (t : Nat) : Nat → Option Nat
  | 0 => none
  | n + 1 => let u := gridNext b t; if ok u then some u else firstOn b ok (u + 1) n

/-- First instant at or after `t` that satisfies R107 for a selection, and whether it is a prediction (R108). `pts b` bounds the
points of grid `b` that are tried. -/
def State.instantIn (s : State) (pts : Blob → Nat) (sel t : Nat) : Option (Nat × Bool) :=
  let toTime := bitAt sel 0 && !ephRefBound s.eph.2.blob
  let onGrid := fun (b : Blob) (u : Nat) => decide (gridNext b u = u)
  if !s.ephOn then
    if toTime then (firstOn s.eph.2.blob (fun u => decide (u % 1000 = 0)) t (pts s.eph.2.blob)).map (·, false)
    else some (ceilDiv t 1000 * 1000, false)
  else if ephRefBound s.cal then
    if toTime then some (gridNext s.eph.2.blob t, false)
    else if !s.fly.started then some (t, true)
    else
      let m := max 1 s.key.ks.refMeas
      let j := max 1 (((t : Int) - s.fly.cycleStart + m - 1) / m).toNat
      some ((s.fly.cycleStart + (j * m : Nat)).toNat, true)
  else if toTime then (firstOn s.cal (onGrid s.eph.2.blob) t (pts s.cal)).map (·, false)
  else some (gridNext s.cal t, false)

/-- First instant of R108: one more than 2 s after `t` is not looked for. -/
def State.firstInstant (s : State) (sel t : Nat) : Option (Nat × Bool) :=
  s.instantIn (fun b => 2 * 10 ^ 9 / ephCycleLen b + 2) sel t

/-- First instant of R110, however far it lies: grids that meet do so within as many points of one as the other's cycle (or a
microsecond) has ns. -/
def State.firstEver (s : State) (sel t : Nat) : Option (Nat × Bool) :=
  s.instantIn (fun _ => max 1000 (ephCycleLen s.eph.2.blob) + 2) sel t

/-- The Meridian path of the shadow calendar is powered (R109). -/
def State.pathPowered (s : State) : Bool :=
  let b := s.eph.2.blob
  (List.range 128).all (fun m => !macroNamed b m || s.domainOn (1 + m / 8)) && (!anyEntry b (fun _ _ => true) || s.domainOn 33)

/-- A request for a bank switch meets a pending one (R109), a patch (R154), or a macro of a group under test (R430). -/
def State.requestBusy (s : State) (sel : Nat) : Bool :=
  s.key.ks.pend.isSome || s.loads.any Load.isPatch || s.unitWaits (fun e => decide (e.opcode = 0x11))
    || (bitAt sel 0 && decide (s.groupTested ≠ 0) && groupNamed s.eph.2.blob s.groupTested)

/-- A request for a bank switch (R108, R109, R411): its status and, when accepted, T_eff with its flags. The order of the
refusals: BUSY, reserved or empty selection, rollback, power, time (notes/assumptions/23.md). -/
def State.requestSwitch (s : State) (sel tReq : Nat) : Nat × Option PendAct × State :=
  if s.requestBusy sel then (0x07, none, s)
  else if sel = 0 ∨ 3 < sel ∨ (bitAt sel 0 ∧ !s.eph.2.valid) ∨ (bitAt sel 1 ∧ !s.ash.2.valid) then (0x02, none, s)
  else match s.activationRollback sel with
    | some s1 => (0x0D, none, s1)
    | none =>
      if bitAt sel 0 ∧ !s.pathPowered then (0x0B, none, s)
      else
        let t := max tReq (s.nsCeil + s.getF F.EPH_ACT_MARGIN_act_margin)
        match s.firstInstant sel t with
        | none => (0x02, none, s)
        | some (eff, pred) =>
          if max tReq (s.timeNs + s.getF F.EPH_ACT_MARGIN_act_margin) + 2 * 10 ^ 9 < eff then (0x02, none, s)
          else
            let p : PendAct := ⟨sel, tReq, t, eff, pred⟩
            let s1 : State := { s with key := { s.key with ks := { s.key.ks with pend := some p } },
                                       fly := { s.fly with armed := some p } }
            (if eff = tReq then 0 else 0x0C, some p, s1.showEff eff)

/-- EPH.ACT_STATUS after an accepted request; busy_refused is left to the next go (R109). -/
def State.showAct (s : State) (state result sel : Nat) (adj pred : Bool) : State :=
  (s.setReg Addr.EPH_ACT_STATUS (BitVec.ofNat 32 (state + 4 * b2n adj + 8 * b2n pred + result * 2 ^ 8 + sel % 4 * 2 ^ 16))).setF
    F.EPH_ACT_STATUS_busy_refused (s.getF F.EPH_ACT_STATUS_busy_refused)

/-- A request and its report in EPH.ACT_STATUS (R108, R109). -/
def State.activateReq (s : State) (sel tReq : Nat) : Nat × Option PendAct × State :=
  let (c, p, s1) := s.requestSwitch sel tReq
  match p with
  | some a => (c, p, s1.showAct 1 c sel (decide (c = 0x0C)) a.predicted)
  | none => (c, none, s1)

/-- Withdraw the pending request when at least 1 µs remains before T_eff (R109): whether it was withdrawn. -/
def State.cancelPending (s : State) : Bool × State :=
  match s.key.ks.pend with
  | none => (false, s)
  | some p =>
    if s.nsCeil + 1000 ≤ p.tEff then
      (true, ({ s with key := { s.key with ks := { s.key.ks with pend := none } }, fly := { s.fly with armed := none } } :
        State).setF F.EPH_ACT_STATUS_act_state 0)
    else (false, s)

/-- A go of EPH.ACTIVATE is decided (R109): a refusal with BUSY changes busy_refused alone; a request outside CONFIG, READY and
DEGRADED is refused with ILLEGAL_IN_STATE. One refused with BUSY by a patch or by a group under test, with no request pending, is reported in
the same way (notes/assumptions/75.md). -/
def State.decideGo (s : State) (sel tReq : Nat) : State :=
  let refused := fun (t : State) (c : Nat) =>
    (((t.setF F.EPH_ACT_STATUS_act_state 3).setF F.EPH_ACT_STATUS_result c).setF F.EPH_ACT_STATUS_last_select sel).setF
      F.EPH_ACT_STATUS_busy_refused 0
  if s.dev.code = 0 ∨ 3 < s.dev.code then refused s 0x03
  else
    let (c, p, s1) := s.activateReq sel tReq
    match p with
    | some _ => s1.setF F.EPH_ACT_STATUS_busy_refused 0
    | none => if c = 0x07 then s1.setF F.EPH_ACT_STATUS_busy_refused 1 else refused s1 c

/-- A go reaches the sequencer: its decision is recorded (R282). -/
def State.serveGo (s : State) (sel tReq : Nat) : State := (s.decideGo sel tReq).ksLog .command

/-- A cancel reaches the sequencer. -/
def State.serveCancel (s : State) : State := s.cancelPending.2.ksLog .command

/-- A go is written; in a switchover gap or replay it waits (R286). -/
def State.actGo (s : State) (sel tReq : Nat) : State :=
  if s.ksBusy then { s with key := { s.key with deferred := s.key.deferred ++ [.go sel tReq] } } else s.serveGo sel tReq

/-- A cancel is written. -/
def State.actCancel (s : State) : State :=
  if s.ksBusy then { s with key := { s.key with deferred := s.key.deferred ++ [.cancel] } } else s.serveCancel

/-! ### The switch (R107, R149, R151, R410) -/

/-- Invalidate every learned entry of every pipeline (R151, R176). -/
def State.flushLearned (s : State) : State :=
  { s with tabs := (s.tabs.map fun (n, t) => (n, { t with ways := t.ways.filter fun w => match w.2 with
      | some e => e.static
      | none => true })).filter fun e => decide (e.2 ≠ PipeTab.init) }

/-- The Ashlar banks exchange (R149 to R151, R305). -/
def State.switchAsh (s : State) : State :=
  let (a, b) := s.ash
  let s1 : State := { s with ash := ({ b with poison := [] }, { a with poison := [] }), draining := true, ashBank := !s.ashBank }
  let s2 := ((s1.advanceFor b.sig).sectionsChanged a).dropCause fun c => match c with | .redundancy d _ => d = 9 | _ => false
  if bitAt (b.hdr.le 0x19 1) 0 then s2.flushLearned else s2

/-- Re-check of the types of R116 for every port of the new calendar; a port of a macro it names leaves Low Power Idle
(R64). -/
def State.checkTypes (s : State) : State :=
  s.each (List.range 512) fun t p =>
    let t1 := t.checkType p
    if t1.getB (F.PORT_MAC_STATUS_tx_lpi (p / 4) (p % 4)) && macroNamed t1.cal (p / 4) then
      t1.setF (F.PORT_MAC_STATUS_tx_lpi (p / 4) (p % 4)) 0
    else t1

/-- The Ephemeris banks exchange at counter time `t` (R94, R103, R107, R113): every connection ends, and the new calendar
starts its first cycle, or waits for its first edge. A crossbar that is powered while a group with a macro named in the new calendar is
not goes off (R22, notes/assumptions/76.md). -/
def State.switchEph (s : State) (t : Int) : State :=
  let skip := if s.ephOn && ephRefBound s.cal && !ephRefBound s.eph.2.blob then s.slotsLeft else 0
  let s1 := (s.countN 2 0 1 skip).cutConnections s.cal 0 0 true
  let s2 : State := { s1 with eph := (s1.eph.2, s1.eph.1) }
  let s3 := ((s2.advanceFor s2.eph.1.sig).setF F.EPH_STATUS_active_bank (1 - s2.getF F.EPH_STATUS_active_bank)).setF
    F.EPH_CYCLE_COUNT_cycles 0
  let s4 := if ephRefBound s3.cal then
      let u : State := { s3 with fly := { s3.fly with cycleStart := t, armedStart := none, fromEdge := false, started := false } }
      (u.allKs fun k => { k with refState := 1, edges := [], refMeas := ephCycleLen s3.cal }).enterSlot (ephSlots s3.cal - 1)
    else
      let u : State := { s3 with fly := { s3.fly with cycleStart := t, armedStart := none, fromEdge := false, started := true } }
      ((u.allKs fun k => { k with refState := 0 }).enterSlot 0).cycleTick
  let dark := (List.range 128).any fun m => macroNamed s4.cal m && !s4.domainOn (1 + m / 8)
  (s4.checkTypes).doIf (dark && s4.domainOn 33) fun t => t.switchOff 33

/-- The armed switch takes place at counter time `t` (R107, R108). A selected shadow bank that has been emptied leaves
nothing to switch (R109). After a switch of the Ashlar banks alone the cycle that starts with it is the first one counted (R123,
notes/assumptions/77.md). -/
def State.switchAt (s : State) (t : Int) : State :=
  match s.fly.armed with
  | none => s
  | some p =>
    if (bitAt p.sel 0 && !s.eph.2.valid) || (bitAt p.sel 1 && !s.ash.2.valid) then s.refusePending 0x02
    else
      let s1 := ({ s with fly := { s.fly with armed := none } } : State).allKs fun k => { k with pend := none }
      let s2 := if bitAt p.sel 0 then s1.switchEph t else s1.setF F.EPH_CYCLE_COUNT_cycles (b2n s1.ephOn)
      let s3 := if bitAt p.sel 1 then s2.switchAsh else s2
      let s4 := if p.predicted then
          (s3.showEff t.toNat).setF F.EPH_ACT_STATUS_adjusted (b2n (decide (t ≠ (p.tReq : Int))))
        else s3
      let s5 : State := { s4 with snap := { s4.snap with starts := 0 } }
      ((s5.setF F.EPH_ACT_STATUS_act_state 2).bumpEpoch).raise F.EPH_EVENT_act_done

/-! ### Slot boundaries (R100, R104 to R106) -/

/-- An armed switch is due at a cycle boundary at time `t`. -/
def State.switchDue (s : State) (t : Int) : Bool :=
  match s.fly.armed with
  | none => false
  | some p => if p.predicted then decide ((p.t : Int) ≤ t) else decide ((p.tEff : Int) ≤ t)

/-- A cycle of a CYCLE_REF-bound calendar starts at counter time `u` (R103 to R106): the elastic slot ends, or the slot in
progress is cut short; a connection goes on only where the elastic slot, of
zero length too, carries it (R113); LOCKED or FREERUN by what set the start; the free-run start of the new cycle is armed (R277). -/
def State.refCycleStart (s : State) (u : Int) : State :=
  let n := ephSlots s.cal
  let early := s.fly.started && decide (u < s.elasticStart)
  let old := s.fly.slot
  let free := s.key.ks.refState = 3
  let locked := s.fly.fromEdge
  let s1 := if early then (s.countN 2 0 1 (n - 1 - old)).raise F.EPH_EVENT_early_ref else s
  let s2 := if locked && free then s1.raise F.EPH_EVENT_ref_relock
    else if !locked && !free then s1.raise F.EPH_EVENT_ref_missing else s1
  let last := if !early && s.fly.started then n - 1 else old
  let s2b := if last = old then s2 else s2.cutConnections s.cal old last false
  let s3 := (s2b.allKs fun k => { k with refState := if locked then 2 else 3 }).cutConnections s.cal last 0 early
  let next : Int := u + (if locked then s.cal.le 0x24 4 else s.key.ks.refMeas : Nat)
  let s4 : State := { s3 with fly := { s3.fly with cycleStart := u, armedStart := some next, fromEdge := false,
                                                   started := true } }
  let due := fun (t : State) => t.switchDue u && t.fly.armed.any PendAct.predicted
  if due s4 && s4.fly.armed.any (fun p => bitAt p.sel 0) then s4.switchAt u
  else
    let s5 := (s4.enterSlot 0).cycleTick
    if due s5 then s5.switchAt u else s5

/-- The next slot boundary fires (R100, R101). -/
def State.slotFires (s : State) : State :=
  if !s.ephOn then s
  else
    let n := ephSlots s.cal
    let i := s.fly.slot
    if ephRefBound s.cal then
      match s.fly.armedStart with
      | none => s
      | some u =>
        let nextAt := s.fly.cycleStart + slotStart s.cal (i + 1)
        if !s.fly.started || decide (i + 1 = n) || decide (u ≤ nextAt) then s.refCycleStart u
        else (s.cutConnections s.cal i (i + 1) false).enterSlot (i + 1)
    else if i + 1 < n then (s.cutConnections s.cal i (i + 1) false).enterSlot (i + 1)
    else
      let t := s.fly.cycleStart + ephCycleLen s.cal
      if s.switchDue t && (match s.fly.armed with | some p => bitAt p.sel 0 | none => false) then s.switchAt t
      else
        let s1 := s.cutConnections s.cal i 0 false
        let s2 := (({ s1 with fly := { s1.fly with cycleStart := t } } : State).enterSlot 0).cycleTick
        if s2.switchDue t then s2.switchAt t else s2

/-- The armed switch takes place now (R107): at the boundary it was armed for. Under a TIME-bound calendar that boundary
starts a cycle; under CYCLE_REF it is an actual cycle start, or the instant of the new grid. -/
def State.bankSwitchNow (s : State) : State :=
  match s.fly.armed with
  | none => s
  | some p =>
    if p.predicted then
      if s.ephOn && ephRefBound s.cal then s.refCycleStart (s.fly.armedStart.getD s.timeNs)
      else s.switchAt p.tEff
    else if s.ephOn && !ephRefBound s.cal && !bitAt p.sel 0 then
      let s1 := s.cutConnections s.cal s.fly.slot 0 false
      ((({ s1 with fly := { s1.fly with cycleStart := p.tEff } } : State).enterSlot 0).cycleTick).switchAt p.tEff
    else s.switchAt p.tEff

/-! ### CYCLE_REF_IN (R103, R106) -/

/-- An edge captured at counter time `e` is accepted or ignored (R103). -/
def State.refEdgeAt (s : State) (e : Int) : State :=
  if !s.ephOn || !ephRefBound s.cal || s.key.doubleFault then s
  else match s.key.ks.edges with
    | last :: _ =>
      if e - last < s.cal.le 0x28 4 then s.count 2 0 3
      else accepted s (some (e - last).toNat)
    | [] => accepted s none
where
  accepted (s : State) (meas : Option Nat) : State :=
    let s1 := s.setKs fun k => { k with edges := (e :: k.edges).take 2, refMeas := meas.getD k.refMeas }
    ({ s1 with fly := { s1.fly with armedStart := some (e + s.cal.le 0x20 4), fromEdge := true } } : State).ksLog .cycleRef

/-- CYCLE_REF_IN after an edge. -/
def State.turnRef (s : State) : State := { s with pins := { s.pins with ref := !s.pins.ref } }

/-- An edge at CYCLE_REF_IN: a falling one where the pin was high, a rising one where it was low. The edge that ref_edge selects is
captured (R103, R123, notes/assumptions/72.md); in a switchover gap or replay it waits in the capture FIFO of 4 (R286). -/
def State.refEdge (s : State) : State :=
  let s0 := s.turnRef
  if !(s.getB F.EPH_CTRL_ref_in_en && s.getB F.EPH_CTRL_ref_edge == s.pins.ref) then s0
  else if s.ksBusy then
    if s.inGap ∧ 4 ≤ s.key.edgeFifo.length then s0
    else { s0 with key := { s.key with edgeFifo := s.key.edgeFifo ++ [(s.timeNs : Int)], deferred := s.key.deferred ++ [.edge] } }
  else s0.refEdgeAt s.timeNs

/-- No cycle start by cycle start + ref_max (R106): the cycle starts there and the sequencer runs free. -/
def State.refMissing (s : State) : State :=
  if s.ephOn && ephRefBound s.cal && s.fly.started && decide (s.key.ks.refState = 2) && !s.fly.fromEdge then
    s.refCycleStart (s.fly.cycleStart + s.cal.le 0x24 4)
  else s

/-! ### Steps of the counter (R75, R102, R104, R110) -/

/-- pps_out_offset in units of 2^−40 ns (R89). -/
def State.ppsOffset (s : State) : Int := signed 32 (s.getF F.TRN_PPS_OUT_OFFSET_pps_out_offset) * 2 ^ 40

/-- The second that the counter is in, less pps_out_offset (R89, R90). -/
def State.ppsSecond (s : State) : Int := ((s.trn.time : Int) - s.ppsOffset) / (10 ^ 9 * 2 ^ 40)

/-- The schedule after a step from `old` to `new` ns (R102, R104). -/
def State.stepSchedule (s : State) (old new : Nat) : State :=
  if !s.ephOn then s
  else if ephRefBound s.cal then
    let d : Int := (new : Int) - old
    let s1 : State := { s with fly := { s.fly with cycleStart := s.fly.cycleStart + d,
                                                   armedStart := s.fly.armedStart.map fun u => u + d } }
    s1.allKs fun k => { k with edges := k.edges.map fun e => e + d }
  else
    let c := gridStart s.cal new
    let i := slotAt s.cal ((new : Int) - c).toNat
    let s1 := (s.count 2 0 2).raise F.EPH_EVENT_step_resync
    if i = s.fly.slot then { s1 with fly := { s1.fly with cycleStart := c } }
    else
      let s2 := s1.cutConnections s.cal s.fly.slot i false
      ({ s2 with fly := { s2.fly with cycleStart := c } } : State).enterSlot i

/-- A pending activation after a step from `old` to `new` ns (R110). -/
def State.stepPending (s : State) (old new : Nat) : State :=
  match s.fly.armed with
  | none => s
  | some p =>
    let set := fun (q : PendAct) =>
      ((({ s with fly := { s.fly with armed := some q } } : State).allKs fun k => { k with pend := k.pend.map fun _ => q }).showEff
        q.tEff).setF F.EPH_ACT_STATUS_adjusted 1
    if old < p.tEff ∧ p.tEff ≤ new then
      match s.firstEver p.sel (new + 1) with
      | some (eff, _) => set { p with t := if p.predicted then new else p.t, tEff := eff }
      | none => s
    else s

/-- Range of the counter: 48 bits of seconds, in units of 2^−40 ns (R69). -/
def timeRange : Nat := 2 ^ 48 * 10 ^ 9 * 2 ^ 40

/-- Step the counter by an amount in units of 2^−40 ns (R75). A change of zero is no step. A step that lands exactly on a second gives
no pulse for it (R90, notes/assumptions/78.md); while no Keystone conducts the flywheel and the pending activation follow it at once
(R101, notes/assumptions/79.md). -/
def State.stepTime (s : State) (d : Int) : State :=
  if d = 0 then s
  else
    let old := s.timeNs
    let t := (((s.trn.time : Int) + d) % (timeRange : Nat)).toNat
    let s0 : State := { s with trn := { s.trn with time := t, steps := s.trn.steps + d } }
    let s1 : State := { s0 with trn := { s0.trn with ppsSec := s0.ppsSecond },
                                key := { s0.key with edgeFifo := s0.key.edgeFifo.map fun e => e + (s0.timeNs - old : Int) } }
    ((s1.raise F.TRN_EVENT_stepped).stepSchedule old s1.timeNs).stepPending old s1.timeNs

end Sys2Proof.Machine
end

