-- ==== Sys2Proof/Machine/Counters.lean ====
section
/-! DEFINITION. Counters and dumps (R376 to R387): the counter groups and their capture, snapshots and their pacing, the dump
record, the bandwidth of a window, and the writing of frames and records into the descriptors of a device-produced ring
(R338). -/

namespace Sys2Proof.Machine

/-! ### Counter groups (R377) -/

/-- One group: its instances, counters per instance, and bytes per value. -/
structure Group where
  insts : Nat
  per : Nat
  width : Nat
  deriving DecidableEq, Repr

/-- The groups 0 to 28 in order. -/
def groupTable : List Group := [
  ⟨512, 34, 8⟩, ⟨512, 6, 8⟩, ⟨1, 4, 8⟩, ⟨8, 21, 8⟩, ⟨8, 16, 8⟩, ⟨512, 3, 8⟩, ⟨4176, 10, 8⟩, ⟨16, 2, 8⟩, ⟨1, 7, 8⟩, ⟨8, 1, 8⟩,
  ⟨16, 3, 8⟩, ⟨16384, 2, 8⟩, ⟨8192, 10, 8⟩, ⟨16384, 7, 8⟩, ⟨1, 1, 8⟩, ⟨1, 9, 8⟩, ⟨1, 6, 8⟩, ⟨64, 2, 8⟩, ⟨258, 1, 8⟩, ⟨64, 4, 8⟩,
  ⟨64, 4, 8⟩, ⟨1, 2, 8⟩, ⟨32, 5, 8⟩, ⟨1, 1, 8⟩, ⟨32, 1, 8⟩, ⟨1, 1, 8⟩, ⟨2048, 1, 4⟩, ⟨512, 2, 4⟩, ⟨1, 3, 8⟩]

/-- The instance exists in the running configuration: logical ports that exist, with their queues, and the mirror
sessions, stream entries, recovery functions and policers in use (notes/assumptions/30.md). -/
def State.instExists (s : State) (g i : Nat) : Bool :=
  if g = 0 ∨ g = 1 ∨ g = 5 ∨ g = 27 then s.portExists i
  else if g = 6 then decide (4096 ≤ i) || s.portExists (i / 8)
  else if g = 10 then (s.ash.1.session i).valid
  else if g = 11 then decide ((s.ash.1.stream i).kind ≠ 0)
  else if g = 12 then (s.ash.1.recovery i).valid
  else if g = 13 then decide (i ≠ 0) && decide ((s.ash.1.policer i).mode ≠ 0)
  else true

/-- A counter as it reads: instances that do not exist read zero, group 27 holds the bandwidth of the last window. -/
def State.ctrShown (s : State) (g i c : Nat) : Nat :=
  if !s.instExists g i then 0
  else if g = 27 then SMap.get (fun _ => 0) (ctrKey g i c) s.snap.bw
  else s.ctr (ctrKey g i c)

/-- Capture of a counter by a write of CNT.RD_ADDR (R378). -/
def State.captureCtr (s : State) (v : Nat) : State :=
  let g := bitsOf v 20 5
  let i := bitsOf v 6 14
  let c := bitsOf v 0 6
  let ok := match groupTable[g]? with | none => false | some t => decide (i < t.insts) && decide (c < t.per)
  let x := if ok then s.ctrShown g i c else 0
  (((s.setReg Addr.CNT_RD_VAL_LO (BitVec.ofNat 32 x)).setReg Addr.CNT_RD_VAL_HI (BitVec.ofNat 32 (x / 2 ^ 32))).setF
    F.CNT_RD_STATUS_valid 1).setF F.CNT_RD_STATUS_bad_addr (b2n !ok)

/-- A write of CNT.RD_ADDR. -/
def State.captureAt (s : State) (v : Nat) : State :=
  ({ s with snap := { s.snap with rdAt := some s.now } } : State).captureCtr v

/-! ### Latches (R382, R384, R386) -/

/-- Bandwidth in kbit/s of a change of an octet counter over a window of core cycles, saturating. -/
def bwOf (octets window : Nat) : Nat := min (octets * 8 * 1650000 / window) 0xFFFFFFFF

/-- Bandwidth values of every port that has moved octets since the previous latch. -/
def State.windowBw (s : State) (window : Nat) : SMap Nat :=
  let d := fun k => (s.ctr k + 2 ^ 64 - SMap.get (fun _ => 0) k s.snap.lastCtrs) % 2 ^ 64
  (List.range 512).foldl (fun m p =>
    SMap.set (fun _ => 0) (ctrKey 27 p 1) (bwOf (d (ctrKey 0 p 14)) window)
      (SMap.set (fun _ => 0) (ctrKey 27 p 0) (bwOf (d (ctrKey 0 p 1)) window) m)) []

/-- The octet counters that the next window starts from. -/
def State.octets (s : State) : SMap Nat :=
  s.ctrs.filter fun e => decide (e.1 < 2 ^ 20) && (decide (e.1 % 64 = 1) || decide (e.1 % 64 = 14))

/-- The latch cycle (R382): sequence number, time, window and every counter. A latch of no core cycle after the previous one
keeps the bandwidth of the window that has just ended (notes/assumptions/30.md). In a switchover gap the time is the running counter
with held clear: R83 and R84 hold and mark only a time read, which TRN.TIME_CAPTURE makes (notes/assumptions/68.md). -/
def State.latch (s : State) (periodic command : Bool) : State :=
  let s1 := s.count 28 0 0
  let w := s1.now - s1.snap.lastLatch
  let bw := if w = 0 then s1.snap.bw else s1.windowBw w
  let seq := (s1.getF F.CNT_LAST_SEQ_snap_seq + 1) % 2 ^ 32
  let keep := fun (e : Nat × Nat) => s1.instExists (e.1 / 2 ^ 20) (e.1 / 64 % 2 ^ 14)
  let x : Snapshot :=
    { busy := true, values := (s1.ctrs.filter keep) ++ bw.filter keep, periodic := periodic, command := command, seq := seq,
      time := s1.trn.time, flags := s1.timeFlags false, window := w, lastLatch := s1.now, lastCtrs := s1.octets,
      prevCtrs := s1.snap.lastCtrs, bw := bw,
      ephCycles := s1.ctr (ctrKey 2 0 0), ashId := s1.ash.1.ident, ephId := s1.eph.1.ident,
      mask := s1.getF F.CNT_DUMP_MASK_group_mask, starts := if periodic then 0 else s1.snap.starts, pcSet := s1.snap.pcSet,
      pcLate := s1.snap.pcLate,
      rdAt := s1.snap.rdAt }
  ({ s1 with snap := x } : State).setF F.CNT_LAST_SEQ_snap_seq seq

/-- A latch has been made in this very core cycle, and its record still waits. -/
def State.latchedNow (s : State) : Bool := s.snap.busy && decide (s.snap.lastLatch = s.now)

/-- Events decided in the core cycle of a latch or of a capture are included in it, those that come after it in that core cycle too
(R378, R382). -/
def State.includeEvents (s : State) : State :=
  let s1 := if s.latchedNow then
      let keep := fun (e : Nat × Nat) => s.instExists (e.1 / 2 ^ 20) (e.1 / 64 % 2 ^ 14)
      let old : State := { s with snap := { s.snap with lastCtrs := s.snap.prevCtrs } }
      let bw := if s.snap.window = 0 then s.snap.bw else old.windowBw s.snap.window
      { s with snap := { s.snap with values := (s.ctrs.filter keep) ++ bw.filter keep, lastCtrs := s.octets, bw := bw,
                                        ephCycles := s.ctr (ctrKey 2 0 0), ashId := s.ash.1.ident, ephId := s.eph.1.ident } }
    else s
  if s1.snap.rdAt = some s1.now then s1.captureCtr (s1.reg Addr.CNT_RD_ADDR).toNat else s1

/-- A periodic latch is due (R384): under EPHEMERIS each N_eff-th cycle start, under INTERVAL the instant given. -/
def State.periodicDue (s : State) : Bool :=
  let m := s.getF F.CNT_CTRL_dump_mode
  s.domainOn 37 && decide (s.dev ≠ .parking) && decide (s.dev ≠ .off)
    && (decide (m = 2) || (decide (m = 1) && s.ephOn && decide (s.nEff ≤ s.snap.starts)))

/-- A periodic trigger (R383). -/
def State.periodicAt (s : State) : State :=
  if !s.periodicDue then s
  else if s.latchedNow && !s.snap.periodic then { s with snap := { s.snap with periodic := true, starts := 0 } }
  else if s.snap.busy then
    (({ s with snap := { s.snap with starts := 0 } } : State).count 28 0 2).raise F.CNT_EVENT_dump_overrun
  else s.latch true false

/-! ### Filling descriptors (R337, R338) -/

/-- What the descriptors of one frame or record say: timestamp and length word of the first, port word, mirror bit. -/
structure RxInfo where
  ts : List Byte
  frameLen : Nat
  port : Nat
  mirror : Bool
  deriving DecidableEq, Repr

/-- Buffer length of a ring. -/
def State.bufLen (s : State) (r : Nat) : Nat := 64 * s.getF (F.HIF_RING_CFG2_buf_units r)

/-- Descriptors that `len` bytes take. -/
def State.rxCount (s : State) (r len : Nat) : Nat := ceilDiv len (s.bufLen r)

/-- The bytes that go into buffer `i`. -/
def State.rxPart (s : State) (r : Nat) (b : Blob) (i : Nat) : Blob :=
  b.slice (s.bufLen r * i) (min (s.bufLen r) (b.len - s.bufLen r * i))

/-- Bytes 8 to 30 of descriptor `i` of `n`. -/
def State.rxDesc (s : State) (r n : Nat) (x : RxInfo) (b : Blob) (i : Nat) : List Byte :=
  (if i = 0 then x.ts else List.replicate 16 0) ++ leBytes 2 (s.rxPart r b i).len ++ leBytes 2 (if i = 0 then x.frameLen else 0)
    ++ leBytes 2 x.port ++ [BitVec.ofNat 8 (b2n (decide (i = 0)) + 2 * b2n (decide (i + 1 = n)) + 4 * b2n x.mirror)]

/-- Write the buffers of `n` entries, then bytes 8 to 30 of every descriptor, then own of descriptors 2 to `n` in order, and own of
the first last (R338). -/
def State.rxWrite (s : State) (r n : Nat) (x : RxInfo) (b : Blob) : State :=
  let l := List.range n
  let s1 := s.each l fun t i => t.hostPutBlob (leNat (s.hostRead (s.ringAddr r i) 8)) (s.rxPart r b i)
  let s2 := s1.each l fun t i => t.hostWrite (t.ringAddr r i + 8) (s.rxDesc r n x b i)
  s2.each (l.drop 1 ++ l.take 1) fun t i => t.hostPut (t.ringAddr r i + 31) 0

/-- Deliver bytes into a ring that runs and has descriptors enough: whether it did. -/
def State.rxDeliver (s : State) (r : Nat) (x : RxInfo) (b : Blob) : Bool × State :=
  let n := s.rxCount r b.len
  if s.ringRuns r && decide (s.ringAvail r n = n) && decide (n ≤ s.ringSize r) then
    (true, ((s.rxWrite r n x b).ringAdvance r n).ringPass r n)
  else (false, s)

/-! ### The dump record (R385) -/

/-- One section of the record. -/
def Snapshot.section_ (x : Snapshot) (g : Nat) (t : Group) : Blob :=
  let h := leBytes 2 g ++ [BitVec.ofNat 8 t.width, 0] ++ leBytes 4 t.insts ++ leBytes 2 t.per ++ [0, 0]
    ++ leBytes 4 (t.insts * t.per * t.width)
  let vals := (x.values.filter fun e => decide (e.1 / 2 ^ 20 = g)).flatMap fun e =>
    ((leBytes t.width e.2).zipIdx.filter fun b => decide (b.1 ≠ 0)).map fun b =>
      ((e.1 / 64 % 2 ^ 14 * t.per + e.1 % 64) * t.width + b.2, b.1)
  (Blob.ofList h).append ⟨t.insts * t.per * t.width, vals⟩

/-- The record of a snapshot. -/
def Snapshot.record (x : Snapshot) : Blob :=
  let body := ((groupTable.zipIdx.filter fun e => bitAt x.mask e.2).map fun e => x.section_ e.2 e.1).foldl Blob.append ⟨0, []⟩
  let len := ceilDiv (64 + body.len) 64 * 64
  let h := leBytes 4 0x504D5544 ++ leBytes 4 len ++ leBytes 4 x.seq ++ [BitVec.ofNat 8 (b2n x.periodic + 2 * b2n x.command), 0, 0, 0]
    ++ tsBytes x.time x.flags ++ leBytes 8 x.window ++ leBytes 4 x.mask ++ leBytes 4 x.ephCycles ++ leBytes 8 x.ashId
    ++ leBytes 8 x.ephId
  { (Blob.ofList h).append body with len := len }

/-- The record of the snapshot store is written to the counter-dump ring, or skipped (R383). -/
def State.dumpWrite (s : State) : State :=
  if !s.snap.busy then s
  else
    let s0 := s.includeEvents
    let x := s0.snap
    let b := x.record
    let (ok, s1) := s0.rxDeliver 0x101 ⟨tsBytes x.time x.flags, b.len / 64, 0, false⟩ b
    let s2 : State := { s1 with snap := { s1.snap with busy := false, values := [] } }
    let s3 := if ok then (s2.count 28 0 1).raise F.CNT_EVENT_dump_written
      else (s2.count 21 0 1).raise F.CNT_EVENT_dump_skipped
    s3.completeWaiting (fun w => decide (w = .snapshot)) (if ok then 0 else 0x0B) (secOf x.time) (nsOf x.time)

/-- Busy check of COUNTER_SNAPSHOT (R383). -/
def State.snapshotBusy (s : State) : Nat := if s.snap.busy && !(s.latchedNow && !s.snap.command) then 0x07 else 0

/-- COUNTER_SNAPSHOT: a latch, or the command bit of a periodic latch of this core cycle. -/
def State.snapshotBody (s : State) : CmdRes × State :=
  (.wait .snapshot, if s.snap.busy then { s with snap := { s.snap with command := true } } else s.latch false true)

/-! ### Writes of the CNT block (R378, R380, R384) -/

/-- Counter `k` has been configured: what its register held stands to the end of the core cycle (R380). -/
def State.pcConfigured (s : State) (k : Nat) (w : Word) : State :=
  if (SMap.get (fun _ => none) k s.pcLate).isSome then s
  else { s with snap := { s.snap with pcLate := (s.now, SMap.set (fun _ => none) k (some w) s.pcLate) } }

/-- Counter `k` has been given a value (R380). -/
def State.pcValued (s : State) (k : Nat) (v : Word) : State :=
  let set := if s.snap.pcSet.1 = s.now then s.snap.pcSet.2 else []
  let s1 : State := { s with snap := { s.snap with pcSet := (s.now, k :: set) } }
  (s1.setCtr (ctrKey 26 k 0) v.toNat).setFBit (F.CNT_PC_OVF_ovf (k / 32)) (k % 32) false

/-- What follows from a write to a CNT register. -/
def State.cntAfter (s : State) (a : Nat) (v : Word) (old : State) : State :=
  if a = Addr.CNT_CTRL ∨ a = Addr.CNT_DUMP_EVERY_N ∨ a = Addr.CNT_DUMP_INTERVAL then { s with snap := { s.snap with starts := 0 } }
  else if a = Addr.CNT_RD_ADDR then s.captureAt (s.reg a).toNat
  else if 0x94000 ≤ a ∧ a < 0x98000 then
    let k := (a - 0x94000) / 8
    if a % 8 = 4 then s.pcValued k v else s.pcConfigured k (old.reg a)
  else s

end Sys2Proof.Machine
end

