-- ==== Sys2Proof/Machine/Dma.lean ====
section
/-! DEFINITION. The DMA engine (R345 to R360): channels and their states, descriptors and their checks, read requests, write
beats and answers, leave for large runs, priority. -/

namespace Sys2Proof.Machine

/-! ### Rings of the channels (R345, R346) -/

/-- State code of channel `c` (DMA.CH_STATUS). -/
def State.chState (s : State) (c : Nat) : Nat := s.getF (F.DMA_CH_STATUS_state c)

/-- Number of descriptors of the channel's ring. -/
def State.chSize (s : State) (c : Nat) : Nat := 2 ^ s.getF (F.DMA_CH_CFG_log2_size c)

/-- Index of the descriptor `i` places after head. -/
def State.chIndex (s : State) (c i : Nat) : Nat := (s.getF (F.DMA_CH_HEAD_head c) + i) % (2 * s.chSize c)

/-- Host address of the descriptor with an index. -/
def State.chAddr (s : State) (c ix : Nat) : Nat :=
  (s.reg (Addr.DMA_CH_BASE_LO c)).toNat + (s.reg (Addr.DMA_CH_BASE_HI c)).toNat * 2 ^ 32 + ix % s.chSize c * 32

/-- Descriptors between head and the last doorbell index. -/
def State.chSpan (s : State) (c : Nat) : Nat :=
  (s.getF (F.DMA_CH_TAIL_tail c) + 2 * s.chSize c - s.getF (F.DMA_CH_HEAD_head c)) % (2 * s.chSize c)

/-- Signal the channel's vector. -/
def State.chSignal (s : State) (c : Nat) : State :=
  s.msix (s.getF (F.DMA_CH_CFG_owner_fn c)) (s.getF (F.DMA_CH_CFG_msix_vector c))

/-! ### Halt, disable, boundaries (R357, R358) -/

/-- Cause code of a status (DMA.CH_STATUS). -/
def haltCause (status : Nat) : Nat :=
  if status = 0x09 then 1 else if status = 0x02 then 2 else if status = 0x0E then 3 else if status = 0x0A then 4 else 5

/-- Record a halt or a refused enable in DMA.HALT_INFO. -/
def State.haltInfo (s : State) (c cause : Nat) : State :=
  (s.setF F.DMA_HALT_INFO_channel c).setF F.DMA_HALT_INFO_cause cause

/-- The key under which the arbiter knows a large run: its channel and descriptor. -/
def dmaKey (c ix : Nat) : Nat := c + 32 * ix

/-- A request of the channel that still waits for leave is withdrawn. -/
def State.dropWaiting (s : State) (c : Nat) : State :=
  match (s.ch c).waiting with
  | none => s
  | some d =>
    let s1 := s.setKs fun k => { k with queue := k.queue.filter fun g => !(decide (g.requester = 5) && decide (g.key = dmaKey c d.index)) }
    let mine := fun (x : Deferred) => match x with | .leave g => g.requester = 5 && g.key = dmaKey c d.index | _ => false
    { s1.setCh c { s1.ch c with waiting := none } with
      key := { s1.key with deferred := s1.key.deferred.filter fun x => !mine x } }

/-- What the channel has started is abandoned: nothing of it is written back, and its leave is given back. -/
def State.chAbandon (s : State) (c : Nat) : State :=
  let s1 := s.dropWaiting c
  let s2 := s1.each (s1.ch c).active fun t d => if d.leave then t.returnGrant 5 (dmaKey c d.index) else t
  s2.setCh c { s2.ch c with active := [], reads := [], staged := [], stagedB := [] }

/-- The channel halts (R357). A halt in the middle of a descriptor, by a doorbell out of range, leaves it device-owned
(notes/assumptions/31.md). -/
def State.chHalt (s : State) (c cause : Nat) : State :=
  let s1 := (((s.chAbandon c).setF (F.DMA_CH_STATUS_state c) 5).setF (F.DMA_CH_STATUS_cause c) cause).haltInfo c cause
  let s2 := s1.setCh c { s1.ch c with haltAfter := none, ended := true }
  (((s2.count 22 c 2).raise F.DMA_EVENT_ch_halted).raiseIf (decide (cause = 4)) F.DMA_EVENT_last_beat_error).chSignal c

/-- The channel becomes DISABLED: what it still has outstanding is discarded, leave and cells are given back (R347, R358). -/
def State.chOff (s : State) (c : Nat) : State :=
  let s2 := s.chAbandon c
  let x := s2.ch c
  let s3 := (s2.each x.cells fun t a => t.releaseCell 10 0x11 a).poolMove 15 (-(x.cells.length : Int)) 0
  (((s3.setCh c .init).setF (F.DMA_CH_STATUS_state c) 0).setF (F.DMA_CH_STATUS_cause c) 0).setF (F.DMA_CH_CFG_enable c) 0

/-- A descriptor boundary of the channel: nothing started is left. -/
def State.chBoundary (s : State) (c : Nat) : State :=
  let x := s.ch c
  if !x.active.isEmpty then s
  else if x.disabling then s.chOff c
  else match x.haltAfter with
    | some cause => s.chHalt c cause
    | none => if s.chState c = 2 && decide (s.chSpan c = 0) then s.setF (F.DMA_CH_STATUS_state c) 1 else s

/-- A descriptor has nothing left to do (R351, R352). -/
def DmaCh.done (x : DmaCh) (d : DmaDesc) : Bool :=
  let waits := x.reads.any fun r => decide (r.index = d.index)
  if d.err.isSome then !waits
  else if d.op = 3 then !waits && (decide (d.count = 0) || d.mismatch.isSome)
  else decide (d.written = d.length)

/-- Write a descriptor back (R345, R349), in ring order. -/
def State.writeBack (s : State) (c : Nat) (d : DmaDesc) : State :=
  let a := s.chAddr c d.index
  let (st, res) := match d.err, d.mismatch with
    | some (e, o), _ => (e, if e = 0x0E ∨ e = 0x0A then o else 0)
    | none, some o => (0, o)
    | none, none => (0, 0)
  let mm := b2n (d.err.isNone && d.mismatch.isSome)
  let s1 := s.hostWrite (a + 22) ([BitVec.ofNat 8 st, BitVec.ofNat 8 mm] ++ leBytes 4 res ++ [0, 0, 0, 0])
  let s2 := (s1.setF (F.DMA_CH_HEAD_head c) (s1.chIndex c 1)).count 22 c 0
  let s3 := if st = 0 then s2.countN 22 c 1 d.length else s2
  let s4 := if d.leave then s3.returnGrant 5 (dmaKey c d.index) else s3
  let s5 := if d.irq then s4.chSignal c else s4
  let x := s5.ch c
  let keep := fun (e : Nat × Nat × List Byte) => decide (e.1 ≠ d.index)
  s5.setCh c { x with active := x.active.drop 1, staged := x.staged.filter keep, stagedB := x.stagedB.filter keep, ended := true }

/-- Write back every leading descriptor that is done, then look at the boundary. -/
def State.chSettle (s : State) (c : Nat) : Nat → State
  | 0 => s
  | n + 1 =>
    match (s.ch c).active with
    | d :: _ => if (s.ch c).done d then (s.writeBack c d).chSettle c n else s
    | [] => s.chBoundary c

/-! ### Enable, disable, restart (R347, R357, R358) -/

/-- The engine runs in the present device state. -/
def State.dmaRuns (s : State) : Bool :=
  decide (s.dev = .config) || decide (s.dev = .ready) || decide (s.dev = .degraded) || decide (s.dev = .safeHold)

/-- enable has been written 1 to a DISABLED channel: its staging cells are asked for. A refused enable leaves the channel
DISABLED with its enable bit 0 (notes/assumptions/31.md). -/
def State.chEnable (s : State) (c : Nat) : State :=
  if s.poolGrants 15 16 && s.quotaLeft false 15 16 then
    let (l, s1) := s.drawCells false ⟨0, false, 0, 1, 10, 15, false, 0⟩ 16
    let s2 := (s1.poolMove 15 16 0).setCh c { DmaCh.init with cells := l }
    ((s2.setReg (Addr.DMA_CH_HEAD c) 0).setReg (Addr.DMA_CH_TAIL c) 0).setReg (Addr.DMA_CH_STATUS c) 1
  else
    (((s.poolFail 15).setF (F.DMA_CH_CFG_enable c) 0).haltInfo c 8).raise F.DMA_EVENT_cells_refused

/-- enable has been written 0, or the device parks: the channel stops at its next descriptor boundary. -/
def State.chDisable (s : State) (c : Nat) : State :=
  if s.chState c = 0 then s
  else (s.setCh c { s.ch c with disabling := true }).chSettle c 8

/-- restart has been written 1. -/
def State.chRestart (s : State) (c : Nat) : State :=
  if s.chState c = 5 then
    (s.setCh c { s.ch c with disabling := false, haltAfter := none }).setReg (Addr.DMA_CH_STATUS c) 1
  else s

/-- A doorbell index for channel `c` from its owner (R346): in range it is accepted and wakes the channel, out of range it
halts the channel; one that is being disabled has then nothing in progress and becomes DISABLED (R357). -/
def State.chBell (s : State) (c idx : Nat) : State :=
  let n := 2 * s.chSize c
  let span := (idx % n + n - s.getF (F.DMA_CH_HEAD_head c)) % n
  let st := s.chState c
  if st = 0 then s
  else if s.chSize c < span ∨ span < s.chSpan c then (if st = 5 then s else (s.chHalt c 6).doIf (s.ch c).disabling fun t => t.chOff c)
  else
    let s1 := s.setF (F.DMA_CH_TAIL_tail c) (idx % n)
    if st = 4 ∨ (st = 1 ∧ span ≠ 0) then s1.setF (F.DMA_CH_STATUS_state c) 2 else s1

/-! ### Descriptors (R349, R350, R354) -/

/-- A descriptor as read from its 32 bytes: the operands, its own bit, its fence, and whether its reserved fields are 0. -/
structure DmaRaw where
  desc : DmaDesc
  own : Bool
  fence : Bool
  clean : Bool
  deriving DecidableEq, Repr

/-- Read a descriptor. -/
def dmaRaw (ix : Nat) (l : List Byte) : DmaRaw :=
  let f := fun b n => leNat ((l.drop b).take n)
  let op := f 20 1
  { desc := { index := ix, src := f 0 8, dst := f 8 8, length := f 16 4, op := op % 4, irq := bitAt op 3, count := f 16 4,
              written := 0, err := none, mismatch := none, leave := false }
    own := bitAt (f 31 1) 7
    fence := bitAt op 2
    clean := decide (op < 16) && decide (f 21 1 = 0) && decide (f 23 1 < 2) && decide (f 28 3 = 0) && decide (f 31 1 % 128 = 0) }

/-- Status of checks 1 to 3 of R350, 0 when they pass. -/
def DmaRaw.check (r : DmaRaw) : Nat :=
  let d := r.desc
  if !r.clean ∨ d.op = 0 then 0x02
  else if (d.op ≠ 2 ∧ d.src % 64 ≠ 0) ∨ d.dst % 64 ≠ 0 ∨ d.length % 64 ≠ 0 then 0x09
  else if d.length = 0 ∨ (d.op = 1 ∧ d.src < d.dst + d.length ∧ d.dst < d.src + d.length) then 0x02
  else 0

/-- A descriptor starts. -/
def State.chStart (s : State) (c : Nat) (d : DmaDesc) : State :=
  (s.setCh c { s.ch c with active := (s.ch c).active ++ [d], waiting := none }).setF (F.DMA_CH_STATUS_state c) 2

/-- A descriptor fails before it moves a byte: it is written back in its turn, and the channel halts. -/
def State.chFail (s : State) (c : Nat) (d : DmaDesc) (status : Nat) : State :=
  let x := s.ch c
  (s.setCh c { x with active := x.active ++ [{ d with err := some (status, 0), count := 0 }], waiting := none,
                      haltAfter := some (x.haltAfter.getD (haltCause status)) }).chSettle c 8

/-- Leave for a large run has been granted. A channel that stops at its descriptor boundary starts nothing. -/
def State.dmaGranted (s : State) (key : Nat) : State :=
  let c := key % 32
  let x := s.ch c
  match x.waiting with
  | some d => if decide (dmaKey c d.index = key) && !x.disabling && x.haltAfter.isNone then s.chStart c { d with leave := true }
    else s.returnGrant 5 key
  | none => s.returnGrant 5 key

/-- Leave for a large run has been refused. -/
def State.dmaRefused (s : State) (key : Nat) : State :=
  let c := key % 32
  match (s.ch c).waiting with
  | some d => if dmaKey c d.index = key then (s.raise F.DMA_EVENT_leave_refused).chFail c d 0x06 else s
  | none => s

/-- The next descriptor of a channel is read and checked, and its run starts (R346, R350, R351, R354), once the count of the one
before it is zero, and with fence once every beat of that one has been answered. -/
def State.dmaDescriptor (s : State) (c : Nat) (readErr : Bool) : State :=
  let x := s.ch c
  let n := x.active.length
  let st := s.chState c
  if !s.dmaRuns || !s.domainOn 34 || decide (32 ≤ c) || (decide (st ≠ 1) && decide (st ≠ 2)) || x.disabling || x.haltAfter.isSome
      || x.waiting.isSome || decide (4 ≤ n) || decide (s.chSpan c ≤ n) then s
  else if readErr then (s.setCh c { x with haltAfter := some 7 }).chSettle c 8
  else
    let ix := s.chIndex c n
    let r := dmaRaw ix (s.hostRead (s.chAddr c ix) 32)
    if !r.own then (((s.setF (F.DMA_CH_STATUS_state c) 4).count 22 c 3).raise F.DMA_EVENT_own_stall)
    else if (x.active.any fun d => decide (d.count ≠ 0)) || (r.fence && !x.reads.isEmpty) then s
    else
      match r.check with
      | 0 =>
        if r.desc.length < s.getF F.DMA_LEAVE_THRESHOLD_leave_threshold then s.chStart c r.desc
        else
          let s1 := s.setCh c { x with waiting := some r.desc }
          (match s1.askLeave ⟨5, dmaKey c ix, s1.getF F.DMA_LEAVE_COST_leave_cost⟩ with
            | (.granted, s2) => s2.dmaGranted (dmaKey c ix)
            | (.queued, s2) => s2.setF (F.DMA_CH_STATUS_state c) 3
            | (.refused _, s2) => s2.dmaRefused (dmaKey c ix))
      | status => s.chFail c r.desc status

/-! ### Beats (R351, R355, R356) -/

/-- Free staging slots of a channel. -/
def DmaCh.freeSlots (x : DmaCh) : Nat :=
  64 - ((x.reads.map DmaRead.beats).sum + x.staged.length + x.stagedB.length)

/-- Size of the next read request of a descriptor (R351). A COMPARE reads both operands over the same bytes, half the staging
buffer at most (notes/assumptions/32.md). -/
def DmaDesc.request (d : DmaDesc) : Nat :=
  let off := d.length - d.count
  let room := fun (a : Nat) => 4096 - (a + off) % 4096
  if d.op = 3 then min (min 2048 d.count) (min (room d.src) (room d.dst)) else min (min 4096 d.count) (room d.src)

/-- The descriptor can issue a read request now. -/
def DmaCh.canRead (x : DmaCh) (d : DmaDesc) : Bool :=
  d.err.isNone && d.mismatch.isNone && decide (d.op ≠ 2) && decide (d.count ≠ 0)
    && decide ((if d.op = 3 then 2 else 1) * (d.request / 64) ≤ x.freeSlots)

/-- The descriptor can issue a write beat now. -/
def DmaCh.canWrite (x : DmaCh) (d : DmaDesc) : Bool :=
  d.err.isNone && ((decide (d.op = 2) && decide (d.count ≠ 0))
    || (decide (d.op = 1) && x.staged.any fun e => decide (e.1 = d.index) && decide (e.2.1 = d.written)))

/-- A channel has a beat to issue. -/
def DmaCh.ready (x : DmaCh) : Bool := x.active.any fun d => x.canRead d || x.canWrite d

/-- Replace a started descriptor. -/
def DmaCh.update (x : DmaCh) (d : DmaDesc) : DmaCh :=
  { x with active := x.active.map fun e => if e.index = d.index then d else e }

/-- Issue one write beat: the next staged beat of a COPY, or the next beat of a FILL. -/
def State.issueWrite (s : State) (c : Nat) (d : DmaDesc) : State :=
  let x := s.ch c
  if d.op = 2 then
    let p := leBytes 8 d.src
    let s1 := s.hostWrite (d.dst + d.written) (p ++ p ++ p ++ p ++ p ++ p ++ p ++ p)
    s1.setCh c (x.update { d with written := d.written + 64, count := d.count - 64 })
  else
    match x.staged.find? fun e => decide (e.1 = d.index) && decide (e.2.1 = d.written) with
    | none => s
    | some e =>
      let s1 := s.hostWrite (d.dst + d.written) e.2.2
      s1.setCh c ({ x with staged := x.staged.filter fun y => decide (y ≠ e) }.update { d with written := d.written + 64 })

/-- Issue one read request, or the pair of a COMPARE. -/
def State.issueRead (s : State) (c : Nat) (d : DmaDesc) : State :=
  let x := s.ch c
  let n := d.request
  let off := d.length - d.count
  let l : List DmaRead := if d.op = 3 then [⟨d.index, false, off, n / 64⟩, ⟨d.index, true, off, n / 64⟩]
    else [⟨d.index, false, off, n / 64⟩]
  s.setCh c ({ x with reads := x.reads ++ l }.update { d with count := d.count - n })

/-- The channel served at this beat boundary (R355): of the highest ready priority the channel served last, while it is ready and
inside a descriptor, otherwise the next ready one of that priority after it. -/
def State.dmaPick (s : State) : Option Nat :=
  let ready := (List.range 32).filter fun c => (s.ch c).ready
  let top := (ready.map fun c => s.getF (F.DMA_CH_CFG_prio c)).foldl max 0
  let l := ready.filter fun c => decide (s.getF (F.DMA_CH_CFG_prio c) = top)
  let cur := SMap.get (fun _ => 31) top s.dmaServed.2
  if cur ∈ l ∧ !(s.ch cur).ended then some cur
  else match l.find? fun c => decide (cur < c) with
    | some c => some c
    | none => l.head?

/-- One beat of the engine: the served channel issues a write beat if it has one, otherwise a read request; a channel that
loses the engine to a higher priority has been pre-empted (R355, R356). -/
def State.dmaIssue (s : State) : State :=
  if !s.domainOn 34 then s
  else match s.dmaPick with
    | none => s
    | some c =>
      let cur := s.dmaServed.1
      let lost := decide (cur ≠ c) && (s.ch cur).ready && !(s.ch cur).ended
        && decide (s.getF (F.DMA_CH_CFG_prio cur) < s.getF (F.DMA_CH_CFG_prio c))
      let s1 := if lost then s.count 22 cur 4 else s
      let s2 : State := { s1.setCh c { s1.ch c with ended := false } with
        dmaServed := (c, SMap.set (fun _ => 31) (s1.getF (F.DMA_CH_CFG_prio c)) c s1.dmaServed.2) }
      let x := s2.ch c
      match x.active.find? fun d => x.canWrite d with
      | some d => (s2.issueWrite c d).chSettle c 8
      | none => match x.active.find? fun d => x.canRead d with
        | some d => s2.issueRead c d
        | none => s2

/-! ### Answers (R352, R353) -/

/-- Split bytes into beats of 64 with their offsets. -/
def beatsOf (ix off : Nat) (l : List Byte) : Nat → List (Nat × Nat × List Byte)
  | 0 => []
  | n + 1 => (ix, off, l.take 64) :: beatsOf ix (off + 64) (l.drop 64) n

/-- First offset at which two beats differ. -/
def firstDiff (a b : List Byte) (off : Nat) : Option Nat := ((a.zip b).zipIdx.find? fun e => decide (e.1.1 ≠ e.1.2)).map fun e => off + e.2

/-- Compare the beats of a descriptor of which both operands have arrived, and free their slots. -/
def DmaCh.compare (x : DmaCh) (d : DmaDesc) : DmaCh :=
  let both := x.staged.filter fun e => decide (e.1 = d.index) && x.stagedB.any fun f => decide (f.1 = e.1) && decide (f.2.1 = e.2.1)
  let diff := both.findSome? fun e => match x.stagedB.find? fun f => decide (f.1 = e.1) && decide (f.2.1 = e.2.1) with
    | some f => firstDiff e.2.2 f.2.2 e.2.1
    | none => none
  let gone := fun (e : Nat × Nat × List Byte) => both.any fun b => decide (b.1 = e.1) && decide (b.2.1 = e.2.1)
  { x with staged := x.staged.filter fun e => !gone e, stagedB := x.stagedB.filter fun e => !gone e }.update
    { d with mismatch := match d.mismatch with | some o => some o | none => diff }

/-- The first `n` beats of a read request, as host memory holds them. -/
def State.beatData (s : State) (d : DmaDesc) (r : DmaRead) (n : Nat) : List (Nat × Nat × List Byte) :=
  beatsOf r.index r.off (s.hostRead ((if r.second then d.dst else d.src) + r.off) (64 * n)) n

/-- Beats of a read request of descriptor `d` have been answered without error: they are staged, and those of a COMPARE compared. -/
def DmaCh.answered (x : DmaCh) (d : DmaDesc) (r : DmaRead) (l : List (Nat × Nat × List Byte)) : DmaCh :=
  let z := if r.second then { x with stagedB := x.stagedB ++ l } else { x with staged := x.staged ++ l }
  if d.op = 3 then z.compare d else z

/-- The oldest staged beat of a channel is fetched again from its source: its slot waits for the answer (R353). -/
def DmaCh.refetch (x : DmaCh) : DmaCh :=
  match x.staged, x.stagedB with
  | e :: l, _ => { x with staged := l, reads := x.reads ++ [⟨e.1, false, e.2.1, 1⟩] }
  | [], e :: l => { x with stagedB := l, reads := x.reads ++ [⟨e.1, true, e.2.1, 1⟩] }
  | [], [] => x

/-- An uncorrectable error in a staging cell of channel `c` (R353): a staged beat is fetched again, one of a FILL is generated again
when it is issued. -/
def State.stagingError (s : State) (c : Nat) : State :=
  if (s.ch c).cells.isEmpty then s
  else (((s.setCh c (s.ch c).refetch).count 23 0 0).raise F.DMA_EVENT_staging_ecc).react 0x01 0 c 0

/-- The cause of the halt that follows an error of a beat: that of the first error, which comes before any other cause (R352). -/
def DmaCh.errorCause (x : DmaCh) (st : Nat) : Nat :=
  match x.haltAfter with
  | some k => if k = 3 ∨ k = 4 then k else haltCause st
  | none => haltCause st

/-- The answer to the oldest unanswered read request of a channel, or an error in its staging cells. An error of a beat ends the
descriptor, unless a COMPARE has found its difference in a beat below (R352). -/
def State.dmaAnswer (s : State) (c : Nat) (a : BeatAnswer) : State :=
  let x := s.ch c
  match x.reads with
  | [] => if a = .stagingEcc then s.stagingError c else s
  | r :: rest =>
    match a with
    | .stagingEcc => s.stagingError c
    | .data =>
      let y := { x with reads := rest }
      (match x.active.find? fun (d : DmaDesc) => decide (d.index = r.index) with
        | none => s.setCh c y
        | some d =>
          if d.err.isSome ∨ d.mismatch.isSome then s.setCh c y
          else
            s.setCh c (y.answered d r (s.beatData d r r.beats))).chSettle c 8
    | .error b =>
      let y := { x with reads := rest }
      (match x.active.find? fun (d : DmaDesc) => decide (d.index = r.index) with
        | none => s.setCh c y
        | some d =>
          if d.err.isSome ∨ d.mismatch.isSome then s.setCh c y
          else if ((y.answered d r (s.beatData d r (b % r.beats))).active.any fun e => decide (e.index = d.index) && e.mismatch.isSome) then
            s.setCh c (y.answered d r (s.beatData d r (b % r.beats)))
          else
            let st := if d.count = 0 then 0x0A else 0x0E
            let keep := fun (e : Nat × Nat × List Byte) => decide (e.1 ≠ d.index)
            let z : DmaCh := { y with staged := y.staged.filter keep, stagedB := y.stagedB.filter keep,
                                      haltAfter := some (y.errorCause st) }
            s.setCh c (z.update { d with err := some (st, r.off + 64 * (b % r.beats)) })).chSettle c 8

/-! ### Writes of the DMA block (R347, R357, R360) -/

/-- Bits of a DMA register that a write may change now (R360). A channel that still stops is not enabled again
(notes/assumptions/31.md). -/
def State.dmaAllow (s : State) (m a : Nat) (v : Word) : Word :=
  if a = Addr.DMA_LEAVE_THRESHOLD then (if v.toNat % 64 = 0 ∧ v.toNat ≠ 0 then 0xFFFFFFFF else 0)
  else match channelAt a with
    | none => 0xFFFFFFFF
    | some c =>
      let en := s.getB (F.DMA_CH_CFG_enable c)
      if a = Addr.DMA_CH_BASE_LO c ∨ a = Addr.DMA_CH_BASE_HI c then (if en then 0 else 0xFFFFFFFF)
      else if a = Addr.DMA_CH_CFG c then
        let own := if m = 0 then 0x3C0 else 0
        let enBit := if s.dmaRuns && decide (s.chState c = 0) then 0x20 else 0
        if en then 0x20 else BitVec.ofNat 32 (0x3FC1F ||| own ||| enBit)
      else 0xFFFFFFFF

/-- What follows from a write to a DMA register. -/
def State.dmaAfter (s : State) (a : Nat) (v : Word) (old : State) : State :=
  match channelAt a with
  | none => s
  | some c =>
    if a = Addr.DMA_CH_CFG c then
      let en := s.getB (F.DMA_CH_CFG_enable c)
      if en && !old.getB (F.DMA_CH_CFG_enable c) then s.chEnable c
      else if !en && old.getB (F.DMA_CH_CFG_enable c) then s.chDisable c
      else s
    else if a = Addr.DMA_CH_CTRL c then (if fldOf v 0 1 = 1 then s.chRestart c else s)
    else s

end Sys2Proof.Machine
end

