-- ==== Sys2Proof/Machine/Images.lean ====
section
/-! DEFINITION. The Ashlar image as an object: its header and section layout (R141, R142), the content check of R145 with the
limits of R146 and the checks of R187, R244 and R271, and the fields the pipelines read. -/

namespace Sys2Proof.Machine

/-! ### Header fields (R141) -/

/-- A one-byte field of the header. -/
def AshBank.h1 (b : AshBank) (o : Nat) : Nat := b.hdr.le o 1

/-- Format version. -/
def AshBank.fmt (b : AshBank) : Nat := b.hdr.le 4 2

/-- Width of the L2 class, the L3 class and the classification index. -/
def AshBank.w2 (b : AshBank) : Nat := b.h1 0x1A

/-- Width of the L3 class. -/
def AshBank.w3 (b : AshBank) : Nat := b.h1 0x1B

/-- Width of the classification index. -/
def AshBank.wc (b : AshBank) : Nat := b.h1 0x1C

/-- Number of extractors. -/
def AshBank.extractors (b : AshBank) : Nat := b.h1 0x1D

/-- Number of action records. -/
def AshBank.records (b : AshBank) : Nat := b.hdr.le 0x20 4

/-- Span of an L2 family. -/
def AshBank.l2Span (b : AshBank) : Nat := b.hdr.le 0x24 2

/-- Span of an L3 family. -/
def AshBank.l3Span (b : AshBank) : Nat := b.hdr.le 0x28 4

/-- Number of router MACs. -/
def AshBank.routerMacs (b : AshBank) : Nat := b.h1 0x34

/-- Number of edit profiles. -/
def AshBank.editProfiles (b : AshBank) : Nat := b.hdr.le 0x36 2

/-! ### Entries the pipelines read -/

/-- Span of a resolution entry's ref_mode (R136). -/
def AshBank.span (b : AshBank) (mode : Nat) : Nat :=
  if mode = 0 then 1 else if mode = 1 then b.l2Span else if mode = 2 then b.l3Span else 4096

/-- Resolution entry `i` as its word. -/
def AshBank.resolution (b : AshBank) (i : Nat) : Nat := (b.sec 5).le (4 * i) 4

/-- An action record (R137). -/
structure Act where
  dtype : Nat
  dest : Nat
  queue : Nat
  qpcp : Bool
  reason : Nat
  session : Nat
  mirrorEn : Bool
  policer : Nat
  fn : Nat
  role : Nat
  learn : Bool
  profile : Nat
  vid : Nat
  pcp : Nat
  dei : Nat
  dscp : Nat
  da : Nat
  sa : Nat
  deriving DecidableEq, Repr

/-- Read an action record at an offset. -/
def actOf (x : Blob) (o : Nat) : Act :=
  let w := x.le o 4
  let v := x.le (o + 8) 4
  let u := x.le (o + 12) 4
  ⟨bitsOf w 0 2, bitsOf w 2 14, bitsOf w 16 3, bitAt w 19, bitsOf w 20 4, bitsOf w 24 4, bitAt w 28, x.le (o + 4) 2,
    bitsOf v 0 14, bitsOf v 14 2, bitAt v 16, bitsOf u 0 8, bitsOf u 8 12, bitsOf u 20 3, bitsOf u 23 1, bitsOf u 24 6,
    x.be (o + 16) 6, bitsOf (x.le (o + 22) 1) 0 6⟩

/-- A copy entry of a replication group (R222). -/
structure CopyEntry where
  kind : Nat
  dest : Nat
  queue : Nat
  qpcp : Bool
  profile : Nat
  vid : Nat
  pcp : Nat
  dei : Nat
  dscp : Nat
  sa : Nat
  da : Nat
  deriving DecidableEq, Repr

/-- Read a copy entry at an offset. -/
def copyEntryOf (x : Blob) (o : Nat) : CopyEntry :=
  let w := x.le o 4
  let v := x.le (o + 4) 4
  ⟨bitsOf w 0 2, bitsOf w 2 9, bitsOf w 11 3, bitAt w 14, bitsOf w 15 8, bitsOf v 0 12, bitsOf v 12 3, bitsOf v 15 1,
    bitsOf v 16 6, bitsOf v 22 6, x.be (o + 8) 6⟩

/-- Number of replication groups (R242). -/
def AshBank.groups (b : AshBank) : Nat := (b.sec 11).le 0 4

/-- Directory entry of group `g`: first copy entry, count, prune_ingress. -/
def AshBank.group (b : AshBank) (g : Nat) : Nat × Nat × Bool :=
  let w := (b.sec 11).le (16 + 8 * g) 4
  (bitsOf w 0 18, bitsOf w 18 10, bitAt w 28)

/-- Copy entry `i`. -/
def AshBank.copyEntry (b : AshBank) (i : Nat) : CopyEntry := copyEntryOf (b.sec 11) (16 + 8 * b.groups + 16 * i)

/-- Edit profile `i` as its word. -/
def AshBank.editProfile (b : AshBank) (i : Nat) : Nat := (b.sec 7).le (4 * i) 4

/-- Router MAC `i`. -/
def AshBank.routerMac (b : AshBank) (i : Nat) : Nat := (b.sec 3).be (8 * i) 6

/-- The edit that a record or copy entry orders, with its operands resolved from the image. -/
def AshBank.editOf (b : AshBank) (profile vid pcp dei dscp da sa : Nat) : Edit :=
  let w := if profile = 0 then 0 else b.editProfile profile
  ⟨w, b.tpid (bitsOf w 2 2), vid, pcp, dei, dscp, da, b.routerMac sa⟩

/-- A VLAN entry (R129). -/
structure VlanEntry where
  routers : Nat
  vrf : Nat
  vrfValid : Bool
  learnEn : Bool
  learned : Nat
  ucMiss : Nat
  mcMiss : Nat
  bc : Nat
  deriving DecidableEq, Repr

/-- VLAN entry `v`. -/
def AshBank.vlan (b : AshBank) (v : Nat) : VlanEntry :=
  let o := 88 * v
  let w := (b.sec 2).le (o + 72) 4
  let u := (b.sec 2).le (o + 76) 4
  ⟨(b.sec 2).le (o + 64) 8, bitsOf w 0 10, bitAt w 10, bitAt w 11, bitsOf w 12 12, bitsOf u 0 12, bitsOf u 12 12,
    bitsOf ((b.sec 2).le (o + 80) 4) 0 12⟩

/-- An extractor (R132). -/
structure Extractor where
  source : Nat
  offset : Nat
  bit : Nat
  width : Nat
  present : Bool
  rsv : Nat
  deriving DecidableEq, Repr

/-- Extractor `i`. -/
def AshBank.extractor (b : AshBank) (i : Nat) : Extractor :=
  let w := (b.sec 4).le (4 * i) 4
  ⟨bitsOf w 0 4, bitsOf w 4 8, bitsOf w 12 3, bitsOf w 15 6, bitAt w 21, w / 2 ^ 22⟩

/-- A static entry of section 8 (R186). -/
structure StaticEntry where
  mac : Nat
  vlan : Nat
  cls : Nat
  dest : Nat
  deriving DecidableEq, Repr

/-- The static entries of a bank. -/
def AshBank.statics (b : AshBank) : List StaticEntry :=
  let x := b.sec 8
  (List.range (x.len / 16)).map fun i =>
    let w := x.le (16 * i + 8) 4
    ⟨x.be (16 * i) 6, bitsOf (x.le (16 * i + 6) 2) 0 12, bitsOf w 0 12, bitsOf w 12 10⟩

/-- A host route of section 9. -/
structure HostRoute where
  vrf : Nat
  v6 : Bool
  cls : Nat
  nh : Nat
  addr : Nat
  deriving DecidableEq, Repr

/-- The host routes of a bank. -/
def AshBank.hostRoutes (b : AshBank) : List HostRoute :=
  let x := b.sec 9
  (List.range (x.len / 24)).map fun i =>
    let o := 24 * i
    let w := x.le o 2
    ⟨bitsOf w 0 10, bitAt w 15, x.le (o + 2) 2, x.le (o + 4) 2, if bitAt w 15 then x.be (o + 8) 16 else x.be (o + 8) 4⟩

/-- Bits `n` down of an address, the first bit at the lowest place (R181). -/
def msbFirst (addr width : Nat) : Nat → Nat
  | 0 => 0
  | n + 1 => msbFirst addr width n + (if bitAt addr (width - 1 - n) then 2 ^ n else 0)

/-- A TCAM entry of section 10 at an offset, as it is placed; `banks` empty. -/
def tcamOf (x : Blob) (o : Nat) : TcamEntry :=
  let w := x.le (o + 2) 2
  if x.le o 1 = 1 then
    let len := x.le (o + 1) 1
    let v6 := bitAt w 15
    let wid := if v6 then 128 else 32
    let addr := if v6 then x.be (o + 12) 16 else x.be (o + 12) 4
    { lpm := true, value := bitsOf w 0 10 + b2n v6 * 2 ^ 10 + msbFirst addr wid len * 2 ^ 11, care := 2 ^ (11 + len) - 1,
      af := v6, len := len, prio := 0, result := x.le (o + 6) 2, nh := x.le (o + 8) 2, banks := 0, good := true }
  else
    let care := x.le (o + 32) 20
    { lpm := false, value := x.le (o + 12) 20 &&& care, care := care, af := false, len := 0, prio := x.le (o + 4) 2,
      result := x.le (o + 6) 2, nh := 0, banks := 0, good := true }

/-- Number of TCAM entries of a bank. -/
def AshBank.tcamCount (b : AshBank) : Nat := ((b.sec 10).len - 64) / 56

/-- The TCAM entries of a bank in section order. -/
def AshBank.tcams (b : AshBank) : List TcamEntry := (List.range b.tcamCount).map fun i => tcamOf (b.sec 10) (64 + 56 * i)

/-- Numbers of LPM and of CLS entries. -/
def AshBank.kinds (b : AshBank) : Nat × Nat :=
  ((b.tcams.filter TcamEntry.lpm).length, (b.tcams.filter fun e => !e.lpm).length)

/-- TCAM banks that may hold the image's entries. -/
def AshBank.bankUse (b : AshBank) : Nat := bitsOf ((b.sec 10).le 0 1) 0 4

/-! ### Limits (R146, R244, R271) -/

/-- What an image format allows. -/
structure Limits where
  port : Nat
  records : Nat
  width : Nat
  vlanMode : Bool
  ext : Nat
  meta_ : Nat
  macs : Nat
  edits : Nat
  vrfs : Nat
  bankUse : Nat
  units : Nat
  sessions : Nat
  frer : Bool
  groups : Nat
  copies : Nat
  policers : Nat
  deriving DecidableEq, Repr

/-- Limits of formats 4 and 3. -/
def limitsOf (fmt : Nat) : Limits :=
  if fmt = 3 then ⟨255, 524288, 19, false, 12, 7, 16, 64, 512, 3, 262144, 8, false, 8192, 131072, 8191⟩
  else ⟨511, 1048576, 20, true, 16, 9, 64, 256, 1024, 15, 524288, 16, true, 16384, 262144, 16383⟩

/-! ### Layout of the object (R141, R142, R145) -/

/-- A section descriptor. -/
structure SecDesc where
  typ : Nat
  rsv : Nat
  off : Nat
  len : Nat
  deriving DecidableEq, Repr

/-- The section descriptors of a header. -/
def secDescs (h : Blob) : List SecDesc :=
  (List.range 16).map fun i =>
    let o := 0x40 + 12 * i
    ⟨h.le o 2, h.le (o + 2) 2, h.le (o + 4) 4, h.le (o + 8) 4⟩

/-- Two sections do not overlap. -/
def apart (x y : SecDesc) : Bool :=
  decide (x.off + x.len ≤ y.off) || decide (y.off + y.len ≤ x.off) || decide (x.len = 0) || decide (y.len = 0)

/-- Every two sections of a list lie apart. -/
def allApart : List SecDesc → Bool
  | [] => true
  | x :: r => r.all (apart x) && allApart r

/-- Sections of an image whose signature block begins at byte `sigAt`: types, places and presence. A section from 10 on has a header,
and is not empty where it is present. -/
def layoutOk (h : Blob) (sigAt : Nat) (isPatch : Bool) : Bool :=
  let used := (secDescs h).filter fun d => decide (d.typ ≠ 0)
  let types := used.map SecDesc.typ
  (secDescs h).all (fun d => decide (d.rsv = 0)) && decide types.Nodup
    && (if isPatch then decide (types = [15])
        else types.all (fun t => decide (t ≤ 14)) && [1, 2, 4, 5, 6, 7].all fun t => decide (t ∈ types))
    && used.all (fun d => decide (d.off % 64 = 0) && decide (256 ≤ d.off) && decide (d.off + d.len ≤ sigAt)
      && (decide (d.typ < 10) || decide (d.len ≠ 0)))
    && allApart used

/-- The bank content that an object carries. -/
def bankOf (img : Blob) (sig : Signed) : AshBank :=
  let used := (secDescs img).filter fun d => decide (d.typ ≠ 0)
  let b : AshBank :=
    { valid := true, hdr := img.slice 0 256, id := img.le 8 8, sig := sig, poison := [], loaded := (0, 0),
      secs := used.foldl (fun m d => SMap.set (fun _ => ⟨0, []⟩) d.typ (img.slice d.off d.len) m) [] }
  { b with loaded := b.kinds }

/-! ### Content (R145) -/

/-- Header fields of a bank or patch: reserved fields zero, counts and widths in range. -/
def headerOk (b : AshBank) (l : Limits) (isPatch : Bool) : Bool :=
  let h := b.hdr
  decide (h.le 0x18 1 = b2n isPatch) && decide (h.le 0x19 1 < 2) && h.zeroIn 0x1E 2 && h.zeroIn 0x26 2 && h.zeroIn 0x35 1
    && h.zeroIn 0x3C 4 && decide (h.le 8 8 ≠ 0)
    && decide (b.w2 ≤ 12) && decide (b.w3 ≤ 16) && decide (b.wc ≤ 16) && decide (b.w2 + b.w3 + b.wc ≤ l.width)
    && decide (b.extractors ≤ l.ext) && decide (1 ≤ b.records) && decide (b.records ≤ l.records)
    && decide (1 ≤ b.l2Span) && decide (b.l2Span ≤ 1024) && decide (1 ≤ b.l3Span) && decide (b.l3Span ≤ 65536)
    && decide (b.routerMacs ≤ l.macs) && decide (1 ≤ b.editProfiles) && decide (b.editProfiles ≤ l.edits)
    && (decide (l.port = 511) || (decide (b.tpid 2 = 0) && decide (b.tpid 3 = 0)))
    && (if isPatch then decide (1 ≤ h.le 0x38 4) && decide (h.le 0x38 4 ≤ 65536)
        else decide (h.le 0x38 4 = 0) && decide (h.le 0x10 8 = 0))

/-- Lengths of the sections (R142, R186, R229, R242, R243, R270). -/
def lengthsOk (b : AshBank) : Bool :=
  let n := fun t => (b.sec t).len
  decide (n 1 = 8192) && decide (n 2 = 360448) && decide (n 3 = 8 * b.routerMacs) && decide (n 4 = 4 * b.extractors)
    && decide (n 5 = 4 * 2 ^ (b.w2 + b.w3 + b.wc)) && decide (n 6 = 32 * b.records) && decide (n 7 = 4 * b.editProfiles)
    && decide (n 8 % 16 = 0) && decide (n 8 ≤ 16 * 65536) && decide (n 9 % 24 = 0)
    && (decide (n 10 = 0) || (decide (64 ≤ n 10) && decide ((n 10 - 64) % 56 = 0)))
    && (decide (n 11 = 0) || decide (n 11 = 16 + 8 * b.groups + 16 * (b.sec 11).le 4 4))
    && (decide (n 12 = 0) || decide (n 12 = 2048))
    && (decide (n 13 = 0) || decide (n 13 = 64 + 8 * (b.sec 13).le 0 4 + 16 * (b.sec 13).le 4 4))
    && (decide (n 14 = 0) || decide (n 14 = 16 + 32 * (b.sec 14).le 0 4))

/-- Port profiles (R127). -/
def profilesOk (b : AshBank) : Bool :=
  (List.range 512).all fun p =>
    let w := b.profile p
    let x := b.sec 1
    decide (w < 2 ^ 21) && decide (bitsOf w 15 2 ≠ 3) && (List.range 4).all (fun k => !bitAt w (17 + k) || decide (b.tpid k ≠ 0))
      && x.zeroIn (16 * p + 7) 9

/-- VLAN entries (R129). -/
def vlansOk (b : AshBank) (l : Limits) : Bool :=
  (List.range 4096).all fun v =>
    let e := b.vlan v
    let x := b.sec 2
    let o := 88 * v
    let top := 2 ^ b.w2
    decide (e.vrf < l.vrfs) && decide (e.learned < top) && decide (e.ucMiss < top) && decide (e.mcMiss < top)
      && decide (e.bc < top) && x.zeroIn (o + 75) 1 && x.zeroIn (o + 79) 1 && decide (x.le (o + 80) 4 < 4096)
      && x.zeroIn (o + 84) 4

/-- Extractors (R132). -/
def extractorsOk (b : AshBank) (l : Limits) : Bool :=
  let es := (List.range b.extractors).map b.extractor
  es.all (fun e => decide (e.rsv = 0) && decide (1 ≤ e.width) && decide (e.width ≤ 32)
      && (if e.source = 8 then decide (e.offset ≤ l.meta_) && decide (e.bit = 0)
          else decide (e.source ≤ 5) && decide (e.offset + ceilDiv (e.bit + e.width) 8 ≤ 256)))
    && decide ((es.map fun e => e.width + b2n e.present).sum ≤ 160)

/-- Resolution entries (R136). -/
def resolutionsOk (b : AshBank) (l : Limits) : Bool :=
  (List.range (2 ^ (b.w2 + b.w3 + b.wc))).all fun i =>
    let w := b.resolution i
    let m := bitsOf w 20 2
    decide (w < 2 ^ 22) && (l.vlanMode || decide (m ≠ 3)) && decide (bitsOf w 0 20 + b.span m ≤ b.records)

/-- The edit profile and router MAC that a record or copy entry names exist, whether or not the profile rewrites the SA (R145,
R244, notes/assumptions/25.md). -/
def editRefOk (b : AshBank) (profile sa : Nat) : Bool := decide (profile < b.editProfiles) && decide (sa < b.routerMacs)

/-- One action record (R137, R145, R244, R271); its mirror_session names one where mirror_en is set (notes/assumptions/25.md). -/
def actOk (b : AshBank) (l : Limits) (i : Nat) : Bool :=
  let x := b.sec 6
  let o := 32 * i
  let a := actOf x o
  let w := x.le o 4
  let u := x.le (o + 12) 4
  decide (w < 2 ^ 29) && decide (x.le (o + 8) 4 < 2 ^ 17) && decide (u < 2 ^ 30)
    && decide (x.le (o + 22) 1 < 64) && x.zeroIn (o + 23) 9
    && (if a.dtype = 0 then decide (a.dest = 0) else if a.dtype = 1 then decide (a.dest ≤ l.port)
        else if a.dtype = 2 then decide (a.dest < b.groups) else decide (a.dest ≤ 63))
    && (!a.mirrorEn || (b.session a.session).valid)
    && (decide (a.policer = 0) || decide ((b.policer a.policer).mode ≠ 0))
    && decide (a.role ≠ 3) && (l.frer || (decide (a.role = 0) && decide (a.fn = 0)))
    && (decide (a.role ≠ 1) || decide ((b.stream a.fn).kind = 1)) && (decide (a.role ≠ 2) || (b.recovery a.fn).valid)
    && editRefOk b a.profile a.sa

/-- Edit profiles and router MACs (R138); push_tpid names a TPID that is used in a profile that does not push too (R145,
notes/assumptions/25.md). -/
def editsOk (b : AshBank) (l : Limits) : Bool :=
  (List.range b.editProfiles).all (fun i =>
    let w := b.editProfile i
    decide (w < 2 ^ 20) && decide (bitsOf w 10 2 ≠ 3) && decide (bitsOf w 12 2 ≠ 3) && (l.frer || decide (bitsOf w 10 2 = 0))
      && decide (b.tpid (bitsOf w 2 2) ≠ 0))
    && (List.range b.routerMacs).all fun i => (b.sec 3).zeroIn (8 * i + 6) 2

/-- Sections 8 and 9 (R186, R187). -/
def tablesOk (b : AshBank) (l : Limits) : Bool :=
  let x := b.sec 8
  let y := b.sec 9
  let hs := b.hostRoutes
  (b.statics.all fun e => decide (1 ≤ e.vlan) && decide (e.vlan ≤ 4094) && decide (e.cls < 2 ^ b.w2))
    && (List.range (x.len / 16)).all (fun i => decide (x.le (16 * i + 6) 2 < 4096) && decide (x.le (16 * i + 8) 4 < 2 ^ 22)
      && x.zeroIn (16 * i + 12) 4)
    && decide ((b.statics.map fun e => (e.vlan, e.mac)).Nodup)
    && (hs.all fun r => decide (r.vrf < l.vrfs) && decide (2 ≤ r.cls) && decide (r.cls < 2 ^ b.w3))
    && (List.range (y.len / 24)).all (fun i => decide (bitsOf (y.le (24 * i) 2) 10 5 = 0) && y.zeroIn (24 * i + 6) 2
      && (bitAt (y.le (24 * i) 2) 15 || y.zeroIn (24 * i + 12) 12))
    && decide ((hs.map fun r => (r.vrf, r.v6, r.addr)).Nodup)
    && decide ((hs.map fun r => if r.v6 then 4 else 1).sum ≤ l.units)

/-- One TCAM entry at an offset of section 10 (R186, R187). -/
def tcamOk (b : AshBank) (l : Limits) (o : Nat) : Bool :=
  let x := b.sec 10
  let w := x.le (o + 2) 2
  let len := x.le (o + 1) 1
  let wid := if bitAt w 15 then 128 else 32
  x.zeroIn (o + 10) 2 && x.zeroIn (o + 52) 4
    && (if x.le o 1 = 1 then
          decide (len ≤ wid) && decide (bitsOf w 10 5 = 0) && decide (bitsOf w 0 10 < l.vrfs) && x.zeroIn (o + 4) 2
            && decide (2 ≤ x.le (o + 6) 2) && decide (x.le (o + 6) 2 < 2 ^ b.w3) && x.zeroIn (o + 32) 20
            && decide (x.be (o + 12) 20 % 2 ^ (160 - len) = 0)
        else decide (x.le o 1 = 2) && decide (len = 0) && decide (w = 0) && x.zeroIn (o + 8) 2
            && decide (x.le (o + 6) 2 < 2 ^ b.wc))

/-- Section 10. -/
def tcamsOk (b : AshBank) (l : Limits) : Bool :=
  let x := b.sec 10
  let lp := b.tcams.filter TcamEntry.lpm
  decide (x.le 0 1 < 16) && decide (b.bankUse ≤ l.bankUse) && x.zeroIn 1 3 && x.zeroIn 12 52
    && (decide (b.tcamCount = 0) || decide (b.bankUse ≠ 0))
    && (List.range b.tcamCount).all (fun i => tcamOk b l (64 + 56 * i))
    && decide ((lp.map fun e => (e.value, e.care)).Nodup)

/-- Section 11 (R242, R244). -/
def groupsOk (b : AshBank) (l : Limits) : Bool :=
  let x := b.sec 11
  let n := x.le 4 4
  decide (x.len = 0) ||
    (decide (1 ≤ b.groups) && decide (b.groups ≤ l.groups) && decide (1 ≤ n) && decide (n ≤ l.copies) && x.zeroIn 8 8
      && (List.range b.groups).all (fun g =>
        let (first, count, _) := b.group g
        decide (x.le (16 + 8 * g) 4 < 2 ^ 29) && x.zeroIn (20 + 8 * g) 4 && decide (count ≤ 1022) && decide (first + count ≤ n))
      && (List.range n).all fun i =>
        let e := b.copyEntry i
        let o := 16 + 8 * b.groups + 16 * i
        decide (x.le o 4 < 2 ^ 23) && decide (x.le (o + 4) 4 < 2 ^ 28) && x.zeroIn (o + 14) 2
          && (if e.kind = 1 then decide (e.dest ≤ l.port) else decide (e.kind = 2) && decide (e.dest ≤ 63))
          && editRefOk b e.profile e.sa)

/-- Section 12 (R229, R244). -/
def sessionsOk (b : AshBank) (l : Limits) : Bool :=
  let x := b.sec 12
  decide (x.len = 0) || (List.range 16).all fun i =>
    let m := b.session i
    let o := 128 * i
    decide (x.le o 4 < 2 ^ 11) && decide (x.le (o + 9) 1 < 2) && x.zeroIn (o + 11) 5 && x.zeroIn (o + 112) 16
      && (!m.valid || decide (i < l.sessions)) && (if m.toCpu then decide (m.dest ≤ 63) else decide (m.dest ≤ l.port))
      && (decide (m.trunc = 0) || (decide (64 ≤ m.trunc) && decide (m.trunc ≤ 16000))) && decide (m.encapLen ≤ 96)
      && x.zeroIn (o + 16 + m.encapLen) (96 - m.encapLen)
      && (!m.fixup || (decide (14 ≤ m.ipOff) && decide (m.ipOff + 20 ≤ m.encapLen)))

/-- Member streams of a recovery entry. -/
def RecEntry.streams (e : RecEntry) : List Nat := (List.range e.members).map fun i => e.first + i

/-- Section 13 (R243, R244). -/
def frerOk (b : AshBank) (l : Limits) : Bool :=
  let x := b.sec 13
  let ns := x.le 0 4
  let nr := x.le 4 4
  let fns := ((List.range nr).map b.recovery).filter RecEntry.valid
  decide (x.len = 0) ||
    (l.frer && decide (ns ≤ 16384) && decide (nr ≤ 8192) && x.zeroIn 8 56
      && (List.range ns).all (fun k =>
        let o := 64 + 8 * k
        decide (x.le o 2 < 32) && decide ((b.stream k).kind ≠ 3) && decide (x.le (o + 4) 2 < 512) && x.zeroIn (o + 6) 2)
      && (List.range nr).all (fun k =>
        let o := 64 + 8 * ns + 16 * k
        decide (x.le o 2 < 32) && decide (x.le (o + 4) 2 < 2 ^ 14) && x.zeroIn (o + 6) 2 && decide (x.le (o + 8) 4 < 2 ^ 20))
      && fns.all (fun e =>
        decide (1 ≤ e.members) && decide (e.members ≤ 4)
          && (if e.isMatch then decide (e.hist = 0) else decide (2 ≤ e.hist) && decide (e.hist ≤ 64))
          && decide (10 ≤ e.resetTime) && decide (e.resetTime ≤ 1000000)
          && e.streams.all (fun k => decide (k < ns) && decide ((b.stream k).kind = 2))
          && decide ((e.streams.map fun k => (b.stream k).port).Nodup))
      && decide (fns.flatMap RecEntry.streams).Nodup)

/-- Section 14 (R270, R271). -/
def policersOk (b : AshBank) (l : Limits) : Bool :=
  let x := b.sec 14
  let n := x.le 0 4
  decide (x.len = 0) || (decide (n ≤ l.policers) && x.zeroIn 4 12 && (List.range n).all fun i =>
    let o := 16 + 32 * i
    let e := b.policer (i + 1)
    decide (x.le o 4 < 2 ^ 10) && x.zeroIn (o + 11) 1 && x.zeroIn (o + 19) 13
      && decide (e.yellow ≠ 3) && decide (64 ≤ e.cbs) && (decide (e.mode ≠ 2) || (decide (64 ≤ e.burst2) && decide (e.cir ≤ e.rate2)))
      && (decide (e.mode ≠ 1) || decide (e.rate2 = 0)))

/-- The whole content of a bank passes R145 under its format's limits. -/
def contentOk (b : AshBank) : Bool :=
  let l := limitsOf b.fmt
  headerOk b l false && lengthsOk b && profilesOk b && vlansOk b l && extractorsOk b l && resolutionsOk b l
    && (List.range b.records).all (actOk b l) && editsOk b l && tablesOk b l && tcamsOk b l && groupsOk b l
    && sessionsOk b l && frerOk b l && policersOk b l

/-- Check of a FULL image whose signature block begins at `sigAt`, loaded under command-set version `ver`: a status code, 0
when it passes (R145, R146, R148). -/
def imageCheck (img : Blob) (sigAt ver : Nat) : Nat :=
  let fmt := img.le 4 2
  if img.le 0 4 ≠ 0x4C485341 ∨ img.le 6 2 ≠ 0x100 then 0x02
  else if (fmt ≠ 3 ∧ fmt ≠ 4) ∨ (fmt = 4 ∧ ver / 256 = 2) then 0x04
  else if layoutOk img sigAt false && contentOk (bankOf img .empty) then 0
  else 0x02

end Sys2Proof.Machine
end

