-- ==== Sys2Proof/Machine/Placement.lean ====
section
/-! DEFINITION. The shared tables: hashing and insertion in the learned MAC tables (R157, R168, R170), placement in the
host-route table (R177, R178) and in the TCAM (R180 to R184), and the static entries of a bank on the learn bus (R165). -/

namespace Sys2Proof.Machine

/-! ### Learned MAC tables -/

/-- CRC-32C with an initial value. -/
def crcFrom (seed : Nat) (l : List Byte) : Nat := (l.foldl crcByte seed) ^^^ 0xFFFFFFFF

/-- Bucket of a key in a half under a seed (R157). -/
def macBucket (seed vlan mac : Nat) : Nat := crcFrom seed (beBytes 2 (vlan % 4096) ++ beBytes 6 mac) % 65536

/-- The two ways of a key's bucket in half `h`. -/
def PipeTab.half (t : PipeTab) (h vlan mac : Nat) : List Nat :=
  let b := macBucket (if h = 0 then t.seed0 else t.seed1) vlan mac
  [h * 131072 + 2 * b, h * 131072 + 2 * b + 1]

/-- The four candidate ways of a key in way order. -/
def PipeTab.cands (t : PipeTab) (vlan mac : Nat) : List Nat := t.half 0 vlan mac ++ t.half 1 vlan mac

/-- Entry in a way. -/
def PipeTab.way (t : PipeTab) (w : Nat) : Option MacEntry := SMap.get (fun _ => none) w t.ways

/-- Set a way. -/
def PipeTab.setWay (t : PipeTab) (w : Nat) (e : Option MacEntry) : PipeTab :=
  { t with ways := SMap.set (fun _ => none) w e t.ways }

/-- Write an entry as the inserter does: the sweeper, where it visits the way's bucket in this core cycle, skips the entry in its pass
(R174). -/
def PipeTab.writeWay (t : PipeTab) (w : Nat) (e : MacEntry) : PipeTab :=
  t.setWay w (some (if t.sweep = some (w % 131072 / 2) then { e with seen := t.pass } else e))

/-- Ways that hold a key with good parity and satisfy a test, in way order. -/
def PipeTab.find (t : PipeTab) (vlan mac : Nat) (f : MacEntry → Bool) : Option (Nat × MacEntry) :=
  ((t.cands vlan mac).filterMap fun w => (t.way w).map fun e => (w, e)).find? fun (_, e) =>
    e.parityGood && decide (e.vlan = vlan) && decide (e.mac = mac) && f e

/-- First free way of an occupant's alternate bucket. -/
def PipeTab.altFree (t : PipeTab) (w : Nat) (o : MacEntry) : Option Nat :=
  (t.half (if w < 131072 then 1 else 0) o.vlan o.mac).find? fun v => (t.way v).isNone

/-- Insert an entry in a free candidate, or in the place of an occupant that can move to its alternate bucket (R168);
none where no room can be made without an eviction. -/
def PipeTab.insert (t : PipeTab) (e : MacEntry) : Option PipeTab :=
  let c := t.cands e.vlan e.mac
  match c.find? fun w => (t.way w).isNone with
  | some w => some (t.writeWay w e)
  | none =>
    (c.findSome? fun w => match t.way w with
      | none => none
      | some o => if o.frozen then none else (t.altFree w o).map fun v => (w, o, v)).map
        fun (w, o, v) => (t.writeWay v o).writeWay w e

/-- A static entry as a way holds it. -/
def staticWay (vlan mac cls dest mask : Nat) : MacEntry :=
  { vlan := vlan, mac := mac, static := true, port := 0, l2class := cls, destRef := dest, bankMask := mask, hit := false,
    stale := false, stamp := 0, frozen := false, moveCount := 0, freezeLeft := 0, parityGood := true, seen := 0 }

/-- A table holding static entries alone. -/
def PipeTab.staticOnly (t : PipeTab) : PipeTab :=
  { t with ways := t.ways.filter fun w => match w.2 with | some e => e.static | none => false }

/-- The static entry of a key with given results, in any bank. -/
def PipeTab.findStatic (t : PipeTab) (vlan mac cls dest : Nat) : Option (Nat × MacEntry) :=
  t.find vlan mac fun e => e.static && decide (e.l2class = cls) && decide (e.destRef = dest)

/-- Place static entries beside those already held, ignoring learned ones (R170). -/
def PipeTab.placeAll (t : PipeTab) : List StaticEntry → Option PipeTab
  | [] => some t
  | e :: r =>
    if (t.findStatic e.vlan e.mac e.cls e.dest).isSome then t.placeAll r
    else match t.insert (staticWay e.vlan e.mac e.cls e.dest 1) with
      | some t1 => t1.placeAll r
      | none => none

/-- Powered pipelines. -/
def State.pipesOn (s : State) : List Nat := (List.range 8).filter fun n => s.domainOn (17 + n)

/-! ### Banks -/

/-- A bank by its role. -/
def State.ashOf (s : State) (shadow : Bool) : AshBank := if shadow then s.ash.2 else s.ash.1

/-- Set a bank by its role. -/
def State.setAsh (s : State) (shadow : Bool) (b : AshBank) : State :=
  { s with ash := if shadow then (s.ash.1, b) else (b, s.ash.2) }

/-- Static entries that exist over both valid banks. -/
def State.staticUnion (s : State) : List StaticEntry :=
  let of_ := fun (b : AshBank) => if b.valid then b.statics else []
  (of_ s.ash.1 ++ of_ s.ash.2).eraseDups

/-- Control events for a bank that loses (`add` false) or gains static entries, where `other` holds those of the other bank
(R165): an entry common to both changes its mask. -/
def State.staticEvents (s : State) (l other : List StaticEntry) (bank : Nat) (add : Bool) : State :=
  s.each l fun t e =>
    if e ∈ other then t.issueCtl (.staticMask e.vlan e.mac e.cls e.dest (if add then 3 else 2 ^ (1 - bank)))
    else if add then t.issueCtl (.staticAdd e.vlan e.mac e.cls e.dest (2 ^ bank))
    else t.issueCtl (.staticDel e.vlan e.mac e.cls e.dest)

/-! ### Host routes -/

/-- Units an entry occupies. -/
def hrUnits (v6 : Bool) : Nat := if v6 then 4 else 1

/-- Key bytes of a host route (R177). -/
def hrKey (vrf : Nat) (v6 : Bool) (addr : Nat) : List Byte :=
  beBytes 2 (vrf + b2n v6 * 2 ^ 15) ++ (if v6 then beBytes 16 addr else beBytes 4 addr)

/-- First unit of a key's bucket in half `h`. -/
def hrBucket (h vrf : Nat) (v6 : Bool) (addr : Nat) : Nat :=
  h * 262144 + crcFrom (if h = 0 then 0xFFFFFFFF else 0x5A5A5A5A) (hrKey vrf v6 addr) % 32768 * 8

/-- Unit `u` is taken. -/
def hrTaken (l : List HrEntry) (u : Nat) : Bool := l.any fun e => decide (e.unit ≤ u) && decide (u < e.unit + hrUnits e.v6)

/-- First free place for an entry in the bucket that begins at unit `b`. -/
def hrFree (l : List HrEntry) (b : Nat) (v6 : Bool) : Option Nat :=
  ((List.range (8 / hrUnits v6)).map fun i => b + i * hrUnits v6).find? fun u =>
    (List.range (hrUnits v6)).all fun k => !hrTaken l (u + k)

/-- Bucket of an entry in the half it does not lie in. -/
def HrEntry.altBucket (e : HrEntry) : Nat := hrBucket (if e.unit < 262144 then 1 else 0) e.vrf e.v6 e.addr

/-- Entries that lie in `n` units from `u` on. -/
def hrIn (l : List HrEntry) (u n : Nat) : List HrEntry :=
  l.filter fun e => decide (e.unit < u + n) && decide (u < e.unit + hrUnits e.v6)

/-- A free place for an entry in the bucket that begins at unit `b`, made where need be by moving entries to their other buckets, as many
moves deep as `fuel`; buckets in `ban` are being cleared already (R178, notes/assumptions/26.md). -/
def hrRoom : Nat → List Nat → List HrEntry → Nat → Bool → Option (Nat × List HrEntry)
  | 0, _, l, b, v6 => (hrFree l b v6).map fun u => (u, l)
  | n + 1, ban, l, b, v6 =>
    match hrFree l b v6 with
    | some u => some (u, l)
    | none =>
      let move := fun (m : Option (List HrEntry)) (o : HrEntry) => m.bind fun k =>
        if o.altBucket ∈ b :: ban then none
        else (hrRoom n (b :: ban) k o.altBucket o.v6).map fun r => r.2.map fun e => if e.unit = o.unit then { e with unit := r.1 } else e
      ((List.range (8 / hrUnits v6)).map fun i => b + i * hrUnits v6).findSome? fun u =>
        ((hrIn l u (hrUnits v6)).foldl move (some l)).map fun k => (u, k)

/-- Place one route: an identical entry gains the bank, otherwise first fit in half 0, then half 1, then in the room that moves make.
The strategy is the device's (notes/assumptions/26.md). -/
def hrPlace (l : List HrEntry) (r : HostRoute) (mask : Nat) : Option (List HrEntry) :=
  let same := fun (e : HrEntry) => decide (e.vrf = r.vrf) && decide (e.v6 = r.v6) && decide (e.addr = r.addr)
    && decide (e.cls = r.cls) && decide (e.nh = r.nh)
  if l.any same then some (l.map fun e => if same e then { e with mask := e.mask ||| mask } else e)
  else
    let at_ := fun (x : Nat × List HrEntry) => x.2 ++ [⟨x.1, r.vrf, r.v6, r.addr, r.cls, r.nh, mask, true⟩]
    let b := fun (h : Nat) => hrBucket h r.vrf r.v6 r.addr
    let try_ := fun (n : Nat) => (hrRoom n [] l (b 0) r.v6).orElse fun _ => hrRoom n [] l (b 1) r.v6
    ((try_ 0).orElse fun _ => try_ 3).map at_

/-- Place every route of a bank. -/
def hrPlaceAll (mask : Nat) : List HrEntry → List HostRoute → Option (List HrEntry)
  | l, [] => some l
  | l, r :: rs => match hrPlace l r mask with
    | some l1 => hrPlaceAll mask l1 rs
    | none => none

/-- Take a bank out of the masks; an entry of no bank keeps its place until what replaces it has been written (R178). -/
def hrUnmask (mask : Nat) (l : List HrEntry) : List HrEntry := l.map fun e => { e with mask := e.mask &&& (3 - mask) }

/-- Remove the entries of no bank. -/
def hrSwept (l : List HrEntry) : List HrEntry := l.filter fun e => decide (e.mask ≠ 0)

/-- Free the entries of a bank. -/
def hrFreeBank (mask : Nat) (l : List HrEntry) : List HrEntry := hrSwept (hrUnmask mask l)

/-- Give a bank the routes of a new content: beside what it leaves where that fits, else in its place. -/
def hrReplace (mask : Nat) (l : List HrEntry) (rs : List HostRoute) : Option (List HrEntry) :=
  match hrPlaceAll mask (hrUnmask mask l) rs with
  | some m => some (hrSwept m)
  | none => hrPlaceAll mask (hrFreeBank mask l) rs

/-! ### TCAM -/

/-- Same key: a match of the one is a match of the other, at the same rank. -/
def TcamEntry.sameKey (a b : TcamEntry) : Bool :=
  decide ({ a with banks := 0, good := true, result := 0, nh := 0 } = { b with banks := 0, good := true, result := 0, nh := 0 })

/-- Same entry but for the banks that hold it. -/
def TcamEntry.same (a b : TcamEntry) : Bool := a.sameKey b && decide (a.result = b.result) && decide (a.nh = b.nh)

/-- Entries that keep an order among themselves: the prefixes of one address family, or the CLS entries (R181, R182). -/
def TcamEntry.chain (a b : TcamEntry) : Bool := decide (a.lpm = b.lpm) && (!a.lpm || decide (a.af = b.af))

/-- Order within a chain: longer prefixes first, or lower priority numbers. -/
def TcamEntry.before (a b : TcamEntry) : Bool := if a.lpm then decide (b.len < a.len) else decide (a.prio < b.prio)

/-- Insert an entry after every entry it does not precede. -/
def tcamInsert (e : TcamEntry) : List TcamEntry → List TcamEntry
  | [] => [e]
  | x :: r => if e.before x then e :: x :: r else x :: tcamInsert e r

/-- The entries of one kind in their order; entries of equal rank keep theirs. -/
def tcamSort (l : List TcamEntry) : List TcamEntry := l.foldl (fun m e => tcamInsert e m) []

/-- TCAM banks an entry may move to: those that every image that holds it may use, or, without one, that either may. -/
def TcamEntry.allowed (e : TcamEntry) (use0 use1 : Nat) : Nat :=
  let all := (if bitAt e.banks 0 then use0 else 15) &&& (if bitAt e.banks 1 then use1 else 15)
  if all = 0 then use0 ||| use1 else all

/-- Address at or above `a` in an allowed bank that is free. -/
def tcamSlot (use : Nat) (m : SMap (Option TcamEntry)) : Nat → Nat → Option Nat
  | _, 0 => none
  | a, n + 1 =>
    if 131072 ≤ a then none
    else if !bitAt use (a / 32768) then tcamSlot use m ((a / 32768 + 1) * 32768) n
    else if (SMap.get (fun _ => none) a m).isSome then tcamSlot use m (a + 1) n
    else some a

/-- Lowest entry that satisfies a test, with its address. -/
def tcamFind (m : SMap (Option TcamEntry)) (f : Nat → TcamEntry → Bool) : Option (Nat × TcamEntry) :=
  m.findSome? fun x => match x.2 with
    | some z => if f x.1 z then some (x.1, z) else none
    | none => none

/-- One more than the highest address of an entry that satisfies a test; 0 without one. -/
def tcamTop (m : SMap (Option TcamEntry)) (f : TcamEntry → Bool) : Nat :=
  m.foldl (fun n x => if x.2.any f then max n (x.1 + 1) else n) 0

/-- Where a chain's entries may go and how they are ordered: TCAM banks allowed, and `before`. -/
structure TcamOrder where
  may : TcamEntry → Nat
  before : TcamEntry → TcamEntry → Bool

/-- Lowest address in an allowed bank at or above `a`. -/
def tcamBank (use a : Nat) : Option Nat :=
  if bitAt use (a / 32768) then some a
  else ((List.range 4).map fun b => b * 32768).find? fun u => decide (a < u) && bitAt use (u / 32768)

/-- Entries of the chain of `e` at or above address `a` that come after it. CLS entries of one priority keep their order, so each is a
group by itself (notes/assumptions/26.md). -/
def tcamAfter (o : TcamOrder) (e : TcamEntry) (a : Nat) (m : SMap (Option TcamEntry)) : List (Nat × TcamEntry) :=
  m.filterMap fun x => match x.2 with
    | some z => if decide (a ≤ x.1) && e.chain z && (!e.lpm || o.before e z) then some (x.1, z) else none
    | none => none

/-- Make room for `e` at or above address `a` and write it there (R183): in the nearest free entry before the next group of its chain;
failing that, in the place of that group's first entry, which moves on in the same way. Where `e` may lie only above entries that come
after it, these move above its place first, the last of them first. -/
def tcamRoom (o : TcamOrder) : Nat → Nat → TcamEntry → SMap (Option TcamEntry) → Option (SMap (Option TcamEntry))
  | 0, _, _, _ => none
  | n + 1, a, e, m =>
    match tcamBank (o.may e) a, tcamAfter o e a m with
    | none, _ => none
    | some _, [] => (tcamSlot (o.may e) m a (m.length + 5)).map fun f => SMap.put f (some e) m
    | some b, (u, z) :: r =>
      match (tcamSlot (o.may e) m a (m.length + 5)).filter fun (f : Nat) => decide (f < u) with
      | some f => some (SMap.put f (some e) m)
      | none =>
        if b ≤ u then tcamRoom o n (u + 1) z (SMap.put u (some e) m)
        else
          let low := ((u, z) :: r).filter fun (x : Nat × TcamEntry) => decide (x.1 < b)
          (low.foldr (fun x k => k.bind fun m1 => tcamRoom o n b x.2 (SMap.del x.1 m1)) (some m)).bind fun m1 =>
            tcamRoom o n b e m1

/-- The TCAM seen from its other end. -/
def tcamFlip (m : SMap (Option TcamEntry)) : SMap (Option TcamEntry) := (m.map fun x => (131071 - x.1, x.2)).reverse

/-- An order seen from the other end. -/
def TcamOrder.flip (o : TcamOrder) : TcamOrder :=
  ⟨fun e => let b := o.may e; b2n (bitAt b 3) + 2 * b2n (bitAt b 2) + 4 * b2n (bitAt b 1) + 8 * b2n (bitAt b 0), fun x y => o.before y x⟩

/-- Make room for `e` below the entries that come after it, moving those that come before it down. -/
def tcamRoomDown (o : TcamOrder) (n a : Nat) (e : TcamEntry) (m : SMap (Option TcamEntry)) : Option (SMap (Option TcamEntry)) :=
  (tcamRoom o.flip n a e (tcamFlip m)).map tcamFlip

/-- Give the images of `e.banks` the entry `e`, for CLS at or above address `a`: an identical entry gains them where it lies; the key of
an entry that no image holds any longer takes a new result; otherwise room is made after the entries of its rank, before them, or
wherever its chain leaves it a place (R183, R186). -/
def tcamPut (may : TcamEntry → Nat) (a : Nat) (e : TcamEntry) (m : SMap (Option TcamEntry)) :
    Option (SMap (Option TcamEntry)) :=
  match tcamFind m fun u z => decide (a ≤ u) && z.same e with
  | some (u, z) => some (SMap.put u (some { z with banks := z.banks ||| e.banks }) m)
  | none => match tcamFind m fun u z => decide (a ≤ u) && bitAt (may e) (u / 32768) && decide (z.banks = 0) && z.sameKey e with
    | some (u, _) => some (SMap.put u (some e) m)
    | none =>
      let o : TcamOrder := ⟨may, TcamEntry.before⟩
      let n := 2 * m.length + 5
      let low := max a (tcamTop m fun z => z.chain e && z.before e)
      let high := tcamTop (tcamFlip m) fun z => z.chain e && e.before z
      if e.lpm then
        (((tcamRoom o n (tcamTop m fun z => z.chain e && !e.before z) e m).orElse fun _ =>
          tcamRoomDown o n (tcamTop (tcamFlip m) fun z => z.chain e && !z.before e) e m).orElse fun _ =>
          tcamRoom o n low e m).orElse fun _ => tcamRoomDown o n high e m
      else
        let next := (tcamAfter o e low m).head?.elim 0 fun x => 131072 - x.1
        (tcamRoom o n low e m).orElse fun _ => tcamRoomDown o n next e m

/-- Place entries in their order; a CLS entry goes above the one before it. -/
def tcamPutAll (may : TcamEntry → Nat) : Nat → List TcamEntry → SMap (Option TcamEntry) → Option (SMap (Option TcamEntry))
  | _, [], m => some m
  | a, e :: r, m =>
    match tcamPut may (if e.lpm then 0 else a) e m with
    | none => none
    | some m1 =>
      let at_ := (tcamFind m1 fun u z => decide (a ≤ u) && z.same e && decide (z.banks &&& e.banks ≠ 0)).map fun x => x.1 + 1
      tcamPutAll may (if e.lpm then a else at_.getD a) r m1

/-- Take a bank out of the masks. -/
def tcamUnmask (mask : Nat) (m : SMap (Option TcamEntry)) : SMap (Option TcamEntry) :=
  m.map fun x => (x.1, x.2.map fun e => { e with banks := e.banks &&& (3 - mask) })

/-- Remove the entries of no bank: each leaves a free entry behind (R183). -/
def tcamSwept (m : SMap (Option TcamEntry)) : SMap (Option TcamEntry) := m.filter fun x => x.2.any fun e => decide (e.banks ≠ 0)

/-- Give the bank of `mask` the TCAM entries `l` in place of those it has; `use` are the TCAM banks each image may use. The entries of
the other bank and those that stay keep their places but for the moves of R183. An entry that goes is removed last, or first where
that leaves too little room. What this does not place counts as what does not fit (R187, notes/assumptions/26.md). -/
def tcamPlace (m : SMap (Option TcamEntry)) (mask : Nat) (l : List TcamEntry) (use0 use1 : Nat) :
    Option (SMap (Option TcamEntry)) :=
  let may := fun (e : TcamEntry) => e.allowed use0 use1
  let own := (l.map fun e => { e with banks := mask })
  let new := tcamSort (own.filter TcamEntry.lpm) ++ tcamSort (own.filter fun e => !e.lpm)
  let old := tcamUnmask mask m
  ((tcamPutAll may 0 new old).map tcamSwept).orElse fun _ => tcamPutAll may 0 new (tcamSwept old)

/-- Free entries in the TCAM banks of a set. -/
def tcamFree (use : Nat) (m : SMap (Option TcamEntry)) : Nat :=
  32768 * popCount 4 use - (m.filter fun e => bitAt use (e.1 / 32768)).length

/-! ### Reservation (R144 step 3, R170, R187) -/

/-- Content that holds room in the shared tables for the bank with role `shadow`: what a load waits to write, or what the bank holds. -/
def State.tableContent (s : State) (shadow : Bool) : Option AshBank :=
  match s.loads.find? fun l => !l.isPatch && decide (l.shadow = shadow) with
  | some l => some l.content
  | none => if (s.ashOf shadow).valid then some (s.ashOf shadow) else none

/-- Free TCAM entries that an image still keeps for patches (R186, R188): what has been appended since its load has used its reserve
up, and what has been deleted has added to it. -/
def AshBank.reserve (b : AshBank) : Nat :=
  let x := b.sec 10
  let k := b.kinds
  (x.le 4 4 + b.loaded.1 - k.1) + (x.le 8 4 + b.loaded.2 - k.2)

/-- Reserve table room for the content `b` in the bank with role `shadow`: NO_RESOURCE (none) or the state that holds the
entries. The other bank, or a load that waits to write it, keeps its own. -/
def State.reserveTables (s : State) (shadow : Bool) (b : AshBank) : Option State :=
  let me := s.physBank shadow
  let o := s.tableContent (!shadow)
  let use := (o.map AshBank.bankUse).getD 15
  let (u0, u1) := if me = 0 then (b.bankUse, use) else (use, b.bankUse)
  let statics := ((o.map AshBank.statics).getD [] ++ b.statics).eraseDups
  if !(setBits 4 b.bankUse).all fun k => s.domainOn (29 + k) then none
  else if 65536 < statics.length then none
  else if !s.pipesOn.all fun n => ((s.tab n).staticOnly.placeAll statics).isSome then none
  else match hrReplace (2 ^ me) s.hr b.hostRoutes, tcamPlace s.tcam (2 ^ me) b.tcams u0 u1 with
    | some hr, some tc => if tcamFree b.bankUse tc < b.reserve then none else some { s with hr := hr, tcam := tc }
    | _, _ => none

/-- Free the shared-table entries of a bank. -/
def State.freeTables (s : State) (shadow : Bool) : State :=
  let me := s.physBank shadow
  { s with hr := hrFreeBank (2 ^ me) s.hr, tcam := tcamSwept (tcamUnmask (2 ^ me) s.tcam) }

/-- Mark the shadow Ashlar bank empty and free its shared entries (R144). What it held stays readable for the headers that drain from
it. -/
def State.emptyShadow (s : State) : State :=
  let b := s.ash.2
  let s1 := (s.freeTables true).setAsh true { b with valid := false, id := 0, sig := .empty, poison := [] }
  if b.valid then s1.staticEvents b.statics (if s.ash.1.valid then s.ash.1.statics else []) (s.physBank true) false else s1

end Sys2Proof.Machine
end

