-- ==== Sys2Proof/Machine/Time.lean ====
section
/-! DEFINITION. The Transit unit (R69 to R92): time set, rates, the servo and its states, captures, and the time inputs and
outputs. -/

namespace Sys2Proof.Machine

/-! ### The counter (R70, R71, R84) -/

/-- f in force (R70): 0 while DISABLED, otherwise the f of the last update or the held I. -/
def State.fInForce (s : State) : Int := if s.key.ks.servo = .disabled then 0 else s.key.ks.f

/-- RATE_NOW recomputed from RATE_BASE (R70). -/
def State.rerate (s : State) : State := s.setRate s.fInForce

/-- An accepted armed write of 1 to TRN.TIME_SET (R71): the values of TRN.SET_* are taken now and take effect 64 core
cycles later; a set still pending is replaced. -/
def State.scheduleSet (s : State) : State :=
  let sec := s.getF F.TRN_SET_SEC_LO_set_sec_lo + s.getF F.TRN_SET_SEC_HI_set_sec_hi * 2 ^ 32
  let t := (sec * 10 ^ 9 + s.getF F.TRN_SET_NS_set_ns) * 2 ^ 40
  ({ s with trn := { s.trn with setPending := some t } } : State).setF F.TRN_TIME_SET_set 1

/-- The pending set takes effect (R71, R75). -/
def State.setEffect (s : State) : State :=
  match s.trn.setPending with
  | none => s
  | some t =>
    let s1 := ({ s with trn := { s.trn with setPending := none } } : State).setF F.TRN_TIME_SET_set 0
    s1.stepTime ((t : Int) - s1.trn.time)

/-- Latch a time into four registers (R84, R92): seconds, ns, fraction and the flags. -/
def State.latchTime (s : State) (secLo secHi ns frac : Nat) (t flags : Nat) : State :=
  (((s.setReg secLo (BitVec.ofNat 32 (secOf t))).setReg secHi
    (BitVec.ofNat 32 (secOf t / 2 ^ 32 + flags * 2 ^ 16))).setReg ns (BitVec.ofNat 32 (nsOf t))).setReg frac
    (BitVec.ofNat 32 (t / 2 ^ 24 % 2 ^ 16))

/-- TRN.TIME_CAPTURE: in a switchover gap it returns the value at the start of the gap, held (R84). -/
def State.captureTime (s : State) : State :=
  s.latchTime Addr.TRN_TIME_SEC_LO Addr.TRN_TIME_SEC_HI Addr.TRN_TIME_NS Addr.TRN_TIME_FRAC
    (if s.inGap then s.key.gapTime else s.trn.time) (s.timeFlags s.inGap)

/-! ### The servo (R76 to R82) -/

/-- A θ submission is discarded (R79, R80). -/
def State.discardTheta (s : State) : State := s.raise F.TRN_EVENT_offset_discarded

/-- The servo's new I and f, the step it makes in units of 2^−40 ns, and whether f was clamped (R76, R78). θ is in 2^−16
ns, I and f in 2^−32 ppb. f is clamped in a stepping update too (notes/assumptions/68.md). -/
def State.servoUpdate (s : State) (th : Int) : Int × Int × Int × Bool :=
  let i := s.key.ks.i
  let lim : Int := (s.getF F.TRN_FREQ_LIMIT_freq_limit : Nat) * ppb
  let stepping := s.getB F.TRN_CTRL_step_enable && decide (s.getF F.TRN_STEP_THRESHOLD_step_threshold * 2 ^ 16 ≤ th.natAbs)
  let i1 := if stepping then i else i + (s.getF F.TRN_KI_ki : Nat) * th
  let f := if stepping then i else i1 + (s.getF F.TRN_KP_kp : Nat) * th
  let d := if stepping then -th * 2 ^ 24 else 0
  if lim < f then (i, lim, d, true) else if f < -lim then (i, -lim, d, true) else (i1, f, d, false)

/-- Lock state after an accepted θ (R80): the state, the lock run, and whether LOCKED was entered or left. -/
def State.lockUpdate (s : State) (th : Int) : ServoState × Nat × Bool × Bool :=
  let inside := decide (th.natAbs < s.getF F.TRN_LOCK_CFG_lock_threshold * 2 ^ 16)
  let run := if inside then min 255 (s.key.ks.lockRun + 1) else 0
  if s.key.ks.servo = .locked then
    if inside then (.locked, run, false, false) else (.acquiring, 0, false, true)
  else if inside ∧ s.getF F.TRN_LOCK_CFG_lock_count ≤ run then (.locked, run, true, false)
  else (.acquiring, run, false, false)

/-- Plausibility of an accepted θ (R303, 0x0E). -/
def State.timeAlarm (s : State) (th : Int) : State :=
  let thr := s.getF F.SAF_TIME_ALARM_time_alarm_threshold
  if thr ≠ 0 ∧ thr * 2 ^ 16 ≤ th.natAbs then (s.raise F.SAF_EVENT_time_alarm).react 0x0E 0 0 0 else s

/-- A θ is accepted in ACQUIRING or LOCKED (R76, R78, R80): an expiry of holdover_timeout in this core cycle is void (R82). -/
def State.acceptTheta (s : State) (th : Int) : State :=
  let (i, f, d, clamped) := s.servoUpdate th
  let (st, run, entered, left) := s.lockUpdate th
  let s1 := s.timeAlarm th
  let s2 := { s1 with trn := { s1.trn with thetaAt := some s.now, expired := false } }.setKs fun k =>
    { k with i := i, f := f, servo := st, lockRun := run }
  let s3 := ((s2.raiseIf clamped F.TRN_EVENT_limit_reached).raiseIf entered F.TRN_EVENT_locked).raiseIf left F.TRN_EVENT_unlocked
  ((s3.setRate f).showServo).stepTime d

/-- A θ reaches the servo (R79, R80). Leaving HOLDOVER starts the lock run anew (notes/assumptions/24.md). -/
def State.serveTheta (s : State) (th : Int) : State :=
  let s1 := match s.key.ks.servo with
    | .disabled => s.discardTheta
    | .holdover =>
      if s.key.ks.hold ∨ s.key.doubleFault then s.discardTheta
      else ((s.setKs fun k => { k with servo := .acquiring, lockRun := 0 }).raise F.TRN_EVENT_holdover_exit).acceptTheta th
    | _ => s.acceptTheta th
  s1.ksLog .theta

/-- Submit a θ (R79); in a switchover gap or replay it is deferred (R84, R287). -/
def State.submitTheta (s : State) (th : Int) : State :=
  if s.key.doubleFault then s.discardTheta
  else if s.ksBusy then { s with key := { s.key with deferred := s.key.deferred ++ [.theta th] } }
  else s.serveTheta th

/-- Enter HOLDOVER: f = I, frozen (R80, R81). unlocked tells that LOCKED has been left, whichever row left it
(R92, notes/assumptions/68.md). -/
def State.enterHoldover (s : State) : State :=
  let s1 := s.setKs fun k => { k with servo := .holdover, f := k.i }
  (((s1.setRate s1.key.ks.f).showServo).raise F.TRN_EVENT_holdover_enter).raiseIf (decide (s.key.ks.servo = .locked))
    F.TRN_EVENT_unlocked

/-- servo_enable written 1 while DISABLED (R80): I and f from TRN.SERVO_I_INIT, and the lock run 0 (notes/assumptions/24.md). -/
def State.enableServo (s : State) : State :=
  let i := signed 32 (s.getF F.TRN_SERVO_I_INIT_i_init) * 2 ^ 24
  ((s.setKs fun k => { k with servo := .acquiring, i := i, f := i, lockRun := 0 }).setRate i).showServo

/-- servo_enable written 0 (R80): RATE_NOW = RATE_BASE, I keeps its value, and the lock run is 0 (notes/assumptions/24.md). unlocked
and holdover_exit tell which state has been left (R92, notes/assumptions/68.md). -/
def State.disableServo (s : State) : State :=
  let s1 := ((s.setKs fun k => { k with servo := .disabled, f := 0, lockRun := 0 }).setRate 0).showServo
  (s1.raiseIf (decide (s.key.ks.servo = .locked)) F.TRN_EVENT_unlocked).raiseIf (decide (s.key.ks.servo = .holdover))
    F.TRN_EVENT_holdover_exit

/-- A write of servo_enable and hold reaches the servo (R80, R81): of the table's rows the first that applies is taken, also where
the write repeats the value a field already has. -/
def State.serveCtrl (s : State) (en hold : Bool) : State :=
  let s1 := s.setKs fun k => { k with hold := hold }
  let s2 := if !en then s1.disableServo
    else if s.key.ks.servo = .disabled then s1.enableServo
    else if hold then s1.enterHoldover else s1
  s2.ksLog .hold

/-- A write of TRN.CTRL: only the register after a double fault; deferred in a gap or replay (R80, R84). -/
def State.writeCtrl (s : State) (en hold : Bool) : State :=
  if s.key.doubleFault then s
  else if s.ksBusy then { s with key := { s.key with deferred := s.key.deferred ++ [.ctrl en hold] } }
  else s.serveCtrl en hold

/-- holdover_timeout has expired without an accepted θ (R80). The standby holds the same deadline, so the log keeps the state that
this leaves (R84, R277, notes/assumptions/68.md). -/
def State.serveTimeout (s : State) : State :=
  if s.key.ks.servo = .acquiring ∨ s.key.ks.servo = .locked then s.enterHoldover.ksLog .timer else s

/-- The expiry, unless a θ has been accepted in the same core cycle; it takes effect with that cycle's end (R82). -/
def State.holdTimeout (s : State) : State :=
  if s.key.doubleFault ∨ s.trn.thetaAt = some s.now then s else { s with trn := { s.trn with expired := true } }

/-- A deferred input is a θ. -/
def Deferred.isTheta : Deferred → Bool
  | .theta _ => true
  | _ => false

/-- At the end of a core cycle, an expiry that no θ has made void takes effect; in a gap or replay it waits as an input, and a θ that
waits already comes before it. -/
def State.expire (s : State) : State :=
  if !s.trn.expired then s
  else
    let s1 : State := { s with trn := { s.trn with expired := false } }
    if s1.key.doubleFault then s1
    else if !s1.ksBusy then s1.serveTimeout
    else if s1.key.deferred.any Deferred.isTheta then s1
    else { s1 with key := { s1.key with deferred := s1.key.deferred ++ [.holdTimeout] } }

/-! ### Inputs and outputs (R79, R89, R90) -/

/-- The time inputs and outputs run in every device state from BOOT to PARKING (R89). -/
def State.timeIo (s : State) : Bool := decide (s.dev ≠ .off)

/-- θ of a captured 1PPS edge in 2^−16 ns (R79): the time modulo 1 s, mapped into ±0.5 s, less pps_in_offset. Both ends of that range
stand for a time of exactly 0.5 s: the model takes −0.5 s (DESIGN CHOICE, notes/assumptions/68.md). -/
def ppsTheta (t offset : Nat) : Int :=
  let sec := 10 ^ 9 * 2 ^ 16
  let m := t / 2 ^ 24 % sec
  (if 2 * m < sec then (m : Int) else (m : Int) - sec) - signed 32 offset * 2 ^ 16

/-- TIME_1PPS_IN after an edge. -/
def State.turnPps (s : State) : State := { s with pins := { s.pins with pps := !s.pins.pps } }

/-- An edge at TIME_1PPS_IN: a falling one where the pin was high, a rising one where it was low. The edge that pps_in_edge selects
is captured (R89, R92, notes/assumptions/72.md). -/
def State.ppsIn (s : State) : State :=
  let s0 := s.turnPps
  if !(s.timeIo && s.getB F.TRN_CTRL_pps_in_en && s.getB F.TRN_CTRL_pps_in_edge == s.pins.pps) then s0
  else
    let t := s.trn.time
    let s1 := s0.latchTime Addr.TRN_PPS_IN_SEC_LO Addr.TRN_PPS_IN_SEC_HI Addr.TRN_PPS_IN_NS Addr.TRN_PPS_IN_FRAC t
      (s.timeFlags false)
    let s2 := ({ s1 with trn := { s1.trn with lastPps := some t } } : State).setF F.TRN_STATUS_pps_in_present 1
    if s2.getB F.TRN_CTRL_source then s2.submitTheta (ppsTheta t (s2.getF F.TRN_PPS_IN_OFFSET_pps_in_offset)) else s2

/-- No captured TIME_1PPS_IN edge within 1.1 s of the last (R89), whether or not edges are still captured. -/
def State.ppsMissing (s : State) : State :=
  if s.timeIo && s.trn.lastPps.isSome then
    (({ s with trn := { s.trn with lastPps := none } } : State).setF F.TRN_STATUS_pps_in_present 0).raise
      F.TRN_EVENT_pps_in_missing
  else s

/-- The counter passes a whole second plus pps_out_offset (R89, R90): one pulse of pps_out_width while the output is driven. The
second that a forward step has skipped gives none, and one that a backward step has gone back over gives another. -/
def State.ppsOut (s : State) : State :=
  if !s.timeIo || decide (s.ppsSecond = s.trn.ppsSec) then s
  else
    let t := { s.trn with ppsSec := s.ppsSecond }
    if s.getB F.TRN_CTRL_pps_out_en then
      { s with trn := { t with ppsOut := t.ppsOut + 1, pulse := s.getF F.TRN_PPS_OUT_WIDTH_pps_out_width * 1000 * 2 ^ 40 } }
    else { s with trn := t }

/-- Level of TIME_1PPS_OUT, none while it is not driven (R89, R92). -/
def State.pps1Level (s : State) : Option Bool :=
  if s.timeIo && s.getB F.TRN_CTRL_pps_out_en then some (decide (0 < s.trn.pulse) != s.getB F.TRN_CTRL_pps_out_pol) else none

/-- Level of TIME_10M_OUT, none while it is not driven: 50 ns high and 50 ns low of the counter, rising with the active edges of the
1PPS output (R89). -/
def State.clk10mLevel (s : State) : Option Bool :=
  if s.timeIo && s.getB F.TRN_CTRL_clk10m_out_en then
    some (decide (((s.trn.time : Int) - s.ppsOffset) % (100 * 2 ^ 40) < 50 * 2 ^ 40))
  else none

/-- Result of one second's comparison of TIME_10M_IN (R89), in 2^−8 ppb. While it is not measured the registers keep what was
measured last (notes/assumptions/68.md). -/
def State.measure10M (s : State) (offset : Int) (inRange : Bool) : State :=
  if s.timeIo && s.getB F.TRN_CTRL_clk10m_in_en then
    (s.setF F.TRN_FREQ_IN_MEAS_freq_in (unsigned 32 offset)).setF F.TRN_STATUS_clk10m_in_present (b2n inRange)
  else s

/-- First divider of a recovered clock, by the rate of the lanes of a running type (R91). -/
def laneDivider (t : Nat) : Nat :=
  if t ≤ 3 ∨ 15 < t then 340 else if t ≤ 5 then 170 else if t ≤ 10 then 165 else if t ≤ 14 then 66 else 8

/-- Lanes of a running type (R73). -/
def typeLanes (t : Nat) : Nat :=
  if t = 0 ∨ 15 < t then 8 else if t = 2 then 2 else if t ∈ [1, 4, 6, 7, 11, 12] then 4 else 1

/-- Recovered-clock output `c` (R89, R91): its first divider and its post divider; none while it is held low. A lane of a port that
is link_up has not lost lock; a lane that the port does not have counts as one that has (notes/assumptions/68.md). -/
def State.recclkOut (s : State) (c : Nat) : Option (Nat × Nat) :=
  let p := s.getF (F.TRN_RECCLK_CFG_src_port c)
  let good := s.portExists p && s.linkUp p && decide (s.getF (F.TRN_RECCLK_CFG_src_lane c) < typeLanes (s.runType p))
  if !(s.timeIo && s.getB (F.TRN_RECCLK_CFG_enable c)) || (s.getB (F.TRN_RECCLK_CFG_squelch c) && !good) then none
  else some (laneDivider (s.runType p), s.getF (F.TRN_RECCLK_CFG_post_div c))

/-- Block rules of a write to a TRN register (R70, R71, R79, R80, R84). A write of pps_out_offset moves the seconds that the 1PPS output
marks: the one the counter is then in has been passed. -/
def State.trnAfter (s : State) (a : Nat) (armed : Bool) (v : Word) : State :=
  if a = Addr.TRN_CTRL then s.writeCtrl (s.getB F.TRN_CTRL_servo_enable) (s.getB F.TRN_CTRL_hold)
  else if a = Addr.TRN_PPS_OUT_OFFSET then { s with trn := { s.trn with ppsSec := s.ppsSecond } }
  else if a = Addr.TRN_RATE_BASE_LO ∨ a = Addr.TRN_RATE_BASE_HI then (if armed then s.rerate else s)
  else if a = Addr.TRN_TIME_SET then (if armed && fldOf v 0 1 = 1 then s.scheduleSet else s)
  else if a = Addr.TRN_TIME_CAPTURE then (if fldOf v 0 1 = 1 then s.captureTime else s)
  else if a = Addr.TRN_OFFSET_HI then
    if s.getB F.TRN_CTRL_source then s.discardTheta
    else s.submitTheta (signed 48 ((s.reg Addr.TRN_OFFSET_LO).toNat + fldOf v 0 16 * 2 ^ 32))
  else s

end Sys2Proof.Machine
end

