-- ==== Sys2Proof/Machine/Loads.lean ====
section
/-! DEFINITION. The load commands: LOAD_ASHLAR (R144), PATCH_ASHLAR (R152 to R154, R188) and LOAD_EPHEMERIS (R94, R99), their
leave and the hold while a bank drains (R150), and DRAIN_END. -/

namespace Sys2Proof.Machine

/-! ### Writing a bank -/

/-- Cost of a bulk TCAM rewrite (R394). -/
def tcamLeave (ring : Nat) : Grant := ⟨4, ring, 200⟩

/-- Static entries of a valid bank. -/
def AshBank.held (b : AshBank) : List StaticEntry := if b.valid then b.statics else []

/-- Write a full image into the shadow bank (R144 step 4): the bank is valid and its static entries go out on the bus. -/
def State.writeFull (s : State) (b : AshBank) : State :=
  (s.setAsh true b).staticEvents b.statics s.ash.1.held (s.physBank true) true

/-- Apply a patch to its bank (R152, R305, R410): content, static entries, running state, report; none when the tables no
longer hold it. -/
def State.writePatch (s : State) (l : Load) : Option State :=
  match s.reserveTables l.shadow l.content with
  | none => none
  | some s1 =>
    let old := s1.ashOf l.shadow
    let b : AshBank := { l.content with poison := old.poison.filter fun p => !(l.written.any fun w => decide (w = p)) }
    let me := s1.physBank l.shadow
    let oth := (s1.ashOf (!l.shadow)).held
    let s2 := s1.staticEvents (old.statics.filter fun (e : StaticEntry) => decide (e ∉ b.statics)) oth me false
    let s3 := (s2.setAsh l.shadow b).staticEvents (b.statics.filter fun (e : StaticEntry) => decide (e ∉ old.statics)) oth me true
    let left := b.poison.map fun p => entryInst p.1 p.2
    let s4 := if l.shadow then s3 else ((s3.sectionsChanged old).advanceFor b.sig).dropCause fun c =>
      match c with | .redundancy d i => decide (d = 9) && decide (i ∉ left) | _ => false
    let s5 := (s4.setF (F.PIPE_PATCH_STATUS_items_applied 0) l.items).setF (F.PIPE_PATCH_STATUS_patch_state 0) 2
    some (s5.each (List.range 8) fun t n => t.raise (F.PIPE_EVENT_patch_done n))

/-- A patch is refused (PIPE.PATCH_STATUS). -/
def State.patchRefused (s : State) : State :=
  (s.setF (F.PIPE_PATCH_STATUS_items_applied 0) 0).setF (F.PIPE_PATCH_STATUS_patch_state 0) 3

/-- Write the bank of a load or patch whose leave and bank are free: final status, result0 and the state. -/
def State.writeLoad (s : State) (l : Load) : Nat × Nat × State :=
  if l.isPatch then
    match s.writePatch l with
    | none => (0x0B, 0, s.patchRefused)
    | some s1 => (0, l.content.id, s1)
  else (0, l.content.id, s.writeFull l.content)

/-- The load must wait for its bank to drain (R150). -/
def State.mustDrain (s : State) (l : Load) : Bool := s.draining && l.shadow && !l.isPatch

/-- Begin a load or patch that has passed its checks: leave is asked for when it writes TCAM entries. -/
def State.startLoad (s : State) (l : Load) (tcam : Bool) : CmdRes × State :=
  let wait := fun (t : State) (asking : Bool) => { t with loads := t.loads ++ [{ l with asking := asking }] }
  let go := fun (t : State) =>
    if t.mustDrain l then (CmdRes.wait (.drain l.ring), wait t false)
    else
      let (c, r, t1) := t.writeLoad l
      (.done c r 0, t1.returnGrant 4 l.ring)
  if !tcam then go s
  else match s.askLeave (tcamLeave l.ring) with
    | (.granted, s1) => go s1
    | (.queued, s1) =>
      (.wait (.leave 4 l.ring), (wait s1 true).doIf l.isPatch fun t =>
        (t.setF (F.PIPE_PATCH_STATUS_items_applied 0) 0).setF (F.PIPE_PATCH_STATUS_patch_state 0) 1)
    | (.refused _, s1) => (.fail 0x06, if l.isPatch then s1.patchRefused else s1.freeTables true)

/-- A load that was waiting ends: its bank is written, its grant returned and its command completed. -/
def State.endLoad (s : State) (l : Load) : State :=
  let s0 : State := { s with loads := s.loads.filter fun k => decide (k.ring ≠ l.ring) }
  let (c, r, s1) := s0.writeLoad l
  (s1.returnGrant 4 l.ring).completeWaiting (fun w => decide (w = .drain l.ring) || decide (w = .leave 4 l.ring)) c r 0

/-- A waiting load's leave has been granted: it goes on, or is held while its bank drains. -/
def State.loadGranted (s : State) (ring : Nat) : State :=
  match s.loads.find? fun l => decide (l.ring = ring) with
  | none => s.returnGrant 4 ring
  | some l =>
    if s.mustDrain l then { s with loads := s.loads.map fun k => if k.ring = ring then { k with asking := false } else k }
    else s.endLoad l

/-- A waiting load's leave has been refused: the bank stays empty, or the patch changes nothing. -/
def State.loadRefused (s : State) (ring : Nat) : State :=
  match s.loads.find? fun l => decide (l.ring = ring) with
  | none => s
  | some l =>
    let s0 : State := { s with loads := s.loads.filter fun k => decide (k.ring ≠ ring) }
    (if l.isPatch then s0.patchRefused else s0.freeTables true).completeWaiting
      (fun w => decide (w = .leave 4 ring)) 0x06 0 0

/-- Some frame resolved against the bank that is now the shadow awaits expansion (R225). -/
def State.drainingFrames (s : State) : Bool :=
  s.fab.frames.any fun (_, f) => match f with
    | some f => decide (f.stage = .expand) && decide (f.bank = s.physBank true)
    | none => false

/-- The last header of the previous bank has left (R150, R225): a load held for it is written. -/
def State.drainEnd (s : State) : State :=
  if s.draining && !s.drainingFrames then
    let s1 : State := { s with draining := false }
    s1.each (s1.loads.filter fun l => !l.asking) State.endLoad
  else s

/-! ### LOAD_ASHLAR -/

/-- The pending request selects a bank: bit 0 the Ephemeris, bit 1 the Ashlar image. -/
def State.pendSelects (s : State) (bit : Nat) : Bool := match s.key.ks.pend with | some p => bitAt p.sel bit | none => false

/-- A load into the shadow bank is running (R144, R154). -/
def State.shadowLoads (s : State) : Bool := s.loads.any Load.shadow || s.unitWaits fun e => decide (e.opcode = 0x10)

/-- Target of a PATCH_ASHLAR command: the shadow bank. -/
def patchesShadow (d : CmdDesc) : Bool := decide (argLe d 24 1 = 1)

/-- Busy check of LOAD_ASHLAR (R109, R144, R154). -/
def State.loadBusy (s : State) : Nat :=
  if s.pendSelects 1 || s.shadowLoads || s.unitWaits (fun e => decide (e.opcode = 0x11) && patchesShadow e.desc) then 0x07 else 0

/-- Steps 1 to 4 of R144 for the object of a LOAD_ASHLAR. -/
def State.loadAshlarWork (e : InFlight) (s : State) : CmdRes × State :=
  let img := e.obj
  match s.verify img 2 with
  | (.error c, s1) => (.fail c, s1)
  | (.ok p, s1) =>
    match imageCheck img p (s1.fnVersion (s1.ownerFn e.ring)) with
    | 0 =>
      let b := bankOf img (signedOf img p)
      (match s1.reserveTables true b with
        | none => (.fail 0x0B, s1)
        | some s2 => s2.startLoad ⟨e.ring, false, true, b, 0, [], false⟩ (decide (b.tcamCount ≠ 0)))
    | c => (.fail c, s1)

/-- LOAD_ASHLAR (R144): the shadow bank is empty from acceptance. -/
def State.loadAshlarBody (s : State) (e : InFlight) : CmdRes × State :=
  let s1 := s.emptyShadow
  if e.desc.memErr then (.fail 0x0E, s1) else s1.unitWork e State.loadAshlarWork

/-! ### PATCH_ASHLAR (R152, R188) -/

/-- One patch item. -/
structure PatchItem where
  target : Nat
  del : Bool
  more : Bool
  chunk : Nat
  index : Nat
  data : List Byte
  clean : Bool
  deriving DecidableEq, Repr

/-- Item `i` of a patch's section 15. -/
def patchItem (x : Blob) (i : Nat) : PatchItem :=
  let o := 64 * i
  let w := x.le o 2
  ⟨bitsOf w 0 8, bitAt w 8, bitAt w 9, bitsOf (x.le (o + 2) 2) 0 12, x.le (o + 4) 4, x.list (o + 8) 56,
    decide (w < 2 ^ 10) && decide (x.le (o + 2) 2 < 2 ^ 12)⟩

/-- Place and size of entry `index` of section `t`: none where the section has no such entry. Sections 11 and 13 number
their entries in their order: directory or stream entries first, then copy or recovery entries (notes/assumptions/27.md). -/
def AshBank.entryAt (b : AshBank) (t index : Nat) : Option (Nat × Nat) :=
  let flat := fun (base size n : Nat) => if index < n then some (base + size * index, size) else none
  let two := fun (base s1 n1 s2 n2 : Nat) =>
    if index < n1 then some (base + s1 * index, s1)
    else if index < n1 + n2 then some (base + s1 * n1 + s2 * (index - n1), s2) else none
  let n := fun (i : Nat) => (b.sec t).le i 4
  if t = 1 then flat 0 16 512 else if t = 2 then flat 0 88 4096 else if t = 3 then flat 0 8 b.routerMacs
  else if t = 4 then flat 0 4 b.extractors else if t = 5 then flat 0 4 (2 ^ (b.w2 + b.w3 + b.wc))
  else if t = 6 then flat 0 32 b.records else if t = 7 then flat 0 4 b.editProfiles
  else if t = 11 then (if (b.sec 11).len = 0 then none else two 16 8 b.groups 16 (n 4))
  else if t = 12 then (if (b.sec 12).len = 0 then none else flat 0 128 16)
  else if t = 13 then (if (b.sec 13).len = 0 then none else two 64 8 (n 0) 16 (n 4))
  else if t = 14 then (if index = 0 ∨ n 0 < index then none else some (16 + 32 * (index - 1), 32))
  else none

/-- Header and entry size of the ordinal sections 8 to 10. -/
def ordinalForm (t : Nat) : Nat × Nat := if t = 8 then (0, 16) else if t = 9 then (0, 24) else (64, 56)

/-- Replace section `t`. -/
def AshBank.setSec (b : AshBank) (t : Nat) (x : Blob) : AshBank := { b with secs := SMap.set (fun _ => ⟨0, []⟩) t x b.secs }

/-- Chunks of a run do not overlap, and place only zeros beyond the end of an entry of `size` bytes. -/
def chunksOk (size : Nat) : List PatchItem → Bool
  | [] => true
  | i :: r =>
    ((i.data.drop (size - 8 * i.chunk)).all fun b => decide (b = 0))
      && r.all (fun j => decide (min size (8 * i.chunk + 56) ≤ 8 * j.chunk) || decide (min size (8 * j.chunk + 56) ≤ 8 * i.chunk))
      && chunksOk size r

/-- Apply one run of items to a bank's content (R152, R188): none where an item is refused. -/
def AshBank.applyRun (b : AshBank) (run : List PatchItem) : Option AshBank :=
  match run with
  | [] => some b
  | i :: r =>
    if !run.all (fun j => j.clean && decide (j.target = i.target) && decide (j.del = i.del) && decide (j.index = i.index)) then none
    else if 8 ≤ i.target ∧ i.target ≤ 10 then
      let (h, sz) := ordinalForm i.target
      let x := b.sec i.target
      let n := (x.len - h) / sz
      let o := h + sz * i.index
      if r ≠ [] ∨ i.chunk ≠ 0 then none
      else if i.del then
        if n ≤ i.index ∨ !i.data.all (fun b => decide (b = 0)) then none
        else some (b.setSec i.target ((x.slice 0 o).append (x.slice (o + sz) (x.len - o - sz))))
      else if n < i.index ∨ x.len < h ∨ !chunksOk sz [i] then none
      else some (b.setSec i.target ({ x with len := max x.len (o + sz) }.write o (i.data.take sz)))
    else if i.del then none
    else match b.entryAt i.target i.index with
      | none => none
      | some (o, sz) =>
        if !chunksOk sz run then none
        else
          let put := fun (x : Blob) (j : PatchItem) => x.write (o + 8 * j.chunk) (j.data.take (sz - 8 * j.chunk))
          some (b.setSec i.target (run.foldl put (b.sec i.target)))

/-- Split items into runs: a run ends at the first item without more; none when the last item has more set. -/
def runsOf : List PatchItem → List PatchItem → Option (List (List PatchItem))
  | [], [] => some []
  | _ :: _, [] => none
  | acc, i :: r => if i.more then runsOf (acc ++ [i]) r else (runsOf [] r).map fun l => (acc ++ [i]) :: l

/-- Apply runs in order. -/
def AshBank.applyRuns (b : AshBank) : List (List PatchItem) → Option AshBank
  | [] => some b
  | r :: rs => match b.applyRun r with
    | some c => c.applyRuns rs
    | none => none

/-- The content that a patch leaves, with the entries it writes (R145, R152): none where it is refused. -/
def patchedBank (img : Blob) (sigAt : Nat) (sig : Signed) (b : AshBank) : Option (AshBank × List (Nat × Nat)) :=
  let n := img.le 0x38 4
  let pi := bankOf img sig
  let x := pi.sec 15
  if !(layoutOk img sigAt true && headerOk pi (limitsOf 4) true && decide (x.len = 64 * n)) then none
  else if !b.valid ∨ b.id ≠ img.le 0x10 8 ∨ b.fmt ≠ 4 then none
  else
    let items := (List.range n).map (patchItem x)
    match runsOf [] items with
    | none => none
    | some rs => match b.applyRuns rs with
      | none => none
      | some c =>
        let d := { c with hdr := c.hdr.write 8 (img.list 8 8), id := img.le 8 8,
                          sig := { sig with measure := patchMeasure b.sig.measure sig.measure } }
        if contentOk d then some (d, items.map fun i => (i.target, i.index)) else none

/-- Check of a patch object: format and kind, then content (R145, R146). -/
def patchVersion (img : Blob) : Nat :=
  if img.le 0 4 ≠ 0x4C485341 ∨ img.le 6 2 ≠ 0x100 then 0x02
  else if img.le 4 2 ≠ 3 ∧ img.le 4 2 ≠ 4 then 0x04
  else if img.le 4 2 = 3 then 0x02 else 0

/-- Busy check of PATCH_ASHLAR (R154). -/
def State.patchBusy (s : State) (d : CmdDesc) : Nat :=
  if s.key.ks.pend.isSome ∨ s.loads.any Load.isPatch ∨ s.unitWaits (fun e => decide (e.opcode = 0x11))
      ∨ (patchesShadow d = true ∧ s.shadowLoads) then 0x07 else 0

/-- The work of a PATCH_ASHLAR on its object (R152). -/
def State.patchAshlarWork (e : InFlight) (s : State) : CmdRes × State :=
  let (d, img) := (e.desc, e.obj)
  match s.verify img 2 with
  | (.error c, s1) => (.fail c, s1.patchRefused)
  | (.ok p, s1) =>
    match patchVersion img, patchedBank img p (signedOf img p) (s1.ashOf (patchesShadow d)) with
    | 0, some (b, w) =>
      if (s1.reserveTables (patchesShadow d) b).isNone then (.fail 0x0B, s1.patchRefused)
      else s1.startLoad ⟨d.ring, true, patchesShadow d, b, img.le 0x38 4, w, false⟩ (w.any fun x => decide (x.1 = 10))
    | 0, none => (.fail 0x02, s1.patchRefused)
    | c, _ => (.fail c, s1.patchRefused)

/-- PATCH_ASHLAR. -/
def State.patchAshlarBody (s : State) (e : InFlight) : CmdRes × State :=
  if e.desc.memErr then (.fail 0x0E, s.patchRefused) else s.unitWork e State.patchAshlarWork

/-! ### LOAD_EPHEMERIS (R94, R99, R405) -/

/-- Busy check of LOAD_EPHEMERIS (R94, R109): an earlier load that still waits for the security unit is one that is being written. -/
def State.ephBusy (s : State) : Nat := if s.pendSelects 0 || s.unitWaits (fun e => decide (e.opcode = 0x12)) then 0x07 else 0

/-- The work of a LOAD_EPHEMERIS on its object: the bank is valid once the calendar has passed its checks. -/
def State.loadEphWork (e : InFlight) (s : State) : CmdRes × State :=
  let img := e.obj
  match s.verify img 3 with
  | (.error c, s1) => (.fail c, s1)
  | (.ok p, s1) =>
    match ephCheck img p with
    | 0 => (.done 0 (ephId img) 0, { s1 with eph := (s1.eph.1, ⟨true, img.slice 0 p, signedOf img p, []⟩) })
    | c => (.fail c, s1)

/-- LOAD_EPHEMERIS: the shadow bank is empty from acceptance. -/
def State.loadEphBody (s : State) (e : InFlight) : CmdRes × State :=
  let s1 : State := { s with eph := (s.eph.1, .empty) }
  if e.desc.memErr then (.fail 0x0E, s1) else s1.unitWork e State.loadEphWork

end Sys2Proof.Machine
end

