-- ==== Sys2Proof/Machine/Lookup.lean ====
section
/-! DEFINITION. The forwarding pipeline from the parser to the action record (R124 to R137): lookups, the classification key,
the resolution, and the parity errors a lookup finds (R161, R178). -/

namespace Sys2Proof.Machine

/-- The Ashlar bank that is physical bank `b` (R150). -/
def State.ashPhys (s : State) (b : Nat) : AshBank := s.ashOf (decide (b ≠ s.physBank false))

/-! ### Classification key (R132) -/

/-- `width` bits of a frame from bit `bit` (0 = most significant) of byte `off`. -/
def frameBits (l : List Byte) (off bit width : Nat) : Nat :=
  let n := (bit + width + 7) / 8
  beAt l off n / 2 ^ (8 * n - bit - width) % 2 ^ width

/-- Offset of anchor A`k`. -/
def anchorOf (h : Hdr) (win k : Nat) : Option Nat :=
  match k with
  | 0 => some 0
  | 1 => anchor win (some h.a1)
  | 2 => h.a2
  | 3 => h.a3
  | 4 => h.a4
  | _ => h.a5

/-- A meta field of a frame. `vrf` is zero when it is not routed. -/
def metaField (h : Hdr) (p vrf : Nat) (routed : Bool) (k : Nat) : Nat :=
  match k with
  | 0 => p
  | 1 => h.vlan
  | 2 => vrf
  | 3 => h.exc
  | 4 => h.pcp
  | 5 => h.tags
  | 6 => h.l3
  | 7 => b2n routed
  | 8 => b2n h.rtag.isSome
  | 9 => h.rtag.getD 0
  | _ => 0

/-- Value of an extractor and its presence bit. A META field is always present. -/
def Extractor.read (x : Extractor) (h : Hdr) (p vrf : Nat) (routed : Bool) (l : List Byte) : Nat × Bool :=
  if x.source = 8 then (metaField h p vrf routed x.offset % 2 ^ x.width, true)
  else
    let win := min 256 l.length
    match anchorOf h win x.source with
    | none => (0, false)
    | some a =>
      if 8 * win < 8 * (a + x.offset) + x.bit + x.width then (0, false)
      else (frameBits l (a + x.offset) x.bit x.width, true)

/-- Pack the fields of some extractors from bit `pos` up, each with its most significant bit first. -/
def packKey (h : Hdr) (p vrf : Nat) (routed : Bool) (l : List Byte) : Nat → List Extractor → Nat
  | _, [] => 0
  | pos, x :: r =>
    let (v, here) := x.read h p vrf routed l
    msbFirst v x.width x.width * 2 ^ pos + (if x.present then b2n here * 2 ^ (pos + x.width) else 0)
      + packKey h p vrf routed l (pos + x.width + b2n x.present) r

/-- The 160-bit classification key. -/
def AshBank.classKey (b : AshBank) (h : Hdr) (p vrf : Nat) (routed : Bool) (l : List Byte) : Nat :=
  packKey h p vrf routed l 0 ((List.range b.extractors).map b.extractor) % 2 ^ 160

/-! ### Table errors (R161, R178) -/

/-- Record a table error of pipeline `n`: 0 learned MAC table, 1 host-route table, 2 TCAM. -/
def State.tblErr (s : State) (n table index : Nat) : State :=
  (s.setF (F.PIPE_TBL_ERR_table n) table).setF (F.PIPE_TBL_ERR_index n) index

/-- A way with bad parity is removed, counted and reported (0x0A); a static entry is written again from the entry store (R161). -/
def State.badWay (s : State) (n w : Nat) (e : MacEntry) : State :=
  let fresh := if e.static then some { e with parityGood := true } else none
  ((((s.setTab n ((s.tab n).setWay w fresh)).count 4 n 12).raise (F.PIPE_LRN_EVENT_table_error n)).tblErr n 0 w).react 0x0A 0 w 0

/-- Handle the bad ways among some. -/
def State.checkWays (s : State) (n : Nat) (ws : List Nat) : State :=
  s.each ws fun t w => match (t.tab n).way w with
    | some e => if e.parityGood then t else t.badWay n w e
    | none => t

/-- A host-route unit with bad parity is rewritten from the entry store; every pipeline shows the error (R178, R189). -/
def State.badUnit (s : State) (u : Nat) : State :=
  let s1 : State := { s with hr := s.hr.map fun e => if e.unit = u then { e with parityGood := true } else e }
  ((s1.each (List.range 8) fun t n => t.count 4 n 14).each s1.pipesOn fun t n =>
    (t.raise (F.PIPE_LRN_EVENT_hr_error n)).tblErr n 1 u).react 0x0A 0 u 0

/-- Handle the bad units among the entries whose unit lies in some buckets of 8. -/
def State.checkUnits (s : State) (buckets : List Nat) : State :=
  s.each (s.hr.filter fun e => !e.parityGood && buckets.any fun b => decide (b ≤ e.unit) && decide (e.unit < b + 8)) fun t e =>
    t.badUnit e.unit

/-! ### Lookups (R133 to R135, R160, R178, R180) -/

/-- The entry that a lookup of (VLAN, MAC) in pipeline `n` finds for physical bank `bank` (R160). -/
def State.macLookup (s : State) (n vlan mac bank : Nat) : Option MacEntry :=
  ((s.tab n).find vlan mac fun e => !e.static || bitAt e.bankMask bank).map Prod.snd

/-- Result of the L2 lookup (R133): l2_class and dest_ref. -/
def State.l2Lookup (s : State) (n : Nat) (b : AshBank) (bank : Nat) (h : Hdr) (da : Nat) : Nat × Option Nat :=
  let v := b.vlan h.vlan
  match s.macLookup n h.vlan da bank with
  | some e => if e.static then (e.l2class, some e.destRef) else (v.learned, some e.port)
  | none => (if da = 0xFFFFFFFFFFFF then v.bc else if bitAt da 40 then v.mcMiss else v.ucMiss, none)

/-- The host route of a key for a bank: half 0 first, then the lower unit (R178). -/
def State.hostRoute (s : State) (vrf : Nat) (v6 : Bool) (addr bank : Nat) : Option HrEntry :=
  let hits := s.hr.filter fun e => e.parityGood && decide (e.vrf = vrf) && decide (e.v6 = v6) && decide (e.addr = addr)
    && bitAt e.mask bank
  hits.foldl (fun a e => match a with
    | none => some e
    | some x => some (if e.unit < x.unit then e else x)) none

/-- The TCAM entry of a kind that a search for a key returns: the lowest global address (R180). -/
def State.tcamSearch (s : State) (lpm : Bool) (key bank : Nat) : Option TcamEntry :=
  s.tcam.findSome? fun (_, e) => match e with
    | none => none
    | some e => if decide (e.lpm = lpm) && bitAt e.banks bank && decide (key &&& e.care = e.value) then some e else none

/-- Key of an LPM search (R181). -/
def lpmKey (vrf : Nat) (v6 : Bool) (addr : Nat) : Nat :=
  vrf + b2n v6 * 2 ^ 10 + (if v6 then msbFirst addr 128 128 else msbFirst addr 32 32) * 2 ^ 11

/-- Result of the L3 lookup of a routed frame: l3_class and nh_ref (R134). -/
def State.l3Lookup (s : State) (bank vrf : Nat) (v6 : Bool) (addr : Nat) : Nat × Option Nat :=
  match s.hostRoute vrf v6 addr bank with
  | some e => (e.cls, some e.nh)
  | none => match s.tcamSearch true (lpmKey vrf v6 addr) bank with
    | some e => (e.result, some e.nh)
    | none => (1, none)

/-- The frame is routed (R134). -/
def AshBank.routed (b : AshBank) (h : Hdr) (da : Nat) : Bool :=
  let v := b.vlan h.vlan
  v.vrfValid && (List.range b.routerMacs).any (fun i => bitAt v.routers i && decide (b.routerMac i = da))
    && ((decide (h.l3 = 1) && !bitAt h.exc 6) || (decide (h.l3 = 2) && !bitAt h.exc 8))

/-! ### Resolution (R136) -/

/-- What a header resolved to: its resolution index, the reference mode, the reference, and the record number, or none of it
where the reference is none or out of span. -/
structure Resolved where
  index : Nat
  mode : Nat
  ref : Option Nat
  record : Option Nat
  l3 : Bool
  deriving DecidableEq, Repr

/-- Resolve a parsed frame of port `p` in pipeline `n` against physical bank `bank`. -/
def State.resolve (s : State) (n p bank : Nat) (h : Hdr) (l : List Byte) : Resolved :=
  let b := s.ashPhys bank
  let da := beAt l 0 6
  let v6 := decide (h.l3 = 2)
  let a2 := h.a2.getD 0
  let rt := b.routed h da
  let vrf := if rt then (b.vlan h.vlan).vrf else 0
  let (c2, dref) := s.l2Lookup n b bank h da
  let (c3, nh) := if rt then s.l3Lookup bank vrf v6 (if v6 then beAt l (a2 + 24) 16 else beAt l (a2 + 16) 4) else (0, none)
  let cls := match s.tcamSearch false (b.classKey h p vrf rt l) bank with
    | some e => e.result
    | none => 0
  let idx := c2 * 2 ^ (b.w3 + b.wc) + c3 * 2 ^ b.wc + cls
  let w := b.resolution idx
  let mode := bitsOf w 20 2
  let ref := if mode = 0 then some 0 else if mode = 1 then dref else if mode = 2 then nh else some h.vlan
  let rec_ := match ref with
    | none => none
    | some r => if r < b.span mode then some (bitsOf w 0 20 + r) else none
  ⟨idx, mode, ref, rec_, rt⟩

/-- Note a reference that is none or out of span (R136). -/
def State.rangeError (s : State) (n : Nat) (r : Resolved) : State :=
  let w := (F.PIPE_RES_ERR_res_index n).put r.index <| (F.PIPE_RES_ERR_ref_mode n).put r.mode <|
    (F.PIPE_RES_ERR_ref_none n).put (b2n r.ref.isNone) 0
  (((s.count 3 n 3).raise (F.PIPE_EVENT_res_range_error n)).setReg (Addr.PIPE_RES_ERR n) w).setF
    (F.PIPE_RES_ERR_REF_ref n) (r.ref.getD 0)

/-- The member entry of a function that a port belongs to (R237). -/
def AshBank.memberOf (b : AshBank) (e : RecEntry) (p : Nat) : Option Nat := e.streams.find? fun k => (b.stream k).port = p

/-- Stream entries that finding the member of a port reads: up to the one that names it. -/
def AshBank.membersRead (b : AshBank) (e : RecEntry) (p : Nat) : List Nat :=
  e.streams.takeWhile (fun k => decide ((b.stream k).port ≠ p)) ++ (b.memberOf e p).toList

/-- Entries that an edit reads: its profile, and the router MAC that it writes as source address where the profile has it write one. -/
def AshBank.editReads (b : AshBank) (profile sa : Nat) : List (Nat × Nat) :=
  (7, profile) :: if profile ≠ 0 ∧ bitsOf (b.editProfile profile) 7 1 = 1 then [(3, sa)] else []

/-- Entries of the image that acting on a record reads for a frame of port `p`, as (section, entry) (R305). -/
def AshBank.recordReads (b : AshBank) (p : Nat) (a : Act) : List (Nat × Nat) :=
  b.editReads a.profile a.sa
    ++ (if a.dtype = 2 then
          let (first, n, _) := b.group a.dest
          (11, a.dest) :: (List.range n).flatMap fun i => 
            (11, b.groups + first + i) :: b.editReads (b.copyEntry (first + i)).profile (b.copyEntry (first + i)).sa
        else [])
    ++ (if a.mirrorEn then [(12, a.session)] else [])
    ++ (if a.role = 1 then [(13, a.fn)] else if a.role = 2 then
          (13, (b.sec 13).le 0 4 + a.fn) :: (b.membersRead (b.recovery a.fn) p).map fun k => (13, k)
        else [])
    ++ (if a.policer = 0 then [] else [(14, a.policer)])

/-- Entries of the image that resolving a frame, and acting on its record where it has one, reads, as (section, entry) (R305). -/
def AshBank.entriesRead (b : AshBank) (p : Nat) (h : Hdr) (r : Resolved) (a : Act) : List (Nat × Nat) :=
  let v := b.vlan h.vlan
  [(1, p), (2, h.vlan), (5, r.index)]
    ++ ((List.range b.routerMacs).filter fun i => bitAt v.routers i).map (fun i => (3, i))
    ++ (List.range b.extractors).map (fun i => (4, i))
    ++ (match r.record with
        | none => []
        | some k => (6, k) :: b.recordReads p a)

end Sys2Proof.Machine
end

