-- ==== Sys2Proof/Machine/Learning.lean ====
section
/-! DEFINITION. Learning (R162 to R175): the SA probe and the learn queue, the learn bus, and what each pipeline does when it
applies an event; ageing, flapping and flushing; the background checks (R179, R185). -/

namespace Sys2Proof.Machine

/-! ### Raising events (R162, R163) -/

/-- What the SA probe of a frame finds in pipeline `n` (R162). -/
def State.probe (s : State) (n vlan sa port bank : Nat) : Probe :=
  match s.macLookup n vlan sa bank with
  | none => .learn
  | some e =>
    if e.static then .fixed
    else if e.port = port then (if e.hit then .none else .refresh)
    else if e.frozen then .frozen else .learn

/-- Queue an event in pipeline `n`'s learn queue of 256 (R163). -/
def State.queueEvent (s : State) (n : Nat) (e : BusEvent) : State :=
  let t := s.tab n
  if e ∈ t.queue then s.count 4 n 1
  else if 256 ≤ t.queue.length then (s.count 4 n 2).raise (F.PIPE_LRN_EVENT_queue_full n)
  else (s.setTab n { t with queue := t.queue ++ [e] }).count 4 n 0

/-- Change the learned entry of a key in pipeline `n`. -/
def State.changeLearned (s : State) (n vlan mac : Nat) (f : MacEntry → MacEntry) : State :=
  match (s.tab n).find vlan mac fun e => !e.static with
  | some (w, e) => s.setTab n ((s.tab n).writeWay w (f e))
  | none => s

/-- Act on a frame's probe once its FCS has been found good (R162). -/
def State.raiseLearn (s : State) (n : Nat) (k : Probe) (vlan sa port : Nat) : State :=
  match k with
  | .none => s
  | .learn => s.queueEvent n (.learn vlan sa port n)
  | .refresh => (s.changeLearned n vlan sa fun e => { e with hit := true }).queueEvent n (.refresh vlan sa port n)
  | .frozen => s.count 4 n 7
  | .fixed => s.count 4 n 8

/-! ### The learn bus (R164) -/

/-- Give an event the next sequence number and deliver it to every powered pipeline. -/
def State.deliver (s : State) (e : BusEvent) : State :=
  let s1 := s.setF (F.PIPE_LRN_BUS_SEQ_bus_seq 0) ((s.getF (F.PIPE_LRN_BUS_SEQ_bus_seq 0) + 1) % 2 ^ 32)
  s1.each s1.pipesOn fun t n => t.setTab n { t.tab n with fifo := (t.tab n).fifo ++ [e] }

/-- The pipeline that the arbiter grants next: round-robin after the one last granted. -/
def State.nextLearner (s : State) : Option Nat :=
  ((List.range 8).map fun i => (s.learnPtr + 1 + i) % 8).find? fun n => !(s.tab n).queue.isEmpty && s.domainOn (17 + n)

/-- One grant slot (R164). During a switchover gap, and with no unit active, nothing is granted (R286). The core die holds what was
granted: no copy of the conductor's state issues it again (R282, R287). -/
def State.grantSlot (s : State) : State :=
  if s.inGap || s.activeUnit.isNone then s
  else
    let waits := !s.key.ks.ctl.isEmpty || s.nextLearner.isSome
    if s.pipesOn.any fun n => decide (61 < (s.tab n).fifo.length) then
      if waits then s.each (List.range 8) fun t n => t.count 4 n 13 else s
    else match s.key.ks.ctl with
      | e :: _ => (s.allKs fun k => { k with ctl := k.ctl.erase e }).deliver e
      | [] => match s.nextLearner with
        | none => s
        | some n => match (s.tab n).queue with
          | [] => s
          | e :: r =>
            let s1 := s.setTab n { s.tab n with queue := r }
            ({ s1 with learnPtr := n } : State).deliver e

/-- Take the event at the head of pipeline `n`'s apply FIFO when it satisfies a test and no flush pass runs. -/
def State.takeEvent (s : State) (n : Nat) (f : BusEvent → State → State) : State :=
  let t := s.tab n
  if t.flushing.isSome || !s.domainOn (17 + n) then s
  else match t.fifo with
    | [] => s
    | e :: _ => f e s

/-- Drop the event at the head of pipeline `n`'s apply FIFO. -/
def State.popEvent (s : State) (n : Nat) : State := s.setTab n { s.tab n with fifo := (s.tab n).fifo.drop 1 }

/-! ### Insertion (R168) -/

/-- Passes since an entry's stamp, modulo 256. -/
def PipeTab.behind (t : PipeTab) (e : MacEntry) : Nat := (t.pass + 256 - e.stamp % 256) % 256

/-- Candidates of a key that may be evicted. -/
def PipeTab.victims (t : PipeTab) (vlan mac : Nat) : List (Nat × MacEntry) :=
  (t.cands vlan mac).filterMap fun w => match t.way w with
    | some e => if e.static || e.frozen then none else some (w, e)
    | none => none

/-- The victim furthest behind, the first of equals. -/
def PipeTab.oldest (t : PipeTab) : List (Nat × MacEntry) → Option (Nat × MacEntry)
  | [] => none
  | v :: r =>
    match t.oldest r with
    | none => some v
    | some u => if t.behind v.2 < t.behind u.2 then some u else some v

/-- Write an entry, evicting where no room can be made (R168): whether it was written. RANDOM picks by a fresh value
(notes/assumptions/3.md). -/
def State.insertEntry (s : State) (n : Nat) (e : MacEntry) : Bool × State :=
  let t := s.tab n
  match t.insert e with
  | some t1 => (true, s.setTab n t1)
  | none =>
    let v := t.victims e.vlan e.mac
    let (k, s1) := s.free (max 1 v.length)
    let pick := if s.getB (F.PIPE_LRN_CTRL_evict_mode n) then (t.oldest v, s) else (v[k]?, s1)
    match pick.1 with
    | some (w, _) => (true, (pick.2.setTab n (t.writeWay w e)).count 4 n 9)
    | none => (false, s.count 4 n 10)

/-- Insert entries one after the other. -/
def PipeTab.insertAll (t : PipeTab) : List MacEntry → Option PipeTab
  | [] => some t
  | e :: r => (t.insert e).bind fun u => u.insertAll r

/-- Static entries as `u` lays them out, with the learned ones of `t` in the ways that leaves. -/
def PipeTab.overlay (t u : PipeTab) : PipeTab :=
  t.ways.foldl (fun v w => match w.2 with
    | some e => if e.static || (v.way w.1).isSome then v else v.setWay w.1 (some e)
    | none => v) u

/-- Write a static entry (R170): as a LEARN does, evicting a learned candidate; where no candidate can give way, in its place in the
layout of the static entries alone, which a load has checked, learned entries there giving way; failing that, with all static entries
laid out anew (notes/assumptions/26.md). -/
def State.insertStatic (s : State) (n : Nat) (e : MacEntry) : State :=
  let r := s.insertEntry n e
  if r.1 then r.2
  else
    let t := s.tab n
    let held := t.ways.filterMap fun w => if w.2.any MacEntry.static then w.2 else none
    match (t.staticOnly.insert e).orElse fun _ => ({ t with ways := [] } : PipeTab).insertAll (held ++ [e]) with
    | some u => (s.setTab n (t.overlay u)).countN 4 n 9 (t.ways.length + 1 - (t.overlay u).ways.length)
    | none => r.2

/-- A new learned entry of pipeline table `t`. -/
def PipeTab.fresh (t : PipeTab) (vlan mac port : Nat) : MacEntry :=
  { vlan := vlan, mac := mac, static := false, port := port, l2class := 0, destRef := 0, bankMask := 0, hit := true,
    stale := false, stamp := t.pass, frozen := false, moveCount := 0, freezeLeft := 0, parityGood := true,
    seen := (t.pass + 255) % 256 }

/-- A refresh of an entry (R173). -/
def PipeTab.touch (t : PipeTab) (e : MacEntry) : MacEntry := { e with hit := true, stale := false, stamp := t.pass }

/-- Report a move or a freeze in the raising pipeline (R171, R172). -/
def State.reportMove (s : State) (n vlan mac old new : Nat) (frozen : Bool) : State :=
  let s1 := (s.setF (F.PIPE_MOVE_MAC_LO_mac_lo n) (mac % 2 ^ 32)).setF (F.PIPE_MOVE_MAC_HI_mac_hi n) (mac / 2 ^ 32)
  let s2 := ((s1.setF (F.PIPE_MOVE_MAC_HI_vlan n) vlan).setF (F.PIPE_MOVE_MAC_HI_frozen n) (b2n frozen)).setF
    (F.PIPE_MOVE_PORTS_old_port n) old
  let s3 := s2.setF (F.PIPE_MOVE_PORTS_new_port n) new
  if frozen then (s3.raise (F.PIPE_LRN_EVENT_freeze n)).count 4 n 5 else (s3.raise (F.PIPE_LRN_EVENT_move n)).count 4 n 4

/-- Apply LEARN in pipeline `n` (R168, R171, R172). A move refreshes the entry, as a LEARN for the same port does. -/
def State.applyLearn (s : State) (n vlan mac port src : Nat) : State :=
  let t := s.tab n
  if (t.find vlan mac fun e => e.static).isSome then s.count 4 n 8
  else match t.find vlan mac fun e => !e.static with
    | none =>
      let (ok, s1) := s.insertEntry n (t.fresh vlan mac port)
      if ok then s1.count 4 n 3 else s1
    | some (w, e) =>
      let limit := s.getF (F.PIPE_LRN_GLOBAL_move_limit 0)
      let set := fun (x : MacEntry) => s.setTab n (t.writeWay w x)
      if e.frozen then s
      else if e.port = port then set (t.touch e)
      else if limit ≠ 0 ∧ limit < e.moveCount + 1 then
        (set { e with frozen := true, freezeLeft := s.getF (F.PIPE_LRN_GLOBAL_freeze_epochs 0) }).doIf (decide (n = src))
          fun u => u.reportMove n vlan mac e.port port true
      else (set { t.touch e with port := port, moveCount := min 15 (e.moveCount + 1) }).doIf (decide (n = src))
        fun u => u.reportMove n vlan mac e.port port false

/-- LEARN at the head of pipeline `n`'s apply FIFO. -/
def State.learnAt (s : State) (n : Nat) : State :=
  s.takeEvent n fun e t => match e with
    | .learn vlan mac port src => (t.popEvent n).applyLearn n vlan mac port src
    | _ => t

/-- REFRESH at the head of pipeline `n`'s apply FIFO (R173). -/
def State.refreshAt (s : State) (n : Nat) : State :=
  s.takeEvent n fun e t => match e with
    | .refresh vlan mac _ _ => (t.popEvent n).changeLearned n vlan mac (t.tab n).touch
    | _ => t

/-- Visit every learned entry of pipeline `n`: `f` answers what becomes of it. -/
def State.sweepWays (s : State) (n : Nat) (f : MacEntry → Option MacEntry) : State :=
  let t := s.tab n
  s.setTab n { t with ways := t.ways.filterMap fun (w, e) => match e with
    | some x => if x.static then some (w, some x) else (f x).map fun y => (w, some y)
    | none => none }

/-- Learned entries of a table that satisfy a test. -/
def PipeTab.learnedN (t : PipeTab) (f : MacEntry → Bool) : Nat :=
  (t.ways.filter fun (_, e) => match e with | some x => !x.static && f x | none => false).length

/-- SWEEP at the head of pipeline `n`'s apply FIFO: a pass over the table starts (R173). -/
def State.sweepAt (s : State) (n : Nat) : State :=
  s.takeEvent n fun e t => match e with
    | .sweep =>
      let u := t.popEvent n
      u.setTab n { u.tab n with pass := ((u.tab n).pass + 1) % 256, sweep := some 0 }
    | _ => t

/-- What the sweeper makes of a learned entry that it visits in pass `pass` (R173): none where it removes the entry. One already
visited in the pass is left as it is (R174). -/
def MacEntry.swept (pass : Nat) (x : MacEntry) : Option MacEntry :=
  let y := { x with seen := pass }
  if x.static || decide (x.seen = pass) then some x
  else if x.frozen then some y
  else if x.hit then some { y with hit := false, stale := false }
  else if x.stale then none else some { y with stale := true }

/-- The sweeper of pipeline `n` visits way `w`: an entry that it removes is counted in lrn_aged (R173). -/
def State.visitWay (s : State) (n w : Nat) : State :=
  match (s.tab n).way w with
  | none => s
  | some x =>
    let y := x.swept (s.tab n).pass
    let s1 := s.setTab n ((s.tab n).setWay w y)
    if y.isNone then s1.count 4 n 11 else s1

/-- One core cycle of pipeline `n`'s sweep pass: one bucket of each half. A flush pass suspends it (R173, R175). -/
def State.sweepStep (s : State) (n : Nat) : State :=
  match (s.tab n).sweep with
  | none => s
  | some b =>
    if (s.tab n).flushing.isSome then s
    else
      let s1 := s.each [2 * b, 2 * b + 1, 131072 + 2 * b, 131072 + 2 * b + 1] fun t w => t.visitWay n w
      s1.setTab n { s1.tab n with sweep := if b + 1 < 65536 then some (b + 1) else none }

/-- The sweep passes in progress. -/
def State.sweeps (s : State) : State := s.each ((s.tabs.filter fun e => e.2.sweep.isSome).map Prod.fst) State.sweepStep

/-- EPOCH at the head of pipeline `n`'s apply FIFO: a new flap window (R172). -/
def State.epochAt (s : State) (n : Nat) : State :=
  s.takeEvent n fun e t => match e with
    | .epoch =>
      let k := (t.tab n).learnedN fun x => x.frozen && decide (x.freezeLeft ≤ 1)
      let u := (t.popEvent n).sweepWays n fun x =>
        if !x.frozen then some { x with moveCount := 0 }
        else if x.freezeLeft ≤ 1 then
          some { x with moveCount := 0, frozen := false, freezeLeft := 0, hit := true, stale := false }
        else some { x with moveCount := 0, freezeLeft := x.freezeLeft - 1 }
      u.countN 4 n 6 k
    | _ => t

/-- A learned entry matches a flush selector: 0 ALL, 1 VLAN, 2 PORT, 3 VLAN with PORT, 4 KEY (R175). -/
def flushHits (sel vlan port mac : Nat) (e : MacEntry) : Bool :=
  match sel with
  | 0 => true
  | 1 => decide (e.vlan = vlan)
  | 2 => decide (e.port = port)
  | 3 => decide (e.vlan = vlan) && decide (e.port = port)
  | _ => decide (e.vlan = vlan) && decide (e.mac = mac)

/-- FLUSH at the head of pipeline `n`'s apply FIFO: the pass starts and the matching entries go (R175). -/
def State.flushAt (s : State) (n : Nat) : State :=
  s.takeEvent n fun e t => match e with
    | .flush sel vlan port mac cmd =>
      let u := (t.popEvent n).sweepWays n fun x => if flushHits sel vlan port mac x then none else some x
      u.setTab n { u.tab n with flushing := some cmd }
    | _ => t

/-- The flush pass of pipeline `n` ends (R175). -/
def State.flushEnd (s : State) (n : Nat) : State := s.setTab n { s.tab n with flushing := none }

/-- A flush of a command has still to be applied or ended by some powered pipeline. -/
def State.flushPending (s : State) (cmd : Nat) : Bool :=
  let is := fun (e : BusEvent) => match e with | .flush _ _ _ _ c => decide (c = cmd) | _ => false
  s.key.ks.ctl.any is || s.key.deferred.any (fun d => match d with | .ctl e => is e | _ => false)
    || s.pipesOn.any fun n => (s.tab n).fifo.any is || decide ((s.tab n).flushing = some cmd)

/-- Complete each TABLE_FLUSH whose flush pass has ended in every powered pipeline (R175). -/
def State.flushDone (s : State) : State :=
  s.each (s.hif.inflight.filter fun e => decide (e.wait = .flush)) fun t e =>
    if t.flushPending e.seq then t else t.complete e 0 0 0

/-! ### Static entries (R170) -/

/-- STATIC_ADD at the head of pipeline `n`'s apply FIFO. -/
def State.staticAddAt (s : State) (n : Nat) : State :=
  s.takeEvent n fun e t => match e with
    | .staticAdd vlan mac cls dest mask =>
      let u := t.popEvent n
      let b := match (u.tab n).find vlan mac fun x => !x.static with
        | some (w, _) => (u.tab n).setWay w none
        | none => u.tab n
      (match b.findStatic vlan mac cls dest with
        | some (w, x) => u.setTab n (b.setWay w (some { x with bankMask := x.bankMask ||| mask }))
        | none => (u.setTab n b).insertStatic n (staticWay vlan mac cls dest mask))
    | _ => t

/-- STATIC_MASK at the head of pipeline `n`'s apply FIFO. -/
def State.staticMaskAt (s : State) (n : Nat) : State :=
  s.takeEvent n fun e t => match e with
    | .staticMask vlan mac cls dest mask =>
      let u := t.popEvent n
      (match (u.tab n).findStatic vlan mac cls dest with
        | some (w, x) => u.setTab n ((u.tab n).setWay w (some { x with bankMask := mask }))
        | none => u)
    | _ => t

/-- STATIC_DEL at the head of pipeline `n`'s apply FIFO. -/
def State.staticDelAt (s : State) (n : Nat) : State :=
  s.takeEvent n fun e t => match e with
    | .staticDel vlan mac cls dest =>
      let u := t.popEvent n
      (match (u.tab n).findStatic vlan mac cls dest with
        | some (w, _) => u.setTab n ((u.tab n).setWay w none)
        | none => u)
    | _ => t

/-- Place in pipeline `n` the static entries of both banks, from the entry store, at its power-up (R167). -/
def State.fillStatics (s : State) (n : Nat) : State :=
  s.each s.staticUnion fun t e =>
    let mask := (if e ∈ t.ash.1.held then 2 ^ t.physBank false else 0) + (if e ∈ t.ash.2.held then 2 ^ t.physBank true else 0)
    t.insertStatic n (staticWay e.vlan e.mac e.cls e.dest mask)

/-! ### Background checks -/

/-- The checker reads one bucket of each half (R179), while the domain of its table is on: a pipeline's, or D37 for the host
routes. -/
def State.tableCheckAt (s : State) (t : TableRef) : State :=
  match t with
  | .learned n b =>
    if s.domainOn (17 + n) then s.checkWays n [2 * b, 2 * b + 1, 131072 + 2 * b, 131072 + 2 * b + 1] else s
  | .hostRoute b => if s.domainOn 37 then s.checkUnits [8 * b, 262144 + 8 * b] else s

/-- The TCAM checker reads the entry at a global address and rewrites one that differs from the entry store (R185). -/
def State.tcamCheckAt (s : State) (g : Nat) : State :=
  match SMap.get (fun _ => none) g s.tcam with
  | some e =>
    if e.good then s
    else
      let s1 : State := { s with tcam := SMap.set (fun _ => none) g (some { e with good := true }) s.tcam }
      ((s1.each (List.range 8) fun t n => t.count 4 n 15).each s1.pipesOn fun t n =>
        (t.raise (F.PIPE_LRN_EVENT_tcam_repair n)).tblErr n 2 g).react 0x0B 0 g 0
  | none => s

end Sys2Proof.Machine
end

