-- ==== Sys2Proof/Machine/Ports.lean ====
section
/-! DEFINITION. Port macros and links (R34 to R47, R451) and the MAC's control functions (R55 to R66): the apply, links and
auto-negotiation, received and generated flow control, the pause watchdog, verification, and energy saving. -/

namespace Sys2Proof.Machine

/-! ### The apply (R44 to R47) -/

/-- The configuration of macro `m` as its registers hold it. -/
def State.macCfg (s : State) (m : Nat) : MacroRun :=
  { mode := s.reg (Addr.PORT_MODE m), lanes := (List.range 4).map fun l => s.reg (Addr.PORT_LANE_CFG m l),
    subs := (List.range 4).map fun i => s.reg (Addr.PORT_SUB_CFG m i) }

/-- Word of PORT.LANE_CFG of lane `l`. -/
def MacroRun.lane (c : MacroRun) (l : Nat) : Word := c.lanes.getD l 0

/-- Word of PORT.SUB_CFG of sub-port `i`. -/
def MacroRun.sub (c : MacroRun) (i : Nat) : Word := c.subs.getD i 0

/-- The macro is in mode BOND_800G. -/
def MacroRun.bond (c : MacroRun) : Bool := decide (fldOf c.mode 0 4 = 6)

/-- Type of sub-port `i` of macro `m` under R96: its existence, lanes, their rates, and its FEC. -/
def MacroRun.kind (c : MacroRun) (m i : Nat) : Option (List Nat × List Nat × Nat) :=
  if subExists c.mode m i then
    some (subLanes c.mode i ++ (if c.bond then [4, 5, 6, 7] else []), (subLanes c.mode i).map fun l => modeRate c.mode (c.lane l) l,
      fldOf (c.sub i) 0 2)
  else none

/-- What else affects sub-port `i` (R46): inversion and map of its lanes, an_enable, lt_enable and an_ability. `odd` is the
configuration of the partner of a bond. -/
def MacroRun.wiring (c odd : MacroRun) (m i : Nat) : List Nat × Nat :=
  if subExists c.mode m i then
    ((subLanes c.mode i).map (fun l => fldOf (c.lane l) 3 6) ++ (if c.bond then odd.lanes.map fun w => fldOf w 3 6 else []),
      (c.sub i).toNat)
  else ([], 0)

/-- Macros that an apply written to macro `m` concerns: both of a bond that is entered, kept or left (R45). -/
def State.applySet (s : State) (m : Nat) : List Nat :=
  if m % 2 = 0 && ((s.macCfg m).bond || (s.mac m).bond) then [m, m + 1] else [m]

/-- A macro's configuration is one that R36 to R43 allow. -/
def cfgOk (c : MacroRun) (m : Nat) : Bool :=
  decide ((c.lanes.map fun w => fldOf w 5 2).Nodup) && decide ((c.lanes.map fun w => fldOf w 7 2).Nodup)
    && (List.range 4).all fun i => !subExists c.mode m i ||
      (decide (fldOf (c.sub i) 0 2 ∈ fecAllowed c.mode (c.lane i) i)
        && (setBits 11 (fldOf (c.sub i) 16 11)).all fun b => decide (techWidth b = subWidth c.mode i))

/-- Sub-ports of macro `m` whose type a new configuration changes. -/
def State.retyped (s : State) (m : Nat) : List Nat :=
  (List.range 4).filter fun i => decide ((s.mac m).kind m i ≠ (s.macCfg m).kind m i)

/-- Sub-ports of macro `m` that an apply affects (R46). -/
def State.affected (s : State) (m : Nat) : List Nat :=
  (List.range 4).filter fun i => decide ((s.mac m).kind m i ≠ (s.macCfg m).kind m i)
    || decide ((s.mac m).wiring (s.mac (m + 1)) m i ≠ (s.macCfg m).wiring (s.macCfg (m + 1)) m i)

/-- Outcome of the check of R44 for an apply written to macro `m`: an apply_status code, 1 when it passes. BAD_COMBINATION is found
before IN_USE (notes/assumptions/64.md). -/
def State.applyCheck (s : State) (m : Nat) : Nat :=
  let l := s.applySet m
  let used := fun (p : Nat) => (s.ephOn && portNamed s.cal p) || (s.eph.2.valid && portNamed s.eph.2.blob p)
  if !s.domainOn (1 + m / 8) then 5
  else if m % 2 = 1 && ((s.macCfg m).bond || (s.mac m).bond) then 3
  else if l.length = 2 && ((s.macCfg m).bond != (s.macCfg (m + 1)).bond) then 3
  else if !l.all fun k => cfgOk (s.macCfg k) k then 3
  else if l.any fun k => (s.retyped k).any fun i => used (4 * k + i) then 4
  else 1

/-- LINK_STATUS of one sub-port after an apply has affected it (R41, R46); verification starts from what the set-up registers hold
(R62, R65). -/
def State.freshLink (s : State) (m i : Nat) : State :=
  let c := s.mac m
  let on := subExists c.mode m i
  (s.setReg (Addr.PORT_LINK_STATUS m i) (BitVec.ofNat 32 (8 * b2n on + 0xF0 + (if on then fldOf (c.sub i) 0 2 * 2 ^ 8 else 0)))).restartVerify
    (4 * m + i)

/-- Take the configuration of one macro into force, with LINK_STATUS showing it from the acceptance on (notes/assumptions/64.md):
affected ports go down, and their links start afresh. An accepted apply ends the hold of a PORT fault (R302), though not the loss of
a reference (R451). -/
def State.takeCfg (s : State) (m : Nat) (aff : List Nat) : State :=
  let s1 := s.each aff fun t i => if t.portExists (4 * m + i) then t.portDown (4 * m + i) true else t
  let s2 := s1.setMac m (s1.macCfg m)
  let s3 := s2.each aff fun t i => t.freshLink m i
  let s4 := s3.each (List.range 4) fun t i =>
    if (t.port (4 * m + i)).downFault then t.setPort (4 * m + i) { t.port (4 * m + i) with downFault := false } else t
  (s4.setF (F.PORT_APPLY_STATUS_apply_status m) 1).setF (F.PORT_APPLY_STATUS_apply_ignored m) 0

/-- 1 is written to PORT.APPLY of macro `m` (R44, R47). Of a bond, the apply_status of the even macro alone decides whether it is
BUSY (notes/assumptions/64.md). -/
def State.applyMacro (s : State) (m : Nat) : State :=
  if s.domainOn (1 + m / 8) && decide (s.getF (F.PORT_APPLY_STATUS_apply_status m) = 1) then
    s.setF (F.PORT_APPLY_STATUS_apply_ignored m) 1
  else
    match s.applyCheck m with
    | 1 => let l := (s.applySet m).map fun k => (k, s.affected k); s.each l fun t e => t.takeCfg e.1 e.2
    | code => s.setF (F.PORT_APPLY_STATUS_apply_status m) code

/-- The first apply of a port group that has powered up (R47, R390 step 5): its macros in ascending order, the odd macro of
a bond with its even one. IN_USE refuses it like any other apply (notes/assumptions/64.md). -/
def State.firstApplies (s : State) (d : Nat) : State :=
  s.each ((List.range 8).map fun i => 8 * (d - 1) + i) fun t m =>
    if m % 2 = 1 && (t.mac (m - 1)).bond && (t.mac m).bond then t
    else (t.setF (F.PORT_APPLY_STATUS_apply_status m) 0).applyMacro m

/-- Lane relock of an apply has completed (R46 step 5). -/
def State.applyDoneAt (s : State) (m : Nat) : State :=
  if s.domainOn (1 + m / 8) && decide (s.getF (F.PORT_APPLY_STATUS_apply_status m) = 1) then
    (s.setF (F.PORT_APPLY_STATUS_apply_status m) 2).raise (F.PORT_EVENT_apply_done m)
  else s

/-! ### Links and auto-negotiation (R41, R42, R46, R58, R116) -/

/-- PCS lock and alignment of a port (R46): its link comes up, XOFF is sent again for classes that still hold back-pressure
(R58), a PORT cause is withdrawn (R302), and its type is checked (R116). Nothing comes up before Clause 73 has resolved, nor
while a PORT fault holds the port down or its reference is lost (R35), nor in a group whose lanes are in test mode (R430). lt_done is
set together with link_up (notes/assumptions/17.md). -/
def State.linkUpAt (s : State) (p : Nat) : State :=
  let m := p / 4
  let i := p % 4
  if !s.portExists p || !s.domainOn (1 + p / 32) || s.linkUp p || (s.port p).downFault || decide (p / 128 ∈ s.refLost)
      || decide (s.groupTested = 1 + p / 32)
      || (s.anOn p && !s.clause37 p && !s.getB (F.PORT_LINK_STATUS_an_done m i)) then s
  else
    let s1 := ((s.setF (F.PORT_LINK_STATUS_link_up m i) 1).setF (F.PORT_LINK_STATUS_an_done m i) (b2n (s.anOn p))).setF
      (F.PORT_LINK_STATUS_lt_done m i) (b2n (s.ltOn p))
    let gen := s1.getB (F.PORT_MAC_CFG_fc_gen_en m i) && decide (s1.getF (F.PORT_MAC_CFG_pause_mode m i) ≠ 0)
    let s2 := s1.setPort p { s1.port p with fcPend := if gen then (s1.port p).bp else 0 }
    (((s2.raiseBit (F.PORT_EVENT_link_change m) i).dropCause fun c => decide (c = .port p)).checkType p).rematch s p

/-- Loss of link_up (R211); it is reported as a MASKED fault of diagnostic 0x14 (R303). -/
def State.linkDownAt (s : State) (p : Nat) : State :=
  if s.portExists p && s.linkUp p then (s.portDown p true).react 0x14 0 p p else s

/-- Auto-negotiation or training has failed and restarts (R41, R42); fec_active keeps the FEC resolved last
(notes/assumptions/17.md). -/
def State.anFailAt (s : State) (p : Nat) : State :=
  if s.portExists p && (s.anOn p || s.ltOn p) && s.domainOn (1 + p / 32) then
    let s1 := if s.linkUp p then s.portDown p true else s
    ((((s1.setF (F.PORT_LINK_STATUS_an_done (p / 4) (p % 4)) 0).setF (F.PORT_LINK_STATUS_resolved_tech (p / 4) (p % 4)) 15).checkType
      p).rematch s1 p).raise (F.PORT_EVENT_an_fail (p / 4))
  else s

/-- Technologies by falling Clause 73 priority (R41, notes/assumptions/65.md). -/
def techOrder : List Nat := [10, 8, 9, 7, 4, 6, 3, 5, 2, 1, 0]

/-- FEC of a technology (R41): for the 10G, 25G and 40G ones resolved from the sub-port's own request `own` (its fec field) and the
link partner's page `fp`, otherwise the one its clause requires (notes/assumptions/65.md). -/
def techFec (tech own : Nat) (fp : FecPage) : Nat :=
  if tech = 0 then 0
  else if tech = 1 ∨ tech = 5 then (if fp.ability ∧ (fp.request ∨ own = 1) then 1 else 0)
  else if tech = 2 then (if fp.rsRequest ∨ own = 2 then 2 else if fp.baseRequest ∨ own = 1 then 1 else 0)
  else if tech = 6 then 2 else 3

/-- Auto-negotiation of a sub-port has exchanged its pages (R41): the partner's technology ability bits, numbered as an_ability, and
its FEC page; `eee` tells whether both sides have exchanged EEE ability (R64).
Clause 73 resolves to the highest common technology; none, or a FEC that the sub-port's mode does not allow, fails the negotiation.
Clause 37 has nothing to resolve. -/
def State.anDoneAt (s : State) (p ability : Nat) (fp : FecPage) (eee : Bool) : State :=
  let m := p / 4
  let i := p % 4
  let c := s.subCfg p
  if !s.portExists p || !s.anOn p || !s.domainOn (1 + p / 32) then s
  else if s.clause37 p then s.setF (F.PORT_LINK_STATUS_an_done m i) 1
  else match techOrder.find? fun t => bitAt (fldOf c 16 11) t && bitAt ability t with
    | none => s.anFailAt p
    | some tech =>
      let f := techFec tech (fldOf c 0 2) fp
      if f ∉ fecAllowed (s.mac m).mode ((s.mac m).lane i) i then s.anFailAt p
      else
        let s1 := ((s.setF (F.PORT_LINK_STATUS_an_done m i) 1).setF (F.PORT_LINK_STATUS_resolved_tech m i) tech).setF
          (F.PORT_LINK_STATUS_fec_active m i) f
        ((s1.setPort p { s1.port p with eeeAgreed := eee && s1.getB (F.PORT_MAC_CFG_eee_enable m i) }).checkType p).rematch s p

/-- Ports of the macros of chiplet `k`. -/
def chipletPorts (k : Nat) : List Nat := (List.range 128).map fun i => 128 * k + i

/-- A port goes down with its reference (R35): it holds a PORT cause, and stays down until the reference has returned (R451). -/
def State.refDown (s : State) (p : Nat) : State := (((s.faultNoted 0x14 2 p).addCause (.port p)).portDown p false).ksLog .safety

/-- Loss of SerDes reference `k` (R35): a PORT fault of every port of its macros. A chiplet without a port reports it once, and no
port holds a cause; a renewed loss of a reference that is lost changes nothing (notes/assumptions/66.md). -/
def State.refLoss (s : State) (k : Nat) : State :=
  if 4 ≤ k ∨ k ∈ s.refLost then s
  else
    let s1 := ({ s with refLost := s.refLost ++ [k] } : State).each ((List.range 32).map fun i => 32 * k + i) fun t m =>
      t.raise (F.PORT_EVENT_ref_clock_loss m)
    let l := (chipletPorts k).filter s1.portExists
    if l.isEmpty then (s1.faultNoted 0x14 2 (128 * k)).ksLog .safety else s1.each l State.refDown

/-- Reference `k` has returned and the lanes of its chiplet have relocked (R451): its ports may come up again, but for one that
another fault holds down. -/
def State.refRelock (s : State) (k : Nat) : State := { s with refLost := s.refLost.filter fun j => decide (j ≠ k) }

/-! ### Received flow control (R55 to R57, R60, R61) -/

/-- The address of a sub-port (PORT.MAC_ADDR). -/
def State.macAddr (s : State) (p : Nat) : Nat :=
  s.getF (F.PORT_MAC_ADDR_HI_addr_hi (p / 4) (p % 4)) * 2 ^ 32 + s.getF (F.PORT_MAC_ADDR_LO_addr_lo (p / 4) (p % 4))

/-- Set or clear one bit of a priority mask of PORT.MAC_STATUS. -/
def State.setPaused (s : State) (p i : Nat) (quanta : Nat) : State :=
  let r := s.port p
  (s.setFBit (F.PORT_MAC_STATUS_rx_paused (p / 4) (p % 4)) i (decide (quanta ≠ 0))).setPort p
    { r with timers := r.timers.set i quanta }

/-- The recovery window of priority `i` runs. -/
def State.recovering (s : State) (p i : Nat) : Bool := s.getFBit (F.PORT_MAC_STATUS_wd_recovering (p / 4) (p % 4)) i

/-- Act on the quanta received for some priorities; those in a recovery window are ignored (R56, R61). -/
def State.actPause (s : State) (p : Nat) (l : List (Nat × Nat)) : State :=
  let s1 := s.each (l.filter fun e => !s.recovering p e.1) fun t e => t.setPaused p e.1 e.2
  if l.any fun e => s.recovering p e.1 then s1.count 0 p 12 else s1

/-- How a received frame is handled by its size and FCS (R50): 0 delivered, 1 discarded at the MAC, 2 bad; and the counters
of group 0 that it advances. -/
def rxClass (mx len : Nat) (fcsGood pcsError : Bool) : Nat × List Nat :=
  let bad := !fcsGood || pcsError
  if len < 64 then (1, (if bad then 5 else 4) :: if pcsError then [3] else [])
  else if len ≤ mx then if bad then (2, 2 :: if pcsError then [3] else []) else (0, [])
  else (2, (if bad then 7 else 6) :: if pcsError then [3] else [])

/-- Receipt of a frame with EtherType 0x8808 (R55, R56), under the MAC_CFG and the address in force at its start (R68). A valid PAUSE
or PFC frame is counted as such whether or not it is acted on (R67). -/
def State.macCtrlRx (s : State) (p : Nat) (cfg : Word) (addr : Nat) (b : List Byte) (fcsGood pcsError : Bool) : State :=
  let (k, cs) := rxClass (fldOf cfg 0 14) b.length fcsGood pcsError
  let mode := (F.PORT_MAC_CFG_pause_mode (p / 4) (p % 4)).of cfg
  let da := beAt b 0 6
  let op := be16 b 14
  let mine := decide (da = 0x0180C2000001) || decide (da = addr)
  if k ≠ 0 then s.each cs fun t c => t.count 0 p c
  else if op = 1 then
    (s.doIf (mine && decide (mode = 1)) fun t => t.actPause p ((List.range 8).map fun j => (j, be16 b 16))).count 0 p 9
  else if op = 0x101 then
    (s.doIf (mine && decide (mode = 2)) fun t =>
      t.actPause p ((setBits 8 (be16 b 16)).map fun j => (j, be16 b (18 + 2 * j)))).count 0 p 10
  else s.count 0 p 11

/-- FLOW_CONTROL_RECEIVE: a whole frame with EtherType 0x8808, which starts under the registers as they stand. -/
def State.flowControlRx (s : State) (p : Nat) (b : List Byte) (fcsGood : Bool) : State :=
  if !s.portUp p || !s.getB (F.PORT_MAC_CFG_rx_en (p / 4) (p % 4)) || decide (be16 b 12 ≠ 0x8808) then s
  else (s.setPort p { s.port p with activity := true }).macCtrlRx p (s.reg (Addr.PORT_MAC_CFG (p / 4) (p % 4))) (s.macAddr p) b
    fcsGood false

/-- A pause timer expires (R56). -/
def State.pauseExpiry (s : State) (p i : Nat) : State := if i < 8 then s.setPaused p i 0 else s

/-- Queues that priority `i`'s mask names. -/
def State.maskQueues (s : State) (p i : Nat) : List Nat := (setBits 8 (s.pfcMap p i)).map fun q => 8 * p + q

/-- The watchdog breaks the pause of priority `i` (R60, R61). -/
def State.wdBreak (s : State) (p i : Nat) : State :=
  let m := p / 4
  let u := p % 4
  if 8 ≤ i ∨ s.getF (F.PORT_PAUSE_WD_wd_limit m u) = 0 ∨ !s.getFBit (F.PORT_MAC_STATUS_rx_paused m u) i
      ∨ !(s.maskQueues p i).any fun x => !(s.queue x).copies.isEmpty then s
  else
    let s1 := (((s.raiseBit (F.PORT_MAC_EVENT_pause_storm m u) i).count 0 p 25).setPaused p i 0).setFBit
      (F.PORT_MAC_STATUS_wd_recovering m u) i true
    if s1.getF (F.PORT_MAC_CFG_wd_action m u) = 1 then
      (s1.abortQueues p (s1.maskQueues p i)).each (s1.maskQueues p i) State.flushQueue
    else s1

/-- The recovery window ends (R61). -/
def State.wdEnd (s : State) (p i : Nat) : State :=
  if i < 8 then s.setFBit (F.PORT_MAC_STATUS_wd_recovering (p / 4) (p % 4)) i false else s

/-! ### Generated flow control (R58, R59, R205) -/

/-- A flow-control frame falls due for a class. -/
def State.fcDue (s : State) (p i : Nat) : State :=
  if s.fcGen p then s.setPort p { s.port p with fcPend := (s.port p).fcPend ||| 2 ^ i } else s

/-- Pool that frames of ingress class `k` are charged to (BUF.CLASS_POOL). -/
def State.classPool (s : State) (k : Nat) : Nat := bitsOf (s.reg Addr.BUF_CLASS_POOL).toNat (4 * k) 4

/-- Back-pressure condition of class `k` on port `p` (R205). -/
def State.bpCond (s : State) (p k : Nat) : Bool :=
  let pool := s.pool (s.classPool k)
  pool.threshold && (s.ingOver p k || (pool.bp && decide (0 < s.charged p k)))

/-- Back-pressure is asserted or released for a class (R205, R58): an XOFF or an XON falls due; in PAUSE mode, where the classes
are combined, only with the first class asserted or the last one released. -/
def State.bpSet (s : State) (p k : Nat) (on : Bool) : State :=
  let old := (s.port p).bp
  if 8 ≤ k ∨ on = bitAt old k ∨ s.bpCond p k ≠ on then s
  else
    let new := putBits old k 1 (b2n on)
    let s1 := s.setPort p { s.port p with bp := new }
    if s.getF (F.PORT_MAC_CFG_pause_mode (p / 4) (p % 4)) = 1 ∧ old ≠ 0 ∧ new ≠ 0 then s1 else s1.fcDue p k

/-- The refresh interval of a class ends (R58). -/
def State.fcRefreshAt (s : State) (p k : Nat) : State := if bitAt (s.port p).bp k then s.fcDue p k else s

/-- Bytes of a generated flow-control frame (R58). -/
def State.fcBytes (s : State) (p mode classes : Nat) : List Byte :=
  let q := s.getF (F.PORT_FC_GEN_xoff_quanta (p / 4) (p % 4))
  let bp := (s.port p).bp
  let body := if mode = 1 then beBytes 2 1 ++ beBytes 2 (if bp = 0 then 0 else q)
    else beBytes 2 0x101 ++ beBytes 2 classes
      ++ (List.range 8).flatMap fun i => beBytes 2 (if bitAt classes i && bitAt bp i then q else 0)
  let l := beBytes 6 0x0180C2000001 ++ beBytes 6 (s.macAddr p) ++ beBytes 2 0x8808 ++ body
  withFcs (l ++ List.replicate (60 - l.length) 0)

/-- The generated flow-control frame of port `p` starts. -/
def State.fcStart (s : State) (p : Nat) : State :=
  let k := (s.port p).fcPend
  let mode := s.getF (F.PORT_MAC_CFG_pause_mode (p / 4) (p % 4))
  let (f, s1) := s.stampTx p { TxFrame.unbilled (s.fcBytes p mode k) 64 with flow := some (k, mode) }
  (s1.setPort p { s1.port p with fcPend := 0 }).startTx p f

/-- A generated flow-control frame starts, at a frame boundary or by preemption (R59). -/
def State.fcSend (s : State) (p : Nat) : State :=
  let r := s.port p
  if r.fcPend = 0 ∨ !s.portUp p ∨ !r.skid.isEmpty then s
  else if !s.fcGen p then s.setPort p { r with fcPend := 0 }
  else if !s.fcSlot p then s
  else match r.tx with
    | none => s.fcStart p
    | some t => if s.canCut p t then (s.interrupt p t).fcStart p else s

/-! ### Verification (R62) -/

/-- verify_time has passed: another verify mPacket, up to three, or the verification has failed. The first one is sent at the first
of these ticks after a restart (notes/assumptions/67.md). -/
def State.verifyTick (s : State) (p : Nat) : State :=
  let m := p / 4
  let i := p % 4
  let st := s.getF (F.PORT_MAC_STATUS_verify_status m i)
  if !s.portUp p || (decide (st ≠ 1) && decide (st ≠ 2)) then s
  else if (s.port p).verifyTries < 3 then
    (s.setF (F.PORT_MAC_STATUS_verify_status m i) 2).setPort p { s.port p with verifyTries := (s.port p).verifyTries + 1 }
  else (s.setF (F.PORT_MAC_STATUS_verify_status m i) 4).raise (F.PORT_MAC_EVENT_verify_fail m i)

/-- An mPacket arrives: a verify is answered while preempt_enable is set, a respond completes a verification in progress, and one with
a start delimiter that the MAC Merge sublayer does not expect is an SMD error (R62, R67). -/
def State.mpacketRx (s : State) (p : Nat) (k : MPacket) : State :=
  let m := p / 4
  let i := p % 4
  if !s.portUp p || !s.getB (F.PORT_MAC_CFG_preempt_enable m i) then s
  else match k with
    | .respond =>
      if s.getF (F.PORT_MAC_STATUS_verify_status m i) = 2 then
        (s.setF (F.PORT_MAC_STATUS_verify_status m i) 3).setF (F.PORT_MAC_STATUS_preempt_active m i) 1
      else s
    | .verify => s.setPort p { s.port p with responds := (s.port p).responds + 1 }
    | .badSmd => s.count 0 p 28

/-- The frame that has arrived at port `p` came in fragments (R62, R67): it is reassembled, or its reassembly failed. -/
def State.reassembled (s : State) (p : Nat) (mm : Reassembly) : State :=
  if mm.frags = 0 || !s.getB (F.PORT_MAC_CFG_preempt_enable (p / 4) (p % 4)) then s
  else (s.countN 0 p 29 mm.frags).count 0 p (if mm.bad then 27 else 26)

/-! ### Energy saving (R64) -/

/-- LPI is available to a port and agreed on. -/
def State.lpiAllowed (s : State) (p : Nat) : Bool :=
  let t := s.runType p
  (decide (6 ≤ t) && decide (t ≤ 14)) && s.portExists p && (s.port p).eeeAgreed && !(s.ephOn && macroNamed s.cal (p / 4))

/-- Nothing to send on a port. -/
def State.txIdle (s : State) (p : Nat) : Bool :=
  let r := s.port p
  r.tx.isNone && r.held.isNone && r.skid.isEmpty && decide (r.fcPend = 0)
    && !(List.range 8).any (fun q => s.queueEligible p q) && !(s.mirrorQueues p).any fun x => s.mirrorEligible p x

/-- tx_lpi_idle has passed with nothing to send: the transmitter enters LPI. -/
def State.lpiEnter (s : State) (p : Nat) : State :=
  if s.portUp p && s.getB (F.PORT_MAC_CFG_eee_enable (p / 4) (p % 4)) && s.lpiAllowed p && s.txIdle p
      && !s.getB (F.PORT_MAC_STATUS_tx_lpi (p / 4) (p % 4)) then
    (s.setF (F.PORT_MAC_STATUS_tx_lpi (p / 4) (p % 4)) 1).count 0 p 32
  else s

/-- The link partner enters or leaves LPI. -/
def State.rxLpiAt (s : State) (p : Nat) (enter : Bool) : State :=
  let was := s.getB (F.PORT_MAC_STATUS_rx_lpi (p / 4) (p % 4))
  if !s.portUp p || !(s.port p).eeeAgreed || was = enter then s
  else (s.setF (F.PORT_MAC_STATUS_rx_lpi (p / 4) (p % 4)) (b2n enter)).doIf enter fun t => t.count 0 p 33

/-! ### Writes of the PORT block (R58, R62, R64, R68) -/

/-- What follows from a write to PORT.MAC_CFG of port `p`: a change to the preemption fields restarts verification after the frame in
progress (R62). -/
def State.macCfgAfter (s : State) (p : Nat) (old : State) : State :=
  let m := p / 4
  let i := p % 4
  let ch := fun (f : Fld) => decide (s.getF f ≠ old.getF f)
  let s1 := if ch (F.PORT_MAC_CFG_preempt_enable m i) || ch (F.PORT_MAC_CFG_verify_enable m i)
      || ch (F.PORT_MAC_CFG_add_frag_size m i) then (s.setPort p { s.port p with mmDue := true }).verifyDue p else s
  let s2 := if s1.fcGen p && !old.fcGen p then s1.setPort p { s1.port p with fcPend := (s1.port p).bp } else s1
  let s3 := if s2.getB (F.PORT_MAC_CFG_eee_enable m i) && ch (F.PORT_MAC_CFG_eee_enable m i) && !s2.lpiAllowed p then
      s2.raise (F.PORT_MAC_EVENT_eee_refused m i) else s2
  if s3.getB (F.PORT_MAC_CFG_eee_enable m i) then s3 else s3.setF (F.PORT_MAC_STATUS_tx_lpi m i) 0

/-- What follows from a write to a PORT register (R44, R68). -/
def State.portAfter (s : State) (a : Nat) (v : Word) (old : State) : State :=
  let m := (a - 0x1000000) / 0x10000
  let o := a % 0x10000
  if o = 4 then (if fldOf v 0 1 = 1 then s.applyMacro m else s)
  else if 0x100 ≤ o ∧ o < 0x200 ∧ o % 0x40 = 0 then s.macCfgAfter (4 * m + (o - 0x100) / 0x40) old
  else s

end Sys2Proof.Machine
end

