-- ==== Sys2Proof/Machine/Streams.lean ====
section
/-! DEFINITION. IEEE 802.1CB generation and recovery (R230 to R240) and policing (R265 to R269). -/

namespace Sys2Proof.Machine

/-! ### FRER (R233 to R238) -/

/-- Note in pipeline `n` the function or stream entry of an event (PIPE.FRER_LAST). -/
def State.frerLast (s : State) (n index : Nat) (isStream : Bool) : State :=
  (s.setF (F.PIPE_FRER_LAST_index n) index).setF (F.PIPE_FRER_LAST_is_stream n) (b2n isStream)

/-- The home pipeline of a frame's request is off (R234); `n` is the ingress pipeline. Reported as diagnostic 0x15. -/
def State.homeDown (s : State) (n index : Nat) (isStream : Bool) : State :=
  (((s.doIf (!isStream) fun t => t.count 12 index 9).raise (F.PIPE_REP_EVENT_home_down n)).frerLast n index isStream).react
    0x15 0 index 0

/-- Sequence generation for stream entry `k` (R236): the frame's number, none when it is discarded. -/
def State.frerGenerate (s : State) (n : Nat) (b : AshBank) (k : Nat) : Option Nat × State :=
  if !s.domainOn (17 + (b.stream k).home) then (none, s.homeDown n k true)
  else
    let v := s.nextSeq k
    (some v, (s.setNextSeq k ((v + 1) % 65536)).count 11 k 0)

/-- Zero bits among the top `d` bits of a history of `len` bits. -/
def zerosOut (hist len d : Nat) : Nat := d - popCount d (hist / 2 ^ (len - d))

/-- What the vector algorithm does with number `n` (R238): whether it accepts, the new state, and the counters of group 12 it
advances with their amounts. -/
def Recovery.vector (r : Recovery) (len n : Nat) : Bool × Recovery × List (Nat × Nat) :=
  if r.takeAny then
    (true, { r with recov := n, history := 2 ^ len - 1, takeAny := false }, [(0, 1)])
  else
    let d := signed 16 (n + 65536 - r.recov)
    if (len : Int) ≤ d ∨ d ≤ -(len : Int) then (false, r, [(4, 1)])
    else if 0 < d then
      let k := d.toNat
      (true, { r with recov := n, history := (r.history * 2 ^ k + 1) % 2 ^ len },
        [(3, zerosOut r.history len k), (2, b2n (decide (1 < k))), (0, 1)])
    else
      let k := (-d).toNat
      if bitAt r.history k then (false, r, [(1, 1)])
      else (true, { r with history := r.history + 2 ^ k }, [(2, 1), (0, 1)])

/-- What the match algorithm does with number `n` (R238). -/
def Recovery.matching (r : Recovery) (n : Nat) : Bool × Recovery × List (Nat × Nat) :=
  if r.takeAny ∨ n ≠ r.recov then (true, { r with recov := n, takeAny := false }, [(0, 1)])
  else (false, r, [(1, 1)])

/-- The latent period's counts take in a frame of member `m` that is accepted (`ok`) or discarded as a duplicate (`dup`) (R240). -/
def Recovery.tested (r : Recovery) (ok dup : Bool) (m : Nat) : Recovery :=
  { r with passed := r.passed + b2n ok, dups := r.dups + b2n dup, heard := if m ∈ r.heard then r.heard else r.heard ++ [m] }

/-- Sequence recovery of function `k` for a frame of port `p` with R-TAG number `seq` (R237, R238): whether it is accepted. -/
def State.frerRecover (s : State) (n p : Nat) (b : AshBank) (k : Nat) (seq : Option Nat) : Bool × State :=
  let e := b.recovery k
  if !s.domainOn (17 + e.home) then (false, s.homeDown n k false)
  else match b.memberOf e p, seq with
    | none, _ => (false, s.count 12 k 6)
    | _, none => (false, s.count 12 k 5)
    | some m, some q =>
      let r0 := s.recState k
      let (ok, r1, cs) := if e.isMatch then r0.matching q else r0.vector e.hist q
      let r2 := if ok then { r1 with timer := some s.now } else r1
      let r3 := if e.period = 0 then r2 else r2.tested ok (cs.any fun c => decide (c.1 = 1)) m
      (ok, ((s.count 11 m 1).setRec k r3).each cs fun t c => t.countN 12 k c.1 c.2)

/-- The scanner finds a recovery function's reset timer expired, or its reset asked for (R239). A frame accepted in the same core
cycle has restarted the timer. -/
def State.frerExpiry (s : State) (k : Nat) : State :=
  let e := s.ash.1.recovery k
  let r := s.recState k
  let runs := r.timer.any fun t => decide (t ≠ s.now)
  if !s.ash.1.valid || !e.valid || !s.domainOn (17 + e.home) || !(runs || r.resetAsked) then s
  else (s.setRec k { r with takeAny := true, resetAsked := false, timer := none }).count 12 k 7

/-- The latent error and member_silent tests at the end of a period (R240). -/
def State.frerLatent (s : State) (k : Nat) : State :=
  let e := s.ash.1.recovery k
  let r := s.recState k
  if !s.ash.1.valid || !e.valid || e.period = 0 || !s.domainOn (17 + e.home) then s
  else
    let diff : Int := (r.passed * (e.members - 1) : Nat) - (r.dups : Nat)
    let s1 := if decide (e.threshold < diff.natAbs) then
        (((s.count 12 k 8).raise (F.PIPE_REP_EVENT_latent_error e.home)).frerLast e.home k false).react 0x15 0 k 0 else s
    let s2 := s1.each (e.streams.filter fun m => decide (m ∉ r.heard)) fun t m =>
      ((t.raise (F.PIPE_REP_EVENT_member_silent e.home)).frerLast e.home m true).react 0x15 0 m 0
    s2.setRec k { r with passed := 0, dups := 0, heard := [] }

/-- 1 is written to go of PIPE.FRER_RESET (R246): ignored for an entry the active bank does not use. -/
def State.frerReset (s : State) (k target : Nat) : State :=
  if target = 1 then
    if s.ash.1.valid && decide ((s.ash.1.stream k).kind = 1) then s.setNextSeq k (s.ash.1.stream k).init else s
  else if s.ash.1.valid && (s.ash.1.recovery k).valid then s.setRec k { s.recState k with resetAsked := true } else s

/-! ### Policing (R265 to R269) -/

/-- Colour of a frame under a policer and the buckets debited (bit 0 Tc, bit 1 Te or Tp), with the buckets left: 0 green,
1 yellow, 2 red (R267). `need` is the counted length in bucket units. -/
def PolEntry.decide_ (e : PolEntry) (p : Policer) (yellowIn : Bool) (need : Nat) : Nat × Nat × Policer :=
  if e.mode = 2 then
    if p.e < need then (2, 0, p)
    else if yellowIn ∨ p.c < need then (1, 2, { p with e := p.e - need })
    else (0, 3, { p with c := p.c - need, e := p.e - need })
  else if !yellowIn ∧ need ≤ p.c then (0, 1, { p with c := p.c - need })
  else if need ≤ p.e then (1, 2, { p with e := p.e - need })
  else (2, 0, p)

/-- What policing decides for a frame: whether it passes, whether it is marked DEI, and what is still to be settled when its
length becomes known. -/
structure Verdict where
  pass : Bool
  mark : Bool
  meter : Option (Nat × Nat × Nat)
  deriving DecidableEq, Repr

/-- Meter a frame by policer `k` (R265 to R268). `len` is the length counted with, `known` whether it is the frame's own. -/
def State.police (s : State) (k : Nat) (h : Hdr) (len : Nat) (known : Bool) : Verdict × State :=
  let e := s.ash.1.policer k
  if k = 0 ∨ e.mode = 0 then (⟨true, false, none⟩, s)
  else
    let need := (s.counted e.prof len).toNat * 13200000
    let (col, mask, p) := e.decide_ (s.policerNow k) (e.aware && h.outer && decide (h.dei = 1)) need
    let s1 := (s.setPolicer k (some p)).count 13 k (2 * col)
    let s2 := if known then s1.countN 13 k (2 * col + 1) len else s1
    let drop := if col = 1 then decide (e.yellow = 2) else decide (col = 2) && decide (e.red = 0)
    let mark := if col = 1 then decide (e.yellow = 1) else decide (col = 2) && decide (e.red = 1)
    (⟨!drop, mark, if known then none else some (k, len, mask + 4 * col)⟩, if drop then s2.count 13 k 6 else s2)

/-- The length of a metered frame becomes known (R269): the difference goes back to the buckets debited, and the received
bytes are counted. -/
def State.policeEnd (s : State) (m : Option (Nat × Nat × Nat)) (len : Nat) : State :=
  match m with
  | none => s
  | some (k, was, code) =>
    let e := s.ash.1.policer k
    let p := s.policerNow k
    let back := ((s.counted e.prof was).toNat - (s.counted e.prof len).toNat) * 13200000
    let p1 := if bitAt code 0 then { p with c := max p.c (min (p.c + back) (e.cbs * 13200000)) } else p
    let p2 := if bitAt code 1 then { p1 with e := max p1.e (min (p1.e + back) (e.burst2 * 13200000)) } else p1
    (if code % 4 = 0 then s else s.setPolicer k (some p2)).countN 13 k (2 * (code / 4) + 1) len

end Sys2Proof.Machine
end

