-- ==== Sys2Proof/Machine/Ingress.lean ====
section
/-! DEFINITION. The ingress side: arrival of a frame and the express test (R24, R31, R50, R111), the pipeline's decision
(R124 to R126, R147), admission (R198 to R202, R206), expansion (R223, R224) and the end of a frame (R199). -/

namespace Sys2Proof.Machine

/-! ### Header FIFOs (R31) -/

/-- The FIFO that pipeline `n` takes its next header from, round-robin over its 16 macros. -/
def State.nextHeader (s : State) (n : Nat) : Option (Nat × Nat) :=
  let r := SMap.get (fun _ => 0) n s.fab.rrMacro
  (((List.range 16).map fun i => 16 * n + (r + i) % 16).filterMap fun m => (s.fifo m).head?.map fun i => (m, i)).head?

/-- Expansion queue of pipeline `n` (R224). -/
def State.expandQ (s : State) (n : Nat) : List Nat := SMap.get (fun _ => []) n s.fab.expand

/-- Set an expansion queue. -/
def State.setExpand (s : State) (n : Nat) (l : List Nat) : State :=
  { s with fab := { s.fab with expand := SMap.set (fun _ => []) n l s.fab.expand } }

/-! ### Arrival -/

/-- The counter lies in an entry's acceptance window (R111 condition 4). -/
def State.inWindow (s : State) (e : MapEntry) : Bool :=
  let t : Int := s.timeNs
  decide (s.slotBegan + e.winOpen ≤ t) && decide (t < s.slotBegan + e.winClose)

/-- Verdict of the express test on the first bytes of a frame. -/
inductive Express where
  | no | late | fallback | yes (out : Nat)
  deriving DecidableEq, Repr

/-- A port passes the type check of R116, and did so before this core cycle: an entry that passes again is active from the next core
cycle on. -/
def State.portActive (s : State) (p : Nat) : Bool := s.portMatches p && decide ((s.port p).matchedAt ≠ some s.now)

/-- The express test (R111, R116). -/
def State.expressTest (s : State) (p : Nat) (l : List Byte) : Express :=
  let e := s.entryNow (p / 4)
  if !s.ephOn || !s.getB F.EPH_CTRL_meridian_en || s.closed then .no
  else if be16 l 12 ≠ s.cal.le 0x1C 2 ∨ !bitAt (s.cal.le 0x17 1) (byteAt l 14 / 32) then .no
  else if !(e.valid && decide (e.inSub = p % 4) && s.inWindow e) then .late
  else if !(s.portActive p && s.portActive e.out) then .fallback
  else .yes e.out

/-- The first bytes of a frame reach the ingress MAC of port `p` (R24, R49, R55, R68, R111). -/
def State.frameArrive (s : State) (p : Nat) (head : List Byte) : State :=
  let m := p / 4
  let i := p % 4
  if !s.portUp p || (s.port p).arriving.isSome then s
  else
    let s1 := s.setPort p { s.port p with rxCfg := s.reg (Addr.PORT_MAC_CFG m i), rxAddr := s.macAddr p, activity := true }
    let rcv := fun (t : State) (a : Arriving) => t.setPort p { t.port p with arriving := some a }
    if !s1.getB (F.PORT_MAC_CFG_rx_en m i) || decide (be16 head 12 = 0x8808) then rcv s1 (.consumed head)
    else match s1.expressTest p head with
      | .no => s1.packetArrive p head
      | .late => (s1.count 1 p 2).packetArrive p head
      | .fallback => (s1.count 1 p 4).packetArrive p head
      | .yes out =>
        let (t, s2) := (s1.count 1 p 0).rxStamp p
        (rcv s2 (.express out false head s2.now t)).expressArrive p out head

/-! ### Admission (R198 to R202) -/

/-- Egress queue of a PORT copy on ingress port `p` (R137, R222). -/
def AshBank.portQueue (b : AshBank) (f : Frame) (dest queue : Nat) (fromPcp : Bool) : Nat :=
  8 * (dest % 512) + (if fromPcp then b.pcpQueue f.port f.hdr.pcp else queue)

/-- Copies an action record asks for (R137, R221, R222). -/
def AshBank.copiesOf (b : AshBank) (f : Frame) (a : Act) : List CopyReq :=
  let own := b.editOf a.profile a.vid a.pcp a.dei a.dscp a.da a.sa
  match a.dtype with
  | 1 => [⟨b.portQueue f a.dest a.queue a.qpcp, own, false⟩]
  | 2 =>
    let (first, n, prune) := b.group a.dest
    ((List.range n).map fun i => b.copyEntry (first + i)).filterMap fun c =>
      let e := b.editOf c.profile c.vid c.pcp c.dei c.dscp c.da c.sa
      if c.kind = 1 then (if prune && decide (c.dest = f.port) then none else some ⟨b.portQueue f c.dest c.queue c.qpcp, e, false⟩)
      else some ⟨4096 + c.dest % 64, e, false⟩
  | 3 => [⟨4096 + a.dest % 64, own, false⟩]
  | _ => []

/-- The logical port of queue `x` is there and up; the CPU port always is. -/
def State.queueOpen (s : State) (x : Nat) : Bool :=
  if 4096 ≤ x ∧ x < 4160 then true
  else match s.queuePort x with
    | some p => s.portUp p
    | none => false

/-- Accept or refuse one copy of a frame charged `n` cells (R200). -/
def State.acceptCopy (s : State) (x n : Nat) : Bool × State :=
  if !s.queueOpen x then (false, s.count 6 x 1)
  else if 16 * s.limitF (F.BUF_QCFG_A_q_limit x) < s.depthOf x + n then (false, s.count 6 x 0)
  else (true, s)

/-- Accept or refuse each copy in turn. -/
def State.acceptAll (s : State) (n : Nat) : List CopyReq → List CopyReq × State
  | [] => ([], s)
  | c :: r =>
    let (ok, s1) := s.acceptCopy c.queue n
    let (l, s2) := s1.acceptAll n r
    (if ok then c :: l else l, s2)

/-- The queue that a mirror session's copies enter (R228). -/
def Session.queue (e : Session) (i : Nat) : Nat := if e.toCpu then 4096 + e.dest % 64 else 4160 + i

/-- A session's mirror request: whether it is taken under its sampling (R227). -/
def State.mirrorTake (s : State) (i : Nat) (e : Session) : Bool × State :=
  let c := SMap.get (fun _ => 0) i s.fab.mirrorReq + 1
  let s1 : State := { s with fab := { s.fab with mirrorReq := SMap.set (fun _ => 0) i c s.fab.mirrorReq } }
  if e.sample < 2 ∨ c % e.sample = 0 then (true, s1) else (false, s1.count 10 i 1)

/-- Pool that a frame is charged to (R198). -/
def State.chargePool (s : State) (f : Frame) (l : List CopyReq) : Nat :=
  if f.cpuRing.isSome then 14
  else if l.all fun c => decide (4096 ≤ c.queue) && decide (c.queue < 4160) then 13
  else s.classPool f.cls

/-- A frame with one share in a port queue, charged to a main pool, may lie in HBM (R206). -/
def State.mayHbm (s : State) (k : Nat) (l : List CopyReq) (share : Bool) : Bool :=
  s.getB F.BUF_CTRL_hbm_en && decide (k < 12) && !share && (match l with | [c] => decide (c.queue < 4096) | _ => false)

/-- `n` more cells admitted to queue `x` on chip would raise its on-chip depth above spill_depth (R206). -/
def State.spills (s : State) (k n x : Nat) : Bool :=
  let d := s.limitF (F.BUF_QCFG_C_spill_depth x)
  s.getB F.BUF_CTRL_hbm_en && decide (k < 12) && decide (x < 4096) && decide (d ≠ 0xFFFFF) && decide (d < s.depthOnchip x + n)

/-- Memory that a frame is placed in (R206): its target memory when the pool's quota there has room, otherwise the other one; none
where neither has. While the HBM's write path cannot accept it (`full`) it is placed on chip: the second answer (R208). -/
def State.place (s : State) (k n : Nat) (l : List CopyReq) (share full : Bool) : Option (Bool × Bool) :=
  let chip := s.quotaLeft false k n
  let hbm := s.mayHbm k l share && s.quotaLeft true k n
  let want := s.mayHbm k l share && l.any fun c => (s.queue c.queue).spilled || s.spills k n c.queue
  if hbm && (want || !chip) then (if !full then some (true, false) else if chip then some (false, true) else none)
  else if chip then some (false, false) else none

/-- Charge an admitted frame and hand it to expansion (R200, R202, R206). -/
def State.chargeFrame (s : State) (i : Nat) (f : Frame) (k n : Nat) (hbm : Bool) (l : List CopyReq) (path : Bool) : State :=
  let head := (s.pool k).threshold && decide ((s.pool k).shared < (s.pool k).total + n)
  let full := l.filter fun c => hbm || s.spills k n c.queue
  let s1 := if hbm then s.poolMove k 0 n else s.poolMove k n 0
  let asks := (s1.pool k).asks.filter fun a => decide (a.time = s.now)
  let s2 := (s1.setPool k { s1.pool k with asks := asks ++ [⟨s.now, f.owner, n, i, none, path⟩] }).doIf (!f.direct) fun t =>
    t.chargeMove f.port f.cls n
  let s3 := s2.each full fun u c => u.setQueue c.queue { u.queue c.queue with spilled := true }
  let g : Frame := { f with stage := .expand, charge := n, pool := k, inHbm := hbm, copies := l, refs := l.length + b2n f.mirrorShare }
  (((s3.setFrame i (some g)).setExpand f.unit (s3.expandQ f.unit ++ [i])).doIf head fun t => t.count 7 k 1)

/-! ### Requests of one core cycle (R202) -/

/-- The requests of this core cycle to pool `k` that may still be served anew, in the order of their rows; a frame that has been
expanded keeps its cells. -/
def State.openAsks (s : State) (k : Nat) : List Ask :=
  (s.pool k).asks.filter fun a => decide (a.time = s.now)
    && (a.lost.isSome || (s.frame a.frame).any fun f => decide (f.stage = .expand))

/-- Requests in the order in which pool `k` serves them (R202). -/
def State.inService (s : State) (k : Nat) (l : List Ask) : List Ask :=
  (List.range 12).flatMap fun j => l.filter fun a => decide (servicePlace ((s.pool k).rrBase s.now) a.requester = j)

/-- Of requests served in turn from `left` cells, those that are granted. -/
def granted (left : Nat) : List Ask → List Ask
  | [] => []
  | a :: r => if a.cells ≤ left then a :: granted (left - a.cells) r else granted left r

/-- Replace the requests of a pool. -/
def State.setAsks (s : State) (k : Nat) (l : List Ask) : State := s.setPool k { s.pool k with asks := l }

/-- A grant of this core cycle gives way to a request that the pool serves first: its frame is dropped whole, and its request kept among
those that failed. -/
def State.giveWay (s : State) (k : Nat) (a : Ask) : State :=
  match s.frame a.frame with
  | none => s
  | some f =>
    let late := (s.pool k).freed
    let s1 := (s.leaveExpand a.frame).endFrame a.frame f
    let rest := (s1.pool k).asks.map fun x => if x.frame = a.frame then { x with lost := some f } else x
    ((s1.setPool k { s1.pool k with freed := late, asks := rest }).poolFail k).count 5 f.port 2

/-- A request that failed in this core cycle is granted once the pool has served the requests in its order: its frame is admitted
after all. -/
def State.takeBack (s : State) (k : Nat) (a : Ask) : State :=
  match a.lost with
  | none => s
  | some f =>
    let s1 := (s.setAsks k ((s.pool k).asks.filter fun x => decide (x.frame ≠ a.frame))).countN 7 k 0 (2 ^ 64 - 1)
    match (if s1.poolGrants k a.cells && ((s.frame a.frame).isNone == f.ended) then s1.place k a.cells f.copies f.mirrorShare a.full else none) with
    | none => s
    | some (hbm, back) =>
      ((s1.countN 5 f.port 2 (2 ^ 64 - 1)).chargeFrame a.frame f k a.cells hbm f.copies a.full).doIf back fun t => t.count 8 0 4

/-- Requester `r` asks pool `k` for `n` cells. Where the pool has too few left, the requests of this core cycle are served anew in the
pool's order with this one among them (R202; notes/assumptions/51.md). -/
def State.serveAsk (s : State) (k r n : Nat) : State :=
  if s.poolGrants k n then s
  else
    let l := s.openAsks k
    let held := ((l.filter fun a => a.lost.isNone).map Ask.cells).sum
    let own : Ask := ⟨s.now, r, n, s.fab.nextFrame, none, false⟩
    let won := granted ((s.pool k).cap - ((s.pool k).taken s.now - held)) (s.inService k (l ++ [own]))
    let s1 := s.each (l.filter fun a => a.lost.isNone && decide (a ∉ won)) fun t a => t.giveWay k a
    s1.each (l.filter fun a => a.lost.isSome && decide (a ∈ won)) fun t a => t.takeBack k a

/-- The request of frame `i` to pool `k` fails: the frame is dropped whole (R202). -/
def State.askFails (s : State) (k n i : Nat) (f : Frame) (full : Bool) : State :=
  let asks := (s.pool k).asks.filter fun a => decide (a.time = s.now)
  (((s.setAsks k (asks ++ [⟨s.now, f.owner, n, i, some f, full⟩])).poolFail k).count 5 f.port 2).dropFrame i f

/-- Admission of frame `i` with the copies it asks for (R200, R226 to R228): whether it is admitted. `full`: the HBM's write path
cannot accept a frame (R208). -/
def State.admission (s : State) (i : Nat) (f : Frame) (asked : List CopyReq) (mir : Option (Nat × Session)) (full : Bool) :
    Bool × State :=
  let n := if f.ended then ceilDiv f.len 256 else ceilDiv (fldOf (s.port f.port).rxCfg 0 14) 256
  let (l, s1) := s.acceptAll n asked
  let (took, s2) := match mir with
    | some (k, e) => s1.mirrorTake k e
    | none => (false, s1)
  if l.isEmpty then (false, (s2.count 5 f.port 0).dropFrame i f)
  else
    let plain := match mir with | some (_, e) => took && decide (e.trunc = 0) && decide (e.encapLen = 0) | none => false
    let (l1, s3) := match mir with
      | some (k, e) => if plain then
          let (ok, t) := s2.acceptCopy (e.queue k) n
          if ok then (l ++ [({ queue := e.queue k, edit := ⟨0, 0, 0, 0, 0, 0, 0, 0⟩, mirror := true } : CopyReq)], t) else (l, t)
          else (l, s2)
      | none => (l, s2)
    let g : Frame := { f with mirror := if took then mir else none, mirrorShare := took && !plain }
    let k := s3.chargePool g l1
    if !f.direct && decide (16 * s3.limitF (F.BUF_ING_LIMIT_ing_limit (8 * f.port + f.cls)) < s3.charged f.port f.cls + n) then
      (false, (s3.count 5 f.port 1).dropFrame i f)
    else
      let s4 := s3.serveAsk k f.owner n
      match (if s4.poolGrants k n then s4.place k n l1 g.mirrorShare full else none) with
      | none => (false, s4.askFails k n i { g with copies := l1 } full)
      | some (hbm, back) => (true, (s4.chargeFrame i g k n hbm l1 full).doIf back fun t => t.count 8 0 4)

/-! ### The pipeline's decision (R124 to R126, R147) -/

/-- FRER work of step 4 (R233): the frame's sequence number, none when it is discarded. -/
def State.frerStep (s : State) (n : Nat) (b : AshBank) (f : Frame) (a : Act) : Option (Option Nat) × State :=
  match a.role with
  | 1 => (match s.frerGenerate n b a.fn with
    | (some v, t) => (some (some v), t)
    | (none, t) => (none, t))
  | 2 => (match s.frerRecover n f.port b a.fn f.hdr.rtag with
    | (true, t) => (some f.hdr.rtag, t)
    | (false, t) => (none, t))
  | _ => (some f.hdr.rtag, s)

/-- Step 4 of R26 on a frame with its action record: FRER, policing, DROP records, admission. A frame that has already ended bad is
dropped whole in place of its admission (R50; notes/assumptions/55.md). -/
def State.stepFour (s : State) (n i : Nat) (b : AshBank) (f : Frame) (a : Act) (full : Bool) : Bool × State :=
  match s.frerStep n b f a with
  | (none, s1) => (false, s1.dropFrame i f)
  | (some q, s1) =>
    let len := if f.ended then f.len else fldOf (s1.port f.port).rxCfg 0 14
    let (v, s2) := s1.police a.policer f.hdr len f.ended
    let g : Frame := { f with seqNum := q, markDei := v.mark, meter := v.meter }
    if !v.pass then (false, s2.dropFrame i g)
    else if a.dtype = 0 then (false, (s2.count 3 n (4 + a.reason)).dropFrame i g)
    else if f.bad then (false, s2.dropFrame i g)
    else
      let e := b.session a.session
      s2.admission i g (b.copiesOf g a) (if a.mirrorEn && e.valid then some (a.session, e) else none) full

/-- Resolve the header of frame `i` in pipeline `n` and decide on the frame: whether it is admitted. -/
def State.decideFrame (s : State) (n i : Nat) (f0 : Frame) (full : Bool) : Bool × State :=
  let bank := s.physBank false
  let b := s.ash.1
  let s0 := s.count 3 n 0
  let f : Frame := { f0 with bank := bank, unit := n }
  if !s0.getB (F.PIPE_CTRL_fwd_en n) || !b.valid then (false, (s0.count 3 n 1).dropFrame i f)
  else if b.fmt = 3 ∧ 4 ≤ n then
    (false, ((s0.count 3 n 2).raise (F.PIPE_EVENT_image_limit_drop n)).dropFrame i f)
  else
    let h := parse b f.port f.bytes (if f.ended then some f.len else none)
    let r := s0.resolve n f.port bank h f.bytes
    let da := beAt f.bytes 0 6
    let sa := beAt f.bytes 6 6
    let a := actOf (b.sec 6) (32 * r.record.getD 0)
    let probe := s0.probe n h.vlan sa f.port bank
    let a2 := h.a2.getD 0
    let v6 := decide (h.l3 = 2)
    let dst := if v6 then beAt f.bytes (a2 + 24) 16 else beAt f.bytes (a2 + 16) 4
    let s1 := s0.checkWays n ((s0.tab n).cands h.vlan da ++ (s0.tab n).cands h.vlan sa)
    let s2 := s1.doIf r.l3 fun t => t.checkUnits [hrBucket 0 (b.vlan h.vlan).vrf v6 dst, hrBucket 1 (b.vlan h.vlan).vrf v6 dst]
    if (b.entriesRead f.port h r a).any fun e => decide (e ∈ b.poison) then (false, (s2.count 16 0 5).dropFrame i f)
    else match r.record with
      | none => (false, (s2.rangeError n r).dropFrame i f)
      | some _ =>
        let may := a.learn && (b.vlan h.vlan).learnEn && !f.noLearn && !bitAt h.exc 4 && !bitAt h.exc 5
        let g : Frame := { f with hdr := h, learn := if may then probe else .none, routed := r.l3, cls := h.pcp }
        let s3 := s2.doIf (f.ended && !f.bad) fun t => t.raiseLearn n g.learn h.vlan sa f.port
        s3.stepFour n i b g a full

/-- The expansion queue of pipeline `n` is full: it takes no header (R224). -/
def State.expandFull (s : State) (n : Nat) : Bool := decide (64 ≤ (s.expandQ n).length)

/-- One core cycle of the pipelines whose expansion queue is full (R224). -/
def State.expandStalls (s : State) : State :=
  s.each ((List.range 8).filter s.expandFull) fun t n => (t.count 9 n 0).raise (F.PIPE_REP_EVENT_expand_stall n)

/-- Pipeline `n` takes its next header (R31, R124); it takes none while its expansion queue is full (R224). -/
def State.headerStep (s : State) (n : Nat) (full : Bool) : State :=
  if !s.domainOn (17 + n) || s.expandFull n then s
  else match s.nextHeader n with
    | none => s
    | some (m, i) =>
      let s1 := s.setFifo m ((s.fifo m).drop 1)
      let s2 : State := { s1 with fab := { s1.fab with rrMacro := SMap.set (fun _ => 0) n ((m + 1) % 16) s1.fab.rrMacro } }
      match s2.frame i with
      | none => s2
      | some f => (s2.decideFrame n i f full).2

/-! ### Expansion (R28, R201, R213, R224) -/

/-- Bytes of a frame with an edit, FCS included; 0 while its length is not known. -/
def Frame.copyLen (f : Frame) (e : Edit) : Nat :=
  if f.ended then sentLen (e.apply f.hdr f.seqNum false false (f.bytes.take (f.bytes.length - 4))) else 0

/-- A copy entering queue `x` is cut through (R28, R259). -/
def State.cutsThrough (s : State) (f : Frame) (x : Nat) : Bool :=
  match s.queuePort x with
  | none => false
  | some p =>
    !f.ended && !f.inHbm && (s.queue x).all.isEmpty && (s.port p).tx.isNone && (s.port p).held.isNone
      && (decide (4096 ≤ x) || s.gateOpen p (x % 8)) && decide (s.macRate p ≤ s.macRate f.port) && s.qFunded x && s.pFunded p

/-- Marking decision for a copy that is not cut through (R213): CE or DEI, and the counter of group 6 that it advances. A mirror copy
is the frame as received. -/
def State.marking (s : State) (f : Frame) (c : CopyReq) : Bool × Bool × Option Nat :=
  let md := s.getF (F.BUF_QCFG_A_mark_depth c.queue)
  let ecn := match f.hdr.a2 with | some o => tosOf f.hdr.l3 o f.bytes % 4 | none => 0
  if c.mirror || md = 0 || decide (s.depthOf c.queue < 16 * md) then (false, false, none)
  else if f.hdr.l3 = 1 ∨ f.hdr.l3 = 2 then
    if s.getB (F.BUF_QCFG_B_ecn_mark c.queue) && (decide (ecn = 1) || decide (ecn = 2)) && !(decide (f.hdr.l3 = 1) && bitAt f.hdr.exc 6)
    then (true, false, some 5) else (false, false, none)
  else if f.hdr.outer && s.getB (F.BUF_QCFG_B_dei_mark c.queue) then (false, true, some 6)
  else (false, false, none)

/-- Queue `x` is a safety-class queue and the device is in SAFE_HOLD (R300). -/
def State.safetyShut (s : State) (x : Nat) : Bool :=
  decide (s.dev = .safeHold) && ((decide (x < 4096) && s.safetyQ (x % 8))
    || (decide (4096 ≤ x) && decide (x < 4160) && s.safetyCpuQ (x - 4096)))

/-- Egress pipeline of a queue: of its logical port; 8 for the queues of no port. -/
def State.egressOf (s : State) (x : Nat) : Nat := match s.queuePort x with | some p => p / 64 | none => 8

/-- Egress pipeline `e` takes a copy from ingress pipeline `n` (R224). -/
def State.serveFrom (s : State) (e n : Nat) : State :=
  let (t, was, last) := SMap.get (fun _ => (0, 7, 7)) e s.fab.served
  let base := if t = s.now then was else last
  let place := fun k => (k + 15 - base) % 8
  let l := if t = s.now && decide (place n < place last) then last else n
  { s with fab := { s.fab with served := SMap.set (fun _ => (0, 7, 7)) e (s.now, base, l) s.fab.served } }

/-- A copy that has entered a queue of egress pipeline `e` in this core cycle from an ingress pipeline served after `n` (R224). -/
def State.servedAfter (s : State) (e n : Nat) (c : Copy) : Bool :=
  let base := (SMap.get (fun _ => (0, 7, 7)) e s.fab.served).2.1
  decide (c.enq = s.now) && (s.frame c.frame).any fun f => decide ((n + 15 - base) % 8 < (f.unit + 15 - base) % 8)

/-- One accepted copy of frame `i` enters its queue, ahead of those that the queue's egress pipeline takes after it in the same core
cycle (R224), or is released where the queue's port has gone down (R201) or the queue is shut in SAFE_HOLD (R300). -/
def State.enqueue (s : State) (i : Nat) (c : CopyReq) : State :=
  match s.frame i with
  | none => s
  | some f =>
    let x := c.queue
    let s0 := s.serveFrom (s.egressOf x) f.unit
    let q := s0.queue x
    let after := q.copies.filter (s0.servedAfter (s.egressOf x) f.unit)
    let s1 := s0.setQueue x { q with copies := q.copies.filter fun d => decide (d ∉ after) }
    let cut := s1.cutsThrough f x
    let (ce, dei, k) := if cut then (false, false, none) else s1.marking f c
    let cp : Copy := { frame := i, charge := f.charge, len := f.copyLen c.edit, stamp := f.arrival, ce := ce,
                       dei := dei || (f.markDei && !c.mirror), edit := c.edit, mirror := c.mirror, cut := cut,
                       prefetched := false, enq := s.now }
    if !s.queueOpen x || s.safetyShut x then ((s.loseCopy cp).count 6 x 4).fixSpill x
    else
      let s2 := s1.setQueue x { s1.queue x with
        copies := (s1.queue x).copies ++ cp :: after.map fun d => { d with cut := false } }
      let s3 := match k with | some j => s2.count 6 x j | none => s2
      s3.doIf c.mirror fun t => t.count 10 ((f.mirror.map Prod.fst).getD 0) 0

/-- Bytes of a frame that its cells hold: a copy that the mirror engine builds has no FCS (R228). -/
def Frame.stored (f : Frame) : List Byte := if f.owner = 9 then f.bytes.take (f.bytes.length - 4) else f.bytes

/-- Their number. -/
def Frame.storedLen (f : Frame) : Nat := if f.owner = 9 then f.len - 4 else f.len

/-- Draw the cells of a frame for its bytes that are there: of one still arriving those received so far (R199). -/
def State.cellsOf (s : State) (i : Nat) : State :=
  match s.frame i with
  | none => s
  | some f =>
    let n := if f.ended then f.charge else min f.charge (ceilDiv f.bytes.length 256)
    let (l, s1) := s.drawCells f.inHbm ⟨0, false, 0, f.refs, f.owner, f.pool, false, 0⟩ (n - f.cells.length)
    (s1.linkCells f.ended f.storedLen f.stored (f.cells ++ l)).setFrame i (some { f with cells := f.cells ++ l })

/-- Pipeline `n`'s oldest admitted frame is expanded (R224). -/
def State.expandStep (s : State) (n : Nat) : State :=
  match s.expandQ n with
  | [] => s
  | i :: r =>
    let s1 := s.setExpand n r
    match s1.frame i with
    | none => s1
    | some f =>
      let s2 := s1.setFrame i (some { f with stage := .live, copies := [] })
      let s3 := s2.cellsOf i
      let s4 := match f.mirror with
        | some (k, e) => s3.doIf f.mirrorShare fun t => { t with fab := { t.fab with mirrorJobs := t.fab.mirrorJobs ++ [(⟨i, k, e⟩ : MirrorJob)] } }
        | none => s3
      s4.each f.copies fun t c => t.enqueue i c

/-! ### The end of a frame (R50, R162, R199, R269) -/

/-- The length of an admitted frame is known: the charge of its copies falls to what it occupies, and copies already sending
know their length. -/
def State.settleLen (s : State) (i : Nat) : State :=
  match s.frame i with
  | none => s
  | some f =>
    let n := ceilDiv f.len 256
    let s1 := (s.unchargeFrame f (f.charge - n)).setFrame i (some { f with charge := n })
    let s2 := s1.each s1.fab.queues fun t e =>
      let known := fun (c : Copy) => if c.frame = i then { c with charge := n, len := f.copyLen c.edit } else c
      if e.2.all.any fun c => decide (c.frame = i) then
        t.setQueue e.1 { t.queue e.1 with copies := (t.queue e.1).copies.map known, flush := (t.queue e.1).flush.map known } else t
    let fix := fun (o : Option TxFrame) => o.map fun t =>
      if t.frame = i && !t.meridian && t.flow.isNone then { t with len := f.copyLen t.edit } else t
    let s3 := s2.each s2.ports fun t e => t.setPort e.1 { t.port e.1 with tx := fix (t.port e.1).tx, held := fix (t.port e.1).held }
    if f.stage = .live then s3.cellsOf i else s3

/-- The last byte of packet-plane frame `i` arrives: `bytes` and `len` as accepted, `good` where the frame is. The header of a bad
frame stays in its FIFO. -/
def State.packetEnd (s : State) (i : Nat) (bytes : List Byte) (len : Nat) (good : Bool) : State :=
  match s.frame i with
  | none => s
  | some f =>
    let s1 := (s.policeEnd f.meter len).setFrame i
      (some { f with bytes := bytes, len := len, ended := true, meter := none, bad := f.bad || !good })
    let s2 := if good then s1.raiseLearn f.unit f.learn f.hdr.vlan (beAt bytes 6 6) f.port else s1
    match f.stage with
    | .fifo => s2
    | .done => s2.setFrame i none
    | _ => if good then s2.settleLen i else (s2.settleLen i).endBad i bytes len

/-- A frame shorter than 256 bytes has arrived whole: its header enters the FIFO now, but for a `runt` of less than 64 bytes
(R50). -/
def State.shortArrive (s : State) (p i : Nat) (runt : Bool) : State :=
  if runt then s.setFrame i none
  else match s.enterFifo p i with
    | some t => t
    | none => (s.count 0 p 8).setFrame i none

/-- The last byte of an express frame from port `p` to egress port `out` (R52, R54). -/
def State.expressEnd (s : State) (out p : Nat) (bytes : List Byte) (bad : Bool) : State :=
  (s.onCrossing out p fun t => { t with bytes := bytes, len := bytes.length,
                                        stomp := if bad then some (firstCause t.stomp .rxError) else t.stomp }).skidCheck out

/-- The last bytes of a frame reach the ingress MAC of port `p` (R50, R52, R199). Of an oversize frame max_frame bytes are accepted;
zeros stand in the place of its FCS, which no egress MAC sends. A frame whose
reassembly failed counts as one with a wrong FCS (notes/assumptions/67.md), and one that came in fragments while preempt_enable is clear
is delivered like any other (notes/assumptions/48.md). -/
def State.frameEnd (s : State) (p : Nat) (rest : List Byte) (fcsGood pcsError : Bool) (mm : Reassembly) : State :=
  let r := s.port p
  let mx := fldOf r.rxCfg 0 14
  let good := fcsGood && !mm.bad
  let s0 := (s.setPort p { r with arriving := none, activity := true }).reassembled p mm
  match r.arriving with
  | none => s
  | some (.ignored got plane) =>
    let (k, cs) := rxClass mx (got.length + rest.length) good pcsError
    let s1 := s0.each cs fun t c => t.count 0 p c
    if plane && decide (k = 0) then (s1.count 0 p 0).countN 0 p 1 (got.length + rest.length) else s1
  | some (.consumed got) =>
    let l := got ++ rest
    if bitAt r.rxCfg.toNat 14 then s0.macCtrlRx p r.rxCfg r.rxAddr l good pcsError
    else s0.each (rxClass mx l.length good pcsError).2 fun t c => t.count 0 p c
  | some (.express out lost got _ _) =>
    let l := got ++ rest
    let (k, cs) := rxClass mx l.length good pcsError
    let s1 := s0.each cs fun t c => t.count 0 p c
    let s2 := if k = 0 then (s1.count 0 p 0).countN 0 p 1 l.length else s1
    let s3 := s2.countN 1 p 1 (min l.length mx)
    if lost then s3 else s3.expressEnd out p (l.take mx) (pcsError || decide (mx < l.length) || decide (l.length < 64))
  | some (.packet i) =>
    match s0.frame i with
    | none => s0
    | some f =>
      let l := f.bytes ++ rest
      let (k, cs) := rxClass mx l.length good pcsError
      let s1 := s0.each cs fun t c => t.count 0 p c
      let full := decide (f.stage = .fifo) && f.bytes.length < 256
      let s2 := s1.packetEnd i (if mx < l.length then l.take mx ++ List.replicate 4 0 else l) (min l.length mx) (decide (k = 0))
      let s3 := if full then s2.shortArrive p i (decide (k = 1)) else s2
      if k = 0 && (!full || (s3.frame i).isSome) then (s3.count 0 p 0).countN 0 p 1 l.length else s3

end Sys2Proof.Machine
end

