-- ==== Sys2Proof/Machine/Buffers.lean ====
section
/-! DEFINITION. The buffer beside the path of a frame: the apply of the pool registers (R196), the HBM's channels (R217, R218),
prefetch (R207, R209), age (R212), scrubbing (R214, R215), built mirror copies (R228). -/

namespace Sys2Proof.Machine

/-! ### Pool apply (R196) -/

/-- Pool `k` as its registers have it, with its present use. -/
def State.wantedPool (s : State) (k : Nat) : Pool :=
  { s.pool k with threshold := s.getB (F.BUF_POOL_CFG_mode k), onchip := s.getF (F.BUF_POOL_ONCHIP_size_onchip k),
                  hbm := s.getF (F.BUF_POOL_HBM_size_hbm k), headroom := s.getF (F.BUF_POOL_HEADROOM_headroom k) }

/-- A pool's registers are ones that R196 allows. -/
def poolFieldOk (en : Bool) (k : Nat) (p : Pool) : Bool :=
  decide (p.headroom ≤ p.onchip) && (p.threshold || decide (p.headroom = 0)) && (decide (k < 12) || decide (p.hbm = 0))
    && (!en || decide (p.hbm = 0))

/-- Outcome of the check: 1 DONE, 2 OVER_CAPACITY, 3 BAD_FIELD. -/
def State.poolCheck (s : State) : Nat :=
  let l := (List.range 16).map s.wantedPool
  if s.onchipAvail < (l.map Pool.onchip).sum ∨ s.hbmAvail < (l.map Pool.hbm).sum then 2
  else if !(List.range 16).all fun k => poolFieldOk s.part.en k (s.wantedPool k) then 3 else 1

/-- Take the registers of one pool into force. -/
def State.takePool (s : State) (k : Nat) : State := s.setPool k ((s.wantedPool k).levels (s.pool k).total)

/-- A cause of DEGRADED that a loss of HBM capacity left: a retired channel, or a stack without its supply (R302, R304). -/
def Cause.ofHbm : Cause → Bool
  | .redundancy d i => decide (d = 2) || (decide (d = 0x16) && (decide (i = 27) || decide (i = 28)))
  | _ => false

/-- 1 is written to BUF.POOL_APPLY. hbm_spare_en takes effect with an apply that is accepted; capacity lost to a retired
channel is accepted with it (R302). -/
def State.poolApplyNow (s : State) : State :=
  let w : State := { s with fab := { s.fab with spareWanted := s.getB F.BUF_CTRL_hbm_spare_en } }
  let r := w.poolCheck
  let s1 := if r = 1 then (w.each (List.range 16) State.takePool).dropCause Cause.ofHbm else s
  (s1.setF F.BUF_POOL_APPLY_STATUS_pool_apply_status r).raise F.BUF_EVENT_pool_apply_done

/-! ### HBM channels (R217, R218) -/

/-- Cells in use of logical HBM channel `c`. -/
def State.channelCells (s : State) (c : Nat) : List (Nat × Cell) :=
  s.fab.cells.filterMap fun (a, x) => match x with
    | some k => if decide (2 ^ 27 ≤ a) && decide ((a - 2 ^ 27) / 4194304 = c) then some (a, k) else none
    | none => none

/-- Logical channel that a physical channel serves. -/
def State.logicalOf (s : State) (c : Nat) : Nat :=
  if c = 31 ∧ s.getB F.BUF_HBM_SPARE_MAP_in_use then s.getF F.BUF_HBM_SPARE_MAP_replaced else c

/-- The spare fails, or the channel being copied to it: the channel that the spare serves, or was to serve, is withdrawn (R218). -/
def State.loseSpare (s : State) : State :=
  if s.getB F.BUF_HBM_SPARE_MAP_in_use then (s.setF F.BUF_HBM_SPARE_MAP_in_use 0).raise F.BUF_EVENT_channel_fault
  else if s.fab.hbmReloc.isSome then
    ({ s with fab := { s.fab with hbmReloc := none } } : State).raise F.BUF_EVENT_channel_fault
  else s

/-- Physical channel `c` is retired, not already so: its cells are copied to the spare while that is free and `mayMove`, otherwise
its range is withdrawn (R217, R218). -/
def State.dropChannel (s : State) (c : Nat) (mayMove : Bool) : State :=
  let s1 := s.setFBit F.BUF_HBM_RETIRED_retired c true
  let free := s1.fab.spareWanted && !s1.getB F.BUF_HBM_SPARE_MAP_in_use && !s1.getFBit F.BUF_HBM_RETIRED_retired 31
    && s1.fab.hbmReloc.isNone
  if c = 31 ∧ s1.fab.spareWanted then s1.loseSpare
  else if mayMove && free then
    ({ s1 with fab := { s1.fab with hbmReloc := some (c, (s1.channelCells c).map Prod.fst) } } : State).setF
      F.BUF_HBM_RELOC_relocated 0
  else s1.raise F.BUF_EVENT_channel_fault

/-- Retire physical channel `c`, and report it (R217, R218, diagnostic 0x02). -/
def State.retireChannel (s : State) (c : Nat) : State :=
  if 32 ≤ c ∨ s.part.en ∨ s.getFBit F.BUF_HBM_RETIRED_retired c then s
  else (s.dropChannel c true).react 0x02 1 c c

/-- go is written to BUF.HBM_RETIRE: ignored while relocating. -/
def State.hbmRetireGo (s : State) (c : Nat) : State := if s.fab.hbmReloc.isSome then s else s.retireChannel c

/-- Bytes of frame `f` in the cells ahead of its first bad one; 0 where no cell of it is known to be bad. -/
def State.goodBytes (s : State) (f : Frame) : Nat :=
  let n := (f.cells.takeWhile fun a => !(s.cell a).any Cell.bad).length
  if n < f.cells.length then 256 * n else 0

/-- Copies of frame `i` in transmission end after the last good byte, at once where that has left (R53). -/
def State.endAfterGood (s : State) (i : Nat) : State :=
  match s.frame i with
  | none => s
  | some f =>
    let good := fun (t : TxFrame) => match s.goodBytes f with
      | 0 => 0
      | n => n + (s.sentBytes t f false).length - (if f.ended then f.bytes.length - 4 else f.bytes.length)
    let fix := fun (n : TxFrame → Nat) (t : TxFrame) =>
      if !t.meridian && t.flow.isNone && decide (t.frame = i) && t.stopAt.isNone then { t with stopAt := some (max (good t) (n t)) }
      else t
    s.each s.ports fun x e => x.setPort e.1 { x.port e.1 with
      tx := (x.port e.1).tx.map (fix (x.bytesOut e.1)), held := (x.port e.1).held.map (fix TxFrame.done) }

/-- Cells of frame `i` are known to be corrupt: its copies are discarded, or stomped where they have started. -/
def State.spoilCells (s : State) (i : Nat) (l : List Nat) : State :=
  let s1 := s.each l fun t a => match t.cell a with
    | none => t
    | some c => t.setCell a (some { c with bad := true })
  match (s1.endAfterGood i).frame i with
  | none => s1
  | some f => (s1.endAfterGood i).setFrame i (some { f with cellBad := true })

/-- All cells of a frame are corrupt as far as is known: its copies in transmission end at once. -/
def State.spoilFrame (s : State) (i : Nat) : State :=
  match s.frame i with
  | none => s
  | some f => (s.endAfterGood i).spoilCells i f.cells

/-- Frames that hold a cell. -/
def State.holders (s : State) (a : Nat) : List Nat :=
  (s.fab.frames.filter fun (_, f) => match f with | some f => decide (a ∈ f.cells) | none => false).map Prod.fst

/-- A CRC error in channel `c` counts towards its retirement: crc_retire_count within one second (R217). -/
def State.crcTally (s : State) (c : Nat) : State :=
  let l := (SMap.get (fun _ => []) c s.fab.crcErrs).filter (fun t => decide (s.now < t + 1650000000)) ++ [s.now]
  let lim := s.getF F.BUF_CRC_RETIRE_crc_retire_count
  let s1 : State := { s with fab := { s.fab with crcErrs := SMap.set (fun _ => []) c l s.fab.crcErrs } }
  if lim ≠ 0 ∧ lim ≤ l.length then s1.retireChannel c else s1

/-- Physical channel that holds an HBM cell. -/
def State.physicalOf (s : State) (a : Nat) : Nat :=
  let c := (a - 2 ^ 27) / 4194304
  if s.getB F.BUF_HBM_SPARE_MAP_in_use && decide (s.getF F.BUF_HBM_SPARE_MAP_replaced = c) then 31 else c

/-- A cell of frame `i` fails its CRC on a read (R209): counted, recorded and reported (0x02), the frame is bad, and the error counts
towards the retirement of its channel. -/
def State.crcFail (s : State) (i a : Nat) : State :=
  let s1 := (((s.count 8 0 2).setF F.BUF_CELL_ERR_pointer a).setF F.BUF_CELL_ERR_kind 1).raise F.BUF_EVENT_cell_crc_error
  ((s1.spoilCells i [a]).react 0x02 0 i 0).crcTally (s.physicalOf a)

/-- A cell CRC error of frame `i` is reported (0x02): it is of its first HBM cell not known to be bad. -/
def State.frameCrc (s : State) (i : Nat) : State :=
  match s.frame i with
  | none => s
  | some f => match f.cells.find? fun a => decide (2 ^ 27 ≤ a) && !(s.cell a).any Cell.bad with
    | none => s
    | some a => s.crcFail i a

/-- Cell `a` of the channel being relocated fails its CRC as it is read for its copy: every frame that holds it is lost (R209, R217). -/
def State.relocCrc (s : State) (a : Nat) : State :=
  match s.fab.hbmReloc with
  | some (_, l) => if a ∈ l then s.each (s.holders a) fun u i => u.crcFail i a else s
  | none => s

/-- The relocation of a retired channel completes: its cells still in use have been copied and the spare takes its place (R217). -/
def State.relocationDone (s : State) : State :=
  match s.fab.hbmReloc with
  | none => s
  | some (c, l) =>
    let live := l.filter fun a => (s.cell a).isSome
    let s1 : State := { s with fab := { s.fab with hbmReloc := none } }
    (((((s1.setF F.BUF_HBM_SPARE_MAP_replaced c).setF F.BUF_HBM_SPARE_MAP_in_use 1).setF F.BUF_HBM_RELOC_relocated
      live.length).countN 8 0 5 live.length).raise F.BUF_EVENT_relocation_done)

/-! ### Prefetch (R207), age (R212) -/

/-- Cells of the prefetch area in use. -/
def State.prefetched (s : State) : Nat :=
  (s.fab.queues.map fun e => ((e.2.all.filter Copy.prefetched).map Copy.charge).sum).sum

/-- The first copy of a queue whose frame lies in HBM, with the cells queued ahead of it. -/
def State.nextHbm (s : State) (ahead : Nat) : List Copy → Option (Nat × Copy)
  | [] => none
  | c :: r => if s.copyInHbm c then some (ahead, c) else s.nextHbm (ahead + c.charge) r

/-- Release the HBM cells of a frame that has been read into on-chip cells of the prefetch area (R207). -/
def State.freeRead (s : State) (i : Nat) : State :=
  match s.frame i with
  | none => s
  | some f =>
    let s1 := s.each f.cells fun t a => t.freeCell 8 a
    let (l, s2) := s1.drawCells false ⟨0, false, 0, f.refs, f.owner, f.pool, false, 0⟩ f.cells.length
    (s2.linkCells f.ended f.storedLen f.stored l).setFrame i (some { f with cells := l })

/-- The prefetcher reads frame `i` of queue `x`; the cells in the places `fails` fail their CRC (R207, R209). -/
def State.prefetchFrame (s : State) (x i : Nat) (fails : List Nat) : State :=
  match s.frame i with
  | none => s
  | some f =>
    let s1 := (s.each (fails.filterMap fun k => f.cells[k]?) fun t a => t.crcFail i a).freeRead i
    (s1.setQueue x { s1.queue x with copies := (s1.queue x).copies.map fun d =>
      if d.frame = i then { d with prefetched := true } else d }).fixSpill x

/-- The prefetcher comes to the next HBM-resident frame of queue `x`, which must lie within the window of the head or be the head:
it releases an aged one unread, and reads another while the prefetch area has room (R207, R212). One that a flush has removed is
released before any other (R211). -/
def State.prefetchAt (s : State) (x : Nat) (fails : List Nat) : State :=
  let q := s.queue x
  if q.flush.any s.copyInHbm then s.flushOne true x
  else match s.nextHbm 0 q.copies with
  | none => s
  | some (ahead, c) =>
    if s.getF F.BUF_PREFETCH_CFG_prefetch_window ≤ ahead ∧ ahead ≠ 0 then s
    else if s.aged x c then
      let s1 := s.setQueue x { q with copies := q.copies.filter fun d => decide (d.frame ≠ c.frame) }
      ((s1.loseCopy c).count 6 x 2).fixSpill x
    else if 32768 < s.prefetched + c.charge || !(s.frame c.frame).any Frame.ended then s
    else s.prefetchFrame x c.frame fails

/-- The scanner discards the aged copies at the head of queue `x`; at most `n`. -/
def State.ageHead (s : State) (x : Nat) : Nat → State
  | 0 => s
  | n + 1 => match (s.queue x).copies with
    | [] => s
    | c :: _ => if s.aged x c then (s.discardHead x 2).ageHead x n else s

/-- A visit of the age scanner (R212). A copy that the scheduler has selected but not started goes with the rest. -/
def State.ageScan (s : State) (x : Nat) : State := s.ageHead x (s.queue x).copies.length

/-! ### Scrubbing and errors (R214, R215) -/

/-- Cells that can no longer be reached stay out of use until the next device reset (R214). -/
def State.loseCells (s : State) (n : Nat) : State := { s with fab := { s.fab with lost := s.fab.lost + n } }

/-- What the scrubber finds. A staging cell of the DMA engine spoils no frame (R353). -/
def State.scrubAt (s : State) (f : ScrubFinding) : State :=
  match f with
  | .clean => s
  | .corrected => s.count 8 0 0
  | .cell a =>
    if 2 ^ 27 ≤ a then s
    else
      let s1 := (((s.count 8 0 1).setF F.BUF_CELL_ERR_pointer a).setF F.BUF_CELL_ERR_kind 0).raise F.BUF_EVENT_ecc_uncorrectable
      match s1.cell a with
      | none => s1.react 0x01 0 0 0
      | some c =>
        match s.dma.find? fun e => decide (a ∈ e.2.cells) with
        | some e => s1.stagingError e.1
        | none =>
          ((s1.setCell a (some { c with bad := true })).each (s1.holders a) fun t i => match t.frame i with
            | some g => (t.endAfterGood i).setFrame i (some { g with cellBad := true })
            | none => t).react 0x01 0 0 0
  | .structure_ n =>
    ((((s.countN 8 0 6 n).loseCells n).raise F.BUF_EVENT_ecc_uncorrectable).react 0x01 1 0 0)

/-! ### Built mirror copies (R228) -/

/-- The bytes of a built copy without FCS: the encapsulation header, its IPv4 length and checksum filled in, and the first
`m` bytes of the frame. -/
def Session.build (e : Session) (l : List Byte) (m : Nat) : List Byte :=
  let body := l.take m
  let h0 := e.encap.take e.encapLen
  let h :=
    if e.fixup then
      let h1 := patchAt h0 (e.ipOff + 2) (beBytes 2 (e.encapLen - e.ipOff + m))
      let h2 := patchAt h1 (e.ipOff + 10) [0, 0]
      patchAt h2 (e.ipOff + 10) (beBytes 2 (65535 - fold16 (onesSum h2 e.ipOff (2 * (byteAt h2 e.ipOff % 16)))))
    else h0
  h ++ body

/-- Enqueue a copy that the device has built, charged to a pool (R228). -/
def State.buildCopy (s : State) (f : Frame) (k : Nat) (x n : Nat) (l : List Byte) : State :=
  let g : Frame := { s.newFrame f.port (l ++ [0, 0, 0, 0]) f.tRx with
    stepRx := f.stepRx, flags := f.flags, arrival := f.arrival, direct := true, ended := true, len := l.length + 4,
    stage := .live, charge := n, pool := 12, owner := 9, refs := 1 }
  let (i, s1) := (s.poolMove 12 n 0).addFrame g
  let s2 := s1.cellsOf i
  let c : Copy := { frame := i, charge := n, len := max 64 (l.length + 4), stamp := f.arrival, ce := false, dei := false,
                    edit := ⟨0, 0, 0, 0, 0, 0, 0, 0⟩, mirror := true, cut := false, prefetched := false, enq := s.now }
  (s2.setQueue x { s2.queue x with copies := (s2.queue x).copies ++ [c] }).count 10 k 0

/-- The first mirror job whose frame has arrived whole. -/
def State.mirrorJob (s : State) : Option MirrorJob :=
  s.fab.mirrorJobs.find? fun j => match s.frame j.frame with | some f => f.ended | none => true

/-- The mirror engine builds the next copy; pool 12 or the queue may refuse it (R228). -/
def State.mirrorBuildAt (s : State) : State :=
  match s.mirrorJob with
  | none => s
  | some j =>
    let i := j.frame
    let k := j.session
    let e := j.entry
    let s1 : State := { s with fab := { s.fab with mirrorJobs := s.fab.mirrorJobs.erase j } }
    match s1.frame i with
    | none => s1
    | some f =>
      let m := if e.trunc = 0 then f.len - 4 else min (f.len - 4) e.trunc
      let n := ceilDiv (e.encapLen + m) 256
      let x := e.queue k
      if f.bad || f.cellBad || !e.valid then s1.release i
      else if s1.safetyShut x then (s1.count 6 x 4).release i
      else if !s1.poolGrants 12 n || !s1.quotaLeft false 12 n then
        (((s1.poolFail 12).count 10 k 2).raise (F.PIPE_REP_EVENT_mirror_drop f.unit)).release i
      else
        let (ok, s2) := s1.acceptCopy x n
        if ok then (s2.buildCopy f k x n (e.build f.bytes m)).release i
        else (s2.raise (F.PIPE_REP_EVENT_mirror_drop f.unit)).release i

end Sys2Proof.Machine
end

