-- ==== Sys2Proof/Machine/HostRings.lean ====
section
/-! DEFINITION. The host's rings as the host drives them (R314, R320, R326): enable and disable, moderation,
function-level and hot reset, the host link. -/

namespace Sys2Proof.Machine

/-! ### Enable and disable (R320) -/

/-- Commands accepted from ring `r` that have not completed. -/
def State.runningOn (s : State) (r : Nat) : List InFlight := s.hif.inflight.filter fun e => decide (e.ring = r)

/-- enable has been written 1: head and tail are 0 and the ring runs. Entries that commands still in progress have reserved in a
completion ring stay reserved. -/
def State.ringStart (s : State) (r : Nat) : State :=
  let held := (s.hif.inflight.filter fun e => !e.noComp && decide (e.parent = 0) && decide (s.compRing e.ring = r)).length
    + (s.hif.fenced.filter fun x => decide (s.compRing x.2.ring = r)).length
  (((s.setReg (Addr.HIF_RING_HEAD r) 0).setReg (Addr.HIF_RING_TAIL r) 0).setReg (Addr.HIF_RING_STATUS r) 1).setRingRun r
    { RingRun.init with reserved := held }

/-- The commands accepted from a ring run to their end without a completion, one that a fence keeps from being accepted is discarded
(R314, R320): their reserved entries are freed. -/
def State.orphan (s : State) (r : Nat) : State :=
  let l := ((s.runningOn r).filter fun e => !e.noComp && decide (e.parent = 0)).length
    + (s.hif.fenced.filter fun x => decide (x.2.ring = r)).length
  let s1 := (s.reserve (s.compRing r) (-(l : Int))).dropFenced r
  { s1 with hif := { s1.hif with inflight := s1.hif.inflight.map fun e => if e.ring = r then { e with noComp := true } else e } }

/-- enable has been written 0: the ring stops at once, or when the command in progress ends (R320). -/
def State.ringStop (s : State) (r : Nat) : State :=
  if (s.runningOn r).isEmpty then (((s.orphan r).setReg (Addr.HIF_RING_STATUS r) 0).setRingRun r .init)
  else (s.orphan r).setRingRun r { s.ringRun r with stopping := true }

/-- A ring that was stopping has finished its command. -/
def State.ringsStopped (s : State) : State :=
  s.each (s.hif.rings.filter fun e => e.2.stopping && (s.runningOn e.1).isEmpty) fun t e =>
    (t.setReg (Addr.HIF_RING_STATUS e.1) 0).setRingRun e.1 .init

/-- Bits of a HIF register that a write of `v` may change now (R320, R330). The PF alone writes owner_fn; enable is tested for the
function that owns the ring after the write. -/
def State.hifAllow (s : State) (m a : Nat) (v : Word) : Word :=
  match ringAt a with
  | none => 0xFFFFFFFF
  | some r =>
    let en := s.getB (F.HIF_RING_CFG_enable r)
    if a = Addr.HIF_RING_BASE_LO r ∨ a = Addr.HIF_RING_BASE_HI r then (if en then 0 else 0xFFFFFFFF)
    else if a = Addr.HIF_RING_CFG r then
      if en then 0x7E020
      else
        let fn := if m = 0 then fldOf v 6 4 else s.ownerFn r
        let old := s.fnOpen fn && decide (s.fnVersion fn < 0x300) && decide (r < 0x100) && decide (32 ≤ r % 64)
        let own := if m = 0 then 0x3C0 else 0
        BitVec.ofNat 32 (0x1FFFC1F + own + (if old then 0 else 0x20))
    else 0xFFFFFFFF

/-- What follows from a write to a HIF register. -/
def State.hifAfter (s : State) (a : Nat) (old : State) : State :=
  match ringAt a with
  | none => s
  | some r =>
    if a = Addr.HIF_RING_CFG r then
      let en := s.getB (F.HIF_RING_CFG_enable r)
      let was := old.getB (F.HIF_RING_CFG_enable r)
      if en && !was then s.ringStart r else if was && !en then s.ringStop r else s
    else s

/-! ### Moderation (R326) -/

/-- mod_time has passed since the first entry not signalled. -/
def State.modExpiry (s : State) (r : Nat) : State :=
  if s.getF (F.HIF_RING_CFG2_mod_time r) ≠ 0 ∧ (s.ringRun r).unsignalled ≠ 0 then s.ringSignal r else s

/-! ### Function-level and hot reset (R314, R358) -/

/-- A function's interface is closed. -/
def State.closeFn (s : State) (f : Nat) : State :=
  (s.setF (F.HIF_FN_VERSION_version f) 0).setF (F.HIF_FN_VERSION_open f) 0

/-- Take back a completion: the bytes of its entry, the head of its ring and its signal are as they were before. -/
def State.takeBackEntry (s : State) (w : Written) : State :=
  if s.ringHead w.q = (w.head + 1) % (2 * s.ringSize w.q) then
    let k := s.getF (F.HIF_RING_CFG_owner_fn w.q) * 64 + s.getF (F.HIF_RING_CFG_msix_vector w.q)
    let s1 := ((s.hostWrite w.addr w.before).setF (F.HIF_RING_HEAD_head w.q) w.head).setRingRun w.q
      { s.ringRun w.q with unsignalled := w.unsignalled }
    { s1 with hif := { s1.hif with msix := SMap.set (fun _ => 0) k w.sent s1.hif.msix } }
  else s

/-- The completions of function `f`'s commands that were accepted in this very core cycle are not written (R314): those written in
it are taken back from the last on, and the others are written again in their order. -/
def State.unwrite (s : State) (f : Nat) : State :=
  let l := s.hif.written.2
  let gone := fun (w : Written) => decide (w.taken = some f)
  let hit := l.filter fun w => l.any fun x => gone x && decide (x.q = w.q)
  if s.hif.written.1 = s.now then
    let s1 := s.each hit.reverse State.takeBackEntry
    let s2 : State := { s1 with hif := { s1.hif with written := (s.now, l.filter fun w => !hit.contains w) } }
    s2.each (hit.filter fun w => !gone w) fun t w => (t.noteEntry w.q w.taken w.bytes).putEntry w.q w.bytes
  else s

/-- Reset one function: its rings stop at once, its interface closes, its vectors are cleared, its DMA channels are
abandoned. -/
def State.flrOf (s : State) (f : Nat) : State :=
  let rings := (List.range 0x102).filter fun r =>
    decide (s.ownerFn r = f) && (s.getB (F.HIF_RING_CFG_enable r) || decide (s.getF (F.HIF_RING_STATUS_state r) ≠ 0))
  let s0 := s.unwrite f
  let s1 := s0.each rings fun t r =>
    (((t.orphan r).setF (F.HIF_RING_CFG_enable r) 0).setReg (Addr.HIF_RING_STATUS r) 0).setRingRun r .init
  let s2 := s1.each ((List.range 32).filter fun c => decide (s1.getF (F.DMA_CH_CFG_owner_fn c) = f) && decide (s1.chState c ≠ 0))
    State.chOff
  let s3 := s2.closeFn f
  { s3 with hif := { s3.hif with msix := s3.hif.msix.filter fun e => decide (e.1 / 64 ≠ f) } }

/-- FLR of function `f`. -/
def State.flrAt (s : State) (f : Nat) : State := if f < 16 then (s.flrOf f).raise F.HIF_EVENT_flr else s

/-- Hot reset or loss of the host link: an FLR of every function, and the link is down. -/
def State.hotResetAt (s : State) : State :=
  let s1 := s.each (List.range 16) State.flrOf
  (((s1.setF F.HIF_STATUS_link_up 0).setF F.HIF_STATUS_link_speed 0).setF F.HIF_STATUS_link_width 0).raise F.HIF_EVENT_link_down

/-- The host link has trained (R313); it needs D34, a speed the link knows and a width within the maximum of the
straps (R445). -/
def State.linkTrained (s : State) (speed width : Nat) : State :=
  if s.domainOn 34 && decide (1 ≤ speed) && decide (speed ≤ 5) && decide (width ∈ [1, 2, 4, 8])
      && decide (width * 2 ^ bitsOf s.part.straps.toNat 9 2 ≤ 8) then
    ((s.setF F.HIF_STATUS_link_up 1).setF F.HIF_STATUS_link_speed speed).setF F.HIF_STATUS_link_width width
  else s

end Sys2Proof.Machine
end

