-- ==== Sys2Proof/Machine/CpuPort.lean ====
section
/-! DEFINITION. The CPU port: selection and delivery of received copies (R264, R337, R338), and transmit (R335, R336). -/

namespace Sys2Proof.Machine

/-! ### Receive -/

/-- Wake CPU-port queue `c` if it has become eligible, or note that it is not (R253, R264). -/
def State.wakeCpuQueue (s : State) (c : Nat) : State :=
  let x := 4096 + c
  let u := s.queue x
  let el := s.cpuEligible c
  let tag := wakeTag (s.getB F.TM_CPU_CFG_cpu_wake) u.tag s.fab.cpuV (64 * s.getF (F.TM_Q_CFG_credit_burst x)) (s.weightOf x)
  if el && !u.awake then s.setQueue x { u with awake := true, tag := tag }
  else if u.awake && !el then s.setQueue x { u with awake := false } else s

/-- Wake the CPU-port queues, of those that hold anything or are awake. -/
def State.wakeCpu (s : State) : State :=
  s.each ((s.fab.queues.map Prod.fst).filter fun x => decide (4096 ≤ x) && decide (x < 4160)) fun t x => t.wakeCpuQueue (x - 4096)

/-- CPU-port queue that the node selects. -/
def State.pickCpu (s : State) : Option Nat :=
  (pick (s.getB F.TM_CPU_CFG_cpu_mode) (((List.range 64).filter s.cpuEligible).map fun c => (c, (s.queue (4096 + c)).tag))).map
    Prod.fst

/-- Charge a delivered copy of `len` bytes to its queue's shaper, the aggregate shaper and the node (R252, R257). -/
def State.chargeCpu (s : State) (c len : Nat) : State :=
  let x := 4096 + c
  let l := s.counted (s.getF (F.TM_Q_CFG_len_profile x)) len
  let s1 := (s.wakeCpuQueue c).chargeQ x l
  let s2 := if s1.getB F.TM_CPU_CFG_cpu_shaper_en then
      let t := s1.syncCpu
      let b := t.counted (t.getF F.TM_CPU_CFG_len_profile) len
      { t with fab := { t.fab with cpuTokens := moveTokens t.fab.cpuTokens b (t.getF F.TM_CPU_BURST_burst) } }
    else s1
  if s2.getB F.TM_CPU_CFG_cpu_mode then
    let u := s2.queue x
    let s3 : State := { s2 with fab := { s2.fab with cpuV := tagMax s2.fab.cpuV u.tag } }
    s3.setQueue x { u with tag := (u.tag + tagCost l.toNat (s3.weightOf x)) % 2 ^ 48 }
  else s2

/-- Counter that a selected CPU-port copy advances when it is discarded instead of delivered. -/
def State.cpuLoss (s : State) (x : Nat) (c : Copy) (f : Frame) : Option (Nat × Nat × Nat) :=
  if s.aged x c then some (6, x, 2)
  else if f.cellBad then some (6, x, 3)
  else if c.edit.bad f.hdr f.bytes then some (3, f.port / 64, 20)
  else none

/-- Deliver the head copy of CPU-port queue `c` (R338). -/
def State.cpuDeliver (s : State) (c : Nat) (cp : Copy) (f : Frame) : State :=
  let x := 4096 + c
  let i := s.getF (F.HIF_CPUQ_MAP_rx_ring c)
  let l := cp.edit.apply f.hdr f.seqNum cp.ce cp.dei (f.bytes.take (f.bytes.length - 4))
  let info : RxInfo := ⟨tsBytes f.tRx f.flags, l.length, f.port + c * 2 ^ 9, cp.mirror⟩
  let gone := fun (t : State) => (t.popCopy x).loseCopy cp
  if !s.getB (F.HIF_CPUQ_MAP_enable c) || !s.ringRuns (0x80 + i) then (gone s).count 19 i 3
  else match s.rxDeliver (0x80 + i) info (Blob.ofList l) with
    | (false, s1) => (gone s1).count 19 i 2
    | (true, s1) =>
      ((((gone (s1.chargeCpu c (l.length + 4))).count 19 i 0).countN 19 i 1 l.length).count 6 x 7).countN 6 x 8 (l.length + 4)

/-- The CPU-port node selects a copy, by the tags that the queues awake in this core cycle would have, and it is delivered or
dropped. -/
def State.cpuRx (s : State) : State :=
  match s.wakeCpu.pickCpu with
  | none => s
  | some c =>
    match (s.queue (4096 + c)).copies with
    | [] => s
    | cp :: _ =>
      match s.frame cp.frame with
      | none => s.popCopy (4096 + c)
      | some f =>
        match s.cpuLoss (4096 + c) cp f with
        | some k => s.dropSelected (4096 + c) k
        | none => s.cpuDeliver c cp f

/-! ### Transmit -/

/-- The entries of a TX ring from head up to the first eop, with their places; none while there is no whole chain. -/
def State.txChain (s : State) (r i : Nat) : Nat → Option (List (Nat × TxDesc))
  | 0 => none
  | n + 1 =>
    let d := txDesc (s.hostRead (s.ringAddr r i) 32)
    if d.eop then some [(i, d)] else (s.txChain r (i + 1) n).map fun l => (i, d) :: l

/-- The frame's chain that a TX ring can serve now: the entries the device may read, whose own is set, hold a whole one. -/
def State.txFirst (s : State) (r : Nat) : Option (List (Nat × TxDesc)) :=
  s.txChain r 0 (s.ownRun r 0 (s.ringAvail r (s.ringSize r)))

/-- A TX ring meets an entry with own 0 inside the doorbell range before it has a whole chain (R318). -/
def State.txStalls (s : State) (r : Nat) : Bool :=
  let span := s.ringAvail r (s.ringSize r)
  s.ringRuns r && decide (s.ownRun r 0 span < span) && (s.txFirst r).isNone

/-- A chain is BAD_CHAIN (R335, R336). -/
def badChain (l : List TxDesc) : Bool :=
  let len := (l.map TxDesc.fragLen).sum
  match l with
  | [] => true
  | d :: r =>
    !d.sop || r.any TxDesc.sop || decide (64 < l.length) || decide (len < 14) || decide (15996 < len)
      || l.any (fun e => decide (e.fragLen = 0) || decide (16384 < e.fragLen))
      || (d.oneStep && (d.forward || decide (246 < d.tsOffset)))

/-- Write back the status of entries of a TX ring and clear their own bits. -/
def State.txWriteBack (s : State) (r : Nat) (l : List Nat) (status : Nat) : State :=
  s.each l fun t i => (t.hostPut (t.ringAddr r i + 30) (BitVec.ofNat 8 status)).hostPut (t.ringAddr r i + 31) 0

/-- Frame of a chain as it enters the device: its bytes with room for the FCS, and what its first descriptor asks for. It has no receive
stamp: the counter stands for T_rx (R85, notes/assumptions/36.md). -/
def State.txFrame (s : State) (r : Nat) (d : TxDesc) (bytes : List Byte) (eop : Nat) : Frame :=
  { s.newFrame d.port (bytes ++ [0, 0, 0, 0]) s.trn.time with
    cpuRing := some (r - 0xC0), direct := !d.forward, noLearn := true, ended := true, len := bytes.length + 4, owner := 11,
    tsReq := d.tsReq, tsSlot := if d.tsReq then some (r, eop) else none, oneStep := if d.oneStep then some d.tsOffset else none }

/-- A DIRECT frame is admitted as one copy to its queue (R336), which it enters at once. -/
def State.txDirect (s : State) (i : Nat) (f : Frame) (queue : Nat) : Bool × State :=
  let c : CopyReq := { queue := 8 * f.port + queue, edit := ⟨0, 0, 0, 0, 0, 0, 0, 0⟩, mirror := false }
  match s.admission i f [c] none false with
  | (false, s1) => (false, s1)
  | (true, s1) =>
    let s2 := s1.setExpand f.unit ((s1.expandQ f.unit).filter fun j => decide (j ≠ i))
    match s2.frame i with
    | none => (true, s2)
    | some g => (true, ((s2.setFrame i (some { g with stage := .live, copies := [] })).cellsOf i).enqueue i c)

/-- Admit the frame of a good chain: whether it is ACCEPTED. -/
def State.txAdmit (s : State) (r : Nat) (d : TxDesc) (bytes : List Byte) (eop : Nat) : Bool × State :=
  let f := s.txFrame r d bytes eop
  let n := d.port / 64
  let (i, s1) := s.addFrame f
  if !d.forward then s1.txDirect i f d.queue
  else if !s1.domainOn (17 + n) then (false, s1.setFrame i none)
  else s1.decideFrame n i f false

/-- The first descriptor of a chain. -/
def chainHead (l : List (Nat × TxDesc)) : TxDesc := (l.map Prod.snd).headD (txDesc [])

/-- A chain can be served: a FORWARD frame waits for room in its pipeline. -/
def State.chainOpen (s : State) (l : List (Nat × TxDesc)) : Bool :=
  badChain (l.map Prod.snd) || !((chainHead l).forward && s.expandFull ((chainHead l).port / 64))

/-- A TX ring in doorbell mode holds a frame that can be served. -/
def State.txReady (s : State) (r : Nat) : Bool :=
  s.ringRuns r && !s.getB (F.HIF_RING_CFG_polling r) && (s.txFirst r).elim false s.chainOpen

/-- Places of ring `r` behind the TX ring served last, in the round-robin order of R336. -/
def State.txPlace (s : State) (r : Nat) : Nat := (r + 63 - s.hif.txLast) % 64

/-- It is the turn of TX ring `r`: no ring that is ready stands before it. A polled ring is known to be ready only when it is polled
(R319, notes/assumptions/73.md). -/
def State.txTurn (s : State) (r : Nat) : Bool :=
  (List.range 64).all fun k => !s.txReady (0xC0 + k) || decide (s.txPlace r ≤ s.txPlace (0xC0 + k))

/-- Ring `r` has been served. -/
def State.txServed (s : State) (r n : Nat) : State :=
  { s.ringAdvance r n with hif := { (s.ringAdvance r n).hif with txLast := r } }

/-- Service of one frame's chain from a TX ring, in its turn (R336). `readErr`: a read of the ring failed (R320). -/
def State.txServe (s : State) (r : Nat) (readErr : Bool) : State :=
  let k := r - 0xC0
  if r < 0xC0 ∨ 0xFF < r ∨ !s.ringRuns r then s
  else if readErr then s.ringFault r 2
  else match s.txFirst r with
    | none => if s.txStalls r then s.ownStall r else s
    | some l =>
      let d := chainHead l
      let ix := l.map Prod.fst
      let adv := fun (t : State) => t.txServed r l.length
      if !s.chainOpen l || !s.txTurn r then s
      else if badChain (l.map Prod.snd) then adv ((s.txWriteBack r ix 1).count 20 k 2)
      else
        let ds := l.map Prod.snd
        let bytes := ds.flatMap fun e => s.hostRead e.addr e.fragLen
        match s.txAdmit r d bytes (s.ringAddr r (l.length - 1)) with
        | (true, s1) =>
          adv (((s1.txWriteBack r (if d.tsReq then ix.dropLast else ix) 0).count 20 k 0).countN 20 k 1 bytes.length)
        | (false, s1) => adv ((s1.txWriteBack r ix 2).count 20 k 3)

end Sys2Proof.Machine
end

