-- ==== Sys2Proof/Machine/Boot.lean ====
section
/-! DEFINITION. Device resets (R397), boot (R398, R399, R428, R429), the Keystone self-tests that end it, and the HBM training
(R390). The steps of R398 that no row of the table separates happen together (notes/assumptions/40.md). -/

namespace Sys2Proof.Machine

/-! ### Domains -/

/-- A domain goes on; the random source of D36 has its start-up tests before it (R420). -/
def State.switchOn (s : State) (d : Nat) : State :=
  if s.domainOn d then s
  else
    let s1 : State := { s with pwr := { s.pwr with rising := s.pwr.rising.filter fun x => decide (x ≠ d) } }
    ((if d = 36 then s1.rngHealth false else s1).setDomain d true).raise F.PWR_EVENT_domain_change

/-! ### What Plumb found (R422, R427, R429, R431) -/

/-- Nets of native step `k` (R422, R424). -/
def stepNets (k : Nat) : Nat :=
  if k = 1 then 184 else if k = 2 ∨ k = 3 then 1024 else if k = 4 then 8192 else if k = 5 then 80 else if k = 6 then 3072 else 0

/-- Nets of a set of steps. -/
def netsOf (steps : Nat) : Nat := ((setBits 6 steps).map fun i => stepNets (i + 1)).sum

/-- Nets of the ordering code (R423). -/
def State.netsTotal (s : State) : Nat := if s.part.en then 10660 else 13748

/-- Coverage in units of 0.1 %. -/
def State.coverage (s : State) (steps : Nat) : Nat := netsOf steps * 1000 / s.netsTotal

/-- Word of PLB.FAIL for a failing net found by a step. -/
def failWord (e : NetFail × Nat) : Word :=
  BitVec.ofNat 32 (e.1.cls % 8 + e.1.kind % 4 * 2 ^ 3 + e.1.inst % 2 ^ 11 * 2 ^ 5 + e.1.net % 2 ^ 12 * 2 ^ 16 + e.2 % 8 * 2 ^ 28)

/-- List failing nets in PLB.FAIL, unused entries zero. -/
def State.showFails (s : State) (l : List (NetFail × Nat)) : State :=
  s.each (List.range 64) fun t i => t.setReg (Addr.PLB_FAIL i) ((l[i]?.map failWord).getD 0)

/-- Show results in the PLB registers (R431) and raise net_fail when a net failed. -/
def State.showPlumb (s : State) (steps skipped duration nFails : Nat) (l : List (NetFail × Nat)) : State :=
  let s1 := ((s.setF F.PLB_NETS_nets_total s.netsTotal).setF F.PLB_NETS_nets_tested (netsOf steps)).setF
    F.PLB_RESULT_coverage (s.coverage steps)
  let s2 := ((s1.setF F.PLB_RESULT_nets_failed nFails).setF F.PLB_STEPS_steps_run steps).setF F.PLB_STEPS_steps_skipped skipped
  (((s2.setF F.PLB_DURATION_duration duration).showFails l).raiseIf (decide (0 < nFails)) F.PLB_EVENT_net_fail)

/-- The record in MRAM may be used at this boot (R428). -/
def State.plumbValid (s : State) : Bool :=
  let b := s.mram.plumb
  decide (b.le 0 4 = 0x424D4C50) && decide (b.le 4 2 = 1) && decide (b.le 7 1 = b2n s.part.en)
    && decide (b.le 8 4 = (s.mram.bootCount + 2 ^ 32 - 1) % 2 ^ 32) && decide (b.le 12 1 % 32 = 31)
    && decide (b.le 576 4 = crc32c (b.list 0 576))

/-- Failing nets that a record lists. -/
def recordFails (b : Blob) : List (NetFail × Nat) :=
  (List.range (min 64 (b.le 48 1))).map fun i =>
    let o := 64 + 8 * i
    (⟨b.le o 1, b.le (o + 2) 2, b.le (o + 4) 2, b.le (o + 7) 1⟩, b.le (o + 6) 1)

/-- Keystone whose self-test a failing conductor net makes fail (R429). -/
def netKeystone (n : NetFail) : Option Unit2 :=
  if n.cls = 5 then (if n.inst = 0 then some .a else if n.inst = 1 ∨ n.inst = 2 then some .b else none) else none

/-! ### Keystone self-tests (R278, R399) -/

/-- Outcome of a unit's boot self-test, none before it has ended. -/
def State.bootDone (s : State) (u : Unit2) : Option Bool := match u with | .a => s.key.bootDoneA | .b => s.key.bootDoneB

/-- A unit becomes ACTIVE and is given the conductor's write grants (R278, R288). -/
def State.becomeActive (s : State) (u : Unit2) : State :=
  ((s.setUnit u 4).setF F.KEY_STATUS_active_unit (unitCode u)).keyGrants u true

/-- A unit enters RESYNC: the active unit snapshots its whole state and the conductor log starts (R291). -/
def State.startFullCopy (s : State) (u : Unit2) : State :=
  let k := { s.key with commit := s.key.ks, logOn := true, log := [], fullCopy := some u, firstCkpt := false, inFlight := none,
                        behind := none, logDue := false }
  ({ s with key := k } : State).setUnit u 2

/-! ### Training and entry into CONFIG -/

/-- Cost of HBM training (R394). -/
def trainLeave (stack : Nat) : Grant := ⟨2, stack, 150⟩

/-- Step 9 of R398: the device enters CONFIG under its firmware (R410). -/
def State.enterConfig (s : State) : State :=
  let s1 := ({ s with dev := .config, pwr := { s.pwr with phase := .none } } : State).setF F.PWR_STATUS_boot_status 0
  if s1.sec.fwAdvance then s1.advanceRollback 0 s1.sec.fwVersion else s1

/-- A stack's training is over, or was refused its leave: the boot that waited for the last one goes on. -/
def State.trainingLeft (s : State) (stack : Nat) : State :=
  match s.pwr.phase with
  | .training left =>
    let rest := left.filter fun k => decide (k ≠ stack)
    let s1 : State := { s with pwr := { s.pwr with phase := .training rest } }
    if rest.isEmpty then s1.enterConfig else s1
  | _ => s

/-- Both stacks are on and trained: the HBM is usable (R197, R390). -/
def State.hbmReady (s : State) : State :=
  if [0, 1].all fun k => decide (k ∈ s.pwr.trained) && s.domainOn (27 + k) then s.setF F.BUF_STATUS_hbm_ready 1 else s

/-- Training of a stack has completed (R390 step 6). -/
def State.hbmTrained (s : State) (stack : Nat) : State :=
  if !s.holdsGrant 2 stack then s
  else
    let s1 := s.returnGrant 2 stack
    let s2 : State := { s1 with pwr := { s1.pwr with trained := s1.pwr.trained.filter (fun k => decide (k ≠ stack)) ++ [stack] } }
    (if s2.domainOn (27 + stack) then s2.hbmReady else s1).trainingLeft stack

/-- Ask leave to train a stack; a refused stack stays untrained. -/
def State.askTraining (s : State) (stack : Nat) : State :=
  match s.askLeave (trainLeave stack) with
  | (.refused _, s1) => s1.trainingLeft stack
  | (_, s1) => s1

/-- Step 8 of R398: HBM powered, its failing channels retired (R429) and its stacks trained; then step 9. -/
def State.bootHbm (s : State) : State :=
  if s.part.en then s.enterConfig
  else
    let s1 := (s.switchOn 27).switchOn 28
    let s2 := s1.each (s1.pwr.fails.filter fun e => decide (e.1.cls = 6)) fun t e => t.retireChannel (e.1.inst % 32)
    let s3 : State := { s2 with pwr := { s2.pwr with phase := .training [0, 1] } }
    (s3.askTraining 0).askTraining 1

/-- Step 7 of R398 once both self-tests are known. -/
def State.bootKeystones (s : State) : State :=
  match s.key.bootDoneA, s.key.bootDoneB with
  | some false, some false => (s.setF F.PWR_STATUS_boot_status 4).doubleFaultAt .a 0 5 0
  | some _, some _ => s.bootHbm
  | _, _ => s

/-- A unit that has passed its boot self-test takes its state: A conducts; B waits for A, and conducts when A has failed. -/
def State.bootPassed (s : State) (u : Unit2) : State :=
  match u with
  | .a =>
    let s1 := s.becomeActive .a
    let s2 := if s.key.bootDoneB = some true then s1.startFullCopy .b else s1
    if s.key.bootDoneB = some false then s2.autoResync .b else s2
  | .b =>
    if s.key.bootDoneA = some false then (s.becomeActive .b).autoResync .a
    else if s.unitState .a = 4 then s.startFullCopy .b else s

/-- A unit has failed its boot self-test, or not ended it within 5 ms. -/
def State.bootFailed (s : State) (u : Unit2) : State :=
  let s1 := s.resyncFail u
  match u with
  | .a => if s.key.bootDoneB = some true then (s1.becomeActive .b).autoResync .a else s1
  | .b => s1.autoResync .b

/-- The boot self-test of a unit has ended (R278, R429). -/
def State.bootTestEnd (s : State) (u : Unit2) (pass : Bool) : State :=
  let ok := pass && !(s.pwr.fails.any fun e => decide (netKeystone e.1 = some u))
  let k := match u with | .a => { s.key with bootDoneA := some ok } | .b => { s.key with bootDoneB := some ok }
  let s1 : State := { s with key := k }
  (if ok then s1.bootPassed u else s1.bootFailed u).bootKeystones

/-- A self-test has ended (R278): at boot, or of a unit that is resynchronised (R291). -/
def State.selfTest (s : State) (u : Unit2) (pass : Bool) : State :=
  if s.unitState u ≠ 1 then s
  else if s.pwr.phase = .keystones then (if (s.bootDone u).isNone then s.bootTestEnd u pass else s)
  else if !pass then (s.resyncFail u).autoResync u
  else if s.unitState (other u) ≠ 4 ∨ s.key.doubleFault then s
  else s.startFullCopy u

/-! ### Boot (R398) -/

/-- Steps 6 and 7 of R398: D37, then the Keystone domains; the self-tests run. -/
def State.continueBoot (s : State) : State :=
  let s1 := ((s.switchOn 37).switchOn 25).switchOn 26
  { s1 with pwr := { s1.pwr with phase := .keystones } }

/-- Step 5 of R398: the Plumb record is used, or the boot-time interconnect test starts (R428). -/
def State.bootPlumb (s : State) : State :=
  if s.plumbValid then
    let b := s.mram.plumb
    let l := recordFails b
    let s1 : State := { s with pwr := { s.pwr with fails := l, nFails := b.le 20 2, steps := b.le 12 1 % 64 } }
    ((s1.showPlumb (b.le 12 1 % 64) (b.le 13 1 % 64) (b.le 24 4) (b.le 20 2) l).setF F.PLB_STATUS_record_used 1).continueBoot
  else
    let s1 := ((s.raise F.PLB_EVENT_record_invalid).setF F.PLB_STATUS_boot_test_run 1).setF F.PLB_STATUS_plb_state 3
    let s2 := s1.setF F.PLB_STATUS_step 1
    { s2 with pwr := { s2.pwr with phase := .bootTest 1, fails := [], nFails := 0, steps := 0, stepsSkipped := 0, plumbFrom := s2.now } }

/-- Steps 1 to 4 of R398. The next HSS index is the one the newest MRAM slot holds (R416). -/
def State.bootStart (s : State) : State :=
  let m := { s.mram with bootCount := (s.mram.bootCount + 1) % 2 ^ 32 }
  let s1 : State := { s with mram := m, pwr := { s.pwr with phase := .none } }
  let (code, s2) := ((((s1.setF F.PWR_STATUS_boot_status 1).switchOn 34).switchOn 36).bootHss).bootFirmware
  if code ≠ 0 then ({ s2 with pwr := { s2.pwr with phase := .stuck } } : State).setF F.PWR_STATUS_boot_status code
  else (s2.switchOn 35).bootPlumb

/-! ### Resets (R397) -/

/-- What every reset keeps: the part, MRAM and flash, what lies outside the device (host memory, references that are lost, the levels
of pins), and the
model's own counters. -/
def State.cleared (s : State) : State :=
  let r := State.reset
  { r with pending := s.pending, part := s.part, now := s.now, host := s.host, mram := s.mram, freeCtr := s.freeCtr, rd := s.rd,
           refLost := s.refLost, pins := s.pins, sec := { r.sec with flashWrites := s.sec.flashWrites },
           snap := { r.snap with lastLatch := s.now },
           fab := { r.fab with cpuStamp := s.now } }

/-- PWRON_RST_N is asserted: everything is reset, and the device waits in BOOT for its release. -/
def State.powerOnReset (s : State) : State := s.cleared

/-- Registers that SYS_RST_N and the software reset keep: TRN and PWR.BUDGET. -/
def keptBySys (a : Nat) : Bool := (decide (0x70000 ≤ a) && decide (a < 0x80000)) || decide (a = Addr.PWR_BUDGET)

/-- SYS_RST_N, a software reset or a wake in OFF takes effect, with its cause: time keeps running, the slot position stays, a
servo that was not DISABLED holds over from TRN.SERVO_I; boot follows. -/
def State.sysReset (s : State) (cause : Nat) : State :=
  let c := s.cleared
  let kept : State := { c with
    trn := s.trn
    regs := s.regs.filter fun e => keptBySys e.1
    tmrB := s.tmrB.filter fun e => keptBySys e.1
    tmrC := s.tmrC.filter fun e => keptBySys e.1
    sqc := s.sqc.filter fun e => keptBySys e.1
    fly := { c.fly with slot := s.fly.slot, cycleStart := s.fly.cycleStart } }
  let k1 := (kept.setF F.PWR_RESET_CAUSE_cause cause).setKs fun k => { k with hold := s.getB F.TRN_CTRL_hold }
  let k2 := if s.key.ks.servo = .disabled then k1
    else
      let i := signed 32 (s.getF F.TRN_SERVO_I_i_term) * 2 ^ 24
      let u := k1.setKs fun k => { k with servo := .holdover, i := i, f := i }
      ((u.setRate i).showServo).raiseIf (decide (s.key.ks.servo ≠ .holdover)) F.TRN_EVENT_holdover_enter
  k2.bootStart

/-- A reset asserted by SYS_RST_N (1) or software (2) takes effect 64 core cycles later; while one is pending a second one
adds nothing. -/
def State.askReset (s : State) (cause : Nat) : State :=
  if s.pwr.pendingReset.isSome ∨ s.pwr.phase = .held then s
  else { s with pwr := { s.pwr with pendingReset := some (s.now + 64, cause) } }

/-- The release of PWRON_RST_N: the reset has lasted until now, the straps are sampled (R445) and boot starts. -/
def State.release_ (s : State) (straps : BitVec 16) : State :=
  if s.pwr.phase = .held then ({ s.cleared with part := { s.part with straps := straps } } : State).bootStart
  else s

end Sys2Proof.Machine
end

