-- ==== Sys2Proof/Machine/Plumb.lean ====
section
/-! DEFINITION. Plumb (R422 to R430): the boot-time interconnect test, the native steps of parking with their record, and the
test of one port group. -/

namespace Sys2Proof.Machine

/-! ### Going off (R401 steps 5 and 6) -/

/-- Every domain but D0 goes off, D37 last, and the device is in OFF; the exact next HSS index is in MRAM (R416). -/
def State.goOff (s : State) : State :=
  let s1 := (s.each ((List.range 36).reverse.map fun i => i + 1) State.switchOff).switchOff 37
  let s2 := (((((s1.setUnit .b 0).setUnit .a 0).keyGrants .a false).keyGrants .b false).stopCopies).parkHss
  { s2 with dev := .off, dma := [], loads := []
            hif := { s2.hif with inflight := [] }
            pwr := { s2.pwr with phase := .none, rising := [] } }

/-! ### Results of a step -/

/-- A net is one that native or boot-time step `k` tests (R422, R424). -/
def netInStep (k : Nat) (n : NetFail) : Bool :=
  netOk n && (if k = 1 then decide (n.cls = 1) || decide (n.cls = 3)
    else if k = 2 then decide (n.cls = 2) && decide (n.inst < 256)
    else if k = 3 then decide (n.cls = 2) && decide (256 ≤ n.inst)
    else decide (n.cls = k))

/-- Add what a step found among the nets that it tests. -/
def State.foundNets (s : State) (step : Nat) (l : List NetFail) : State :=
  let mine := l.filter (netInStep step)
  { s with pwr := { s.pwr with fails := s.pwr.fails ++ mine.map fun n => (n, step), nFails := s.pwr.nFails + mine.length } }

/-- Microseconds, of 1,650 core cycles each, since the operation's time began to count. -/
def State.plumbUsec (s : State) : Nat := (s.now - s.pwr.plumbFrom) / 1650

/-! ### Native mode (R424 to R427) -/

/-- Leave cost of native step `k` in units of 100 mW (R424). -/
def stepCost (k : Nat) : Nat :=
  if k = 1 then 60 else if k = 2 ∨ k = 3 then 400 else if k = 4 then 360 else if k = 5 then 100 else 440

/-- Leave of native step `k` (requester 3). -/
def stepLeave (k : Nat) : Grant := ⟨3, k, stepCost k⟩

/-- Number of the last native step. -/
def State.lastStep (s : State) : Nat := if !s.part.en && s.getB F.PLB_CTRL_hbm_step_en then 6 else 5

/-- The record of R427: the first 64 failures in test order. -/
def State.plumbRecord (s : State) (start : List Byte) : List Byte :=
  let fails := (s.pwr.fails.take 64).flatMap fun (n, k) =>
    [BitVec.ofNat 8 n.cls, 0] ++ leBytes 2 n.inst ++ leBytes 2 n.net ++ [BitVec.ofNat 8 k, BitVec.ofNat 8 n.kind]
  let body := leBytes 4 0x424D4C50 ++ leBytes 2 1 ++ [1, BitVec.ofNat 8 (b2n s.part.en)] ++ leBytes 4 s.mram.bootCount
    ++ [BitVec.ofNat 8 s.pwr.steps, BitVec.ofNat 8 s.pwr.stepsSkipped, 0, 0] ++ leBytes 2 s.netsTotal ++ leBytes 2 (netsOf s.pwr.steps)
    ++ leBytes 2 s.pwr.nFails ++ leBytes 2 (s.coverage s.pwr.steps) ++ leBytes 4 s.plumbUsec ++ leBytes 4 0 ++ start
    ++ [BitVec.ofNat 8 (min 64 s.pwr.fails.length), BitVec.ofNat 8 (b2n (decide (64 < s.pwr.nFails)))] ++ List.replicate 14 0
    ++ fails ++ List.replicate (512 - fails.length) 0
  body ++ leBytes 4 (crc32c body)

/-- The last native step is over: the record is written, and the device goes off. -/
def State.plumbEnd (s : State) (start : List Byte) : State :=
  let s1 : State := { s with mram := { s.mram with plumb := Blob.ofList (s.plumbRecord start) } }
  (((s1.setF F.PLB_STATUS_plb_state 0).setF F.PLB_STATUS_step 0).raise F.PLB_EVENT_plumb_done).goOff

/-- Native step `k` is over, run or skipped: the next one is due. -/
def State.plumbNext (s : State) (k : Nat) (start : List Byte) : State :=
  if s.lastStep ≤ k then s.plumbEnd start
  else
    let s1 : State := { s with pwr := { s.pwr with phase := .plumb (k + 1) false start } }
    s1.setF F.PLB_STATUS_step 0

/-- A native step's leave is granted: it runs. -/
def State.stepGranted (s : State) (k : Nat) : State :=
  match s.pwr.phase with
  | .plumb _ _ start => ({ s with pwr := { s.pwr with phase := .plumb k true start } } : State).setF F.PLB_STATUS_step k
  | _ => s.returnGrant 3 k

/-- A native step's leave is refused or timed out: it is skipped (R425). -/
def State.stepRefused (s : State) (k : Nat) : State :=
  match s.pwr.phase with
  | .plumb _ _ start =>
    let s1 : State := { s with pwr := { s.pwr with stepsSkipped := putBits s.pwr.stepsSkipped (k - 1) 1 1 } }
    (s1.raise F.PLB_EVENT_step_skipped).plumbNext k start
  | _ => s

/-- The next native step asks leave (R425); the first request dates the record. -/
def State.plumbStepAt (s : State) : State :=
  match s.pwr.phase with
  | .plumb k false start =>
    if s.key.ks.queue.any Grant.isStep ∨ s.key.deferred.any (fun d => match d with
        | .leave g => g.isStep
        | _ => false) then s
    else
      let first := if k = 1 then s.tsNow else start
      let s1 : State := { s with pwr := { s.pwr with phase := .plumb k false first, plumbFrom := if k = 1 then s.now else s.pwr.plumbFrom } }
      (match s1.askLeave (stepLeave k) with
        | (.granted, s2) => s2.stepGranted k
        | (.queued, s2) => s2
        | (.refused _, s2) => s2.stepRefused k)
  | _ => s

/-- Native mode begins (R424): HBM and the domains under test go off; the Keystones and D34 to D37 stay on. -/
def State.plumbBegin (s : State) : State :=
  let s1 := (s.setTmr F.BUF_CTRL_hbm_en 0).each ([33, 32, 31, 30, 29, 28, 27] ++ (List.range 24).reverse.map fun i => i + 1) State.switchOff
  let s2 : State := { s1 with pwr := { s1.pwr with phase := .plumb 1 false [], steps := 0, stepsSkipped := 0, fails := [], nFails := 0 } }
  (s2.setF F.PLB_STATUS_plb_state 1).setF F.PLB_STATUS_abandoned 0

/-! ### Boot (R428, R429) -/

/-- A step of the boot-time test has ended; after the fifth its results are shown and boot goes on. -/
def State.bootStepEnd (s : State) (k : Nat) (l : List NetFail) : State :=
  let s1 := s.foundNets k l
  let s2 : State := { s1 with pwr := { s1.pwr with steps := putBits s1.pwr.steps (k - 1) 1 1 } }
  if k < 5 then ({ s2 with pwr := { s2.pwr with phase := .bootTest (k + 1) } } : State).setF F.PLB_STATUS_step (k + 1)
  else
    let s3 := (s2.setF F.PLB_STATUS_plb_state 0).setF F.PLB_STATUS_step 0
    (s3.showPlumb s3.pwr.steps 0 s3.plumbUsec s3.pwr.nFails s3.pwr.fails).continueBoot

/-- Macro that a failing net of a port lane or port link belongs to (R422, R429). -/
def netMacro (n : NetFail) : Option Nat :=
  if n.cls = 2 then some (n.inst / 4) else if n.cls = 4 then some (32 * n.inst + n.net % 1024 / 32) else none

/-- The first power-up of a port group with failing nets (R429): the ports of their macros are reported under 0x14. -/
def State.groupNets (s : State) (d : Nat) : State :=
  let mine := fun (e : NetFail × Nat) => match netMacro e.1 with
    | some m => decide (m / 8 = d - 1)
    | none => false
  let macs := ((s.pwr.fails.filter mine).filterMap fun e => netMacro e.1).eraseDups
  let s1 : State := { s with pwr := { s.pwr with fails := s.pwr.fails.filter fun e => !mine e } }
  s1.each (macs.flatMap fun m => ((List.range 4).map fun i => 4 * m + i).filter s.portExists) fun t p => t.react 0x14 2 p p

/-! ### Port-group test (R430) -/

/-- Leave of a group test. -/
def groupLeave (g : Nat) : Grant := ⟨3, 100 + g, 60⟩

/-- A Plumb operation runs, or waits for its leave. -/
def State.plumbBusy (s : State) : Bool :=
  decide (s.getF F.PLB_STATUS_plb_state ≠ 0) || s.hif.inflight.any fun e => match e.wait with
    | .leave r _ => decide (r = 3)
    | .group _ => true
    | _ => false

/-- The group goes back to its reset state and its retained configuration is applied as its first apply (R430 step 5). -/
def State.groupRestore (s : State) (g : Nat) : State :=
  let s1 := s.each ((domainPorts g).filter s.portExists) fun t p => t.portDown p false
  let s2 := (s1.each (List.range 8) fun t i => t.setMac (8 * (g - 1) + i) .init).dropStatus g
  (((s2.firstApplies g).setF F.PLB_STATUS_plb_state 0).returnGrant 3 (100 + g)).raise F.PLB_EVENT_group_done

/-- Leave of a group test has been granted: its ports go down and the test runs. -/
def State.groupStart (s : State) (g : Nat) : State :=
  let s1 := s.each ((domainPorts g).filter s.portExists) fun t p => t.portDown p true
  let s2 : State := { s1 with pwr := { s1.pwr with plumbFrom := s1.now } }
  ((s2.setF F.PLB_STATUS_plb_state 2).setF F.PLB_STATUS_group g).setF F.PLB_STATUS_abandoned 0

/-- What refuses a group test: the domain off, or a macro named in the active Ephemeris. -/
def State.groupCheck (s : State) (g : Nat) : Nat :=
  if g = 0 ∨ 16 < g ∨ !s.domainOn g then 0x02 else if s.ephOn ∧ groupNamed s.cal g then 0x07 else 0

/-- A queued group test's leave has been granted: it starts, unless the group may no longer be tested. -/
def State.groupGranted (s : State) (g : Nat) : State :=
  match s.groupCheck g with
  | 0 =>
    let t := s.groupStart g
    let runs := fun (e : InFlight) => if e.wait = Wait.leave 3 (100 + g) then { e with wait := .group g } else e
    { t with hif := { t.hif with inflight := t.hif.inflight.map runs } }
  | c => (s.returnGrant 3 (100 + g)).completeWaiting (fun w => decide (w = .leave 3 (100 + g))) c 0 0

/-- A net of the port group `g`, with the step of R430 that tests it: its lanes (3), and the wires of its macros (4). -/
def groupNet (g : Nat) (n : NetFail) : Option (NetFail × Nat) :=
  match netMacro n with
  | some m => if netOk n ∧ m / 8 + 1 = g then some (n, if n.cls = 2 then 3 else 4) else none
  | none => none

/-- A group test has ended: its results are shown, the group restored and the command completed. -/
def State.groupEnd (s : State) (l : List NetFail) : State :=
  let g := s.getF F.PLB_STATUS_group
  let found := l.filterMap (groupNet g)
  let s1 := ((s.setF F.PLB_NETS_nets_total s.netsTotal).setF F.PLB_NETS_nets_tested 640).setF F.PLB_RESULT_coverage
    (640 * 1000 / s.netsTotal)
  let s2 := ((s1.setF F.PLB_RESULT_nets_failed found.length).setReg Addr.PLB_STEPS 0).setF F.PLB_DURATION_duration s.plumbUsec
  let s3 := ((s2.showFails found).setF F.PLB_GROUP_RESULT_group_failed (min found.length 640)).setF F.PLB_GROUP_RESULT_valid 1
  ((s3.raiseIf (!found.isEmpty) F.PLB_EVENT_net_fail).groupRestore g).completeWaiting (fun w => decide (w = .group g)) 0 0 0

/-- A group test in progress is abandoned: the group is restored and the command completes with BUSY. -/
def State.groupStop (s : State) : State :=
  if s.groupTested = 0 then s
  else
    let g := s.groupTested
    ((s.groupRestore g).setF F.PLB_STATUS_abandoned 1).completeWaiting (fun w => decide (w = .group g)) 0x07 0 0

/-- A group test found running in SAFE_HOLD is abandoned (R430). -/
def State.groupAbandon (s : State) : State := if s.dev = .safeHold then s.groupStop else s

/-- A Plumb step has ended: the boot-time or native step in progress, or, with its last step, the test of a group. -/
def State.plumbStepEndAt (s : State) (l : List NetFail) (step : Nat) : State :=
  match s.pwr.phase with
  | .bootTest k => if step = k then s.bootStepEnd k l else s
  | .plumb k true start =>
    if step ≠ k then s
    else
      let s1 := (s.foundNets k l).returnGrant 3 k
      let s2 : State := { s1 with pwr := { s1.pwr with steps := putBits s1.pwr.steps (k - 1) 1 1 } }
      (s2.raiseIf (!(l.filter (netInStep k)).isEmpty) F.PLB_EVENT_net_fail).plumbNext k start
  | _ => if s.getF F.PLB_STATUS_plb_state = 2 ∧ step = 5 then s.groupEnd l else s

end Sys2Proof.Machine
end

