-- ==== Sys2Proof/Machine/PowerOps.lean ====
section
/-! DEFINITION. What changes power (R66, R215, R389 to R396, R401): the commands POWER_DOMAIN, SET_POWER_BUDGET, PLUMB_GROUP and
PARK, the end of a power-up, wake detectors, returns to the ledger, and the way to OFF. -/

namespace Sys2Proof.Machine

/-! ### POWER_DOMAIN and SET_POWER_BUDGET -/

/-- Argument check of POWER_DOMAIN (R331, R389). -/
def State.powerArgs (s : State) (d : CmdDesc) : Nat :=
  if s.switchable (argLe d 24 1) ∧ argLe d 25 1 ≤ 1 then 0 else 0x02

/-- Busy check of POWER_DOMAIN: its group is under test (R430). -/
def State.powerBusy (s : State) (d : CmdDesc) : Nat :=
  if s.groupTested ≠ 0 ∧ s.groupTested = argLe d 24 1 then 0x07 else 0

/-- POWER_DOMAIN (R389 to R391). -/
def State.powerBody (s : State) (dom op : Nat) : CmdRes × State :=
  if op = 1 then
    if s.domainOn dom then (.ok, s)
    else match s.askPowerUp 0 dom with
      | (.granted, s1) => (.wait (.domainOn dom), s1)
      | (.queued, s1) => (.wait (if dom ∈ s1.pwr.rising then .domainOn dom else .leave 0 dom), s1)
      | (.refused r, s1) => (.fail (refusalCode r), s1)
  else if !s.domainOn dom then (.ok, s)
  else
    let (r, s1) := s.powerDown dom
    (if r = 0 then .ok else .fail (refusalCode r), s1)

/-- SET_POWER_BUDGET (R396). -/
def State.budgetBody (s : State) (v : Nat) : CmdRes × State := (.ok, s.setBudget v)

/-! ### PLUMB_GROUP (R430) -/

/-- Argument and busy checks of PLUMB_GROUP. -/
def State.groupArgs (s : State) (d : CmdDesc) : Nat := if s.groupCheck (argLe d 24 1) = 0x02 then 0x02 else 0

/-- Busy check of PLUMB_GROUP. -/
def State.groupBusy (s : State) (d : CmdDesc) : Nat :=
  if s.plumbBusy ∨ s.groupCheck (argLe d 24 1) = 0x07 then 0x07 else 0

/-- PLUMB_GROUP. -/
def State.groupBody (s : State) (g : Nat) : CmdRes × State :=
  match s.askLeave (groupLeave g) with
  | (.granted, s1) => (.wait (.group g), s1.groupStart g)
  | (.queued, s1) => (.wait (.leave 3 (100 + g)), s1)
  | (.refused _, s1) => (.fail 0x06, s1)

/-! ### End of a power-up (R390) -/

/-- What step 4 of R390 and what follows it do in a domain that has come up. -/
def State.domainUp (s : State) (d : Nat) : State :=
  let s1 := s.switchOn d
  if 17 ≤ d ∧ d ≤ 24 then
    ((s1.drawSeeds (d - 17)).fillStatics (d - 17)).dropCause fun c => decide (c = .pipeline (d - 17))
  else if 1 ≤ d ∧ d ≤ 16 then (s1.firstApplies d).groupNets d
  else if d = 27 ∨ d = 28 then s1.askTraining (d - 27)
  else s1

/-- A domain being powered up is ready, or a pipeline has failed its built-in self-test (diagnostic 0x13, R390). One
whose required domains have gone off meanwhile does not come up (R22). In a switchover gap the domains stay as they are (R286). -/
def State.powerUpEnd (s : State) (d : Nat) (pass : Bool) : State :=
  if s.inGap then { s with key := { s.key with deferred := s.key.deferred ++ [.domainUp d pass] } }
  else if d ∉ s.pwr.rising then s
  else if 17 ≤ d ∧ d ≤ 24 ∧ !pass then
    let s1 : State := { s with pwr := { s.pwr with rising := s.pwr.rising.filter fun x => decide (x ≠ d) } }
    (s1.react 0x13 3 (d - 17) (d - 17)).completeWaiting (fun w => decide (w = .domainOn d)) 0x0B 0 0
  else if !(s.requires d).all s.domainOn then s.switchOff d
  else (s.domainUp d).completeWaiting (fun w => decide (w = .domainOn d)) 0 0 0

/-! ### Wake detectors (R66, R400) -/

/-- A lane's detector fires: it is armed while its group is off and its mode is not off, as PORT.WAKE_CFG has it at that moment
(R65, notes/assumptions/65.md). -/
def State.wakeAt (s : State) (m lane : Nat) : State :=
  let d := 1 + m / 8
  if s.domainOn d ∨ bitsOf (s.reg (Addr.PORT_WAKE_CFG m)).toNat (2 * lane) 2 = 0 then s
  else
    let s1 := s.raiseBit (F.PORT_WAKE_STATUS_woke m) lane
    if s.dev = .off then (if s.getB F.PWR_CTRL_wake_boot then s.sysReset 3 else s1)
    else if s.getB (F.PORT_WAKE_CFG_wake_action m) then
      match s1.askPowerUp 1 d with
      | (.refused _, s2) => s2.raise (F.PORT_WAKE_STATUS_wake_refused m)
      | (_, s2) => s2
    else s1

/-- A wake's queued request has been refused: every macro of the group that asked for power shows it. -/
def State.wakeRefused (s : State) (d : Nat) : State :=
  s.each ((List.range 8).map fun i => 8 * (d - 1) + i) fun t m =>
    if t.getB (F.PORT_WAKE_CFG_wake_action m) && decide (t.getF (F.PORT_WAKE_STATUS_woke m) ≠ 0) then
      t.raise (F.PORT_WAKE_STATUS_wake_refused m)
    else t

/-! ### Returns to the ledger (R395), scrub_fast (R215) -/

/-- A power-down that returns a domain's charge (R395). -/
def State.offReturn (s : State) (d : Nat) : State := if s.switchable d && s.domainOn d then (s.powerDown d).2 else s

/-- What LEAVE_RETURN brings to the arbiter: a return, or the requests that no other row makes (R394; notes/assumptions/83.md). -/
def State.leaveReturnAt (s : State) (q : LeaveReturn) : State :=
  match q with
  | .grant r k => s.returnGrant r k
  | .domainOff d =>
    if s.ksBusy then { s with key := { s.key with deferred := s.key.deferred ++ [.domainOff d] } } else s.offReturn d
  | .retrain k => if k < 2 ∧ s.domainOn (27 + k) ∧ !s.holdsGrant 2 k then (s.askLeave (trainLeave k)).2 else s
  | .firmware k c => (s.askLeave ⟨7, k, c⟩).2

/-- Leave of the fast scrubber. -/
def scrubLeave : Grant := ⟨6, 0, 60⟩

/-- scrub_fast has been written: setting it asks leave, clearing it returns the leave or withdraws the request. -/
def State.scrubAfter (s : State) : State :=
  if s.getB F.BUF_CTRL_scrub_fast then
    if s.holdsGrant 6 0 || decide (scrubLeave ∈ s.key.ks.queue) then s else (s.askLeave scrubLeave).2
  else
    let s1 := s.allKs fun k => { k with queue := k.queue.filter fun g => decide (g ≠ scrubLeave) }
    let keep : Deferred → Bool := fun d => decide (d ≠ .leave scrubLeave)
    ({ s1 with key := { s1.key with deferred := s1.key.deferred.filter keep } } : State).returnGrant 6 0

/-! ### PARK (R401) -/

/-- A pending activation is withdrawn, leaving act_state idle (R109, R401). -/
def State.withdrawAct (s : State) : State :=
  match s.key.ks.pend with
  | none => s
  | some _ =>
    (({ s with fly := { s.fly with armed := none } } : State).allKs fun k => { k with pend := none }).setF
      F.EPH_ACT_STATUS_act_state 0

/-- PARK: steps 1 and 2 of R401. -/
def State.parkBody (s : State) (plumb : Bool) : CmdRes × State :=
  let s1 := s.withdrawAct.each (List.range 32) State.chDisable
  let s2 := (s1.each (List.range 8) fun t n => t.setTmr (F.PIPE_CTRL_fwd_en n) 0).setTmr F.EPH_CTRL_meridian_en 0
  let s3 := s2.each (s2.ports.map Prod.fst) State.hardEnd
  (.ok, { s3 with dev := .parking, pwr := { s3.pwr with phase := .draining plumb } })

/-- park_drain has passed: a group test that still runs is abandoned (notes/assumptions/84.md), every port goes
down; Plumb runs when it was asked for and no pool uses the HBM any longer (R424),
otherwise the device goes off. -/
def State.parkDrained (s : State) : State :=
  match s.pwr.phase with
  | .draining plumb =>
    let s1 := s.groupStop.each ((List.range 512).filter s.portExists) fun t p => t.portDown p true
    if !plumb then s1.goOff
    else
      let s2 := s1.setTmr F.BUF_CTRL_hbm_en 0
      if (List.range 16).any fun k => decide ((s2.pool k).usedHbm ≠ 0) then s2 else s2.plumbBegin
  | _ => s

end Sys2Proof.Machine
end

