-- ==== Sys2Proof/Machine/CommandSet.lean ====
section
/-! DEFINITION. The command set (R329 to R334, R413, R414): what each opcode checks and does beside the loads, and the items of a
bundle. -/

namespace Sys2Proof.Machine

/-! ### Blocks -/

/-- An output block of at least `n` bytes is given (R331). -/
def outArgs (d : CmdDesc) (n : Nat) : Nat := if d.argAddr = 0 ∨ d.argLen < n then 0x02 else 0

/-- A required input block is given (R327 step 6). -/
def inArgs (d : CmdDesc) : Nat := if d.argAddr = 0 ∨ d.argLen = 0 then 0x02 else 0

/-- Answer with results in the output block: a write that fails on the host link gives HOST_MEMORY_ERROR (R328). -/
def State.output (s : State) (d : CmdDesc) (l : List Byte) (r0 r1 : Nat) : CmdRes × State :=
  if d.memErr then (.fail 0x0E, s) else (.done 0 r0 r1, s.hostWrite d.argAddr l)

/-! ### OPEN_INTERFACE and CLOSE_INTERFACE (R329, R330) -/

/-- Highest version the device supports in the range offered by function `fn`; VFs may not open 2.x. -/
def chosenVersion (fn lo hi : Nat) : Option Nat :=
  [0x301, 0x300, 0x203, 0x202, 0x201, 0x200].find? fun v =>
    decide (lo ≤ v) && decide (v ≤ hi) && (decide (fn = 0) || decide (0x300 ≤ v))

/-- OPEN_INTERFACE. A function already open that finds no common version keeps the version it had. -/
def State.openBody (s : State) (e : InFlight) : CmdRes × State :=
  match chosenVersion e.fn (argLe e.desc 24 2) (argLe e.desc 26 2) with
  | none => (.fail 0x04, s)
  | some v => (.done 0 v 0, (s.setF (F.HIF_FN_VERSION_version e.fn) v).setF (F.HIF_FN_VERSION_open e.fn) 1)

/-- Busy check of OPEN_INTERFACE. -/
def State.openBusy (s : State) (d : CmdDesc) : Nat :=
  let fn := s.ownerFn d.ring
  if s.fnOpen fn ∧ s.hif.inflight.any (fun e => decide (e.fn = fn)) then 0x07 else 0

/-! ### Reports to the host (R332 to R334, R341) -/

/-- The state block of function `fn` (R332). -/
def State.stateBlock (s : State) (fn : Nat) : List Byte :=
  [BitVec.ofNat 8 s.dev.code, BitVec.ofNat 8 (b2n s.pairRedundant + 2 * s.getF F.EPH_ACT_STATUS_act_state)]
    ++ leBytes 2 (s.fnVersion fn) ++ leBytes 4 (s.getF F.HIF_EPOCH_config_epoch) ++ leBytes 8 s.ash.1.ident
    ++ leBytes 8 s.ash.2.ident ++ leBytes 8 s.eph.1.ident ++ leBytes 8 s.eph.2.ident ++ leBytes 6 s.logLast
    ++ List.replicate 18 0

/-- A way of a learned table as read (R333). -/
def wayBytes (w : Nat) (e : Option MacEntry) : List Byte :=
  match e with
  | none => List.replicate 12 0 ++ leBytes 4 (w * 2 ^ 8)
  | some e =>
    beBytes 6 e.mac
      ++ leBytes 2 (e.vlan % 4096 + 2 ^ 12 + b2n e.static * 2 ^ 13 + b2n e.frozen * 2 ^ 14 + b2n e.hit * 2 ^ 15)
      ++ leBytes 4 ((if e.static then e.l2class % 2 ^ 12 + e.destRef % 2 ^ 10 * 2 ^ 12 else e.port % 2 ^ 9)
        + e.bankMask % 4 * 2 ^ 22 + b2n e.stale * 2 ^ 24 + e.moveCount % 16 * 2 ^ 25)
      ++ leBytes 4 (e.stamp % 256 + w * 2 ^ 8)

/-- Argument check of TABLE_READ. -/
def tableReadArgs (d : CmdDesc) : Nat :=
  let n := argLe d 32 4
  if 7 < argLe d 24 1 ∨ 262143 < argLe d 28 4 ∨ n = 0 ∨ 65536 < n then 0x02 else outArgs d (16 * n)

/-- TABLE_READ: ways from the first, to the last way of the table at most. -/
def State.tableReadBody (s : State) (d : CmdDesc) : CmdRes × State :=
  let first := argLe d 28 4
  let n := min (argLe d 32 4) (262144 - first)
  let t := s.tab (argLe d 24 1)
  s.output d ((List.range n).flatMap fun i => wayBytes (first + i) (t.way (first + i))) n 0

/-- An entry of the persistent fault record as read (R334). -/
def faultBytes (f : FaultRec) : List Byte :=
  [BitVec.ofNat 8 f.diag, BitVec.ofNat 8 f.cls] ++ leBytes 2 f.inst ++ leBytes 6 f.sec ++ leBytes 4 f.ns ++ leBytes 2 f.rep

/-- READ_FAULT_RECORD: newest first. -/
def State.readFaultBody (s : State) (d : CmdDesc) : CmdRes × State :=
  s.output d (s.mram.faults.reverse.flatMap faultBytes) s.mram.faults.length 0

/-- An entry of the Observing log as read (R341). -/
def logBytes (l : LogEntry) : List Byte :=
  leBytes 6 l.seq ++ leBytes 2 l.ring ++ [BitVec.ofNat 8 l.master, BitVec.ofNat 8 l.result] ++ leBytes 2 l.opcode
    ++ leBytes 4 l.digest ++ leBytes 4 l.tag ++ leBytes 6 l.sec ++ leBytes 4 l.ns ++ leBytes 2 l.epoch

/-- Argument check of READ_LOG. -/
def readLogArgs (d : CmdDesc) : Nat :=
  let n := argLe d 32 4
  if n = 0 ∨ 65536 < n then 0x02 else outArgs d (32 * n)

/-- READ_LOG: entries from the first one asked for, or from the oldest retained, in ascending sequence. Where there is none,
the first sequence number returned is 0 (notes/assumptions/41.md). -/
def State.readLogBody (s : State) (d : CmdDesc) : CmdRes × State :=
  let l := (s.hif.log.filter fun e => decide (argLe d 24 6 ≤ e.seq)).take (argLe d 32 4)
  s.output d (l.flatMap logBytes) ((l.head?.map LogEntry.seq).getD 0) l.length

/-! ### TABLE_FLUSH (R165, R175) -/

/-- Argument check of TABLE_FLUSH (R330, R331). -/
def State.flushArgs (s : State) (d : CmdDesc) : Nat :=
  let top := if s.fnVersion (s.ownerFn d.ring) < 0x300 then 255 else 511
  if 4 < argLe d 24 1 ∨ 4095 < argLe d 26 2 ∨ top < argLe d 28 2 then 0x02 else 0

/-- TABLE_FLUSH: the event is issued; the command waits for every powered pipeline. -/
def State.flushBody (s : State) (e : InFlight) : CmdRes × State :=
  (.wait .flush, s.issueCtl (.flush (argLe e.desc 24 1) (argLe e.desc 26 2) (argLe e.desc 28 2) (argBe e.desc 30 6) e.seq))

/-! ### ACTIVATE and CANCEL_ACTIVATE (R108, R109) -/

/-- Argument check of ACTIVATE. -/
def activateArgs (d : CmdDesc) : Nat :=
  if argLe d 36 1 = 0 ∨ 3 < argLe d 36 1 ∨ 999999999 < argLe d 32 4 then 0x02 else 0

/-- Busy check of ACTIVATE (R109, R154, R327 step 7, R430). -/
def State.activateBusy (s : State) (d : CmdDesc) : Nat := if s.requestBusy (argLe d 36 1) then 0x07 else 0

/-- ACTIVATE: the effective time with its flags. -/
def State.activateBody (s : State) (d : CmdDesc) : CmdRes × State :=
  let (c, p, s1) := s.activateReq (argLe d 36 1) (argLe d 24 6 * 10 ^ 9 + argLe d 32 4)
  match p with
  | none => (.fail c, s1)
  | some a =>
    (.done c (a.tEff / 10 ^ 9 % 2 ^ 48 + (b2n (decide (c = 0x0C)) + 2 * b2n a.predicted) * 2 ^ 48) (a.tEff % 10 ^ 9), s1)

/-- CANCEL_ACTIVATE. -/
def State.cancelBody (s : State) : CmdRes × State :=
  let (w, s1) := s.cancelPending
  (.done 0 (b2n w) 0, s1)

/-! ### Bundles (R413, R414) -/

/-- Shape of a bundle whose signature block stands at `p`. -/
def bundleOk (b : Blob) (p : Nat) : Bool :=
  let n := b.le 8 4
  decide (b.le 0 4 = 0x4C444E42) && decide (b.le 4 2 = 1) && decide (b.le 6 2 = 0) && decide (1 ≤ n) && decide (n ≤ 256)
    && b.zeroIn 12 52 && decide (p = 64 + 192 * n)

/-- The work of a RUN_BUNDLE: verified, counter 1 raised (R410); its items then run one after the other. -/
def State.bundleWork (e : InFlight) (s : State) : CmdRes × State :=
  let b := e.obj
  match s.verify b 4 with
  | (.error c, s1) => (.fail c, s1)
  | (.ok p, s1) =>
    if !bundleOk b p then (.fail 0x02, s1)
    else
      let items := (List.range (b.le 8 4)).map fun i => b.list (64 + 192 * i) 192
      (.wait (.bundle items (decide (b.le (p + 0x14) 8 ≠ 0)) 0 none), s1.advanceRollback 1 (b.le (p + 0x10) 4))

/-- RUN_BUNDLE (R413, R414). -/
def State.bundleBody (s : State) (e : InFlight) : CmdRes × State :=
  if e.desc.memErr then (.fail 0x0E, s) else s.unitWork e State.bundleWork

/-- The work of a command that has waited for the security unit (R405). -/
def unitWorkOf (op : Nat) : InFlight → State → CmdRes × State :=
  if op = 0x10 then State.loadAshlarWork
  else if op = 0x11 then State.patchAshlarWork
  else if op = 0x12 then State.loadEphWork
  else if op = 0x50 then State.attestWork
  else if op = 0x51 then State.bundleWork
  else State.fwWork

/-- The command whose turn at the security unit has come. -/
def State.unitNext (s : State) : Option InFlight := s.hif.inflight.find? fun e => decide (e.wait = .security) && !s.unitTaken e

/-- The security unit takes the next command in order of acceptance (R405). -/
def State.serveUnit (s : State) : State :=
  match s.unitNext with
  | none => s
  | some e =>
    let (r, s1) := unitWorkOf e.opcode e s
    s1.answer e r

/-- Busy check of FW_UPDATE and PARK: a FW_UPDATE is executing (R412). -/
def State.flashBusy (s : State) : Nat := if s.fwBusy then 0x07 else 0

/-- The flash writes of an executing FW_UPDATE end, which the model has happen with the core cycle (notes/assumptions/1.md). -/
def State.flashStep (s : State) (e : InFlight) : State :=
  match e.wait with
  | .flash b => (s.fwWrite b).2.complete e (s.fwWrite b).1 0 0
  | _ => s

/-! ### The table -/

/-- A check that refuses nothing. -/
def noCheck : CmdDesc → State → Nat := fun _ _ => 0

/-- Checks and body of an opcode; an unknown one is rejected before either is used (R327 step 1). -/
def cmdOf (op : Nat) : CmdDef :=
  if op = 0x01 then ⟨noCheck, fun d s => s.openBusy d, fun e s => s.openBody e⟩
  else if op = 0x02 then ⟨noCheck, noCheck, fun e s => (.ok, s.closeFn e.fn)⟩
  else if op = 0x04 then ⟨fun d _ => outArgs d 64, noCheck, fun e s => s.output e.desc (s.stateBlock e.fn) 0 0⟩
  else if op = 0x10 then ⟨fun d _ => inArgs d, fun _ s => s.loadBusy, fun e s => s.loadAshlarBody e⟩
  else if op = 0x11 then
    ⟨fun d _ => if 1 < argLe d 24 1 then 0x02 else inArgs d, fun d s => s.patchBusy d, fun e s => s.patchAshlarBody e⟩
  else if op = 0x12 then ⟨fun d _ => inArgs d, fun _ s => s.ephBusy, fun e s => s.loadEphBody e⟩
  else if op = 0x13 then ⟨fun d _ => activateArgs d, fun d s => s.activateBusy d, fun e s => s.activateBody e.desc⟩
  else if op = 0x14 then ⟨noCheck, noCheck, fun _ s => s.cancelBody⟩
  else if op = 0x20 then ⟨fun d _ => tableReadArgs d, noCheck, fun e s => s.tableReadBody e.desc⟩
  else if op = 0x21 then ⟨fun d s => s.flushArgs d, noCheck, fun e s => s.flushBody e⟩
  else if op = 0x30 then ⟨fun d _ => outArgs d 4096, noCheck, fun e s => s.readFaultBody e.desc⟩
  else if op = 0x31 then ⟨fun d _ => readLogArgs d, noCheck, fun e s => s.readLogBody e.desc⟩
  else if op = 0x40 then
    ⟨fun d _ => if argLe d 24 4 < 210 ∨ 10000 < argLe d 24 4 then 0x02 else 0, noCheck,
      fun e s => s.budgetBody (argLe e.desc 24 4)⟩
  else if op = 0x41 then
    ⟨fun d s => s.powerArgs d, fun d s => s.powerBusy d, fun e s => s.powerBody (argLe e.desc 24 1) (argLe e.desc 25 1)⟩
  else if op = 0x42 then
    ⟨fun d _ => if 1 < argLe d 24 1 then 0x02 else 0, fun _ s => s.flashBusy, fun e s => s.parkBody (decide (argLe e.desc 24 1 = 1))⟩
  else if op = 0x50 then ⟨fun d _ => outArgs d 3956, noCheck, fun e s => s.attestBody e⟩
  else if op = 0x51 then ⟨fun d _ => inArgs d, noCheck, fun e s => s.bundleBody e⟩
  else if op = 0x52 then ⟨fun d _ => inArgs d, fun _ s => s.flashBusy, fun e s => s.fwBody e⟩
  else if op = 0x60 then ⟨fun d s => s.groupArgs d, fun d s => s.groupBusy d, fun e s => s.groupBody (argLe e.desc 24 1)⟩
  else if op = 0x70 then ⟨noCheck, fun _ s => s.snapshotBusy, fun _ s => s.snapshotBody⟩
  else ⟨noCheck, noCheck, fun _ s => (.ok, s)⟩

/-- The first command that a fence no longer keeps waiting is accepted or rejected (R323). -/
def State.serveFenced (s : State) : State :=
  match s.hif.fenced.find? s.fenceOver with
  | none => s
  | some x => (s.dropFenced x.2.ring).admitCommand (cmdOf x.1) x.1 x.2

/-! ### Items of a bundle -/

/-- A status that a command ends with when it has done what was asked (R328). -/
def succeeded (status : Nat) : Bool := status = 0 || status = 0x0C

/-- Replace the outcome of the item that ran last of bundle `e`. -/
def State.itemEnds (s : State) (e : InFlight) (left : List (List Byte)) (bound : Bool) (ran : Nat) (status : Nat) : State :=
  let put := fun (f : InFlight) => if f.seq = e.seq then { f with wait := .bundle left bound ran (some status) } else f
  { s with hif := { s.hif with inflight := s.hif.inflight.map put } }

/-- A COMMAND item: the descriptor in bytes 8 to 71 passes the checks of R327 as a command of the bundle's ring; fence and own
are ignored, and an indirect block gives BAD_ARGUMENT. -/
def State.itemCommand (s : State) (e : InFlight) (left : List (List Byte)) (bound : Bool) (ran : Nat) (x : List Byte) : State :=
  let (op, d0) := cmdDesc e.ring ((x.drop 8).take 64)
  let d : CmdDesc := { d0 with flags := d0.flags &&& 0xFE, last := d0.last &&& 0x7F }
  if d.argAddr ≠ 0 then s.itemEnds e left bound ran 0x02
  else match s.checkCommand (cmdOf op) op e.fn d with
    | 0 =>
      let (c, s1) := s.accept op e.fn e.seq d
      s1.runBody (cmdOf op) c
    | code => (s.noteReject op e.fn d code).itemEnds e left bound ran code

/-- Run one item (R413). -/
def State.runItem (s : State) (e : InFlight) (left : List (List Byte)) (bound : Bool) (ran : Nat) (x : List Byte) : State :=
  let t := (x.headD 0).toNat
  let zero := fun (a n : Nat) => ((x.drop a).take n).all fun b => decide (b = 0)
  let slot := ((x.drop 8).headD 0).toNat
  let ends := fun (r : Nat × State) => r.2.itemEnds e left bound ran r.1
  if !zero 1 7 then ends (0x02, s)
  else if t = 1 ∧ zero 72 120 then s.itemCommand e left bound ran x
  else if t = 2 ∧ zero 9 7 ∧ zero 113 7 ∧ zero 180 12 then
    ends (s.installKey slot ⟨Blob.ofList ((x.drop 16).take 97), Blob.ofList ((x.drop 120).take 60)⟩)
  else if t = 3 ∧ zero 9 183 then ends (s.revokeKey slot)
  else if t = 4 ∧ zero 9 3 ∧ zero 16 176 ∧ slot ≤ 15 then
    ends (0, s.advanceRollback slot (leNat ((x.drop 12).take 4)))
  else if t = 5 ∧ zero 8 184 ∧ bound then
    ends (0, ({ s with sec := { s.sec with debug := true } } : State).raise F.SEC_EVENT_debug_authorised)
  else ends (0x02, s)

/-- One step of a bundle: its next item starts, or the bundle ends. Nothing while an item still runs. -/
def State.bundleStep (s : State) (e : InFlight) : State :=
  match e.wait with
  | .bundle left bound ran (some st) =>
    if succeeded st then
      let put := fun (f : InFlight) => if f.seq = e.seq then { f with wait := .bundle left bound (ran + 1) none } else f
      { s with hif := { s.hif with inflight := s.hif.inflight.map put } }
    else s.complete e st ran 0
  | .bundle [] _ ran none => s.complete e 0 ran 0
  | .bundle (x :: left) bound ran none =>
    if s.hif.inflight.any fun f => decide (f.parent = e.seq) then s
    else
      let put := fun (f : InFlight) => if f.seq = e.seq then { f with wait := .bundle left bound ran none } else f
      ({ s with hif := { s.hif with inflight := s.hif.inflight.map put } } : State).runItem e left bound ran x
  | _ => s

end Sys2Proof.Machine
end

