-- ==== Sys2Proof/Machine/Leave.lean ====
section
/-! DEFINITION. The queue of requests for leave as it moves on (R393 to R395), and the end of every command: what has become
due beside its own effect (a queued request decided, a bundle's next item, a flush completed), the device state that
follows, and the events raised. -/

namespace Sys2Proof.Machine

/-! ### Decisions on queued requests -/

/-- What a grant lets go on. -/
def State.afterGrant (s : State) (g : Grant) : State :=
  if g.requester = 0 then
    let up := fun (f : InFlight) => if f.wait = Wait.leave 0 g.key then { f with wait := .domainOn g.key } else f
    { s with hif := { s.hif with inflight := s.hif.inflight.map up } }
  else if g.requester = 3 then (if g.key < 100 then s.stepGranted g.key else s.groupGranted (g.key - 100))
  else if g.requester = 4 then s.loadGranted g.key
  else if g.requester = 5 then s.dmaGranted g.key
  else s

/-- Complete the first command that waits for a given thing. -/
def State.completeFirst (s : State) (p : Wait → Bool) (status : Nat) : State :=
  match s.hif.inflight.find? fun e => p e.wait with
  | some e => s.complete e status 0 0
  | none => s

/-- What a refusal ends: of several commands that asked for the same thing, the one that asked first. -/
def State.afterRefusal (s : State) (g : Grant) (reason : Nat) : State :=
  let s1 := s.noteRefusal g.requester g.domain g.cost reason
  if g.requester = 0 then s1.completeFirst (fun w => decide (w = .leave 0 g.key)) (refusalCode reason)
  else if g.requester = 1 then s1.wakeRefused g.key
  else if g.requester = 2 then s1.trainingLeft g.key
  else if g.requester = 3 then
    (if g.key < 100 then s1.stepRefused g.key
     else s1.completeWaiting (fun w => decide (w = .leave 3 g.key)) 0x06 0 0)
  else if g.requester = 4 then s1.loadRefused g.key
  else if g.requester = 5 then s1.dmaRefused g.key
  else s1

/-- A power-up request whose domain is on or rising already: nothing is left to grant. -/
def State.alreadyUp (s : State) (g : Grant) : Bool :=
  decide (g.requester < 2) && (s.domainOn g.key || decide (g.key ∈ s.pwr.rising))

/-- Commands that asked for a domain that is up already, or is rising for another request. -/
def State.joinUp (s : State) (d : Nat) : State :=
  if s.domainOn d then s.completeWaiting (fun w => decide (w = .leave 0 d)) 0 0 0 else s.afterGrant ⟨0, d, 0⟩

/-- Decision of R393 on the request at the head of the queue: none while it must wait, 0 to grant it, otherwise the reason
for which it is refused. -/
def State.headDecision (s : State) (g : Grant) : Option Nat :=
  if s.alreadyUp g then some 0
  else if s.leaveClosed g then some 8
  else if g.requester < 2 ∧ !(s.requires g.key).all s.domainOn then some 4
  else if s.budget < s.permanent + g.cost then some 5
  else if s.permanent + s.transient + g.cost ≤ s.budget then some 0
  else none

/-- The request decided next: the head of the queue, in PARKING the first of Plumb's (R425). -/
def State.leaveHead (s : State) : Option Grant :=
  s.key.ks.queue.find? fun g => decide (s.dev ≠ .parking) || g.isStep

/-- Take a request out of the queue. -/
def State.dropRequest (s : State) (g : Grant) : State := s.setKs fun k => { k with queue := k.queue.erase g }

/-- Decide the head of the queue if it can be decided; none during a gap or replay (R286). -/
def State.serveHead (s : State) : State :=
  if s.ksBusy then s
  else match s.leaveHead with
    | none => s
    | some g => match s.headDecision g with
      | none => s
      | some 0 =>
        if s.alreadyUp g then (s.dropRequest g).joinUp g.key
        else (((s.dropRequest g).enterGrant g).ksLog .power).afterGrant g
      | some r => ((s.dropRequest g).ksLog .power).afterRefusal g r

/-- The head of the queue has waited for leave_timeout (R393). -/
def State.leaveExpired (s : State) : State :=
  if s.ksBusy then s
  else match s.leaveHead with
    | none => s
    | some g => ((s.dropRequest g).ksLog .power).afterRefusal g 7

/-- A request that arrived during a gap or replay is decided as a new one. -/
def State.serveDeferredLeave (s : State) (g : Grant) : State :=
  match s.decideLeave g s.leaveWaiting with
  | .granted =>
    if s.alreadyUp g then s.joinUp g.key else ((s.enterGrant g).ksLog .power).afterGrant g
  | .queued => (s.setKs fun k => { k with queue := k.queue ++ [g] }).ksLog .power
  | .refused r => (s.ksLog .power).afterRefusal g r

/-! ### The end of a command -/

/-- A bundle's next item can start, or the bundle can end. -/
def State.bundleDue (s : State) (e : InFlight) : Bool :=
  match e.wait with
  | .bundle _ _ _ (some _) => true
  | .bundle _ _ _ none => !(s.hif.inflight.any fun f => decide (f.parent = e.seq))
  | _ => false

/-- A command waits for a domain whose power-up has been abandoned (R22). -/
def State.upLost (s : State) (w : Wait) : Bool :=
  match w with
  | .domainOn d => !s.domainOn d && !decide (d ∈ s.pwr.rising)
  | _ => false

/-- Something beside a command's own effect is due. -/
def State.tailDue (s : State) : Bool :=
  (!s.ksBusy && (match s.leaveHead with | none => false | some g => (s.headDecision g).isSome))
    || s.hif.inflight.any (fun e => (decide (e.wait = .flush) && !s.flushPending e.seq) || s.bundleDue e || s.upLost e.wait)
    || s.unitNext.isSome || s.hif.fenced.any s.fenceOver
    || s.hif.rings.any (fun e => e.2.stopping && (s.runningOn e.1).isEmpty)
    || (decide (s.dev = .safeHold) && decide (s.groupTested ≠ 0)) || s.key.logDue

/-- One round of what is due. -/
def State.tailRound (s : State) : State :=
  let s0 := s.serveHead.flushDone
  let s1 := s0.completeWaiting s0.upLost (refusalCode 4) 0 0
  let s2 := (s1.each s1.hif.inflight State.bundleStep).serveUnit.serveFenced
  s2.ringsStopped.groupAbandon.logCheck

/-- Rounds until nothing is due: a bundle takes three rounds an item. -/
def State.tail (s : State) : Nat → State
  | 0 => s
  | n + 1 => if s.tailDue then s.tailRound.tail n else s

/-- What follows from a command that took the block from `old` to `s` by its own effect: decisions of the arbiter and of
waiting commands, the device state, and the events raised. -/
def State.conclude (old s : State) : State := State.settle old (s.tail 1024).devUpdate

/-- The outcome of PWRON_RST_N, which needs no clock: its effect and what follows from it. -/
def runReset (f : State → State) (s : State) : Host.Outcome State Fault Refusal := .next (State.conclude s (f s))

/-- A command's outcome: its effect and what follows from it; nothing while the core die has stopped (R20). -/
def run (f : State → State) (s : State) : Host.Outcome State Fault Refusal :=
  if s.stopped then .next s else .next (State.conclude s (f s))

end Sys2Proof.Machine
end

