-- ==== Sys2Proof/Machine/Clock.lean ====
section
/-! DEFINITION. What passes with no command waiting: one core cycle (notes/assumptions/1.md). What falls in the core cycle of a
counter latch is included in it (R382), an expiry of holdover_timeout takes effect (R82), and the children of a port's scheduler that
have become eligible wake (R253). A sweep pass visits its next bucket (R173). The counter advances by RATE_NOW (R69), a pulse of the 1PPS output runs (R90), LEVEL counters count
(R379), flushed copies are released (R211), what overflows a skid buffer is discarded (R54), HOLD interrupts a
preemptable frame (R63), a pipeline whose expansion queue is full
stalls (R224), a flash write ends (R412), a switchover gap whose end is reached ends (R285), and a reset that has been asked for takes
effect (R397). While PWRON_RST_N is asserted the counter stands at zero (R71). -/

namespace Sys2Proof.Machine

/-- Skid buffers that hold a frame, with what has arrived by now (R54). -/
def State.skids (s : State) : State :=
  s.each ((s.ports.filter fun e => !e.2.skid.isEmpty).map Prod.fst) State.skidCheck

/-- Flash writes in progress (R412). -/
def State.flashes (s : State) : State := s.each s.hif.inflight State.flashStep

/-- One core cycle of the block by itself. -/
def State.coreCycle (old : State) : State :=
  let s := old.pcLevels.includeEvents.expire.wakePorts.wakeCpu.sweeps
  let s0 : State := { s with now := s.now + 1 }
  if s0.pwr.phase = .held then s0
  else
    let t := { s0.trn with time := (s0.trn.time + s0.rateNow) % timeRange, pulse := s0.trn.pulse - s0.rateNow }
    let s1 : State := { s0 with trn := t }
    let s2 := (s1.flushCycle.skids.holdCuts.expandStalls).flashes
    let s3 := match s2.key.gapEnd with
      | some t => if t ≤ s2.now then s2.endGap else s2
      | none => s2
    match s3.pwr.pendingReset with
    | some (t, cause) => if t ≤ s3.now then s3.sysReset cause else s3
    | none => s3

/-- The core cycle with its consequences. -/
def idle (s : State) : Host.Outcome State Fault Refusal := run State.coreCycle s

end Sys2Proof.Machine
end

