-- ==== Sys2Proof/Machine/CommandRows.lean ====
section
/-! DEFINITION. The command descriptors (R323 to R340): each row takes the head of its ring with its own opcode and runs the
checks of R327 and the command's body of Machine/CommandSet.lean. -/

namespace Sys2Proof.Machine

/-- OPEN_INTERFACE, opcode 0x01 (R324, R327, R329). -/
def execOpenInterface (d : CmdDesc) (s : State) : Host.Outcome State Fault Refusal :=
  run (fun s => s.takeCommand (cmdOf 0x01) 0x01 d) s

/-- CLOSE_INTERFACE, opcode 0x02 (R324, R327, R329). -/
def execCloseInterface (d : CmdDesc) (s : State) : Host.Outcome State Fault Refusal :=
  run (fun s => s.takeCommand (cmdOf 0x02) 0x02 d) s

/-- NOP, opcode 0x03 (R324, R327, R331). -/
def execNop (d : CmdDesc) (s : State) : Host.Outcome State Fault Refusal :=
  run (fun s => s.takeCommand (cmdOf 0x03) 0x03 d) s

/-- GET_STATE, opcode 0x04 (R324, R327, R332). -/
def execGetState (d : CmdDesc) (s : State) : Host.Outcome State Fault Refusal :=
  run (fun s => s.takeCommand (cmdOf 0x04) 0x04 d) s

/-- LOAD_ASHLAR, opcode 0x10 (R324, R327, R144). -/
def execLoadAshlar (d : CmdDesc) (s : State) : Host.Outcome State Fault Refusal :=
  run (fun s => s.takeCommand (cmdOf 0x10) 0x10 d) s

/-- PATCH_ASHLAR, opcode 0x11 (R324, R327, R152). -/
def execPatchAshlar (d : CmdDesc) (s : State) : Host.Outcome State Fault Refusal :=
  run (fun s => s.takeCommand (cmdOf 0x11) 0x11 d) s

/-- LOAD_EPHEMERIS, opcode 0x12 (R324, R327, R94). -/
def execLoadEphemeris (d : CmdDesc) (s : State) : Host.Outcome State Fault Refusal :=
  run (fun s => s.takeCommand (cmdOf 0x12) 0x12 d) s

/-- ACTIVATE, opcode 0x13 (R324, R327, R108). -/
def execActivate (d : CmdDesc) (s : State) : Host.Outcome State Fault Refusal :=
  run (fun s => s.takeCommand (cmdOf 0x13) 0x13 d) s

/-- CANCEL_ACTIVATE, opcode 0x14 (R324, R327, R109). -/
def execCancelActivate (d : CmdDesc) (s : State) : Host.Outcome State Fault Refusal :=
  run (fun s => s.takeCommand (cmdOf 0x14) 0x14 d) s

/-- TABLE_READ, opcode 0x20 (R324, R327, R333). -/
def execTableRead (d : CmdDesc) (s : State) : Host.Outcome State Fault Refusal :=
  run (fun s => s.takeCommand (cmdOf 0x20) 0x20 d) s

/-- TABLE_FLUSH, opcode 0x21 (R324, R327, R175). -/
def execTableFlush (d : CmdDesc) (s : State) : Host.Outcome State Fault Refusal :=
  run (fun s => s.takeCommand (cmdOf 0x21) 0x21 d) s

/-- READ_FAULT_RECORD, opcode 0x30 (R324, R327, R334). -/
def execReadFaultRecord (d : CmdDesc) (s : State) : Host.Outcome State Fault Refusal :=
  run (fun s => s.takeCommand (cmdOf 0x30) 0x30 d) s

/-- READ_LOG, opcode 0x31 (R324, R327, R331). -/
def execReadLog (d : CmdDesc) (s : State) : Host.Outcome State Fault Refusal :=
  run (fun s => s.takeCommand (cmdOf 0x31) 0x31 d) s

/-- SET_POWER_BUDGET, opcode 0x40 (R324, R327, R396). -/
def execSetPowerBudget (d : CmdDesc) (s : State) : Host.Outcome State Fault Refusal :=
  run (fun s => s.takeCommand (cmdOf 0x40) 0x40 d) s

/-- POWER_DOMAIN, opcode 0x41 (R324, R327, R389). -/
def execPowerDomain (d : CmdDesc) (s : State) : Host.Outcome State Fault Refusal :=
  run (fun s => s.takeCommand (cmdOf 0x41) 0x41 d) s

/-- PARK, opcode 0x42 (R324, R327, R401). -/
def execPark (d : CmdDesc) (s : State) : Host.Outcome State Fault Refusal :=
  run (fun s => s.takeCommand (cmdOf 0x42) 0x42 d) s

/-- ATTEST, opcode 0x50 (R324, R327, R419). -/
def execAttest (d : CmdDesc) (s : State) : Host.Outcome State Fault Refusal :=
  run (fun s => s.takeCommand (cmdOf 0x50) 0x50 d) s

/-- RUN_BUNDLE, opcode 0x51 (R324, R327, R414). -/
def execRunBundle (d : CmdDesc) (s : State) : Host.Outcome State Fault Refusal :=
  run (fun s => s.takeCommand (cmdOf 0x51) 0x51 d) s

/-- FW_UPDATE, opcode 0x52 (R324, R327, R412). -/
def execFwUpdate (d : CmdDesc) (s : State) : Host.Outcome State Fault Refusal :=
  run (fun s => s.takeCommand (cmdOf 0x52) 0x52 d) s

/-- PLUMB_GROUP, opcode 0x60 (R324, R327, R430). -/
def execPlumbGroup (d : CmdDesc) (s : State) : Host.Outcome State Fault Refusal :=
  run (fun s => s.takeCommand (cmdOf 0x60) 0x60 d) s

/-- COUNTER_SNAPSHOT, opcode 0x70 (R324, R327, R383). -/
def execCounterSnapshot (d : CmdDesc) (s : State) : Host.Outcome State Fault Refusal :=
  run (fun s => s.takeCommand (cmdOf 0x70) 0x70 d) s

end Sys2Proof.Machine
end

