-- ==== Sys2Proof/Machine/Conduct.lean ====
section
/-! DEFINITION. What drives the Keystone pair (R276 to R293): checkpoints and their commitment, faults, the planned switchover,
resync, and the replay that ends a switchover. -/

namespace Sys2Proof.Machine

/-! ### Checkpoints (R279 to R281, R291) -/

/-- The standby takes checkpoints: it is SYNCED, or in RESYNC with its full copy committed. -/
def State.standbyTakes (s : State) (u : Unit2) : Bool :=
  decide (s.unitState u = 3) || (decide (s.unitState u = 2) && s.key.firstCkpt)

/-- The end of a checkpoint interval: N cycles of the active Ephemeris, or 4 µs without one (R280). -/
def State.checkpointAt (s : State) : State :=
  match s.activeUnit with
  | none => s
  | some u =>
    if s.ksBusy || !s.standbyTakes (other u) || (s.ephOn && decide (s.key.cyclesSinceCkpt < s.copyEveryN)) then s
    else ({ s with key := { s.key with cyclesSinceCkpt := 0 } } : State).takeCheckpoint

/-- A checkpoint has arrived at the standby: whole, it is committed; otherwise it is discarded and counted. `crcFlits` Mortar flits,
those of heartbeats and of a full copy among them, have had CRC errors since the arrival before (R294, notes/assumptions/83.md). -/
def State.checkpointEnd (s : State) (whole : Bool) (crcFlits : Nat) : State :=
  let s0 := s.countN 15 0 8 crcFlits
  match s.key.inFlight, s.activeUnit with
  | some c, some u =>
    if !whole then ({ s0 with key := { s0.key with inFlight := s.key.behind, behind := none } } : State).count 15 0 2
    else
      let s1 := s0.commitCheckpoint c
      if s1.key.firstCkpt && decide (s1.unitState (other u) = 2) then s1.reachSynced (other u) else s1
  | _, _ => s0

/-- The full copy is committed at the unit in RESYNC. -/
def State.fullCopyEnd (s : State) : State :=
  match s.key.fullCopy with
  | none => s
  | some u =>
    if s.unitState u = 2 ∧ !s.key.firstCkpt then
      ({ s with key := { s.key with firstCkpt := true } } : State).setF F.KEY_COPY_STATUS_last_ckpt_bytes (2 ^ 20)
    else s

/-! ### Faults (R283, R284) -/

/-- Code of a fault cause (R283). -/
def causeCode : KeyCause → Nat
  | .lockstep => 1 | .linkEcc => 2 | .heartbeat => 3 | .refClock => 4 | .power => 5 | .stateEcc => 6 | .mortar => 7
  | .syncLost => 8

/-- A Keystone fault is detected: causes 7 and 8 are charged to the standby, the others to the unit observed. -/
def State.keystoneFaultAt (s : State) (u : Unit2) (cause : Nat) : State :=
  if 7 ≤ cause then
    match s.activeUnit with
    | some v => s.unitFault (other v) cause
    | none => s
  else s.unitFault u cause

/-! ### Commands of KEY.COMMAND (R290, R291) -/

/-- force_switch: conduction goes to a SYNCED standby, after a checkpoint that it commits; otherwise the write is refused. In a gap
the pair is already being handed over, and the write is refused (notes/assumptions/69.md). -/
def State.forceSwitchAt (s : State) : State :=
  match s.activeUnit with
  | some u =>
    if s.inGap ∨ s.unitState (other u) ≠ 3 then s.raise F.KEY_EVENT_force_refused
    else
      let s1 := ({ s with key := { s.key with inFlight := none, behind := none } } : State).takeCheckpoint
      let s2 := match s1.key.inFlight with
        | some c => s1.commitCheckpoint c
        | none => s1
      s2.startSwitch u 9 true
  | none => s.raise F.KEY_EVENT_force_refused

/-- resync: the FAILED unit is resynchronised, in a switchover gap too; ignored without one, or after a double fault. -/
def State.resyncAt (s : State) : State :=
  let failed := fun (u : Unit2) => decide (s.unitState u = 5) && decide (s.unitState (other u) ≠ 5)
  if s.key.doubleFault || !(s.activeUnit.isSome || s.inGap) then s
  else if failed .a then s.resyncStart .a
  else if failed .b then s.resyncStart .b
  else s

/-! ### Replay and deferred inputs (R286, R287) -/

/-- A deferred command runs, unless what was served before it makes it BUSY (R94, R109). After a double fault an activation, a cancel
or a flush has no unit to decide it. -/
def State.serveCommand (s : State) (seq : Nat) : State :=
  match s.hif.inflight.find? fun e => decide (e.seq = seq) with
  | none => s
  | some e =>
    let busy := (cmdOf e.opcode).busy e.desc s
    if s.key.doubleFault ∧ (e.opcode = 0x13 ∨ e.opcode = 0x14 ∨ e.opcode = 0x21) then s.complete e 0x03 0 0
    else if busy ≠ 0 then s.complete e busy 0 0
    else
      let (r, s1) := (cmdOf e.opcode).body e s
      (s1.answer e r).ksLog .command

/-- Handle the oldest edge of the capture FIFO (R286). -/
def State.serveEdge (s : State) : State :=
  match s.key.edgeFifo with
  | [] => s
  | t :: l => ({ s with key := { s.key with edgeFifo := l } } : State).refEdgeAt t

/-- Serve one deferred input. -/
def State.serveInput (s : State) (d : Deferred) : State :=
  match d with
  | .command seq => s.serveCommand seq
  | .theta t => if s.key.doubleFault then s.discardTheta else s.serveTheta t
  | .ctrl en hold => if s.key.doubleFault then s else s.serveCtrl en hold
  | .edge => s.serveEdge
  | .holdTimeout => if s.key.doubleFault then s else s.serveTimeout
  | .leave g => s.serveDeferredLeave g
  | .ctl e => s.issueCtl e
  | .go sel t => s.serveGo sel t
  | .cancel => if s.key.doubleFault then s else s.serveCancel
  | .domainOff d => s.offReturn d
  | .domainUp d pass => s.powerUpEnd d pass

/-- The log is replayed, each recorded decision applied; then the deferred inputs are served in order of arrival (R285 step 8). -/
def State.serveDeferred (s : State) : State :=
  if s.inGap || !(s.key.replay || !s.key.deferred.isEmpty) then s
  else
    let n := if s.key.replay then s.key.log.length else 0
    let ks := if s.key.replay then { (s.key.log.getLast?.map LogRec.after).getD s.key.ks with pend := s.fly.armed } else s.key.ks
    let k := { s.key with ks := ks, log := if s.key.logOn then s.key.log else [], replay := false, deferred := [] }
    let s1 := ({ s with key := k } : State).countN 15 0 5 n
    s1.each s.key.deferred State.serveInput

end Sys2Proof.Machine
end

