-- ==== Sys2Proof/Machine/Diagnose.lean ====
section
/-! DEFINITION. Diagnostic reports and the safety monitor (R19, R298 to R308, R371): the class and reaction of each diagnostic,
the alarm outputs and their tests, the junction sensors, the background vote; and the LED stream (R446). -/

namespace Sys2Proof.Machine

/-! ### Diagnostics (R303 to R305) -/

/-- An uncorrectable error in an Ashlar bank (0x09): the active entry is poisoned (R305); a shadow bank is emptied and a pending
activation that selects it refused (R109). -/
def State.ashlarError (s : State) (sec entry : Nat) (shadow : Bool) : State :=
  if !shadow then
    if s.ash.1.valid then
      let b := s.ash.1
      let p := if (sec, entry) ∈ b.poison then b.poison else b.poison ++ [(sec, entry)]
      ({ s with ash := ({ b with poison := p }, s.ash.2) } : State).react 0x09 1 (entryInst sec entry) 0
    else s
  else
    let s1 := s.emptyShadow.react 0x09 0 (entryInst sec entry) 0
    if s1.pendSelects 1 then s1.refusePending 0x02 else s1

/-- An uncorrectable error in an Ephemeris bank (0x07): SAFE in the active bank, whose record is then not applied (R306); a
shadow bank is emptied. -/
def State.ephemerisError (s : State) (slot : Nat) (shadow : Bool) : State :=
  if !shadow then
    let b := s.eph.1
    let bad := if slot ∈ b.badSlots then b.badSlots else b.badSlots ++ [slot]
    (if b.valid then { s with eph := ({ b with badSlots := bad }, s.eph.2) } else s).react 0x07 4 slot 0
  else
    let s1 := ({ s with eph := (s.eph.1, .empty) } : State).react 0x07 0 slot 0
    if s1.pendSelects 0 then s1.refusePending 0x02 else s1

/-- A channel of a stack that has lost its supply is retired under R218: nothing can be copied from it (R304). A copy that runs from
it ends. -/
def State.withdrawChannel (s : State) (c : Nat) : State :=
  let s1 := if s.fab.hbmReloc.any fun r => decide (r.1 = c) then s.loseSpare else s
  if s1.getFBit F.BUF_HBM_RETIRED_retired c then s1 else s1.dropChannel c false

/-- A supply voltage leaves its window in domain `d`, or is outside it as the domain is powered up (0x16, R304, R390 step 2). -/
def State.voltageFault (s : State) (d : Nat) : State :=
  if !s.hasDomain d || !(s.domainOn d || decide (d ∈ s.pwr.rising)) then s
  else if 1 ≤ d ∧ d ≤ 16 then s.react 0x16 2 d d
  else if 17 ≤ d ∧ d ≤ 24 then s.react 0x16 3 d (d - 17)
  else if d = 25 ∨ d = 26 then s.unitFault (if d = 25 then .a else .b) 5
  else if d = 27 ∨ d = 28 then
    (s.each ((List.range 16).map fun i => 16 * (d - 27) + i) State.withdrawChannel).react 0x16 1 d d
  else if 34 ≤ d ∧ d ≤ 36 then s.react 0x16 1 d d
  else s.react 0x16 4 d d

/-- A Meridian frame fails its egress FCS check although its ingress FCS was correct (0x05): SAFE at the second within
10 ms, which is 16,500,000 core cycles. -/
def State.crossbarError (s : State) : State :=
  let again := match s.saf.xbarMismatch with
    | some t => decide (s.now ≤ t + 16500000)
    | none => false
  let s1 := ({ s with saf := { s.saf with xbarMismatch := some s.now } } : State).count 16 0 4
  if again then s1.react 0x05 4 0 0 else s1.react 0x05 0 0 0

/-- Over-temperature (0x17): SAFE while thermal_hold is set. -/
def State.overTemp (s : State) : State :=
  (s.raise F.SAF_EVENT_over_temp).react 0x17 (if s.getB F.SAF_CTRL_thermal_hold then 4 else 0) 0 0

/-- An uncorrectable error in scheduler or policer state (0x0C, R273): a bucket takes its burst, a tag its node's V. `kind`
is that of TM.ERR_INFO: queue, port, policer, CPU node. `tag`: the tag rather than the bucket, of a policer its second bucket rather
than its first; `g`: the group whose tag in a port's root failed, or the CPU-port queue whose tag in the CPU node did. -/
def State.tmStateError (s : State) (x kind : Nat) (tag : Bool) (g : Nat) : State :=
  let s1 :=
    if kind = 0 then
      let q := s.queue x
      let v := if 4096 ≤ x then s.fab.cpuV else (s.sched (x / 8)).gV.getD (s.groupOf (x / 8) (x % 8)) 0
      s.setQueue x (if tag then { q with tag := v }
        else { q with tokens := .full (s.getF (F.TM_Q_BURST_burst x)), stamp := s.now })
    else if kind = 1 then
      let d := s.sched x
      s.setSched x (if tag then { d with gTag := d.gTag.set g d.vRoot }
        else { d with tokens := .full (s.getF (F.TM_PSHAPER_BURST_burst x)), stamp := s.now })
    else if kind = 2 then
      let e := s.ash.1.policer x
      let p := s.policerNow x
      s.setPolicer x (some (if tag then { p with e := e.burst2 * 13200000 } else { p with c := e.cbs * 13200000 }))
    else if tag then s.setQueue (4096 + g) { s.queue (4096 + g) with tag := s.fab.cpuV }
    else { s with fab := { s.fab with cpuTokens := .full (s.getF F.TM_CPU_BURST_burst), cpuStamp := s.now } }
  let s2 := ((s1.setF F.TM_ERR_INFO_index x).setF F.TM_ERR_INFO_kind kind).count 14 0 0
  (s2.raise (if kind = 2 then F.TM_EVENT_policer_state_error else F.TM_EVENT_sched_state_error)).react 0x0C 0 x 0

/-- Requester `req` asks for the release or free of cell `a` which the buffer manager refuses: recorded and reported (R204). One that
it would not refuse is no refusal, and no report is due. -/
def State.refusedFree (s : State) (a req master : Nat) : State :=
  if (s.cell a).all fun c => decide (req ≠ 8) && decide (req ≠ c.owner) then (s.releaseCell req master a).react 0x01 0 a 0 else s

/-- Keystone that an instance number names. -/
def unitOf (n : Nat) : Unit2 := if n = 0 then .a else .b

/-- A diagnostic report (R301, R303). `inst` is the instance; `detail` tells apart the findings of one diagnostic
(notes/assumptions/42.md): 0x01 a structure, or a refused free with its requester and its master above them; 0x02 a channel, or a cell read for its
relocation; 0x03 the
conductor link; 0x07 and 0x09 the shadow bank, 0x09 with the section below it; 0x0C the kind, a tag rather than a bucket, and its
group; 0x0F the cause code; 0x12 no two copies identical; 0x14 loss of PCS lock alone; 0x18 a system reference that has failed, which
stops the core die until PWRON_RST_N (R20). While PWRON_RST_N is asserted nothing is reported (R439). -/
def State.diagnose (s : State) (r : FaultReport) : State :=
  let i := r.inst
  let x := r.detail
  if s.pwr.phase = .held then s
  else if r.diag = 0x01 then
    (if 2 ≤ x % 4 then s.refusedFree i (x / 4 % 16) (if 64 ≤ x then x / 64 - 1 else 0x1F)
    else s.react 0x01 (if x = 1 then 1 else 0) i 0)
  else if r.diag = 0x02 then (if x = 1 then s.retireChannel i else if x = 2 then s.relocCrc i else s.frameCrc i)
  else if r.diag = 0x03 then (if x = 1 then s.unitFault (unitOf i) 2 else s.react 0x03 0 i 0)
  else if r.diag = 0x04 then ((s.spoilFrame i).count 16 0 3).react 0x04 0 i 0
  else if r.diag = 0x05 then s.crossbarError
  else if r.diag = 0x07 then s.ephemerisError i (decide (x = 1))
  else if r.diag = 0x09 then s.ashlarError (x % 256) i (decide (256 ≤ x))
  else if r.diag = 0x0C then
    (if (if x % 4 = 0 then 4176 else if x % 4 = 1 then 512 else if x % 4 = 2 then 16384 else 1) ≤ i then s
    else s.tmStateError i (x % 4) (decide (x / 4 % 2 = 1)) (x / 8 % (if x % 4 = 3 then 64 else 4)))
  else if r.diag = 0x0D then ({ s with saf := { s.saf with timeBad := true } } : State).react 0x0D 4 i 0
  else if r.diag = 0x0E then
    (if s.getF F.SAF_TIME_ALARM_time_alarm_threshold = 0 then s else (s.raise F.SAF_EVENT_time_alarm).react 0x0E 0 i 0)
  else if r.diag = 0x0F then (if 1 ≤ x ∧ x ≤ 8 then s.keystoneFaultAt (unitOf i) x else s)
  else if r.diag = 0x10 then s.unitFault (unitOf i) 6
  else if r.diag = 0x11 then s.react 0x11 1 i 0
  else if r.diag = 0x12 then
    (if x = 1 then s.react 0x12 4 i 0 else ((s.count 16 0 2).raise F.SAF_EVENT_tmr_corrected).react 0x12 0 i 0)
  else if r.diag = 0x13 then (if i < 8 then s.react 0x13 3 i i else s)
  else if r.diag = 0x14 then
    (if !s.portExists i then s else if x = 1 then s.react 0x14 0 i i else s.react 0x14 2 i i)
  else if r.diag = 0x16 then s.voltageFault i
  else if r.diag = 0x17 then s.overTemp
  else if r.diag = 0x18 then (s.react 0x18 4 i 0).doIf (decide (x = 1)) fun t => { t with stopped := true }
  else if r.diag = 0x06 ∨ r.diag = 0x08 then s.react r.diag 4 i 0
  else if r.diag = 0x19 then
    ((s.setF F.SAF_STATUS_channels_agree 0).raise F.SAF_EVENT_channel_disagree).react 0x19 4 i 0
  else if r.diag = 0x0A ∨ r.diag = 0x0B ∨ r.diag = 0x15 ∨ r.diag = 0x1A then s.react r.diag 0 i 0
  else s

/-- An uncorrectable flit (R19): on a port link the cells it carried are bad; on a conductor link it is a fault of that
Keystone. The rule speaks of cells alone: the model leaves a Meridian frame whose bytes the flit carried as it is (DESIGN CHOICE,
notes/assumptions/66.md). -/
def State.flitErrorAt (s : State) (l : LinkRef) : State :=
  match l with
  | .port k f => (match f with | some i => s.spoilFrame i | none => s).react 0x03 0 k 0
  | .conductor u => s.unitFault u 2

/-! ### The monitor (R298, R299) -/

/-- A reaction has not completed in time: the monitor enters SAFE_HOLD itself. -/
def State.backstop (s : State) : State := (s.setF F.SAF_STATUS_backstop_fired 1).enterSafeHold

/-! ### Alarm outputs (R308) -/

/-- A test of output `u` is written: refused while a test runs, or where it would release an output that must stay asserted. -/
def State.alarmTestStart (s : State) (u : Unit2) : State :=
  let safe := decide (s.dev = .safeHold) || (match u with | .a => s.saf.safeA | .b => s.saf.safeB)
  if s.saf.testing.isSome || (s.alarm u && safe) then s else { s with saf := { s.saf with testing := some u } }

/-- A write of SAF.ALARM_TEST by an armed master: with both bits set it is ignored. -/
def State.alarmTestWrite (s : State) (v : Nat) : State :=
  if v % 4 = 1 then s.alarmTestStart .a else if v % 4 = 2 then s.alarmTestStart .b else s

/-- The 100 µs of a test are over. -/
def State.alarmTestEnd (s : State) : State := s.endTest

/-! ### Votes (R371) and temperature (R303) -/

/-- The background vote of every TMR field. -/
def State.voteAll (s : State) : State :=
  s.each ((s.tmrB.map Prod.fst ++ s.tmrC.map Prod.fst).eraseDups) fun t a => t.voteReg a a

/-- The junction sensors are sampled: the hottest, signed, in units of 2^−4 °C. -/
def State.tempAt (s : State) (t : BitVec 16) : State :=
  let s1 := s.setF F.SAF_TEMP_junction_temp t.toNat
  if 110 * 16 < t.toInt then s1.overTemp else s1

/-! ### LED stream and other balls (R446, R447) -/

/-- PCIE_CLKREQ_N is driven low. -/
def State.clkreqLow (s : State) : Bool := s.domainOn 34

/-- The TRACE balls are held low. -/
def State.traceLow (s : State) : Bool := !s.sec.debug

/-- JTAG answers to BYPASS and SAMPLE/PRELOAD alone. -/
def State.jtagClosed (s : State) : Bool := !s.sec.debug

/-- The stream of 1,024 bits: link_up then activity of each logical port, P511 first; nothing in BOOT and OFF. -/
def State.ledStreamAt (s : State) : State :=
  if s.dev = .boot ∨ s.dev = .off then { s with led := [] }
  else
    let bits := (List.range 512).reverse.flatMap fun p => if s.portExists p then [s.linkUp p, (s.port p).activity] else [false, false]
    let s1 : State := { s with led := bits }
    s1.each ((s1.ports.filter fun e => e.2.activity).map Prod.fst) fun t p => t.setPort p { t.port p with activity := false }

end Sys2Proof.Machine
end

