-- ==== Sys2Proof/Machine/ConductRows.lean ====
section
/-! DEFINITION. Keystones, safety monitor and security unit. -/

namespace Sys2Proof.Machine

/-- CHECKPOINT: a checkpoint interval ends (R279). -/
def execCheckpoint (s : State) : Host.Outcome State Fault Refusal :=
  run (fun s => s.checkpointAt) s

/-- CHECKPOINT_COMMIT: a checkpoint has reached the standby (R281). -/
def execCheckpointCommit (a : CkptArrival) (s : State) : Host.Outcome State Fault Refusal :=
  run (fun s => s.checkpointEnd a.whole a.crcFlits) s

/-- KEYSTONE_FAULT: a detector finds a fault of unit `u` (R283). -/
def execKeystoneFault (u : Unit2) (cause : KeyCause) (s : State) : Host.Outcome State Fault Refusal :=
  run (fun s => s.keystoneFaultAt u (causeCode cause)) s

/-- DEFERRED_INPUT_SERVE: the next deferred input is served (R287). -/
def execDeferredInputServe (s : State) : Host.Outcome State Fault Refusal :=
  run (fun s => s.serveDeferred) s

/-- SELF_TEST_END: the self-test of unit `u` ends (R278). -/
def execSelfTestEnd (u : Unit2) (pass : Bool) (s : State) : Host.Outcome State Fault Refusal :=
  run (fun s => s.selfTest u pass) s

/-- KEYSTONE_SELF_TEST_TIMEOUT: the self-test of unit `u` does not end in 5 ms (R278). -/
def execKeystoneSelfTestTimeout (u : Unit2) (s : State) : Host.Outcome State Fault Refusal :=
  run (fun s => s.selfTest u false) s

/-- FULL_COPY_COMMIT: the full copy reaches the unit that resynchronises (R291). -/
def execFullCopyCommit (s : State) : Host.Outcome State Fault Refusal :=
  run (fun s => s.fullCopyEnd) s

/-- FAULT_REPORT: a diagnostic reports to the safety monitor (R301). -/
def execFaultReport (r : FaultReport) (s : State) : Host.Outcome State Fault Refusal :=
  run (fun s => s.diagnose r) s

/-- BACKSTOP_FIRED: the backstop timer ends (R299). -/
def execBackstopFired (s : State) : Host.Outcome State Fault Refusal :=
  run (fun s => s.backstop) s

/-- CHANNEL_DISAGREE: the monitor channels disagree (R298). -/
def execChannelDisagree (s : State) : Host.Outcome State Fault Refusal :=
  run (fun s => s.diagnose ⟨0x19, 0, 0⟩) s

/-- TMR_VOTE: every triplicated field is voted (R371). -/
def execTmrVote (s : State) : Host.Outcome State Fault Refusal :=
  run (fun s => s.voteAll) s

/-- TEMP_SAMPLE: the junction sensors are sampled (R303). -/
def execTempSample (t : BitVec 16) (s : State) : Host.Outcome State Fault Refusal :=
  run (fun s => s.tempAt t) s

/-- ALARM_TEST_DONE: the 100 µs of an alarm test end (R308). -/
def execAlarmTestDone (s : State) : Host.Outcome State Fault Refusal :=
  run (fun s => s.alarmTestEnd) s

/-- ATTEST_CREDIT_RETURN: an attestation credit returns, up to 64 (R417). -/
def execAttestCreditReturn (s : State) : Host.Outcome State Fault Refusal :=
  run (fun s => { s with sec := { s.sec with credits := min 64 (s.sec.credits + 1) } }) s

/-- RNG_FAIL: an entropy health test fails (R420). None runs while D36 is off. -/
def execRngFail (s : State) : Host.Outcome State Fault Refusal :=
  run (fun s => s.doIf (s.domainOn 36) fun t => (t.rngHealth false).raise F.SEC_EVENT_rng_fail) s

/-- RNG_READY: the start-up health tests pass and the DRBG is instantiated (R420), with D36 on. -/
def execRngReady (s : State) : Host.Outcome State Fault Refusal :=
  run (fun s => s.doIf (s.domainOn 36) fun t => t.rngHealth true) s

end Sys2Proof.Machine
end

