-- ==== Sys2Proof/Machine/FrameRows.lean ====
section
/-! DEFINITION. The way of a frame through the device. -/

namespace Sys2Proof.Machine

/-- The first Meridian frame in the skid buffer of port `p` starts once the MAC is free (R54). -/
def State.skidSend (s : State) (p : Nat) : State :=
  let s1 := s.skidCheck p
  let r := s1.port p
  match r.tx, r.skid with
  | none, t :: rest =>
    let (f, s2) := s1.stampTx p t
    (s2.setPort p { s2.port p with skid := rest }).startTx p f
  | _, _ => s1

/-- FRAME_RECEIVE: the first bytes of a frame reach the ingress MAC of port `p` (R24, R50). -/
def execFrameReceive (p : Nat) (head : List Byte) (s : State) : Host.Outcome State Fault Refusal :=
  run (fun s => s.frameArrive p head) s

/-- SKID_BUFFER_SEND: the Meridian frame waiting in the skid buffer follows the frame ahead (R54). -/
def execSkidBufferSend (p : Nat) (s : State) : Host.Outcome State Fault Refusal :=
  run (fun s => s.skidSend p) s

/-- FRAME_RX_END: the last byte of the frame arriving at port `p` (R199). -/
def execFrameRxEnd (p : Nat) (rest : List Byte) (fcsGood : Bool) (e : RxEnd) (s : State) : Host.Outcome State Fault Refusal :=
  run (fun s => s.frameEnd p rest fcsGood e.pcsError e.mm) s

/-- HEADER_RESOLVE: the next header of a pipeline passes through it (R124). -/
def execHeaderResolve (h : HeaderTake) (s : State) : Host.Outcome State Fault Refusal :=
  run (fun s => s.headerStep h.pipe h.full) s

/-- COPY_ENQUEUE: the next admitted frame of pipeline `n` is expanded into copies (R224). -/
def execCopyEnqueue (n : Nat) (s : State) : Host.Outcome State Fault Refusal :=
  run (fun s => s.expandStep n) s

/-- MIRROR_BUILD: the mirror engine builds its next copy (R228). -/
def execMirrorBuild (s : State) : Host.Outcome State Fault Refusal :=
  run (fun s => s.mirrorBuildAt) s

/-- SELECTION: the scheduler of port `p` selects a queue (R250). -/
def execSelection (p : Nat) (s : State) : Host.Outcome State Fault Refusal :=
  run (fun s => s.select p) s

/-- FRAME_START: the start test at egress MAC `p` (R250). -/
def execFrameStart (p : Nat) (s : State) : Host.Outcome State Fault Refusal :=
  run (fun s => s.frameStartAt p) s

/-- TRANSMIT_END: the last byte leaves port `p` (R256). -/
def execTransmitEnd (p : Nat) (s : State) : Host.Outcome State Fault Refusal :=
  run (fun s => s.transmitEndAt p) s

/-- AGE_HEAD_SCAN: the scanner visits queue `x` (R212). -/
def execAgeHeadScan (x : Nat) (s : State) : Host.Outcome State Fault Refusal :=
  run (fun s => s.ageScan x) s

/-- PREFETCH_READ: an HBM-resident frame of a queue is read ahead (R207). -/
def execPrefetchRead (r : HbmRead) (s : State) : Host.Outcome State Fault Refusal :=
  run (fun s => s.prefetchAt r.queue r.fails) s

/-- SCRUB: the scrubber reads one word (R214, R215). -/
def execScrub (t : ScrubFinding) (s : State) : Host.Outcome State Fault Refusal :=
  run (fun s => s.scrubAt t) s

/-- HBM_RELOCATION_DONE: the retired channel has been copied to the spare (R217). -/
def execHbmRelocationDone (s : State) : Host.Outcome State Fault Refusal :=
  run (fun s => s.relocationDone) s

/-- FRER_RESET_EXPIRY: the scanner finds the reset timer of recovery function `f` expired (R239). -/
def execFrerResetExpiry (f : Nat) (s : State) : Host.Outcome State Fault Refusal :=
  run (fun s => s.frerExpiry f) s

/-- LATENT_TEST: a latent period of recovery function `f` ends (R240). -/
def execLatentTest (f : Nat) (s : State) : Host.Outcome State Fault Refusal :=
  run (fun s => s.frerLatent f) s

end Sys2Proof.Machine
end

