-- ==== Sys2Proof/Machine/RegWrite.lean ====
section
/-! DEFINITION. What the blocks do with register writes (R372 step 6): the bits a write may change now, the actions that a
write starts, and the doorbell page. -/

namespace Sys2Proof.Machine

/-! ### Doorbells (R317) -/

/-- The device reads the ring that a doorbell has opened to it: a command or TX ring its entry at head, and behind a completion ring the
command rings that complete there. -/
def State.bellRead (s : State) (r : Nat) : State :=
  if r < 0x40 then s.readHead r
  else if r < 0x80 then
    if s.entryFree r then s.each ((List.range 64).filter fun c => s.readsHead c && decide (s.compRing c = r)) State.readHead else s
  else if 0xC0 ≤ r ∧ r < 0x100 ∧ s.txStalls r then s.ownStall r
  else s

/-- A doorbell index for ring `r` from its owner: in range it is accepted, and the ring reads on, a stalled one its entry again (R318);
out of range the ring halts. A ring in polling mode ignores it (R319), as does one that is DISABLED or FAULTED. -/
def State.ringBell (s : State) (r idx : Nat) : State :=
  let n := 2 * s.ringSize r
  let span := (idx % n + n - s.ringHead r) % n
  let st := s.getF (F.HIF_RING_STATUS_state r)
  if 0x101 < r ∨ st = 0 ∨ st = 3 ∨ s.getB (F.HIF_RING_CFG_polling r) then s
  else if s.ringSize r < span ∨ span < s.ringSpan r then s.ringFault r 1
  else
    let s1 := (s.setF (F.HIF_RING_TAIL_tail r) (idx % n)).setF (F.HIF_RING_STATUS_state r) 1
    (s1.doIf (decide (r = 0x100 ∧ span ≠ 0)) fun t => t.setF F.HIF_STATUS_event_overflow 0).bellRead r

/-- A write of part of an 8-byte doorbell at `base` by master `m`, for a ring or channel of function `owner` (R317, R366,
R369, R392): access, ownership, arming and domain come first; the high half alone does nothing. -/
def State.bellWrite (s : State) (m base owner : Nat) (part : DoorbellPart) (act : State → State) : State :=
  let a := match part with | .high => base + 4 | _ => base
  if !s.permitted m a 2 || (decide (m < 16) && decide (m ≠ owner)) then s.violation m 1 12 a 0
  else
    let s1 := s.setArmed m false
    if !s1.domainOn 34 then s1.offAccess m a
    else match part with
      | .high => s1
      | _ => act s1

/-- Doorbell of a ring. -/
def State.ringDoorbell (s : State) (m r : Nat) (part : DoorbellPart) (v : BitVec 64) : State :=
  s.bellWrite m (0x100000 + 8 * r) (s.ownerFn r) part fun t => t.ringBell r (v.toNat % 2 ^ 17)

/-- Doorbell of a DMA channel (R346). -/
def State.chDoorbell (s : State) (m c : Nat) (part : DoorbellPart) (v : BitVec 64) : State :=
  s.bellWrite m (0x101000 + 8 * c) (s.getF (F.DMA_CH_CFG_owner_fn c)) part fun t => t.chBell c (v.toNat % 2 ^ 17)

/-! ### Access tables (R367, R374) -/

/-- Target and master of an access-table entry's address. -/
def tableEntry (a : Nat) : Option (Nat × Nat) :=
  if 0xC1000 ≤ a ∧ a < 0xC1000 + 0x80 * 152 ∧ a % 4 = 0 then some ((a - 0xC1000) / 0x80, (a - 0xC1000) % 0x80 / 4) else none

/-- A write of an entry is refused whole. -/
def State.tableRefused (s : State) (t m : Nat) (v : Word) : Bool :=
  let code := fun (k : Nat) => fldOf v (2 * k) 2
  decide (m = 20) || decide (m = 21) || decide (22 ≤ m)
    || (decide (m = 0) && ((decide (t = 0) && decide (code 0 < 2)) || (decide (t = 11) && (List.range 16).any fun k => decide (code k < 2))))
    || (decide (m = 19) && !s.sec.debug && decide (v ≠ 0))

/-- A write of an entry raises table_refused: refused whole, a field changed by an unarmed master, or a reserved code. -/
def State.tableAfter (s : State) (t m : Nat) (armed : Bool) (v : Word) (old : State) : State :=
  let w := old.reg (Addr.ACC_TABLE t m)
  s.raiseIf (decide (t ≠ 15) && (old.tableRefused t m v || (!armed && decide (v ≠ w))
    || (List.range 16).any fun k => decide (fldOf v (2 * k) 2 = 3))) F.ACC_EVENT_table_refused

/-! ### Shapers (R257, R258) -/

/-- Tokens of a bucket after a write to one of its registers: `t` is its level now, `en`/`was` its enable bit after and before. -/
def bucketAfter (t : Bucket) (en was : Bool) (burst : Nat) : Bucket :=
  if en && !was then .full burst else if en then t.upTo burst else t

/-- A TM register has been written: the level so far is kept, an enabled bucket is loaded with its burst. -/
def State.tmAfter (s : State) (a : Nat) (old : State) : State :=
  if 0x520000 ≤ a ∧ a < 0x520000 + 0x10 * 4176 then
    let x := (a - 0x520000) / 0x10
    let t := bucketAfter (old.qTokens x) (s.getB (F.TM_Q_CFG_shaper_en x)) (old.getB (F.TM_Q_CFG_shaper_en x))
      (s.getF (F.TM_Q_BURST_burst x))
    s.setQueue x { s.queue x with tokens := t, stamp := s.now }
  else if 0x510000 ≤ a ∧ a < 0x514000 then
    let p := (a - 0x510000) / 0x20
    let t := bucketAfter (old.pTokens p) (s.getB (F.TM_PORT_CFG_pshaper_en p)) (old.getB (F.TM_PORT_CFG_pshaper_en p))
      (s.getF (F.TM_PSHAPER_BURST_burst p))
    s.setSched p { s.sched p with tokens := t, stamp := s.now }
  else if a = Addr.TM_CPU_CFG ∨ a = Addr.TM_CPU_RATE ∨ a = Addr.TM_CPU_BURST then
    let t := bucketAfter old.cpuTokensNow (s.getB F.TM_CPU_CFG_cpu_shaper_en) (old.getB F.TM_CPU_CFG_cpu_shaper_en)
      (s.getF F.TM_CPU_BURST_burst)
    { s with fab := { s.fab with cpuTokens := t, cpuStamp := s.now } }
  else s

/-! ### Actions -/

/-- EPH registers: a go or a cancel, never both (R108, R109); the crossbar opened by meridian_en ends every connection; gates and
HOLD follow gates_en (R117, R119). -/
def State.ephAfter (s : State) (a : Nat) (armed : Bool) (v : Word) (old : State) : State :=
  if a = Addr.EPH_ACTIVATE then
    let go := decide (fldOf v 0 1 = 1)
    let cancel := decide (fldOf v 3 1 = 1)
    if !armed || (go && cancel) then s
    else if go then
      let sec := s.getF F.EPH_ACT_TIME_SEC_LO_req_sec_lo + s.getF F.EPH_ACT_TIME_SEC_HI_req_sec_hi * 2 ^ 32
      s.actGo (s.getF F.EPH_ACTIVATE_select) (sec * 10 ^ 9 + s.getF F.EPH_ACT_TIME_NS_req_ns)
    else if cancel then s.actCancel else s
  else if a = Addr.EPH_CTRL then
    let s1 := if old.getB F.EPH_CTRL_meridian_en && !s.getB F.EPH_CTRL_meridian_en then s.each (s.ports.map Prod.fst) State.hardEnd
      else s
    if s1.getB F.EPH_CTRL_gates_en != old.getB F.EPH_CTRL_gates_en then s1.applyHolds else s1
  else s

/-- KEY registers (R290, R291). -/
def State.keyAfter (s : State) (a : Nat) (armed : Bool) (v : Word) : State :=
  if a = Addr.KEY_COMMAND then
    if !armed then s
    else (s.doIf (decide (fldOf v 0 1 = 1)) State.forceSwitchAt).doIf (decide (fldOf v 1 1 = 1)) State.resyncAt
  else if a = Addr.KEY_CTRL then (s.autoResync .a).autoResync .b
  else s

/-- A queue or limit register has been written over `w`: the admissions of this core cycle still see what it held before (R220). -/
def State.keepLate (s : State) (a : Nat) (w : Word) : State :=
  let l := if s.fab.lateCfg.1 = s.now then s.fab.lateCfg.2 else []
  if (SMap.get (fun _ => none) a l).isSome then s
  else { s with fab := { s.fab with lateCfg := (s.now, SMap.set (fun _ => none) a (some w) l) } }

/-- BUF registers (R196, R215, R217, R220). -/
def State.bufAfter (s : State) (a : Nat) (armed : Bool) (v : Word) (old : State) : State :=
  if 0x420000 ≤ a then s.keepLate a (old.reg a)
  else if a = Addr.BUF_POOL_APPLY then (if fldOf v 0 1 = 1 then s.poolApplyNow else s)
  else if a = Addr.BUF_HBM_RETIRE then
    (if armed && decide (fldOf v 5 1 = 1) then s.hbmRetireGo (s.getF F.BUF_HBM_RETIRE_channel) else s)
  else if a = Addr.BUF_CTRL then s.scrubAfter
  else s

/-- What a register write leads to. -/
def State.after (s : State) (m a : Nat) (armed : Bool) (v : Word) (old : State) : State :=
  if a = Addr.SYS_UNLOCK then s.setArmed m (decide (fldOf v 0 16 = 0x5AC3))
  else if 0x10000 ≤ a ∧ a < 0x20000 then s.hifAfter a old
  else if 0x30000 ≤ a ∧ a < 0x40000 then s.dmaAfter a v old
  else if a = Addr.PWR_SW_RESET then (if armed && decide (fldOf v 0 1 = 1) then s.askReset 2 else s)
  else if 0x60000 ≤ a ∧ a < 0x70000 then s.keyAfter a armed v
  else if 0x70000 ≤ a ∧ a < 0x80000 then s.trnAfter a armed v
  else if 0x80000 ≤ a ∧ a < 0x90000 then s.ephAfter a armed v old
  else if 0x90000 ≤ a ∧ a < 0xA0000 then s.cntAfter a v old
  else if a = Addr.SAF_ALARM_TEST then (if armed then s.alarmTestWrite v.toNat else s)
  else if 0xC0000 ≤ a ∧ a < 0xD0000 then
    match tableEntry a with
    | some (t, k) => s.tableAfter t k armed v old
    | none => s
  else if a = Addr.PIPE_FRER_RESET 0 then (if armed && decide (fldOf v 15 1 = 1) then
    s.frerReset (s.getF (F.PIPE_FRER_RESET_index 0)) (s.getF (F.PIPE_FRER_RESET_target 0)) else s)
  else if 0x400000 ≤ a ∧ a < 0x500000 then s.bufAfter a armed v old
  else if 0x500000 ≤ a ∧ a < 0x600000 then s.tmAfter a old
  else if 0x1000000 ≤ a then s.portAfter a v old
  else s

/-- Bits of a register that a write may change now. Bits that only start an action read 0 and are never stored. -/
def State.allow (s : State) (m a : Nat) (v : Word) : Word :=
  if a = Addr.SYS_UNLOCK ∨ a = Addr.PWR_SW_RESET ∨ a = Addr.KEY_COMMAND ∨ a = Addr.SAF_ALARM_TEST ∨ a = Addr.TRN_TIME_SET then 0
  else if a = Addr.EPH_ACTIVATE then (if fldOf v 0 1 = 1 ∧ fldOf v 3 1 = 1 then 0 else 0x6)
  else if a = Addr.BUF_HBM_RETIRE then 0x1F
  else if a = Addr.PIPE_FRER_RESET 0 then 0x7FFF
  else if 0x10000 ≤ a ∧ a < 0x20000 then s.hifAllow m a v
  else if 0x30000 ≤ a ∧ a < 0x40000 then s.dmaAllow m a v
  else if 0x94000 ≤ a ∧ a < 0x98000 ∧ a % 8 = 4 then 0
  else if 0xC0000 ≤ a ∧ a < 0xD0000 then
    match tableEntry a with
    | some (t, k) => if t = 15 ∨ s.tableRefused t k v then 0 else 0xFFFFFFFF
    | none => 0xFFFFFFFF
  else if s.part.en ∧ a = Addr.BUF_CTRL then 0x4
  else if s.part.en ∧ a = Addr.PLB_CTRL then 0
  else if 0x400100 ≤ a ∧ a < 0x400300 ∧ a % 0x20 = 0 ∧ (s.part.en ∨ 12 ≤ (a - 0x400100) / 0x20) then 0
  else 0xFFFFFFFF

/-- The rules of all blocks. -/
def blockRules : BlockRules :=
  { allow := fun m a _ v s => s.allow m a v
    after := fun m a armed v old s => s.after m a armed v old }

/-- A register write as a master sends it. The doorbell page holds 8-byte registers (R317): a write that reaches the low half
rings, one of the high half alone does nothing. -/
def State.regWrite (s : State) (m a size : Nat) (v : BitVec 64) : State :=
  if size < 4 then s.raise F.SYS_EVENT_bad_width
  else
    let part : DoorbellPart := if size = 8 then .whole else if a % 8 = 4 then .high else .low
    if 0x100000 ≤ a ∧ a < 0x100000 + 8 * 0x102 then s.ringDoorbell m ((a - 0x100000) / 8) part v
    else if 0x101000 ≤ a ∧ a < 0x101000 + 8 * 32 then s.chDoorbell m ((a - 0x101000) / 8) part v
    else s.writeBytes blockRules m a size v

/-- A 4-byte write of a register. -/
def State.regWord (s : State) (m a : Nat) (v : Word) : State := s.writeWord blockRules m a v

end Sys2Proof.Machine
end

