-- ==== Sys2Proof/Machine/HostRows.lean ====
section
/-! DEFINITION. The host link: rings, interrupts, DMA, function resets, snapshots. -/

namespace Sys2Proof.Machine

/-- The device reads entries of ring `r` that it then writes: own in polling mode, the buffers' addresses of RX and dump rings in either
mode (R319, R338). -/
def State.devReads (s : State) (r : Nat) : Bool :=
  decide (0x40 ≤ r) && decide (r < 0xC0 ∨ 0x100 ≤ r) && s.ringRuns r
    && (s.getB (F.HIF_RING_CFG_polling r) || decide (0x80 ≤ r ∧ r < 0xC0) || decide (r = 0x101))

/-- A polling ring reads the entry at its head (R319). Completion, RX, event and dump rings are read when the device has an
entry to write; an error of such a read halts the ring (R320, notes/assumptions/73.md). -/
def State.pollAt (s : State) (r : Nat) (readErr : Bool) : State :=
  if readErr && s.devReads r then s.ringFault r 2
  else if !s.getB (F.HIF_RING_CFG_polling r) then s
  else if r < 0x40 then
    let (op, d) := s.headDesc r
    s.takeCommand (cmdOf op) op { d with ringErr := readErr }
  else if 0xC0 ≤ r ∧ r < 0x100 then s.txServe r readErr
  else s

/-- Programmable counter `k` at 0xFFFF_FFFF takes its next increment: by its own source, or by the carry of the counter it
is chained to (R379, R381). -/
def State.pcWrap (s : State) (k : Nat) : State :=
  let full := fun (n : Nat) => s.ctr (ctrKey 26 n 0) = 0xFFFFFFFF
  let counts := fun (n : Nat) => s.pcOn.contains n && s.pcLive n
  if !decide (full k) then s
  else if s.pcChained k then (if full (k - 1) && counts (k - 1) then s.pcIncr (k - 1) 2 else s)
  else if counts k then s.pcIncr k 2
  else s

/-- POLL: the poll interval of a polling ring ends (R319): a command or TX ring reads the entry at head. -/
def execPoll (r : Nat) (readErr : Bool) (s : State) : Host.Outcome State Fault Refusal :=
  run (fun s => s.pollAt r readErr) s

/-- MOD_TIME_EXPIRY: the moderation time of ring `r` ends (R326). -/
def execModTimeExpiry (r : Nat) (s : State) : Host.Outcome State Fault Refusal :=
  run (fun s => s.modExpiry r) s

/-- DMA_DESCRIPTOR: channel `c` reads and checks its next descriptor (R350). -/
def execDmaDescriptor (c : Nat) (readErr : Bool) (s : State) : Host.Outcome State Fault Refusal :=
  run (fun s => s.dmaDescriptor c readErr) s

/-- BEAT_ANSWER: the answer to the oldest read request of channel `c` (R352). -/
def execBeatAnswer (c : Nat) (a : BeatAnswer) (s : State) : Host.Outcome State Fault Refusal :=
  run (fun s => s.dmaAnswer c a) s

/-- DMA_BEAT_ISSUE: the engine issues the next beat of the channel it serves (R351). -/
def execDmaBeatIssue (s : State) : Host.Outcome State Fault Refusal :=
  run (fun s => s.dmaIssue) s

/-- FLR: a function-level reset of function `f` (R314). -/
def execFlr (f : Nat) (s : State) : Host.Outcome State Fault Refusal :=
  run (fun s => s.flrAt f) s

/-- HOT_RESET: a hot reset, PCIE_PERST_N or loss of the host link (R314). -/
def execHotReset (s : State) : Host.Outcome State Fault Refusal :=
  run (fun s => s.hotResetAt) s

/-- HOST_LINK_UP: the host link has trained (R313). -/
def execHostLinkUp (speed : Nat) (width : Nat) (s : State) : Host.Outcome State Fault Refusal :=
  run (fun s => s.linkTrained speed width) s

/-- CPU_RX_DELIVERY: a selected CPU-port copy goes to its RX ring (R338). -/
def execCpuRxDelivery (s : State) : Host.Outcome State Fault Refusal :=
  run (fun s => s.cpuRx) s

/-- CPU_TX: a frame's descriptor chain of TX ring `r` is served (R336). -/
def execCpuTx (r : Nat) (readErr : Bool) (s : State) : Host.Outcome State Fault Refusal :=
  run (fun s => s.txServe r readErr) s

/-- PERIODIC_LATCH: a periodic snapshot latch is due (R384). -/
def execPeriodicLatch (s : State) : Host.Outcome State Fault Refusal :=
  run (fun s => s.periodicAt) s

/-- DUMP_RECORD_WRITE: the snapshot record is written to its ring, or skipped (R383). -/
def execDumpRecordWrite (s : State) : Host.Outcome State Fault Refusal :=
  run (fun s => s.dumpWrite) s

/-- PC_OVERFLOW: programmable counter `k` wraps (R381): its next increment at 0xFFFF_FFFF. -/
def execPcOverflow (k : Nat) (s : State) : Host.Outcome State Fault Refusal :=
  run (fun s => s.pcWrap k) s

end Sys2Proof.Machine
end

