-- ==== Sys2Proof/Machine/LearnRows.lean ====
section
/-! DEFINITION. The learn bus and the background checks of the tables. -/

namespace Sys2Proof.Machine

/-- LEARN_GRANT: a grant slot of the learn bus (R164). -/
def execLearnGrant (s : State) : Host.Outcome State Fault Refusal :=
  run (fun s => s.grantSlot) s

/-- LEARN: pipeline `n` applies a LEARN event (R168). -/
def execLearn (n : Nat) (s : State) : Host.Outcome State Fault Refusal :=
  run (fun s => s.learnAt n) s

/-- REFRESH: pipeline `n` applies a REFRESH event (R173). -/
def execRefresh (n : Nat) (s : State) : Host.Outcome State Fault Refusal :=
  run (fun s => s.refreshAt n) s

/-- SWEEP: pipeline `n` applies a SWEEP event (R173). -/
def execSweep (n : Nat) (s : State) : Host.Outcome State Fault Refusal :=
  run (fun s => s.sweepAt n) s

/-- SWEEP_ISSUE: the Keystone issues a SWEEP, while age_time is not 0 (R165). -/
def execSweepIssue (s : State) : Host.Outcome State Fault Refusal :=
  run (fun s => if s.getF (F.PIPE_LRN_GLOBAL_age_time 0) = 0 then s else s.issueCtl .sweep) s

/-- EPOCH: pipeline `n` applies an EPOCH event (R172). -/
def execEpoch (n : Nat) (s : State) : Host.Outcome State Fault Refusal :=
  run (fun s => s.epochAt n) s

/-- EPOCH_ISSUE: the Keystone issues an EPOCH (R165). -/
def execEpochIssue (s : State) : Host.Outcome State Fault Refusal :=
  run (fun s => s.issueCtl .epoch) s

/-- FLUSH: pipeline `n` applies a FLUSH event (R175). -/
def execFlush (n : Nat) (s : State) : Host.Outcome State Fault Refusal :=
  run (fun s => s.flushAt n) s

/-- FLUSH_PASS_END: the flush pass of pipeline `n` ends (R175). -/
def execFlushPassEnd (n : Nat) (s : State) : Host.Outcome State Fault Refusal :=
  run (fun s => s.flushEnd n) s

/-- STATIC_ADD: pipeline `n` applies a STATIC_ADD event (R170). -/
def execStaticAdd (n : Nat) (s : State) : Host.Outcome State Fault Refusal :=
  run (fun s => s.staticAddAt n) s

/-- STATIC_MASK: pipeline `n` applies a STATIC_MASK event (R170). -/
def execStaticMask (n : Nat) (s : State) : Host.Outcome State Fault Refusal :=
  run (fun s => s.staticMaskAt n) s

/-- STATIC_DEL: pipeline `n` applies a STATIC_DEL event (R170). -/
def execStaticDel (n : Nat) (s : State) : Host.Outcome State Fault Refusal :=
  run (fun s => s.staticDelAt n) s

/-- TABLE_CHECK: a bucket is checked in the background (R179). -/
def execTableCheck (t : TableRef) (s : State) : Host.Outcome State Fault Refusal :=
  run (fun s => s.tableCheckAt t) s

/-- TCAM_CHECK: a TCAM entry is checked against the entry store (R185). -/
def execTcamCheck (g : Nat) (s : State) : Host.Outcome State Fault Refusal :=
  run (fun s => s.tcamCheckAt g) s

/-- DRAIN_END: no frame uses the previous bank any more (R150). -/
def execDrainEnd (s : State) : Host.Outcome State Fault Refusal :=
  run (fun s => s.drainEnd) s

end Sys2Proof.Machine
end

