-- ==== Sys2Proof/Machine/PortRows.lean ====
section
/-! DEFINITION. Ports, macros and links. -/

namespace Sys2Proof.Machine

/-- APPLY_DONE: the lanes of macro `mac` have relocked after an apply (R46). -/
def execApplyDone (mac : Nat) (s : State) : Host.Outcome State Fault Refusal :=
  run (fun s => s.applyDoneAt mac) s

/-- FLOW_CONTROL_RECEIVE: a frame with EtherType 0x8808 at port `p` (R55, R56). -/
def execFlowControlReceive (p : Nat) (bytes : List Byte) (fcsGood : Bool) (s : State) : Host.Outcome State Fault Refusal :=
  run (fun s => s.flowControlRx p bytes fcsGood) s

/-- PAUSE_TIMER_EXPIRY: the pause timer of priority `i` ends (R56). -/
def execPauseTimerExpiry (p : Nat) (i : Nat) (s : State) : Host.Outcome State Fault Refusal :=
  run (fun s => s.pauseExpiry p i) s

/-- PAUSE_WD_BREAK: the watchdog breaks the pause of priority `i` (R61). -/
def execPauseWdBreak (p : Nat) (i : Nat) (s : State) : Host.Outcome State Fault Refusal :=
  run (fun s => s.wdBreak p i) s

/-- WD_RECOVERY_END: the recovery window of priority `i` ends (R61). -/
def execWdRecoveryEnd (p : Nat) (i : Nat) (s : State) : Host.Outcome State Fault Refusal :=
  run (fun s => s.wdEnd p i) s

/-- BACK_PRESSURE_ASSERT: class `i` of port `p` comes under back-pressure (R205). -/
def execBackPressureAssert (p : Nat) (i : Nat) (s : State) : Host.Outcome State Fault Refusal :=
  run (fun s => s.bpSet p i true) s

/-- BACK_PRESSURE_RELEASE: class `i` of port `p` leaves back-pressure (R205). -/
def execBackPressureRelease (p : Nat) (i : Nat) (s : State) : Host.Outcome State Fault Refusal :=
  run (fun s => s.bpSet p i false) s

/-- FC_REFRESH: the refresh interval of class `i` ends (R58). -/
def execFcRefresh (p : Nat) (i : Nat) (s : State) : Host.Outcome State Fault Refusal :=
  run (fun s => s.fcRefreshAt p i) s

/-- FC_FRAME_SEND: a due flow-control frame starts (R59). -/
def execFcFrameSend (p : Nat) (s : State) : Host.Outcome State Fault Refusal :=
  run (fun s => s.fcSend p) s

/-- VERIFY_TIMER: verify_time ends (R62). -/
def execVerifyTimer (p : Nat) (s : State) : Host.Outcome State Fault Refusal :=
  run (fun s => s.verifyTick p) s

/-- MPACKET_RECEIVE: a verify, a respond or a faulty mPacket arrives (R62). -/
def execMpacketReceive (p : Nat) (k : MPacket) (s : State) : Host.Outcome State Fault Refusal :=
  run (fun s => s.mpacketRx p k) s

/-- LPI_ENTRY: tx_lpi_idle passes with nothing to send (R64). -/
def execLpiEntry (p : Nat) (s : State) : Host.Outcome State Fault Refusal :=
  run (fun s => s.lpiEnter p) s

/-- RX_LPI: the link partner enters or leaves Low Power Idle (R64). -/
def execRxLpi (p : Nat) (enter : Bool) (s : State) : Host.Outcome State Fault Refusal :=
  run (fun s => s.rxLpiAt p enter) s

/-- WAKE_DETECT: the wake detector of lane `lane` of macro `mac` fires (R66). -/
def execWakeDetect (mac : Nat) (lane : Nat) (s : State) : Host.Outcome State Fault Refusal :=
  run (fun s => s.wakeAt mac lane) s

/-- LINK_UP: sub-port `p` has PCS lock and alignment (R46). -/
def execLinkUp (p : Nat) (s : State) : Host.Outcome State Fault Refusal :=
  run (fun s => s.linkUpAt p) s

/-- LINK_DOWN: sub-port `p` loses its link (R46, R211). -/
def execLinkDown (p : Nat) (s : State) : Host.Outcome State Fault Refusal :=
  run (fun s => s.linkDownAt p) s

/-- AN_FAIL: auto-negotiation or training of sub-port `p` fails (R42). -/
def execAnFail (p : Nat) (s : State) : Host.Outcome State Fault Refusal :=
  run (fun s => s.anFailAt p) s

/-- AN_DONE: auto-negotiation of sub-port `p` completes (R41). -/
def execAnDone (p : Nat) (ability : Nat) (fec : FecPage) (eee : Bool) (s : State) : Host.Outcome State Fault Refusal :=
  run (fun s => s.anDoneAt p ability fec eee) s

/-- REF_CLOCK_LOSS: reference input `k` is lost (R35). -/
def execRefClockLoss (k : Nat) (s : State) : Host.Outcome State Fault Refusal :=
  run (fun s => s.refLoss k) s

/-- REF_CLOCK_RELOCK: the lanes of the chiplet of reference `k` relock (R451). -/
def execRefClockRelock (k : Nat) (s : State) : Host.Outcome State Fault Refusal :=
  run (fun s => s.refRelock k) s

/-- FLIT_ERROR: a flit that cannot be corrected (R19). -/
def execFlitError (l : LinkRef) (s : State) : Host.Outcome State Fault Refusal :=
  run (fun s => s.flitErrorAt l) s

/-- LED_STREAM: the LED stream is shifted out (R446). -/
def execLedStream (s : State) : Host.Outcome State Fault Refusal :=
  run (fun s => s.ledStreamAt) s

end Sys2Proof.Machine
end

