-- ==== Sys2Proof/Machine/PowerRows.lean ====
section
/-! DEFINITION. Power, reset, parking and Plumb. -/

namespace Sys2Proof.Machine

/-- LEAVE_TIMEOUT: leave_timeout of a queued request ends (R393). -/
def execLeaveTimeout (s : State) : Host.Outcome State Fault Refusal :=
  run (fun s => s.leaveExpired) s

/-- LEAVE_RETURN: leave or a domain's power returns to the ledger (R395). -/
def execLeaveReturn (q : LeaveReturn) (s : State) : Host.Outcome State Fault Refusal :=
  run (fun s => s.leaveReturnAt q) s

/-- DOMAIN_POWER_UP_DONE: the power-up of domain `dom` completes (R390). -/
def execDomainPowerUpDone (dom : Nat) (pass : Bool) (s : State) : Host.Outcome State Fault Refusal :=
  run (fun s => s.powerUpEnd dom pass) s

/-- HBM_TRAINING_DONE: the training of an HBM stack completes (R390). -/
def execHbmTrainingDone (stack : Nat) (s : State) : Host.Outcome State Fault Refusal :=
  run (fun s => s.hbmTrained stack) s

/-- PWRON_RST_N: PWRON_RST_N is asserted (R397). -/
def execPwronRstN (s : State) : Host.Outcome State Fault Refusal :=
  runReset (fun s => s.powerOnReset) s

/-- PWRON_RST_N_RELEASE: PWRON_RST_N is released (R445). -/
def execPwronRstNRelease (straps : BitVec 16) (s : State) : Host.Outcome State Fault Refusal :=
  run (fun s => s.release_ straps) s

/-- SYS_RST_N: SYS_RST_N is asserted (R397). -/
def execSysRstN (s : State) : Host.Outcome State Fault Refusal :=
  run (fun s => s.askReset 1) s

/-- PARK_DRAIN_END: park_drain ends (R401). -/
def execParkDrainEnd (s : State) : Host.Outcome State Fault Refusal :=
  run (fun s => s.parkDrained) s

/-- PLUMB_STEP: the next native Plumb step starts (R425). -/
def execPlumbStep (s : State) : Host.Outcome State Fault Refusal :=
  run (fun s => s.plumbStepAt) s

/-- PLUMB_STEP_END: a Plumb step ends (R427): the boot-time or native step named, or with its last step, 5, a group test. -/
def execPlumbStepEnd (fails : List NetFail) (step : Nat) (s : State) : Host.Outcome State Fault Refusal :=
  run (fun s => s.plumbStepEndAt fails step) s

end Sys2Proof.Machine
end

