-- ==== Sys2Proof/Machine/RegisterRows.lean ====
section
/-! DEFINITION. Register accesses with a rule of their own. Each is a 4-byte write (R362) by master `m` of the register the row
names, or a read of it; what the write leads to stands in Machine/RegWrite.lean. -/

namespace Sys2Proof.Machine

/-- APPLY: a write of PORT.APPLY of macro `mac` (R44). -/
def execApply (m : Nat) (mac : Nat) (v : Word) (s : State) : Host.Outcome State Fault Refusal :=
  run (fun s => s.regWord m (Addr.PORT_APPLY mac) v) s

/-- POOL_APPLY: a write of BUF.POOL_APPLY (R196). -/
def execPoolApply (m : Nat) (v : Word) (s : State) : Host.Outcome State Fault Refusal :=
  run (fun s => s.regWord m Addr.BUF_POOL_APPLY v) s

/-- HBM_RETIRE: a write of BUF.HBM_RETIRE (R217). -/
def execHbmRetire (m : Nat) (v : Word) (s : State) : Host.Outcome State Fault Refusal :=
  run (fun s => s.regWord m Addr.BUF_HBM_RETIRE v) s

/-- EPH_ACTIVATE_GO: a write of EPH.ACTIVATE with go (R108). -/
def execEphActivateGo (m : Nat) (v : Word) (s : State) : Host.Outcome State Fault Refusal :=
  run (fun s => s.regWord m Addr.EPH_ACTIVATE v) s

/-- EPH_ACTIVATE_CANCEL: a write of EPH.ACTIVATE with cancel (R109). -/
def execEphActivateCancel (m : Nat) (v : Word) (s : State) : Host.Outcome State Fault Refusal :=
  run (fun s => s.regWord m Addr.EPH_ACTIVATE v) s

/-- TIME_SET: a write of TRN.TIME_SET (R71). -/
def execTimeSet (m : Nat) (v : Word) (s : State) : Host.Outcome State Fault Refusal :=
  run (fun s => s.regWord m Addr.TRN_TIME_SET v) s

/-- RATE_BASE_WRITE: a write of half of TRN.RATE_BASE, the upper when `hi` (R70). -/
def execRateBaseWrite (m : Nat) (hi : Bool) (v : Word) (s : State) : Host.Outcome State Fault Refusal :=
  run (fun s => s.regWord m (if hi then Addr.TRN_RATE_BASE_HI else Addr.TRN_RATE_BASE_LO) v) s

/-- OFFSET_SUBMIT: a write of TRN.OFFSET_HI (R79). -/
def execOffsetSubmit (m : Nat) (v : Word) (s : State) : Host.Outcome State Fault Refusal :=
  run (fun s => s.regWord m Addr.TRN_OFFSET_HI v) s

/-- SERVO_ENABLE: a write of TRN.CTRL with servo_enable (R80). -/
def execServoEnable (m : Nat) (v : Word) (s : State) : Host.Outcome State Fault Refusal :=
  run (fun s => s.regWord m Addr.TRN_CTRL v) s

/-- SERVO_DISABLE: a write of TRN.CTRL without servo_enable (R80). -/
def execServoDisable (m : Nat) (v : Word) (s : State) : Host.Outcome State Fault Refusal :=
  run (fun s => s.regWord m Addr.TRN_CTRL v) s

/-- HOLD: a write of TRN.CTRL with hold (R81). -/
def execHold (m : Nat) (v : Word) (s : State) : Host.Outcome State Fault Refusal :=
  run (fun s => s.regWord m Addr.TRN_CTRL v) s

/-- HOLD_RELEASE: a write of TRN.CTRL without hold (R81). -/
def execHoldRelease (m : Nat) (v : Word) (s : State) : Host.Outcome State Fault Refusal :=
  run (fun s => s.regWord m Addr.TRN_CTRL v) s

/-- TIME_CAPTURE: a write of TRN.TIME_CAPTURE (R84). -/
def execTimeCapture (m : Nat) (v : Word) (s : State) : Host.Outcome State Fault Refusal :=
  run (fun s => s.regWord m Addr.TRN_TIME_CAPTURE v) s

/-- FORCE_SWITCH: a write of KEY.COMMAND with force_switch (R290). -/
def execForceSwitch (m : Nat) (v : Word) (s : State) : Host.Outcome State Fault Refusal :=
  run (fun s => s.regWord m Addr.KEY_COMMAND v) s

/-- RESYNC: a write of KEY.COMMAND with resync (R291). -/
def execResync (m : Nat) (v : Word) (s : State) : Host.Outcome State Fault Refusal :=
  run (fun s => s.regWord m Addr.KEY_COMMAND v) s

/-- ALARM_TEST: a write of SAF.ALARM_TEST (R308). -/
def execAlarmTest (m : Nat) (v : Word) (s : State) : Host.Outcome State Fault Refusal :=
  run (fun s => s.regWord m Addr.SAF_ALARM_TEST v) s

/-- ALARM_RELEASE: a write of SAF.CTRL (R308). -/
def execAlarmRelease (m : Nat) (v : Word) (s : State) : Host.Outcome State Fault Refusal :=
  run (fun s => s.regWord m Addr.SAF_CTRL v) s

/-- SOFTWARE_RESET: a write of PWR.SW_RESET (R397). -/
def execSoftwareReset (m : Nat) (v : Word) (s : State) : Host.Outcome State Fault Refusal :=
  run (fun s => s.regWord m Addr.PWR_SW_RESET v) s

/-- UNLOCK: a write of SYS.UNLOCK (R369). -/
def execUnlock (m : Nat) (v : Word) (s : State) : Host.Outcome State Fault Refusal :=
  run (fun s => s.regWord m Addr.SYS_UNLOCK v) s

/-- UNLOCK_TIMEOUT: the arming of master `m` ends unused (R369). -/
def execUnlockTimeout (m : Nat) (s : State) : Host.Outcome State Fault Refusal :=
  run (fun s => s.setArmed m false) s

/-- SQC_CLEAR: a write to a sequence-cleared register (R368). -/
def execSqcClear (m : Nat) (addr : Nat) (v : Word) (s : State) : Host.Outcome State Fault Refusal :=
  run (fun s => s.regWord m addr v) s

/-- SQC_READ: a 4-byte read of a sequence-cleared register (R368). -/
def execSqcRead (m : Nat) (addr : Nat) (s : State) : Host.Outcome State Fault Refusal :=
  run (fun s => s.readBytes m addr 4) s

/-- RANDOM_READ: a 4-byte read of SEC.RANDOM (R420). -/
def execRandomRead (m : Nat) (s : State) : Host.Outcome State Fault Refusal :=
  run (fun s => s.readBytes m Addr.SEC_RANDOM 4) s

/-- COUNTER_CAPTURE: a write of CNT.RD_ADDR (R378). -/
def execCounterCapture (m : Nat) (v : Word) (s : State) : Host.Outcome State Fault Refusal :=
  run (fun s => s.regWord m Addr.CNT_RD_ADDR v) s

/-- PC_CFG_WRITE: a write of CNT.PC_CFG of counter `k` (R380). -/
def execPcCfgWrite (m : Nat) (k : Nat) (v : Word) (s : State) : Host.Outcome State Fault Refusal :=
  run (fun s => s.regWord m (Addr.CNT_PC_CFG k) v) s

/-- PC_VAL_WRITE: a write of CNT.PC_VAL of counter `k` (R380). -/
def execPcValWrite (m : Nat) (k : Nat) (v : Word) (s : State) : Host.Outcome State Fault Refusal :=
  run (fun s => s.regWord m (Addr.CNT_PC_VAL k) v) s

/-- DUMP_MODE_WRITE: a write of the register of CNT that paces snapshots (R384). -/
def execDumpModeWrite (m : Nat) (r : DumpReg) (v : Word) (s : State) : Host.Outcome State Fault Refusal :=
  run (fun s => s.regWord m (match r with | .ctrl => Addr.CNT_CTRL | .everyN => Addr.CNT_DUMP_EVERY_N | .interval => Addr.CNT_DUMP_INTERVAL) v) s

/-- FRER_RESET: a write of PIPE.FRER_RESET through the block of pipeline `pipe` (R239). -/
def execFrerReset (m : Nat) (pipe : Nat) (v : Word) (s : State) : Host.Outcome State Fault Refusal :=
  run (fun s => s.regWord m (Addr.PIPE_FRER_RESET pipe) v) s

/-- SCRUB_FAST: a write of BUF.CTRL (R215). -/
def execScrubFast (m : Nat) (v : Word) (s : State) : Host.Outcome State Fault Refusal :=
  run (fun s => s.regWord m Addr.BUF_CTRL v) s

/-- SHAPER_ENABLE: a write of the register that holds a shaper's enable bit (R258). -/
def execShaperEnable (m : Nat) (sh : ShaperRef) (v : Word) (s : State) : Host.Outcome State Fault Refusal :=
  run (fun s => s.regWord m (match sh with | .queue x => Addr.TM_Q_CFG x | .port p => Addr.TM_PORT_CFG p | .cpu => Addr.TM_CPU_CFG) v) s

/-- ACC_TABLE_WRITE: a write of the access table entry of master `e` at target `t` (R374). -/
def execAccTableWrite (m : Nat) (t : Nat) (e : Nat) (v : Word) (s : State) : Host.Outcome State Fault Refusal :=
  run (fun s => s.regWord m (Addr.ACC_TABLE t e) v) s

/-- RING_ENABLE: a write of HIF.RING_CFG of ring `r` with enable (R320). -/
def execRingEnable (m : Nat) (r : Nat) (v : Word) (s : State) : Host.Outcome State Fault Refusal :=
  run (fun s => s.regWord m (Addr.HIF_RING_CFG r) v) s

/-- RING_DISABLE: a write of HIF.RING_CFG of ring `r` without enable (R320). -/
def execRingDisable (m : Nat) (r : Nat) (v : Word) (s : State) : Host.Outcome State Fault Refusal :=
  run (fun s => s.regWord m (Addr.HIF_RING_CFG r) v) s

/-- DOORBELL: a write of the doorbell of ring `r` (R317). -/
def execDoorbell (m : Nat) (r : Nat) (part : DoorbellPart) (v : BitVec 64) (s : State) : Host.Outcome State Fault Refusal :=
  run (fun s => s.ringDoorbell m r part v) s

/-- CHANNEL_ENABLE: a write of DMA.CH_CFG of channel `c` with enable (R347). -/
def execChannelEnable (m : Nat) (c : Nat) (v : Word) (s : State) : Host.Outcome State Fault Refusal :=
  run (fun s => s.regWord m (Addr.DMA_CH_CFG c) v) s

/-- CHANNEL_DISABLE: a write of DMA.CH_CFG of channel `c` without enable (R357). -/
def execChannelDisable (m : Nat) (c : Nat) (v : Word) (s : State) : Host.Outcome State Fault Refusal :=
  run (fun s => s.regWord m (Addr.DMA_CH_CFG c) v) s

/-- RESTART: a write of DMA.CH_CTRL of channel `c` (R357). -/
def execRestart (m : Nat) (c : Nat) (v : Word) (s : State) : Host.Outcome State Fault Refusal :=
  run (fun s => s.regWord m (Addr.DMA_CH_CTRL c) v) s

/-- DMA_DOORBELL: a write of the doorbell of channel `c` (R346). -/
def execDmaDoorbell (m : Nat) (c : Nat) (part : DoorbellPart) (v : BitVec 64) (s : State) : Host.Outcome State Fault Refusal :=
  run (fun s => s.chDoorbell m c part v) s

/-- REGISTER_WRITE: a write of `size` bytes at any address (R362, R372). -/
def execRegisterWrite (m : Nat) (addr : Nat) (size : Nat) (v : BitVec 64) (s : State) : Host.Outcome State Fault Refusal :=
  run (fun s => s.regWrite m addr size v) s

/-- REGISTER_READ: a read of `size` bytes at any address (R362, R366, R371, R392). -/
def execRegisterRead (m : Nat) (addr : Nat) (size : Nat) (s : State) : Host.Outcome State Fault Refusal :=
  run (fun s => s.readBytes m addr size) s

end Sys2Proof.Machine
end

