-- ==== Sys2Proof/Machine/TimeRows.lean ====
section
/-! DEFINITION. Time (R69 to R91) and the Ephemeris (R92 to R121). -/

namespace Sys2Proof.Machine

/-- TIME_SET_EFFECT: the 64 core cycles after TIME_SET have passed (R71). -/
def execTimeSetEffect (s : State) : Host.Outcome State Fault Refusal :=
  run (fun s => s.setEffect) s

/-- PPS_IN_EDGE: an edge at TIME_1PPS_IN (R79). -/
def execPpsInEdge (s : State) : Host.Outcome State Fault Refusal :=
  run (fun s => s.ppsIn) s

/-- PPS_IN_MISSING: 1.1 s without an edge at TIME_1PPS_IN (R89). -/
def execPpsInMissing (s : State) : Host.Outcome State Fault Refusal :=
  run (fun s => s.ppsMissing) s

/-- PPS_OUT_EDGE: the counter passes a whole second plus pps_out_offset (R90). -/
def execPpsOutEdge (s : State) : Host.Outcome State Fault Refusal :=
  run (fun s => s.ppsOut) s

/-- HOLDOVER_TIMEOUT: holdover_timeout without an accepted offset (R80). -/
def execHoldoverTimeout (s : State) : Host.Outcome State Fault Refusal :=
  run (fun s => s.holdTimeout) s

/-- TIME_10M_IN_MEASURE: a second of comparing TIME_10M_IN ends (R89). -/
def execTime10mInMeasure (offset : Int) (inRange : Bool) (s : State) : Host.Outcome State Fault Refusal :=
  run (fun s => s.measure10M offset inRange) s

/-- SLOT_BOUNDARY: the flywheel fires the next slot boundary (R100). -/
def execSlotBoundary (s : State) : Host.Outcome State Fault Refusal :=
  run (fun s => s.slotFires) s

/-- BANK_SWITCH: the armed effective time comes (R107). -/
def execBankSwitch (s : State) : Host.Outcome State Fault Refusal :=
  run (fun s => s.bankSwitchNow) s

/-- CYCLE_REF_EDGE: an edge at CYCLE_REF_IN (R103). -/
def execCycleRefEdge (s : State) : Host.Outcome State Fault Refusal :=
  run (fun s => s.refEdge) s

/-- REF_MISSING: ref_max without a cycle start (R106). -/
def execRefMissing (s : State) : Host.Outcome State Fault Refusal :=
  run (fun s => s.refMissing) s

end Sys2Proof.Machine
end

