-- ==== Sys2Proof/Machine/Dispatch.lean ====
section
/-! DEFINITION. What each command does: one arm per row of the opcode table. -/

namespace Sys2Proof.Machine

def exec (i : Instr) (s : State) : Host.Outcome State Fault Refusal :=
  match i with
  | .openInterface d => Sys2Proof.Machine.execOpenInterface d s
  | .closeInterface d => Sys2Proof.Machine.execCloseInterface d s
  | .nop d => Sys2Proof.Machine.execNop d s
  | .getState d => Sys2Proof.Machine.execGetState d s
  | .loadAshlar d => Sys2Proof.Machine.execLoadAshlar d s
  | .patchAshlar d => Sys2Proof.Machine.execPatchAshlar d s
  | .loadEphemeris d => Sys2Proof.Machine.execLoadEphemeris d s
  | .activate d => Sys2Proof.Machine.execActivate d s
  | .cancelActivate d => Sys2Proof.Machine.execCancelActivate d s
  | .tableRead d => Sys2Proof.Machine.execTableRead d s
  | .tableFlush d => Sys2Proof.Machine.execTableFlush d s
  | .readFaultRecord d => Sys2Proof.Machine.execReadFaultRecord d s
  | .readLog d => Sys2Proof.Machine.execReadLog d s
  | .setPowerBudget d => Sys2Proof.Machine.execSetPowerBudget d s
  | .powerDomain d => Sys2Proof.Machine.execPowerDomain d s
  | .park d => Sys2Proof.Machine.execPark d s
  | .attest d => Sys2Proof.Machine.execAttest d s
  | .runBundle d => Sys2Proof.Machine.execRunBundle d s
  | .fwUpdate d => Sys2Proof.Machine.execFwUpdate d s
  | .plumbGroup d => Sys2Proof.Machine.execPlumbGroup d s
  | .counterSnapshot d => Sys2Proof.Machine.execCounterSnapshot d s
  | .apply m mac v => Sys2Proof.Machine.execApply m mac v s
  | .applyDone mac => Sys2Proof.Machine.execApplyDone mac s
  | .poolApply m v => Sys2Proof.Machine.execPoolApply m v s
  | .hbmRetire m v => Sys2Proof.Machine.execHbmRetire m v s
  | .hbmRelocationDone => Sys2Proof.Machine.execHbmRelocationDone s
  | .ephActivateGo m v => Sys2Proof.Machine.execEphActivateGo m v s
  | .ephActivateCancel m v => Sys2Proof.Machine.execEphActivateCancel m v s
  | .timeSet m v => Sys2Proof.Machine.execTimeSet m v s
  | .timeSetEffect => Sys2Proof.Machine.execTimeSetEffect s
  | .rateBaseWrite m hi v => Sys2Proof.Machine.execRateBaseWrite m hi v s
  | .offsetSubmit m v => Sys2Proof.Machine.execOffsetSubmit m v s
  | .ppsInEdge => Sys2Proof.Machine.execPpsInEdge s
  | .ppsInMissing => Sys2Proof.Machine.execPpsInMissing s
  | .ppsOutEdge => Sys2Proof.Machine.execPpsOutEdge s
  | .servoEnable m v => Sys2Proof.Machine.execServoEnable m v s
  | .servoDisable m v => Sys2Proof.Machine.execServoDisable m v s
  | .hold m v => Sys2Proof.Machine.execHold m v s
  | .holdRelease m v => Sys2Proof.Machine.execHoldRelease m v s
  | .holdoverTimeout => Sys2Proof.Machine.execHoldoverTimeout s
  | .timeCapture m v => Sys2Proof.Machine.execTimeCapture m v s
  | .forceSwitch m v => Sys2Proof.Machine.execForceSwitch m v s
  | .resync m v => Sys2Proof.Machine.execResync m v s
  | .alarmTest m v => Sys2Proof.Machine.execAlarmTest m v s
  | .alarmTestDone => Sys2Proof.Machine.execAlarmTestDone s
  | .alarmRelease m v => Sys2Proof.Machine.execAlarmRelease m v s
  | .softwareReset m v => Sys2Proof.Machine.execSoftwareReset m v s
  | .unlock m v => Sys2Proof.Machine.execUnlock m v s
  | .unlockTimeout m => Sys2Proof.Machine.execUnlockTimeout m s
  | .sqcClear m addr v => Sys2Proof.Machine.execSqcClear m addr v s
  | .sqcRead m addr => Sys2Proof.Machine.execSqcRead m addr s
  | .randomRead m => Sys2Proof.Machine.execRandomRead m s
  | .counterCapture m v => Sys2Proof.Machine.execCounterCapture m v s
  | .pcCfgWrite m k v => Sys2Proof.Machine.execPcCfgWrite m k v s
  | .pcValWrite m k v => Sys2Proof.Machine.execPcValWrite m k v s
  | .dumpModeWrite m r v => Sys2Proof.Machine.execDumpModeWrite m r v s
  | .frerReset m pipe v => Sys2Proof.Machine.execFrerReset m pipe v s
  | .scrubFast m v => Sys2Proof.Machine.execScrubFast m v s
  | .shaperEnable m sh v => Sys2Proof.Machine.execShaperEnable m sh v s
  | .accTableWrite m t e v => Sys2Proof.Machine.execAccTableWrite m t e v s
  | .ringEnable m r v => Sys2Proof.Machine.execRingEnable m r v s
  | .ringDisable m r v => Sys2Proof.Machine.execRingDisable m r v s
  | .doorbell m r part v => Sys2Proof.Machine.execDoorbell m r part v s
  | .poll r readErr => Sys2Proof.Machine.execPoll r readErr s
  | .modTimeExpiry r => Sys2Proof.Machine.execModTimeExpiry r s
  | .channelEnable m c v => Sys2Proof.Machine.execChannelEnable m c v s
  | .channelDisable m c v => Sys2Proof.Machine.execChannelDisable m c v s
  | .restart m c v => Sys2Proof.Machine.execRestart m c v s
  | .dmaDoorbell m c part v => Sys2Proof.Machine.execDmaDoorbell m c part v s
  | .dmaDescriptor c readErr => Sys2Proof.Machine.execDmaDescriptor c readErr s
  | .beatAnswer c a => Sys2Proof.Machine.execBeatAnswer c a s
  | .registerWrite m addr size v => Sys2Proof.Machine.execRegisterWrite m addr size v s
  | .frameReceive p head => Sys2Proof.Machine.execFrameReceive p head s
  | .skidBufferSend p => Sys2Proof.Machine.execSkidBufferSend p s
  | .frameRxEnd p rest fcsGood e => Sys2Proof.Machine.execFrameRxEnd p rest fcsGood e s
  | .flowControlReceive p bytes fcsGood => Sys2Proof.Machine.execFlowControlReceive p bytes fcsGood s
  | .pauseTimerExpiry p k => Sys2Proof.Machine.execPauseTimerExpiry p k s
  | .pauseWdBreak p k => Sys2Proof.Machine.execPauseWdBreak p k s
  | .wdRecoveryEnd p k => Sys2Proof.Machine.execWdRecoveryEnd p k s
  | .backPressureAssert p k => Sys2Proof.Machine.execBackPressureAssert p k s
  | .backPressureRelease p k => Sys2Proof.Machine.execBackPressureRelease p k s
  | .fcRefresh p k => Sys2Proof.Machine.execFcRefresh p k s
  | .fcFrameSend p => Sys2Proof.Machine.execFcFrameSend p s
  | .verifyTimer p => Sys2Proof.Machine.execVerifyTimer p s
  | .lpiEntry p => Sys2Proof.Machine.execLpiEntry p s
  | .wakeDetect mac lane => Sys2Proof.Machine.execWakeDetect mac lane s
  | .linkUp p => Sys2Proof.Machine.execLinkUp p s
  | .linkDown p => Sys2Proof.Machine.execLinkDown p s
  | .anFail p => Sys2Proof.Machine.execAnFail p s
  | .refClockLoss k => Sys2Proof.Machine.execRefClockLoss k s
  | .refClockRelock k => Sys2Proof.Machine.execRefClockRelock k s
  | .flitError l => Sys2Proof.Machine.execFlitError l s
  | .headerResolve h => Sys2Proof.Machine.execHeaderResolve h s
  | .copyEnqueue n => Sys2Proof.Machine.execCopyEnqueue n s
  | .mirrorBuild => Sys2Proof.Machine.execMirrorBuild s
  | .selection p => Sys2Proof.Machine.execSelection p s
  | .frameStart p => Sys2Proof.Machine.execFrameStart p s
  | .transmitEnd p => Sys2Proof.Machine.execTransmitEnd p s
  | .cpuRxDelivery => Sys2Proof.Machine.execCpuRxDelivery s
  | .cpuTx r readErr => Sys2Proof.Machine.execCpuTx r readErr s
  | .ageHeadScan x => Sys2Proof.Machine.execAgeHeadScan x s
  | .prefetchRead r => Sys2Proof.Machine.execPrefetchRead r s
  | .scrub t => Sys2Proof.Machine.execScrub t s
  | .learnGrant => Sys2Proof.Machine.execLearnGrant s
  | .learn n => Sys2Proof.Machine.execLearn n s
  | .refresh n => Sys2Proof.Machine.execRefresh n s
  | .sweep n => Sys2Proof.Machine.execSweep n s
  | .sweepIssue => Sys2Proof.Machine.execSweepIssue s
  | .epoch n => Sys2Proof.Machine.execEpoch n s
  | .epochIssue => Sys2Proof.Machine.execEpochIssue s
  | .flush n => Sys2Proof.Machine.execFlush n s
  | .flushPassEnd n => Sys2Proof.Machine.execFlushPassEnd n s
  | .staticAdd n => Sys2Proof.Machine.execStaticAdd n s
  | .staticMask n => Sys2Proof.Machine.execStaticMask n s
  | .staticDel n => Sys2Proof.Machine.execStaticDel n s
  | .tableCheck t => Sys2Proof.Machine.execTableCheck t s
  | .tcamCheck g => Sys2Proof.Machine.execTcamCheck g s
  | .drainEnd => Sys2Proof.Machine.execDrainEnd s
  | .frerResetExpiry f => Sys2Proof.Machine.execFrerResetExpiry f s
  | .latentTest f => Sys2Proof.Machine.execLatentTest f s
  | .slotBoundary => Sys2Proof.Machine.execSlotBoundary s
  | .bankSwitch => Sys2Proof.Machine.execBankSwitch s
  | .cycleRefEdge => Sys2Proof.Machine.execCycleRefEdge s
  | .refMissing => Sys2Proof.Machine.execRefMissing s
  | .checkpoint => Sys2Proof.Machine.execCheckpoint s
  | .checkpointCommit a => Sys2Proof.Machine.execCheckpointCommit a s
  | .keystoneFault u cause => Sys2Proof.Machine.execKeystoneFault u cause s
  | .deferredInputServe => Sys2Proof.Machine.execDeferredInputServe s
  | .selfTestEnd u pass => Sys2Proof.Machine.execSelfTestEnd u pass s
  | .fullCopyCommit => Sys2Proof.Machine.execFullCopyCommit s
  | .faultReport r => Sys2Proof.Machine.execFaultReport r s
  | .backstopFired => Sys2Proof.Machine.execBackstopFired s
  | .channelDisagree => Sys2Proof.Machine.execChannelDisagree s
  | .tmrVote => Sys2Proof.Machine.execTmrVote s
  | .tempSample t => Sys2Proof.Machine.execTempSample t s
  | .leaveTimeout => Sys2Proof.Machine.execLeaveTimeout s
  | .leaveReturn q => Sys2Proof.Machine.execLeaveReturn q s
  | .domainPowerUpDone dom pass => Sys2Proof.Machine.execDomainPowerUpDone dom pass s
  | .hbmTrainingDone stack => Sys2Proof.Machine.execHbmTrainingDone stack s
  | .pwronRstN => Sys2Proof.Machine.execPwronRstN s
  | .sysRstN => Sys2Proof.Machine.execSysRstN s
  | .parkDrainEnd => Sys2Proof.Machine.execParkDrainEnd s
  | .plumbStep => Sys2Proof.Machine.execPlumbStep s
  | .plumbStepEnd fails step => Sys2Proof.Machine.execPlumbStepEnd fails step s
  | .flr f => Sys2Proof.Machine.execFlr f s
  | .hotReset => Sys2Proof.Machine.execHotReset s
  | .periodicLatch => Sys2Proof.Machine.execPeriodicLatch s
  | .dumpRecordWrite => Sys2Proof.Machine.execDumpRecordWrite s
  | .attestCreditReturn => Sys2Proof.Machine.execAttestCreditReturn s
  | .rngFail => Sys2Proof.Machine.execRngFail s
  | .rngReady => Sys2Proof.Machine.execRngReady s
  | .ledStream => Sys2Proof.Machine.execLedStream s
  | .registerRead m addr size => Sys2Proof.Machine.execRegisterRead m addr size s
  | .pwronRstNRelease straps => Sys2Proof.Machine.execPwronRstNRelease straps s
  | .hostLinkUp speed width => Sys2Proof.Machine.execHostLinkUp speed width s
  | .keystoneSelfTestTimeout u => Sys2Proof.Machine.execKeystoneSelfTestTimeout u s
  | .mpacketReceive p k => Sys2Proof.Machine.execMpacketReceive p k s
  | .dmaBeatIssue => Sys2Proof.Machine.execDmaBeatIssue s
  | .anDone p ability fec eee => Sys2Proof.Machine.execAnDone p ability fec eee s
  | .time10mInMeasure offset inRange => Sys2Proof.Machine.execTime10mInMeasure offset inRange s
  | .pcOverflow k => Sys2Proof.Machine.execPcOverflow k s
  | .rxLpi p enter => Sys2Proof.Machine.execRxLpi p enter s

end Sys2Proof.Machine
end

