-- ==== Sys2Proof/Safety.lean ====
section
/-! DEFINITION. The terms that statements about the block use: a state in which nothing waits, what a command's own effect is as
distinct from what follows from it, and the invariant that every step keeps. -/

namespace Sys2Proof.Machine

/-- Nothing waits: no request for leave, no command in flight or behind a fence, no ring that is being stopped, no port group under
test, no event raised and not yet settled, nothing that the conductor log asks for; and the core die runs. In such a state nothing
follows from a command but its events and the device state. -/
def State.calm (s : State) : Bool :=
  s.key.ks.queue.isEmpty && s.hif.inflight.isEmpty && s.hif.rings.all (fun e => !e.2.stopping) && decide (s.groupTested = 0)
    && s.raised.isEmpty && !s.key.logDue && !s.stopped && s.hif.fenced.isEmpty

/-- A register whose set bits events never clear: every one but HIF.STATUS, the head of the event ring and CNT.PC_OVF. -/
def plainReg (a : Nat) : Bool :=
  !(decide (a = Addr.HIF_STATUS) || decide (a = Addr.HIF_RING_HEAD 0x100)
    || (decide (Addr.CNT_PC_OVF 0 ≤ a) && decide (a ≤ Addr.CNT_PC_OVF 64)))

/-- A register that the posting of events does not change: neither HIF.EVENT nor CNT.EVENT besides. -/
def quietReg (a : Nat) : Bool := plainReg a && !(decide (a = Addr.HIF_EVENT) || decide (a = Addr.CNT_EVENT))

/-- The state without registers, their copies and event counts, counters, host memory, rings and interrupts: what the settling of
events never touches. -/
def State.core (s : State) : State :=
  { s with regs := [], tmrB := [], tmrC := [], sqc := [], raised := [], ctrs := [], host := [],
           hif := { s.hif with rings := [], msix := [] } }

/-- The outcome `o` is a next state with the effect `u`: one that agrees with `u`, the device state having
followed (R400), in everything outside the registers; in every quiet register but those of the events raised, whose bits
stand set (R368); in every counter but those of lost events and programmable counters; in host memory, rings, interrupts and
HIF.STATUS, unless the event ring runs (R339); and in the programmable counters, unless one is enabled (R379). The events
raised are those of `u` and the one of a device that leaves READY for DEGRADED. -/
def Yields (o : Host.Outcome State Fault Refusal) (u : State) : Prop :=
  ∃ t, o = .next t ∧ t.core = u.devUpdate.core
    ∧ (∀ a, quietReg a → a ∉ u.devUpdate.raised.map Prod.fst → t.reg a = u.reg a)
    ∧ (∀ e ∈ u.devUpdate.raised, plainReg e.1 → (u.domainOn (domainOf e.1) || sharedPipe e.1) →
        t.reg e.1 &&& BitVec.ofNat 32 e.2 = BitVec.ofNat 32 e.2)
    ∧ (∀ k, k / 2 ^ 20 ≠ 21 → k / 2 ^ 20 ≠ 26 → t.ctr k = u.ctr k)
    ∧ (u.ringRuns 0x100 = false → t.host = u.host ∧ t.hif.rings = u.hif.rings ∧ t.hif.msix = u.hif.msix
        ∧ t.reg Addr.HIF_STATUS = u.reg Addr.HIF_STATUS)
    ∧ (u.pcOn = [] → (∀ k, k / 2 ^ 20 = 26 → t.ctr k = u.ctr k) ∧ ∀ j, j < 64 → t.reg (Addr.CNT_PC_OVF j) = u.reg (Addr.CNT_PC_OVF j))

/-- Command `c` completes in state `s` with the effect `u`. -/
def Takes (c : Instr) (s u : State) : Prop := Yields (exec c s) u

/-- Command `c` changes nothing in state `s` but the device state, which follows its own rules. -/
def Idles (c : Instr) (s : State) : Prop := Takes c s s

/-! ### Time -/

/-- The block when its counter has advanced by one core cycle and nothing that falls due with the cycle's end has happened yet. -/
def State.clocked (s : State) : State :=
  let u : State := { s.pcLevels.includeEvents.expire.wakePorts.wakeCpu.sweeps with now := s.now + 1 }
  { u with trn := { u.trn with time := (u.trn.time + u.rateNow) % timeRange, pulse := u.trn.pulse - u.rateNow } }

/-- The block after a core cycle in which neither a switchover gap ends nor a reset takes effect. -/
def State.cycled (s : State) : State := s.clocked.flushCycle.skids.holdCuts.expandStalls

/-! ### Register writes -/

/-- A write of `v` to the register at `a` by master `m` passes every check of R372 before the change of its fields, with no
KEY field refused. -/
def State.admits (s : State) (m a : Nat) (v : Word) : Bool :=
  (targetOf a).isSome && s.permitted m a 2 && s.regOn a && !isSqc (canonAddr a)
    && match regDesc (canonAddr a) with
      | none => false
      | some d => s.armed m || !keyDiffers d v ((s.setArmed m false).view (canonAddr a))

/-- The state once such a write has changed the fields it may change, the master's arming being over. -/
def State.stored (s : State) (m a : Nat) (v : Word) : State :=
  let t := s.setArmed m false
  match regDesc (canonAddr a) with
  | none => t
  | some d => t.setRegBits (canonAddr a) (BitVec.ofNat 32 (writeMask d (s.armed m) v) &&& t.allow m (canonAddr a) v) v

/-- A write to this register starts nothing beside the change of its fields: the registers of every block but those that hold a
command, enable a ring, a channel or a shaper, or are followed by a rule of their own. -/
def storesOnly (a : Nat) : Bool :=
  if a < 0x10000 then decide (a ≠ Addr.SYS_UNLOCK)
  else if a < 0x20000 then (ringAt a).all fun r => decide (a ≠ Addr.HIF_RING_CFG r)
  else if a < 0x30000 then false
  else if a < 0x40000 then (channelAt a).all fun c => decide (a ≠ Addr.DMA_CH_CFG c) && decide (a ≠ Addr.DMA_CH_CTRL c)
  else if a < 0x60000 then decide (a ≠ Addr.PWR_SW_RESET)
  else if a < 0x70000 then decide (a ≠ Addr.KEY_COMMAND) && decide (a ≠ Addr.KEY_CTRL)
  else if a < 0x80000 then decide (a ∉ [Addr.TRN_CTRL, Addr.TRN_PPS_OUT_OFFSET, Addr.TRN_RATE_BASE_LO, Addr.TRN_RATE_BASE_HI,
    Addr.TRN_TIME_SET, Addr.TRN_TIME_CAPTURE, Addr.TRN_OFFSET_HI])
  else if a < 0x90000 then decide (a ≠ Addr.EPH_ACTIVATE) && decide (a ≠ Addr.EPH_CTRL)
  else if a < 0xA0000 then
    decide (a ∉ [Addr.CNT_CTRL, Addr.CNT_DUMP_EVERY_N, Addr.CNT_DUMP_INTERVAL, Addr.CNT_RD_ADDR])
      && !(decide (0x94000 ≤ a) && decide (a < 0x98000))
  else if a < 0xC0000 then decide (a ≠ Addr.SAF_ALARM_TEST)
  else if a < 0xD0000 then (tableEntry a).isNone
  else if 0x200000 ≤ a ∧ a < 0x300000 then decide (a ≠ Addr.PIPE_FRER_RESET 0)
  else if 0x400000 ≤ a ∧ a < 0x420000 then decide (a ∉ [Addr.BUF_POOL_APPLY, Addr.BUF_HBM_RETIRE, Addr.BUF_CTRL])
  else if 0x500000 ≤ a ∧ a < 0x600000 then
    !(decide (0x510000 ≤ a) && decide (a < 0x514000)) && !(decide (0x520000 ≤ a) && decide (a < 0x520000 + 0x10 * 4176))
      && decide (a ∉ [Addr.TM_CPU_CFG, Addr.TM_CPU_RATE, Addr.TM_CPU_BURST])
  else if 0x1000000 ≤ a then
    decide (a % 0x10000 ≠ 4) && !(decide (0x100 ≤ a % 0x10000) && decide (a % 0x10000 < 0x200) && decide (a % 0x40 = 0))
  else false

/-! ### The way of a frame through its pipeline -/

/-- The header at the front of the FIFO of macro `m` has been taken (R31). -/
def State.headerTaken (s : State) (n m : Nat) : State :=
  let t := s.setFifo m ((s.fifo m).drop 1)
  { t with fab := { t.fab with rrMacro := SMap.set (fun _ => 0) n ((m + 1) % 16) t.fab.rrMacro } }

/-- Pipeline `n` takes the header of frame `i`, the first of macro `m`, and can resolve it: it is on, has room for the frame, forwards,
and has an active image that reaches it (R31, R124, R144, R224). The conductor log has room for every entry found bad on the way. -/
def State.takesHeader (s : State) (n m i : Nat) (f : Frame) : Bool :=
  s.calm && decide (n < 8) && s.domainOn (17 + n) && !s.expandFull n && decide (s.nextHeader n = some (m, i))
    && decide (s.frame i = some f) && s.getB (F.PIPE_CTRL_fwd_en n) && s.ash.1.valid && (decide (s.ash.1.fmt ≠ 3) || decide (n < 4))
    && decide (s.key.log.length + s.hr.length < 740)

/-- Frame `f` as pipeline `n` takes it: bank and pipeline are noted (R225). -/
def State.taken (s : State) (n : Nat) (f : Frame) : Frame := { f with bank := s.physBank false, unit := n }

/-- The header that the parser finds in a frame (R127 to R132). -/
def State.parsed (s : State) (f : Frame) : Hdr := parse s.ash.1 f.port f.bytes (if f.ended then some f.len else none)

/-- What the lookups find for frame `f` in pipeline `n` (R133 to R136), once the header has been counted. -/
def State.lookedUp (s : State) (n m : Nat) (f : Frame) : Resolved :=
  ((s.headerTaken n m).count 3 n 0).resolve n f.port (s.physBank false) (s.parsed f) f.bytes

/-- The action record so found (R137). -/
def State.foundAct (s : State) (n m : Nat) (f : Frame) : Act := actOf (s.ash.1.sec 6) (32 * (s.lookedUp n m f).record.getD 0)

/-- No entry that the frame reads is poisoned, and its lookups end in a record (R124, R305). -/
def State.findsRecord (s : State) (n m : Nat) (f : Frame) : Bool :=
  (s.lookedUp n m f).record.isSome
    && (s.ash.1.entriesRead f.port (s.parsed f) (s.lookedUp n m f) (s.foundAct n m f)).all fun e => decide (e ∉ s.ash.1.poison)

/-- Frame `f` as it reaches step 4: with its header, its class, and what it would teach the learned table (R162). -/
def State.atStepFour (s : State) (n m : Nat) (f : Frame) : Frame :=
  let h := s.parsed f
  let may := (s.foundAct n m f).learn && (s.ash.1.vlan h.vlan).learnEn && !f.noLearn && !bitAt h.exc 4 && !bitAt h.exc 5
  { s.taken n f with
    hdr := h, routed := (s.lookedUp n m f).l3, cls := h.pcp,
    learn := if may then ((s.headerTaken n m).count 3 n 0).probe n h.vlan (beAt f.bytes 6 6) f.port (s.physBank false) else .none }

/-- The state once the frame's header has been counted and the parity of the table entries it reads checked (R161, R178). -/
def State.checkedFor (s : State) (n m : Nat) (f : Frame) : State :=
  let h := s.parsed f
  let y := (s.headerTaken n m).count 3 n 0
  let w := y.checkWays n ((y.tab n).cands h.vlan (beAt f.bytes 0 6) ++ (y.tab n).cands h.vlan (beAt f.bytes 6 6))
  let v6 := decide (h.l3 = 2)
  let dst := if v6 then beAt f.bytes (h.a2.getD 0 + 24) 16 else beAt f.bytes (h.a2.getD 0 + 16) 4
  if (s.lookedUp n m f).l3 then
    w.checkUnits [hrBucket 0 (s.ash.1.vlan h.vlan).vrf v6 dst, hrBucket 1 (s.ash.1.vlan h.vlan).vrf v6 dst]
  else w

/-- The state in which the frame reaches step 4: a frame that has arrived whole and good has raised its learn event (R162). -/
def State.beforeStepFour (s : State) (n m : Nat) (f : Frame) : State :=
  if f.ended && !f.bad then
    (s.checkedFor n m f).raiseLearn n (s.atStepFour n m f).learn (s.parsed f).vlan (beAt f.bytes 6 6) f.port
  else s.checkedFor n m f

/-! ### Commands of a ring -/

/-- The entry at the head of its ring has been taken: its own bit is 0, head has moved on, and a completion entry is
reserved (R324). -/
def State.taking (s : State) (d : CmdDesc) : State :=
  let a := s.ringAddr d.ring 0 + 63
  ((s.hostPut a (s.hostByte a &&& 0x7F)).ringAdvance d.ring 1).reserve (s.compRing d.ring) 1

/-- The entry at head of the ring of descriptor `d` is taken in a calm state: the ring runs, the entry's own is set, it bears an opcode
that the device knows, and a completion entry is free. -/
def State.reaches (s : State) (d : CmdDesc) : Bool :=
  s.calm && decide (d.ring < 64) && s.ringRuns d.ring && (s.getB (F.HIF_RING_CFG_polling d.ring) || decide (s.ringSpan d.ring ≠ 0))
    && !d.ringErr && s.ringOwn d.ring 0 && (cmdInfo (s.headDesc d.ring).1).isSome && s.entryFree (s.compRing d.ring)

/-- The command of opcode `op` with descriptor `d` is taken and accepted: every check of R327 passes. -/
def State.accepts (s : State) (op : Nat) (d : CmdDesc) : Bool :=
  s.reaches d && decide ((s.taking d).checkCommand (cmdOf op) op (s.ownerFn d.ring) d = 0)

/-- The accepted command and the state that has accepted it: a sequence number, a log entry, a count (R341). -/
def State.begun (s : State) (op : Nat) (d : CmdDesc) : InFlight × State := (s.taking d).accept op (s.ownerFn d.ring) 0 d

/-- The accepted command has changed the state by `f` and ended with a status and two results (R325, R331). -/
def State.ended (s : State) (op : Nat) (d : CmdDesc) (f : State → State) (st r0 r1 : Nat) : State :=
  (f (s.begun op d).2).complete (s.begun op d).1 st r0 r1

/-- The accepted command has changed the state by `f` and waits. -/
def State.waits (s : State) (op : Nat) (d : CmdDesc) (f : State → State) (w : Wait) : State :=
  (f (s.begun op d).2).answer (s.begun op d).1 (.wait w)

/-- What every step keeps: every event has been settled, a device that is READY has no cause of degradation, and one in CONFIG
lacks an active Ephemeris or an active Ashlar image (R400). -/
def State.Inv (s : State) : Prop :=
  s.raised = [] ∧ (s.dev = .ready → s.saf.causes = []) ∧ (s.dev = .config → ¬ (s.eph.1.valid ∧ s.ash.1.valid))

end Sys2Proof.Machine
end

