-- ==== Sys2Proof/Certificates/Slice0/Obligations.lean ====
section
/-! DEFINITION. The statements about the block, for the provers. What a command does is stated with Takes (Safety.lean): the
command completes, with the effect that the statement writes out, and with nothing else changed but what Takes names.
A state is calm when nothing waits in it. -/

open Sys2Proof Sys2Proof.Machine

/-! ### Ports (R34 to R66) -/

/-- R44, R47: a write of 1 to PORT.APPLY while an apply is in progress only shows apply_ignored; one whose check fails shows its
code; one that passes for a macro outside a bond whose changed sub-ports do not exist yet takes the configuration into force.
What LINK_STATUS shows meanwhile, and the codes where two refusals hold, are the model's choice (notes/assumptions/64.md). R46: with
the lanes relocked an apply in progress is done, and apply_done is raised. -/
def Obligations.PortApply : Prop :=
  (∀ (s : State) (m mac : Nat) (v : Word), s.calm → mac < 128 → s.admits m (Addr.PORT_APPLY mac) v → fldOf v 0 1 = 1 →
    let t := s.stored m (Addr.PORT_APPLY mac) v
    (t.domainOn (1 + mac / 8) → t.getF (F.PORT_APPLY_STATUS_apply_status mac) = 1 →
      Takes (.apply m mac v) s (t.setF (F.PORT_APPLY_STATUS_apply_ignored mac) 1))
    ∧ (t.getF (F.PORT_APPLY_STATUS_apply_status mac) ≠ 1 → t.applyCheck mac ≠ 1 →
      Takes (.apply m mac v) s (t.setF (F.PORT_APPLY_STATUS_apply_status mac) (t.applyCheck mac)))
    ∧ (t.getF (F.PORT_APPLY_STATUS_apply_status mac) ≠ 1 → t.applyCheck mac = 1 → t.applySet mac = [mac] →
      (∀ i ∈ t.affected mac, t.portExists (4 * mac + i) = false) → (∀ i < 4, (t.port (4 * mac + i)).downFault = false) →
      Takes (.apply m mac v) s
        (((((t.setMac mac (t.macCfg mac)).each (t.affected mac) fun x i => x.freshLink mac i).setF
          (F.PORT_APPLY_STATUS_apply_status mac) 1)).setF (F.PORT_APPLY_STATUS_apply_ignored mac) 0)))
  ∧ (∀ (s : State) (mac : Nat), s.calm → mac < 128 → s.domainOn (1 + mac / 8) → s.getF (F.PORT_APPLY_STATUS_apply_status mac) = 1 →
    Takes (.applyDone mac) s ((s.setF (F.PORT_APPLY_STATUS_apply_status mac) 2).raise (F.PORT_EVENT_apply_done mac)))

/-- R41, R42, R46, R58: with PCS lock a port that is down, not held down and whose SerDes reference is there comes up: link_up, an_done and lt_done show it,
link_change is raised, XOFF falls due again for classes with back-pressure, and a PORT cause is withdrawn. Without an active
Ephemeris no type is checked, and a port whose running type comes to match is so from the next core cycle on (R116). R211, R303: at the loss of link_up the port goes down (queues flushed, pause state cleared,
link_change raised), and the loss is reported as a MASKED fault, which ends an alarm test (R308) and is logged (R282). -/
def Obligations.PortLinkUpAndDown : Prop :=
  (∀ (s : State) (p : Nat), s.calm → p < 512 → s.portExists p → s.domainOn (1 + p / 32) → s.linkUp p = false →
    (s.port p).downFault = false → p / 128 ∉ s.refLost → (s.anOn p = false ∨ s.clause37 p ∨ s.getB (F.PORT_LINK_STATUS_an_done (p / 4) (p % 4))) →
    s.ephOn = false →
    let t := ((s.setF (F.PORT_LINK_STATUS_link_up (p / 4) (p % 4)) 1).setF (F.PORT_LINK_STATUS_an_done (p / 4) (p % 4))
      (b2n (s.anOn p))).setF (F.PORT_LINK_STATUS_lt_done (p / 4) (p % 4)) (b2n (s.ltOn p))
    Takes (.linkUp p) s
      ((((t.setPort p { s.port p with fcPend := if s.fcGen p then (s.port p).bp else 0 }).raiseBit
        (F.PORT_EVENT_link_change (p / 4)) (p % 4)).dropCause fun c => decide (c = .port p)).rematch s p))
  ∧ (∀ (s : State) (p : Nat), s.calm → p < 512 → s.portExists p → s.linkUp p → s.key.log.length < 767 →
    Takes (.linkDown p) s (((((s.portDown p true).endTest).count 16 0 0).raise F.SAF_EVENT_fault_masked).ksLog .safety))

/-- R41: Clause 73 resolves to the first technology of its priority order that both sides have, with the FEC that follows from both
requests where the mode allows it: an_done, resolved_tech and fec_active show it; without a common one it fails. Clause 37 has nothing
to resolve. R42: a failure clears an_done, resolves to none and raises an_fail. The order and the FEC are the model's choice
(notes/assumptions/65.md). -/
def Obligations.PortAutoNegotiation : Prop :=
  (∀ (s : State) (p : Nat) (ability : Nat) (fp : FecPage) (eee : Bool), s.calm → p < 512 → s.portExists p → s.anOn p →
    s.domainOn (1 + p / 32) → s.clause37 p = false →
    let both := fun (t : Nat) => bitAt (fldOf (s.subCfg p) 16 11) t && bitAt ability t
    (∀ (l : List Nat) (tech : Nat) (r : List Nat), techOrder = l ++ tech :: r → l.all (fun t => !both t) → both tech →
      let fec := techFec tech (fldOf (s.subCfg p) 0 2) fp
      fec ∈ fecAllowed (s.mac (p / 4)).mode ((s.mac (p / 4)).lane (p % 4)) (p % 4) → s.ephOn = false →
      Takes (.anDone p ability fp eee) s
        (((((s.setF (F.PORT_LINK_STATUS_an_done (p / 4) (p % 4)) 1).setF (F.PORT_LINK_STATUS_resolved_tech (p / 4) (p % 4)) tech).setF
          (F.PORT_LINK_STATUS_fec_active (p / 4) (p % 4)) fec).setPort p
          { s.port p with eeeAgreed := eee && s.getB (F.PORT_MAC_CFG_eee_enable (p / 4) (p % 4)) }).rematch s p))
    ∧ (techOrder.all (fun t => !both t) → s.linkUp p = false →
      Takes (.anDone p ability fp eee) s
        ((((s.setF (F.PORT_LINK_STATUS_an_done (p / 4) (p % 4)) 0).setF (F.PORT_LINK_STATUS_resolved_tech (p / 4) (p % 4)) 15).checkType
          p).raise (F.PORT_EVENT_an_fail (p / 4)))))
  ∧ (∀ (s : State) (p : Nat) (ability : Nat) (fp : FecPage) (eee : Bool), s.calm → p < 512 → s.portExists p → s.anOn p →
    s.domainOn (1 + p / 32) → s.clause37 p →
    Takes (.anDone p ability fp eee) s (s.setF (F.PORT_LINK_STATUS_an_done (p / 4) (p % 4)) 1))
  ∧ (∀ (s : State) (p : Nat), s.calm → p < 512 → s.portExists p → (s.anOn p || s.ltOn p) → s.domainOn (1 + p / 32) →
    s.linkUp p = false →
    Takes (.anFail p) s
      ((((s.setF (F.PORT_LINK_STATUS_an_done (p / 4) (p % 4)) 0).setF (F.PORT_LINK_STATUS_resolved_tech (p / 4) (p % 4)) 15).checkType
        p).raise (F.PORT_EVENT_an_fail (p / 4))))

/-- R55, R56: a good PAUSE frame addressed to the port sets every priority's timer, with pause_mode PAUSE and no recovery window;
the expiry of a timer releases its priority; R61: the end of a recovery window clears its bit. R60, R61: when the watchdog's measure
reaches its limit for a paused priority with frames waiting, pause_storm is raised and counted, the pause ends, a recovery window
begins, and with wd_action FLUSH the queues of the priority are flushed as at port-down (R211): copies of theirs in transmission are
stomped first. -/
def Obligations.PortPauseAndWatchdog : Prop :=
  (∀ (s : State) (p : Nat) (b : List Byte), s.calm → p < 512 → s.portUp p → s.getB (F.PORT_MAC_CFG_rx_en (p / 4) (p % 4)) →
    64 ≤ b.length → b.length ≤ s.getF (F.PORT_MAC_CFG_max_frame (p / 4) (p % 4)) → be16 b 12 = 0x8808 →
    (beAt b 0 6 = 0x0180C2000001 ∨ beAt b 0 6 = s.macAddr p) → be16 b 14 = 1 → s.getF (F.PORT_MAC_CFG_pause_mode (p / 4) (p % 4)) = 1 →
    (∀ i < 8, s.recovering p i = false) →
    Takes (.flowControlReceive p b true) s
      (((s.setPort p { s.port p with activity := true }).each (List.range 8) fun t i => t.setPaused p i (be16 b 16)).count 0 p 9))
  ∧ (∀ (s : State) (p i : Nat), s.calm → p < 512 → i < 8 → Takes (.pauseTimerExpiry p i) s (s.setPaused p i 0))
  ∧ (∀ (s : State) (p i : Nat), s.calm → p < 512 → i < 8 →
    Takes (.wdRecoveryEnd p i) s (s.setFBit (F.PORT_MAC_STATUS_wd_recovering (p / 4) (p % 4)) i false))
  ∧ ∀ (s : State) (p i : Nat), s.calm → p < 512 → i < 8 → s.getF (F.PORT_PAUSE_WD_wd_limit (p / 4) (p % 4)) ≠ 0 →
    s.getFBit (F.PORT_MAC_STATUS_rx_paused (p / 4) (p % 4)) i → (∃ x ∈ s.maskQueues p i, (s.queue x).copies ≠ []) →
    let t := ((((s.raiseBit (F.PORT_MAC_EVENT_pause_storm (p / 4) (p % 4)) i).count 0 p 25).setPaused p i 0).setFBit
      (F.PORT_MAC_STATUS_wd_recovering (p / 4) (p % 4)) i true)
    Takes (.pauseWdBreak p i) s
      (if s.getF (F.PORT_MAC_CFG_wd_action (p / 4) (p % 4)) = 1 then
        (t.abortQueues p (s.maskQueues p i)).each (s.maskQueues p i) State.flushQueue else t)

/-- R205, R58: back-pressure of a class is asserted where its condition holds, and released where it no longer does; each time a
flow-control frame falls due on a MAC that generates them, in PAUSE mode only with the first class asserted and the last one released;
while it lasts the refresh makes another due. R59: a flow-control frame that is due starts, with its transmit timestamp, on a port
that sends nothing, or after the fragment of a preemptable frame that can be interrupted, where the Ephemeris lets it; nothing is due
any longer, and the transmitter has left Low Power Idle (R64). -/
def Obligations.PortBackPressure : Prop :=
  ((∀ (s : State) (p k : Nat), s.calm → k < 8 → bitAt (s.port p).bp k = false → s.bpCond p k →
    let t := s.setPort p { s.port p with bp := putBits (s.port p).bp k 1 1 }
    Takes (.backPressureAssert p k) s
      (if s.getF (F.PORT_MAC_CFG_pause_mode (p / 4) (p % 4)) = 1 ∧ (s.port p).bp ≠ 0 then t else t.fcDue p k))
  ∧ (∀ (s : State) (p k : Nat), s.calm → k < 8 → bitAt (s.port p).bp k → s.bpCond p k = false →
    let t := s.setPort p { s.port p with bp := putBits (s.port p).bp k 1 0 }
    Takes (.backPressureRelease p k) s
      (if s.getF (F.PORT_MAC_CFG_pause_mode (p / 4) (p % 4)) = 1 ∧ putBits (s.port p).bp k 1 0 ≠ 0 then t else t.fcDue p k))
  ∧ (∀ (s : State) (p k : Nat), s.calm → bitAt (s.port p).bp k → s.fcGen p →
    Takes (.fcRefresh p k) s (s.setPort p { s.port p with fcPend := (s.port p).fcPend ||| 2 ^ k })))
  ∧ (∀ (s : State) (p : Nat), s.calm → (s.port p).fcPend ≠ 0 → s.portUp p → (s.port p).skid = [] → s.fcGen p → s.fcSlot p →
    let mode := s.getF (F.PORT_MAC_CFG_pause_mode (p / 4) (p % 4))
    let send := fun (t : State) =>
      let (f, x) := t.stampTx p
        { TxFrame.unbilled (s.fcBytes p mode (s.port p).fcPend) 64 with flow := some ((s.port p).fcPend, mode) }
      (x.setPort p { x.port p with fcPend := 0 }).startTx p f
    ((s.port p).tx = none → Takes (.fcFrameSend p) s (send s))
    ∧ ∀ t : TxFrame, (s.port p).tx = some t → s.canCut p t →
      Takes (.fcFrameSend p) s (send (s.interrupt p t)))

/-- R62: verify_time sends another verify mPacket, up to three, and then fails the verification (that the first of them leaves at the
first VERIFY_TIMER row is the model's choice, notes/assumptions/67.md); a respond mPacket completes one
in progress, a verify mPacket is answered, and one with an unexpected start delimiter is counted. R64: an idle port on which Low Power Idle is agreed enters it, counted; rx_lpi
follows the link partner, its entries counted. -/
def Obligations.PortVerificationAndLpi : Prop :=
  ((∀ (s : State) (p : Nat), s.calm → p < 512 → s.portUp p →
    (s.getF (F.PORT_MAC_STATUS_verify_status (p / 4) (p % 4)) = 1 ∨ s.getF (F.PORT_MAC_STATUS_verify_status (p / 4) (p % 4)) = 2) →
    Takes (.verifyTimer p) s
      (if (s.port p).verifyTries < 3 then
        (s.setF (F.PORT_MAC_STATUS_verify_status (p / 4) (p % 4)) 2).setPort p { s.port p with verifyTries := (s.port p).verifyTries + 1 }
      else (s.setF (F.PORT_MAC_STATUS_verify_status (p / 4) (p % 4)) 4).raise (F.PORT_MAC_EVENT_verify_fail (p / 4) (p % 4))))
  ∧ (∀ (s : State) (p : Nat), s.calm → p < 512 → s.portUp p → s.getB (F.PORT_MAC_CFG_preempt_enable (p / 4) (p % 4)) →
    (s.getF (F.PORT_MAC_STATUS_verify_status (p / 4) (p % 4)) = 2 →
      Takes (.mpacketReceive p .respond) s
        ((s.setF (F.PORT_MAC_STATUS_verify_status (p / 4) (p % 4)) 3).setF (F.PORT_MAC_STATUS_preempt_active (p / 4) (p % 4)) 1))
    ∧ Takes (.mpacketReceive p .verify) s (s.setPort p { s.port p with responds := (s.port p).responds + 1 })
    ∧ Takes (.mpacketReceive p .badSmd) s (s.count 0 p 28)))
  ∧ ((∀ (s : State) (p : Nat), s.calm → p < 512 → s.portUp p → s.getB (F.PORT_MAC_CFG_eee_enable (p / 4) (p % 4)) → s.lpiAllowed p →
    s.txIdle p → s.getB (F.PORT_MAC_STATUS_tx_lpi (p / 4) (p % 4)) = false →
    Takes (.lpiEntry p) s ((s.setF (F.PORT_MAC_STATUS_tx_lpi (p / 4) (p % 4)) 1).count 0 p 32))
  ∧ (∀ (s : State) (p : Nat) (enter : Bool), s.calm → p < 512 → s.portUp p → (s.port p).eeeAgreed →
    s.getB (F.PORT_MAC_STATUS_rx_lpi (p / 4) (p % 4)) = !enter →
    Takes (.rxLpi p enter) s
      (if enter then (s.setF (F.PORT_MAC_STATUS_rx_lpi (p / 4) (p % 4)) 1).count 0 p 33
      else s.setF (F.PORT_MAC_STATUS_rx_lpi (p / 4) (p % 4)) 0)))

/-- R66: a detector that is armed while its group is off sets its lane's bit: with wake_action REPORT, or in OFF without wake_boot,
that is all; with wake_action AUTO it asks for its group's power-up besides, which is granted, or refused and reported. R35: the loss
of a SerDes reference raises ref_clock_loss in each of the 32 macros of its chiplet, and each of its ports goes down with a PORT cause;
where none exists the loss is reported once (notes/assumptions/66.md); one report for each logical port is the model's reading
(notes/assumptions/37.md). R451: the relock ends the loss. R19: an uncorrectable flit on a
port link is a MASKED fault, and spoils the frame whose cells it carried; on a conductor link it is the fault LINK_ECC. R446: outside
BOOT and OFF the LED stream holds link_up and activity of each port, P511 first, and activity starts anew; within them it is dark, which the model shows as no bits (notes/assumptions/38.md). R447: the
other dedicated balls follow the host link and the debug state. -/
def Obligations.PortWakeReferenceFlitLed : Prop :=
  (∀ (s : State) (mac lane : Nat), s.calm → mac < 128 → lane < 4 → s.domainOn (1 + mac / 8) = false →
    bitsOf (s.reg (Addr.PORT_WAKE_CFG mac)).toNat (2 * lane) 2 ≠ 0 →
    let t := s.raiseBit (F.PORT_WAKE_STATUS_woke mac) lane
    let g : Grant := ⟨1, 1 + mac / 8, chargeOf s.part (1 + mac / 8)⟩
    (s.dev ≠ .off → s.getB (F.PORT_WAKE_CFG_wake_action mac) = false → Takes (.wakeDetect mac lane) s t)
    ∧ (s.dev = .off → s.getB F.PWR_CTRL_wake_boot = false → Takes (.wakeDetect mac lane) s t)
    ∧ (s.dev ≠ .off → s.getB (F.PORT_WAKE_CFG_wake_action mac) → s.ksBusy = false → s.key.log.length < 767 →
      1 + mac / 8 ∉ s.pwr.rising →
      (s.decideLeave g 0 = .granted →
        Takes (.wakeDetect mac lane) s
          (({ t with pwr := { t.pwr with rising := t.pwr.rising ++ [1 + mac / 8] } } : State).ksLog .power))
      ∧ ∀ r : Nat, s.decideLeave g 0 = .refused r →
        Takes (.wakeDetect mac lane) s
          (((t.noteRefusal 1 (1 + mac / 8) g.cost r).ksLog .power).raise (F.PORT_WAKE_STATUS_wake_refused mac))))
  ∧ ((∀ (s : State) (k : Nat), s.calm → k < 4 → k ∉ s.refLost → s.key.log.length < 639 →
    let t := ({ s with refLost := s.refLost ++ [k] } : State).each ((List.range 32).map fun i => 32 * k + i) fun x m =>
      x.raise (F.PORT_EVENT_ref_clock_loss m)
    let l := (chipletPorts k).filter s.portExists
    Takes (.refClockLoss k) s
      (if l.isEmpty then (t.faultNoted 0x14 2 (128 * k)).ksLog .safety
       else t.each l fun x p => (((x.faultNoted 0x14 2 p).addCause (.port p)).portDown p false).ksLog .safety))
  ∧ (∀ (s : State) (k : Nat), s.calm → k ∈ s.refLost → Idles (.refClockLoss k) s)
  ∧ (∀ (s : State) (k : Nat), s.calm →
    Takes (.refClockRelock k) s { s with refLost := s.refLost.filter fun j => decide (j ≠ k) }))
  ∧ ((∀ (s : State) (k : Nat) (f : Option Nat), s.calm → s.key.log.length < 767 →
    let t := match f with | some i => s.spoilFrame i | none => s
    Takes (.flitError (.port k f)) s ((((t.endTest).count 16 0 0).raise F.SAF_EVENT_fault_masked).ksLog .safety))
  ∧ (∀ (s : State) (u : Unit2), exec (.flitError (.conductor u)) s = exec (.keystoneFault u .linkEcc) s)
  ∧ (∀ s : State, s.calm → s.dev ≠ .boot → s.dev ≠ .off →
    let bits := (List.range 512).reverse.flatMap fun p =>
      if s.portExists p then [s.linkUp p, (s.port p).activity] else [false, false]
    Takes .ledStream s
      (({ s with led := bits } : State).each ((s.ports.filter fun e => e.2.activity).map Prod.fst) fun t p =>
        t.setPort p { t.port p with activity := false }))
  ∧ (∀ s : State, s.calm → (s.dev = .boot ∨ s.dev = .off) → Takes .ledStream s { s with led := [] })
  ∧ ∀ s : State, s.clkreqLow = s.domainOn 34 ∧ s.traceLow = !s.sec.debug ∧ s.jtagClosed = !s.sec.debug)

/-! ### Time (R69 to R91) and the Ephemeris (R92 to R121) -/

/-- R71: an armed write of 1 to TRN.TIME_SET takes the values of TRN.SET_*, and set reads 1; 64 core cycles later the counter
steps to them (R75), and set clears; the second it lands in gives no pulse (R90; the model's choice, notes/assumptions/78.md), and edges
that wait in the capture FIFO follow the step (R104). Without an active Ephemeris nothing else follows. R70: a write of TRN.RATE_BASE that an
armed master makes sets the rate anew with the frequency correction in force, 0 while the servo is DISABLED. -/
def Obligations.TimeSetAndRate : Prop :=
  ((∀ (s : State) (m : Nat) (v : Word), s.calm → s.admits m Addr.TRN_TIME_SET v →
    let t := s.stored m Addr.TRN_TIME_SET v
    Takes (.timeSet m v) s
      (if s.armed m && decide (fldOf v 0 1 = 1) then
        ({ t with trn := { t.trn with setPending := some (((t.getF F.TRN_SET_SEC_LO_set_sec_lo
          + t.getF F.TRN_SET_SEC_HI_set_sec_hi * 2 ^ 32) * 10 ^ 9 + t.getF F.TRN_SET_NS_set_ns) * 2 ^ 40) } } : State).setF
          F.TRN_TIME_SET_set 1
      else t))
  ∧ ∀ (s : State) (x : Nat), s.calm → s.trn.setPending = some x → x < timeRange → x ≠ s.trn.time → s.ephOn = false →
    s.fly.armed = none →
    Takes .timeSetEffect s
      ((({ s with trn := { s.trn with time := x, setPending := none, steps := s.trn.steps + ((x : Int) - s.trn.time),
                                      ppsSec := ((x : Int) - s.ppsOffset) / (10 ^ 9 * 2 ^ 40) },
                  key := { s.key with edgeFifo := s.key.edgeFifo.map fun e => e + ((x / 2 ^ 40 : Nat) - s.timeNs : Int) } } :
        State).setF F.TRN_TIME_SET_set 0).raise F.TRN_EVENT_stepped))
  ∧ (∀ (s : State) (m : Nat) (hi : Bool) (v : Word), s.calm →
    s.admits m (if hi then Addr.TRN_RATE_BASE_HI else Addr.TRN_RATE_BASE_LO) v →
    let t := s.stored m (if hi then Addr.TRN_RATE_BASE_HI else Addr.TRN_RATE_BASE_LO) v
    Takes (.rateBaseWrite m hi v) s
      (if s.armed m then t.setRate (if s.key.ks.servo = .disabled then 0 else s.key.ks.f) else t))

/-- R84: a write of 1 to TRN.TIME_CAPTURE latches the counter into the four TIME registers with the time flags; in a switchover
gap it latches the value at the start of the gap, marked held. R79, R89, R90, outside OFF: the selected edge at an enabled TIME_1PPS_IN
that is not the servo's source is latched, never marked held (notes/assumptions/34.md), and shown as present; the other edge only turns
the level, and which edge is which follows from the level (notes/assumptions/72.md); 1.1 s without another clears that and
raises pps_in_missing; with each new second the driven output gives a pulse of its width; an enabled TIME_10M_IN shows what was
measured. -/
def Obligations.TimeCaptureAndPins : Prop :=
  (∀ (s : State) (m : Nat) (v : Word), s.calm → s.admits m Addr.TRN_TIME_CAPTURE v → fldOf v 0 1 = 1 →
    let t := s.stored m Addr.TRN_TIME_CAPTURE v
    let x := if s.inGap then s.key.gapTime else s.trn.time
    Takes (.timeCapture m v) s
      ((((t.setReg Addr.TRN_TIME_SEC_LO (BitVec.ofNat 32 (secOf x))).setReg Addr.TRN_TIME_SEC_HI
        (BitVec.ofNat 32 (secOf x / 2 ^ 32 + s.timeFlags s.inGap * 2 ^ 16))).setReg Addr.TRN_TIME_NS (BitVec.ofNat 32 (nsOf x))).setReg
        Addr.TRN_TIME_FRAC (BitVec.ofNat 32 (x / 2 ^ 24 % 2 ^ 16))))
  ∧ ((∀ s : State, s.calm → s.dev ≠ .off → s.getB F.TRN_CTRL_pps_in_en →
    s.getB F.TRN_CTRL_pps_in_edge = s.pins.pps → s.getB F.TRN_CTRL_source = false →
    Takes .ppsInEdge s
      (({ s.turnPps.latchTime Addr.TRN_PPS_IN_SEC_LO Addr.TRN_PPS_IN_SEC_HI Addr.TRN_PPS_IN_NS Addr.TRN_PPS_IN_FRAC s.trn.time
        (s.timeFlags false) with trn := { s.trn with lastPps := some s.trn.time } } : State).setF F.TRN_STATUS_pps_in_present 1))
  ∧ (∀ s : State, s.calm → s.getB F.TRN_CTRL_pps_in_edge = !s.pins.pps → Takes .ppsInEdge s s.turnPps)
  ∧ (∀ s : State, s.calm → s.dev ≠ .off → s.trn.lastPps.isSome →
    Takes .ppsInMissing s
      ((({ s with trn := { s.trn with lastPps := none } } : State).setF F.TRN_STATUS_pps_in_present 0).raise F.TRN_EVENT_pps_in_missing))
  ∧ (∀ s : State, s.calm → s.dev ≠ .off → s.ppsSecond ≠ s.trn.ppsSec →
    let t := { s.trn with ppsSec := s.ppsSecond }
    Takes .ppsOutEdge s
      { s with trn := if s.getB F.TRN_CTRL_pps_out_en then
          { t with ppsOut := t.ppsOut + 1, pulse := s.getF F.TRN_PPS_OUT_WIDTH_pps_out_width * 1000 * 2 ^ 40 } else t })
  ∧ (∀ (s : State) (x : Int) (inRange : Bool), s.calm → s.dev ≠ .off → s.getB F.TRN_CTRL_clk10m_in_en →
    Takes (.time10mInMeasure x inRange) s
      ((s.setF F.TRN_FREQ_IN_MEAS_freq_in (unsigned 32 x)).setF F.TRN_STATUS_clk10m_in_present (b2n inRange))))

/-- R80, R81: of the rows that a write of TRN.CTRL satisfies the first one that applies is taken. With servo_enable 0 the servo is
DISABLED with f zero; a DISABLED one with servo_enable 1 becomes ACQUIRING with I and f from SERVO_I_INIT; otherwise hold 1 puts it in
HOLDOVER with f = I, and hold 0 only releases hold. R92: unlocked and holdover_exit tell that LOCKED and HOLDOVER have been left
(by whichever row: notes/assumptions/68.md); the lock run starts at 0 (notes/assumptions/24.md). R282: each write is logged. -/
def Obligations.ServoStates : Prop :=
  ∀ (s : State) (m : Nat) (v : Word), s.calm → s.admits m Addr.TRN_CTRL v → s.ksBusy = false → s.key.doubleFault = false →
    s.key.log.length < 767 →
    let t := s.stored m Addr.TRN_CTRL v
    let x := t.setKs fun k => { k with hold := t.getB F.TRN_CTRL_hold }
    let i := signed 32 (t.getF F.TRN_SERVO_I_INIT_i_init) * 2 ^ 24
    (t.getB F.TRN_CTRL_servo_enable → s.key.ks.servo = .disabled →
      Takes (.servoEnable m v) s
        ((((x.setKs fun k => { k with servo := .acquiring, i := i, f := i, lockRun := 0 }).setRate i).showServo).ksLog .hold))
    ∧ (t.getB F.TRN_CTRL_servo_enable = false →
      Takes (.servoDisable m v) s
        ((((((x.setKs fun k => { k with servo := .disabled, f := 0, lockRun := 0 }).setRate 0).showServo).raiseIf
          (decide (s.key.ks.servo = .locked)) F.TRN_EVENT_unlocked).raiseIf (decide (s.key.ks.servo = .holdover))
          F.TRN_EVENT_holdover_exit).ksLog .hold))
    ∧ (t.getB F.TRN_CTRL_servo_enable → s.key.ks.servo ≠ .disabled → t.getB F.TRN_CTRL_hold →
      Takes (.hold m v) s
        ((((((x.setKs fun k => { k with servo := .holdover, f := k.i }).setRate s.key.ks.i).showServo).raise
          F.TRN_EVENT_holdover_enter).raiseIf (decide (s.key.ks.servo = .locked)) F.TRN_EVENT_unlocked).ksLog .hold))
    ∧ (t.getB F.TRN_CTRL_servo_enable → s.key.ks.servo ≠ .disabled → t.getB F.TRN_CTRL_hold = false →
      Takes (.holdRelease m v) s (x.ksLog .hold))

/-- R79, R80: with the 1PPS input as source, after a double fault, while the servo is DISABLED, and in HOLDOVER with hold 1 a submitted
offset is discarded; in a switchover gap or a replay it waits (R84). R76, R78: an ACQUIRING or LOCKED servo takes I + KI·θ as I and that
plus KP·θ as f, but in a stepping update, which steps the counter by −θ, I as f; f beyond freq_limit is clamped, I keeping its value
and limit_reached raised (in a stepping update too: notes/assumptions/68.md). The rate follows f and the lock state moves; R303: an
offset of the alarm threshold or more is reported. R80: in HOLDOVER with hold 0 the same ends HOLDOVER first, with a lock run of 0
(notes/assumptions/24.md). R80, R82: holdover_timeout without an accepted offset is noted unless an offset has been accepted in the same core
cycle; an offset accepted after it voids it, and with the cycle's end it puts the servo in HOLDOVER with f = I. -/
def Obligations.OffsetMovesTheServo : Prop :=
  (∀ (s : State) (m : Nat) (v : Word), s.calm → s.admits m Addr.TRN_OFFSET_HI v →
    (s.getB F.TRN_CTRL_source ∨ s.key.doubleFault) →
    Takes (.offsetSubmit m v) s ((s.stored m Addr.TRN_OFFSET_HI v).raise F.TRN_EVENT_offset_discarded))
  ∧ (∀ (s : State) (m : Nat) (v : Word), s.calm → s.admits m Addr.TRN_OFFSET_HI v → s.getB F.TRN_CTRL_source = false →
    s.key.doubleFault = false → s.key.log.length < 765 →
    let th := signed 48 ((s.reg Addr.TRN_OFFSET_LO).toNat + fldOf v 0 16 * 2 ^ 32)
    let t := s.stored m Addr.TRN_OFFSET_HI v
    (s.ksBusy → Takes (.offsetSubmit m v) s { t with key := { t.key with deferred := t.key.deferred ++ [.theta th] } })
    ∧ (s.ksBusy = false → (s.key.ks.servo = .disabled ∨ (s.key.ks.servo = .holdover ∧ s.key.ks.hold)) →
      Takes (.offsetSubmit m v) s ((t.raise F.TRN_EVENT_offset_discarded).ksLog .theta))
    ∧ (s.ksBusy = false → s.key.ks.servo ≠ .disabled → (s.key.ks.servo = .holdover → s.key.ks.hold = false) →
      let y := if s.key.ks.servo = .holdover then
          (t.setKs fun k => { k with servo := .acquiring, lockRun := 0 }).raise F.TRN_EVENT_holdover_exit
        else t
      let thr := s.getF F.SAF_TIME_ALARM_time_alarm_threshold
      let z := if thr ≠ 0 ∧ thr * 2 ^ 16 ≤ th.natAbs then (y.raise F.SAF_EVENT_time_alarm).react 0x0E 0 0 0 else y
      let stepping := s.getB F.TRN_CTRL_step_enable ∧ s.getF F.TRN_STEP_THRESHOLD_step_threshold * 2 ^ 16 ≤ th.natAbs
      let lim : Nat := s.getF F.TRN_FREQ_LIMIT_freq_limit * 2 ^ 32
      let i := if stepping then s.key.ks.i else s.key.ks.i + (s.getF F.TRN_KI_ki : Nat) * th
      let f := if stepping then s.key.ks.i else i + (s.getF F.TRN_KP_kp : Nat) * th
      let newI := if lim < f.natAbs then s.key.ks.i else i
      let newF := if lim < f.natAbs then f.sign * lim else f
      let (st, lockRun, entered, left) := y.lockUpdate th
      let x : State := { z with trn := { z.trn with thetaAt := some s.now, expired := false } }
      Takes (.offsetSubmit m v) s
        ((((((((x.setKs fun k => { k with i := newI, f := newF, servo := st, lockRun := lockRun }).raiseIf (decide (lim < f.natAbs))
          F.TRN_EVENT_limit_reached).raiseIf entered F.TRN_EVENT_locked).raiseIf left F.TRN_EVENT_unlocked).setRate newF).showServo).stepTime
          (if stepping then -th * 2 ^ 24 else 0)).ksLog .theta)))
  ∧ (∀ s : State, s.calm → s.key.doubleFault = false →
    (s.trn.thetaAt ≠ some s.now → Takes .holdoverTimeout s { s with trn := { s.trn with expired := true } })
    ∧ (s.trn.thetaAt = some s.now → Idles .holdoverTimeout s))
  ∧ (∀ s : State, s.trn.expired → s.ksBusy = false → s.key.doubleFault = false →
    (s.key.ks.servo = .acquiring ∨ s.key.ks.servo = .locked) →
    let x : State := { s with trn := { s.trn with expired := false } }
    s.expire
      = ((((((x.setKs fun k => { k with servo := .holdover, f := k.i }).setRate s.key.ks.i).showServo).raise
          F.TRN_EVENT_holdover_enter).raiseIf (decide (s.key.ks.servo = .locked)) F.TRN_EVENT_unlocked).ksLog .timer))

/-- R100: within a cycle of an active TIME-bound Ephemeris the next slot begins at its boundary, connections that it does not
continue ending; at the cycle's end slot 0 begins and a cycle is counted. R107: an armed switch to an Ephemeris takes place at
its effective time. The slot's record can be read. -/
def Obligations.SlotsAndSwitches : Prop :=
  (∀ s : State, s.calm → s.ephOn → ephRefBound s.cal = false → s.fly.slot + 1 < ephSlots s.cal →
    s.fly.slot + 1 ∉ s.eph.1.badSlots →
    Takes .slotBoundary s ((s.cutConnections s.cal s.fly.slot (s.fly.slot + 1) false).enterSlot (s.fly.slot + 1)))
  ∧ (∀ s : State, s.calm → s.ephOn → ephRefBound s.cal = false → s.fly.slot + 1 = ephSlots s.cal → 0 ∉ s.eph.1.badSlots →
    s.fly.armed = none →
    let t := s.cutConnections s.cal s.fly.slot 0 false
    Takes .slotBoundary s
      ((({ t with fly := { t.fly with cycleStart := s.fly.cycleStart + ephCycleLen s.cal } } : State).enterSlot 0).cycleTick))
  ∧ (∀ (s : State) (a : PendAct), s.calm → s.fly.armed = some a → a.predicted = false → bitAt a.sel 0 → s.eph.2.valid →
    0 ∉ s.eph.2.badSlots → ephSlots s.eph.2.blob - 1 ∉ s.eph.2.badSlots →
    (bitAt a.sel 1 → s.ash.2.valid) →
    Takes .bankSwitch s (s.switchAt a.tEff))

/-- R103: the selected edge at an enabled CYCLE_REF_IN under a CYCLE_REF-bound Ephemeris arms the next cycle start after ref_offset and
measures the interval from the edge before; one that follows it within ref_min is ignored and counted; the
other edge only turns the level (notes/assumptions/72.md). R106: ref_max without a
cycle start while LOCKED starts the cycle and runs free. -/
def Obligations.CycleReference : Prop :=
  (∀ s : State, s.calm → s.getB F.EPH_CTRL_ref_in_en → s.getB F.EPH_CTRL_ref_edge = s.pins.ref → s.ksBusy = false → s.ephOn →
    ephRefBound s.cal → s.key.doubleFault = false →
    (∀ last l, s.key.ks.edges = last :: l → (s.cal.le 0x28 4 : Int) ≤ (s.timeNs : Int) - last) → s.key.log.length < 767 →
    let t := s.turnRef.setKs fun k => { k with edges := ((s.timeNs : Int) :: k.edges).take 2,
                                               refMeas := match k.edges with | [] => k.refMeas | last :: _ => ((s.timeNs : Int) - last).toNat }
    Takes .cycleRefEdge s
      (({ t with fly := { t.fly with armedStart := some ((s.timeNs : Int) + s.cal.le 0x20 4), fromEdge := true } } : State).ksLog .cycleRef))
  ∧ (∀ (s : State) (last : Int) (l : List Int), s.calm → s.getB F.EPH_CTRL_ref_in_en → s.getB F.EPH_CTRL_ref_edge = s.pins.ref →
    s.ksBusy = false → s.ephOn → ephRefBound s.cal → s.key.doubleFault = false → s.key.ks.edges = last :: l →
    (s.timeNs : Int) - last < s.cal.le 0x28 4 →
    Takes .cycleRefEdge s (s.turnRef.count 2 0 3))
  ∧ (∀ s : State, s.calm → (s.getB F.EPH_CTRL_ref_in_en = false ∨ s.getB F.EPH_CTRL_ref_edge = !s.pins.ref) →
    Takes .cycleRefEdge s s.turnRef)
  ∧ (∀ s : State, s.calm → s.ephOn → ephRefBound s.cal → s.fly.started → s.key.ks.refState = 2 → s.fly.fromEdge = false →
    0 ∉ s.eph.1.badSlots → s.fly.armed = none →
    Takes .refMissing s (s.refCycleStart (s.fly.cycleStart + s.cal.le 0x24 4)))

/-- R108, R109: an armed go of EPH.ACTIVATE outside BOOT, SAFE_HOLD and PARKING whose selection can be switched arms the switch for
the first instant its calendar allows, and shows it; R109: an armed cancel at least 1 µs before the effective time withdraws the
pending request. R282: both are logged. -/
def Obligations.ActivationByRegister : Prop :=
  (∀ (s : State) (m : Nat) (v : Word), s.calm → s.admits m Addr.EPH_ACTIVATE v → s.armed m → fldOf v 0 1 = 1 → fldOf v 3 1 = 0 →
    s.ksBusy = false → s.key.log.length < 767 → (s.dev = .config ∨ s.dev = .ready ∨ s.dev = .degraded) →
    let t := s.stored m Addr.EPH_ACTIVATE v
    let sel := t.getF F.EPH_ACTIVATE_select
    let tReq := (t.getF F.EPH_ACT_TIME_SEC_LO_req_sec_lo + t.getF F.EPH_ACT_TIME_SEC_HI_req_sec_hi * 2 ^ 32) * 10 ^ 9
      + t.getF F.EPH_ACT_TIME_NS_req_ns
    ∀ (c : Nat) (a : PendAct) (x : State), t.requestSwitch sel tReq = (c, some a, x) →
    Takes (.ephActivateGo m v) s (((x.showAct 1 c sel (decide (c = 0x0C)) a.predicted).setF F.EPH_ACT_STATUS_busy_refused 0).ksLog
        .command)
      ∧ x.fly.armed = some a ∧ x.key.ks.pend = some a ∧ a.sel = sel ∧ a.tReq = tReq)
  ∧ (∀ (s : State) (m : Nat) (v : Word) (a : PendAct), s.calm → s.admits m Addr.EPH_ACTIVATE v → s.armed m → fldOf v 0 1 = 0 →
    fldOf v 3 1 = 1 → s.ksBusy = false → s.key.log.length < 767 → s.key.ks.pend = some a → s.nsCeil + 1000 ≤ a.tEff →
    let t := s.stored m Addr.EPH_ACTIVATE v
    Takes (.ephActivateCancel m v) s
      ((({ t.setKs fun k => { k with pend := none } with fly := { t.fly with armed := none } } : State).setF F.EPH_ACT_STATUS_act_state
        0).ksLog .command))

/-! ### The queue, reset and events (R368, R397, R400) -/

/-- A step with a command at the front of the queue is that command's exec with the rest of the queue. -/
def Obligations.StepRunsTheFront : Prop :=
  ∀ (c : Instr) (s : State), step { s with pending := c :: s.pending } = exec c s

/-- Every command of the table answers a next state in every state: none is refused, none faults. -/
def Obligations.EveryCommandAnswers : Prop := ∀ (c : Instr) (s : State), ∃ t, exec c s = .next t

/-- The model's choice (notes/assumptions/1.md): with an empty queue a calm block passes one core cycle. R69, R89: the time counter
advances by RATE_NOW and a pulse of the 1PPS output runs on; R253: the children of the schedulers that have become eligible wake; the
conductor and the ports stay as they were, but for an expiry of holdover_timeout that was noted (R82). R211: an egress pipeline releases
the first copy of a queue that is being flushed; R224: a pipeline whose expansion queue is full counts a stall. R285: a switchover gap
whose end is reached ends; R397: a reset that was asked for takes effect at its time. R20: a core die that has stopped passes none. -/
def Obligations.EmptyQueuePassesACycle : Prop :=
  (∀ s : State, s.pending = [] → s.calm → s.pwr.phase ≠ .held → s.key.log.length < 767 →
    let early : Prop := ∀ r, s.pwr.pendingReset = some r → s.now + 1 < r.1
    ((∀ t, s.key.gapEnd = some t → s.now + 1 < t) → early → Yields (step s) s.cycled)
    ∧ (∀ t, s.key.gapEnd = some t → t ≤ s.now + 1 → early → s.key.commit.queue = [] → Yields (step s) s.cycled.endGap)
    ∧ (∀ r, s.pwr.pendingReset = some r → r.1 ≤ s.now + 1 → (∀ t, s.key.gapEnd = some t → s.now + 1 < t) →
      Yields (step s) (s.cycled.sysReset r.2)))
  ∧ (∀ s : State, s.clocked.now = s.now + 1 ∧ s.clocked.ports = s.ports ∧ s.clocked.key = s.expire.key
    ∧ s.clocked.fab = (s.pcLevels.includeEvents.expire.wakePorts.wakeCpu).fab
    ∧ (s.trn.expired = false → s.expire = s
      ∧ s.clocked.trn = { s.trn with time := (s.trn.time + s.rateNow) % timeRange, pulse := s.trn.pulse - s.rateNow }
      ∧ s.clocked.fly = s.fly))
  ∧ (∀ s : State, (∀ e ∈ s.clocked.fab.queues, e.2.flush = []) → (∀ e ∈ s.ports, e.2.skid = [] ∧ e.2.holdNow = false) →
    (∀ n, n < 8 → (s.clocked.expandQ n).length < 64) → s.cycled = s.clocked)
  ∧ (∀ (s : State) (x : Nat) (c : Copy) (l : List Copy), SMap.wf (fun _ => Queue.init) s.fab.queues →
    (s.queue x).flush = c :: l → s.copyInHbm c = false → s.queueUnit x < 9 →
    (∀ y, y ≠ x → s.queueUnit y = s.queueUnit x → (s.queue y).flush = []) → (s.flushCycle.queue x).flush = l)
  ∧ (∀ (s : State) (n : Nat), n < 8 →
    s.expandStalls.ctr (ctrKey 9 n 0) = if 64 ≤ (s.expandQ n).length then (s.ctr (ctrKey 9 n 0) + 1) % 2 ^ 64 else s.ctr (ctrKey 9 n 0))
  ∧ ∀ s : State, s.pending = [] → s.stopped → step s = .next s

/-- R71, R278, R308, R367, R396, R397: after reset the device is in BOOT, network time is zero, only D0 is on, both Keystones
are in INIT, the budget is 760 W, both alarm outputs are asserted, no image bank is valid, and the tables hold the reset grants.
The invariant holds at reset. -/
def Obligations.ResetState : Prop :=
  (State.reset.dev = .boot ∧ State.reset.trn.time = 0 ∧ State.reset.domainOn 0 ∧ (∀ d, 1 ≤ d → d < 38 → State.reset.domainOn d = false)
    ∧ State.reset.unitState .a = 0 ∧ State.reset.unitState .b = 0 ∧ State.reset.budget = 7600 ∧ State.reset.alarm .a
    ∧ State.reset.alarm .b ∧ State.reset.eph.1.valid = false ∧ State.reset.eph.2.valid = false ∧ State.reset.ash.1.valid = false
    ∧ State.reset.ash.2.valid = false ∧ State.reset.pending = [] ∧ (∀ r, r < 16 → State.reset.accessCode 0 11 r = 2)
    ∧ State.reset.accessCode 1 0 0 = 1 ∧ State.reset.accessCode 16 11 0 = 1 ∧ State.reset.accessCode 19 0 0 = 0
    ∧ State.reset.accessCode 20 6 0 = 1 ∧ State.reset.sec.credits = 64)
  ∧ (State.reset.Inv)

/-- R368, R400: from every state that meets it every step leads to a state that meets it: the events raised have been settled, a
READY device has no cause of degradation, and one in CONFIG lacks an active Ephemeris or an active Ashlar image. -/
def Obligations.EveryStepKeepsTheInvariant : Prop := ∀ s t : State, s.Inv → step s = .next t → t.Inv

/-- R368 items 1 and 4: an event raised in a block that is on sets its bit, keeps every other bit of the register and advances the
count by 1, whether or not the bit was set, once in a core cycle; bits that a write of the same core cycle has cleared stand again.
R339: while the event ring runs and the block's bit of HIF.EVENT_MASK is set, the advance posts one descriptor in the entry at head; with
no entry free the loss is counted, event_overflow is set and event_lost raised. R379: an EDGE counter counts a core cycle in which its
bit or its event rises, a LEVEL counter one in which its bit reads 1. -/
def Obligations.EventsSetBitsAndCount : Prop :=
  (∀ (old s : State) (a b : Nat), s.raised = [(a, b)] → quietReg a → (s.domainOn (domainOf a) || sharedPipe a) →
    let q := s.sqcOf a
    (∀ c : Nat × Word, q.cleared = some c → c.1 = s.now → (State.settle old s).reg a = s.reg a ||| BitVec.ofNat 32 b ||| c.2)
      ∧ ((∀ c : Nat × Word, q.cleared = some c → c.1 ≠ s.now) → (State.settle old s).reg a = s.reg a ||| BitVec.ofNat 32 b)
      ∧ ((State.settle old s).sqcOf a).count = (if q.advanced = some s.now then q.count else q.count + 1)
      ∧ ((State.settle old s).sqcOf a).advanced = some s.now ∧ ((State.settle old s).sqcOf a).latch = q.latch)
  ∧ (∀ (old s : State) (a b : Nat), s.raised = [(a, b)] → (a < 0x94000 ∨ 0x98000 ≤ a) →
    (s.domainOn (domainOf a) || sharedPipe a) → (s.sqcOf a).advanced ≠ some s.now → s.pcOn = [] →
    let t := ({ s with raised := [] } : State).commitReg (a, b)
    t.ringRuns 0x100 → t.getFBit F.HIF_EVENT_MASK_block_mask (blockBit a) →
    (t.ringAvail 0x100 1 ≠ 0 →
      let d := leBytes 4 (a % 2 ^ 24) ++ leBytes 4 (t.view a).toNat ++ t.tsNow ++ [0, 0, 0, 0, 0, 0, 0, 0]
      State.settle old s
        = (((t.hostWrite (t.ringAddr 0x100 0) d).ringAdvance 0x100 1).setF F.HIF_STATUS_event_overflow 0).ringPass 0x100 1)
    ∧ (t.ringAvail 0x100 1 = 0 → t.getFBit F.HIF_EVENT_MASK_block_mask 1 = false →
      State.settle old s
        = ((t.count 21 0 0).setF F.HIF_STATUS_event_overflow 1).commitReg (F.HIF_EVENT_event_lost.addr, 2 ^ F.HIF_EVENT_event_lost.lo)))
  ∧ (∀ old s : State, s.raised = [] → (s.pcCount (s.pcHits old)).raised = [] → (s.pcCount (s.pcHits old)).pcHits s = [] →
    State.settle old s = s.pcCount (s.pcHits old))
  ∧ ∀ (old s : State) (l : List Nat) (k : Nat), (l = s.pcHits old ∨ l = (s.pcMode 1).filter fun j => s.pcBit j s) → l.Nodup → k ∈ l →
    s.pcWritten k = false → s.ctr (ctrKey 26 k 0) + 1 < 2 ^ 32 → (s.pcCount l).ctr (ctrKey 26 k 0) = s.ctr (ctrKey 26 k 0) + 1

/-- R397: SYS_RST_N and an armed write of go to PWR.SW_RESET ask for a reset that takes effect 64 core cycles later. It clears the
banks, the tables, the counters, the Observing log and every register but those of TRN and PWR.BUDGET, which with the slot position are
kept, switches every domain off and boots; time keeps running, and a servo that was not DISABLED enters HOLDOVER with I from
TRN.SERVO_I. PWRON_RST_N clears time and the registers as well, and keeps MRAM; the device stays in BOOT. R398, R445: its release samples
the straps and starts the boot, which counts in MRAM. -/
def Obligations.Resets : Prop :=
  (∀ s : State, s.calm → s.pwr.pendingReset = none → s.pwr.phase ≠ .held →
    Takes .sysRstN s { s with pwr := { s.pwr with pendingReset := some (s.now + 64, 1) } })
  ∧ (∀ (s : State) (m : Nat) (v : Word), s.calm → s.admits m Addr.PWR_SW_RESET v → s.pwr.pendingReset = none → s.pwr.phase ≠ .held →
    let t := s.stored m Addr.PWR_SW_RESET v
    Takes (.softwareReset m v) s
      (if s.armed m && decide (fldOf v 0 1 = 1) then { t with pwr := { t.pwr with pendingReset := some (s.now + 64, 2) } } else t))
  ∧ (∀ (s : State) (cause : Nat), cause < 4 →
    let u := s.sysReset cause
    u.dev = .boot ∧ u.trn = s.trn ∧ u.fly.slot = s.fly.slot ∧ u.fly.cycleStart = s.fly.cycleStart ∧ u.budget = s.budget
    ∧ u.eph = (.empty, .empty) ∧ u.ash = (.empty, .empty) ∧ u.tabs = [] ∧ u.tcam = [] ∧ u.hr = [] ∧ u.ctrs = [] ∧ u.hif.log = []
    ∧ u.dma = [] ∧ u.saf.causes = [] ∧ u.fab.frames = [] ∧ u.ports = [] ∧ u.pending = s.pending ∧ u.host = s.host ∧ u.pins = s.pins
    ∧ u.getF F.PWR_RESET_CAUSE_cause = cause ∧ (∀ d, 1 ≤ d → d < 25 → u.domainOn d = false)
    ∧ (∀ d, 27 ≤ d → d < 34 → u.domainOn d = false)
    ∧ (∀ t e, t < 152 → e < 32 → u.reg (Addr.ACC_TABLE t e) = BitVec.ofNat 32 (resetGrant t e))
    ∧ u.mram.faults = s.mram.faults ∧ u.mram.bootCount = (s.mram.bootCount + 1) % 2 ^ 32
    ∧ (s.key.ks.servo = .disabled → u.key.ks.servo = .disabled
      ∧ ∀ a, 0x70000 ≤ a → a < 0x80000 → u.reg a = s.reg a)
    ∧ (s.key.ks.servo ≠ .disabled →
      u.key.ks.servo = .holdover ∧ u.key.ks.i = signed 32 (s.getF F.TRN_SERVO_I_i_term) * 2 ^ 24 ∧ u.key.ks.f = u.key.ks.i))
  ∧ (∀ s : State,
    let u := s.powerOnReset
    Takes .pwronRstN s u ∧ u.dev = .boot ∧ u.trn.time = 0 ∧ u.regs = [] ∧ u.eph = (.empty, .empty)
    ∧ u.ash = (.empty, .empty) ∧ u.tabs = [] ∧ u.tcam = [] ∧ u.ctrs = [] ∧ u.hif.log = [] ∧ u.mram = s.mram ∧ u.part = s.part
    ∧ u.pending = s.pending ∧ u.pwr.phase = .held)
  ∧ ∀ (s : State) (straps : BitVec 16), s.calm → s.pwr.phase = .held →
    let u := State.bootStart { s.powerOnReset with part := { s.part with straps := straps } }
    Takes (.pwronRstNRelease straps) s u ∧ u.mram.bootCount = (s.mram.bootCount + 1) % 2 ^ 32 ∧ u.part.straps = straps

/-! ### Registers (R362 to R374) -/

/-- R372: a write of 4 bytes that passes every check changes the fields that its access codes let it change and consumes the arming;
a write of 8 bytes is two such writes, the lower address first (R362). Neither starts anything in these registers. -/
def Obligations.RegisterWriteStores : Prop :=
  (∀ (s : State) (m a : Nat) (v : BitVec 64), s.calm → storesOnly (canonAddr a) → s.admits m a (BitVec.ofNat 32 v.toNat) →
    Takes (.registerWrite m a 4 v) s (s.stored m a (BitVec.ofNat 32 v.toNat)))
  ∧ (∀ (s : State) (m a : Nat) (v : BitVec 64), s.calm → storesOnly (canonAddr a) → storesOnly (canonAddr (a + 4)) →
    s.admits m a (BitVec.ofNat 32 v.toNat) →
    (s.stored m a (BitVec.ofNat 32 v.toNat)).admits m (a + 4) (BitVec.ofNat 32 (v.toNat / 2 ^ 32)) →
    Takes (.registerWrite m a 8 v) s
      ((s.stored m a (BitVec.ofNat 32 v.toNat)).stored m (a + 4) (BitVec.ofNat 32 (v.toNat / 2 ^ 32))))
  ∧ ∀ (s : State) (m : Nat) (v : Word), s.calm → s.admits m Addr.SAF_CTRL v → Takes (.alarmRelease m v) s (s.stored m Addr.SAF_CTRL v)

/-- R362, R366, R370, R372, R392: a short write raises bad_width alone; a denied one leaves the register and the arming as they are
and is recorded; one to a domain that is off consumes the arming and is recorded; one of a KEY field by an unarmed master changes
the RW fields alone and is recorded. -/
def Obligations.RegisterWriteRefused : Prop :=
  (∀ (s : State) (m a n : Nat) (v : BitVec 64), s.calm → n < 4 → Takes (.registerWrite m a n v) s (s.raise F.SYS_EVENT_bad_width))
  ∧ (∀ (s : State) (m a t : Nat) (v : BitVec 64), s.calm → storesOnly a → targetOf a = some t → s.permitted m a 2 = false →
    Takes (.registerWrite m a 4 v) s (s.violation m 1 t a 0))
  ∧ (∀ (s : State) (m a : Nat) (v : BitVec 64), s.calm → storesOnly a → (targetOf a).isSome → s.permitted m a 2 →
    (regDesc (canonAddr a)).isSome → s.regOn a = false →
    Takes (.registerWrite m a 4 v) s ((s.setArmed m false).offAccess m a))
  ∧ ∀ (s : State) (m a : Nat) (v : BitVec 64) (d : RegDesc), s.calm → storesOnly (canonAddr a) → (targetOf a).isSome → s.permitted m a 2 →
    regDesc (canonAddr a) = some d → s.regOn a → isSqc (canonAddr a) = false → s.armed m = false →
    keyDiffers d (BitVec.ofNat 32 v.toNat) ((s.setArmed m false).view (canonAddr a)) →
    let t := s.setArmed m false
    let w := BitVec.ofNat 32 v.toNat
    Takes (.registerWrite m a 4 v) s
      ((t.keyRefused m a).setRegBits (canonAddr a) (BitVec.ofNat 32 (writeMask d false w) &&& t.allow m (canonAddr a) w) w)

/-- R362, R366, R392: a read of 1, 2, 4 or 8 bytes of registers that events do not sequence, with no copy of them disturbed, returns
the bytes addressed and changes nothing, also where they lie in several registers; one that meets a register the master may not read
returns all-ones and is recorded once; one of a domain that is off returns zero and is recorded. -/
def Obligations.RegisterReads : Prop :=
  ∀ (s : State) (m a n : Nat), s.calm → (n = 1 ∨ n = 2 ∨ n = 4 ∨ n = 8) →
    let l := wordsOf a n
    ((∀ x ∈ l, s.permitted m x 1 ∧ (regDesc (canonAddr x)).isSome ∧ s.regOn x ∧ canonAddr x ≠ Addr.SEC_RANDOM
        ∧ isSqc (canonAddr x) = false ∧ ∀ e ∈ s.tmrB ++ s.tmrC, e.1 ≠ canonAddr x) →
      let w := l.foldr (fun x k => (s.view x).toNat + k * 2 ^ 32) 0
      Takes (.registerRead m a n) s { s with rd := BitVec.ofNat 64 (bitsOf w (8 * (a % 4)) (8 * n)) })
    ∧ (∀ x, (l.find? fun y => !s.permitted m y 1) = some x →
      Takes (.registerRead m a n) s { s.violation m 0 ((targetOf x).getD 0) x 0 with rd := BitVec.ofNat 64 (2 ^ (8 * n) - 1) })
    ∧ (∀ x, l = [x] → s.permitted m x 1 → (regDesc (canonAddr x)).isSome → s.regOn x = false →
      Takes (.registerRead m a n) s { s.offAccess m x with rd := 0 })

/-- R368 items 2 and 3: a permitted read of a sequence-cleared register returns it with seq and copies the count into the latch; a
permitted write clears exactly the event bits written 1 when seq matches, the count equals the latch and no event of the register
falls in its core cycle, and nothing otherwise. -/
def Obligations.SequenceClearedRegisters : Prop :=
  (∀ (s : State) (m a : Nat), s.calm → a % 4 = 0 → s.permitted m a 1 → s.regOn a → isSqc (canonAddr a) →
    canonAddr a ≠ Addr.SEC_RANDOM → (∀ e ∈ s.tmrB ++ s.tmrC, e.1 ≠ canonAddr a) →
    Takes (.sqcRead m a) s
      (let t := s.setSqc (canonAddr a) { s.sqcOf (canonAddr a) with latch := (s.sqcOf (canonAddr a)).count }
       { t with rd := BitVec.ofNat 64 (s.view a).toNat }))
  ∧ ∀ (s : State) (m a : Nat) (v : Word) (d : RegDesc), s.calm → (targetOf a).isSome → s.permitted m a 2 → s.regOn a →
    regDesc (canonAddr a) = some d → isSqc (canonAddr a) →
    let t := s.setArmed m false
    let ev := (d.fields.filter fun f => decide (f.acc = .sqc) && decide (f.lo ≠ 24)).foldl (fun n f => n + (2 ^ f.width - 1) * 2 ^ f.lo) 0
    Takes (.sqcClear m a v) s
      (let q := s.sqcOf (canonAddr a)
       let gone := s.reg (canonAddr a) &&& v &&& BitVec.ofNat 32 ev
       if fldOf v 24 8 = q.count.toNat % 256 ∧ q.count = q.latch ∧ q.advanced ≠ some s.now then
         (t.setReg (canonAddr a) (s.reg (canonAddr a) &&& ~~~ gone)).setSqc (canonAddr a) { q with cleared := some (s.now, gone) }
       else t)

/-- R369: a permitted write of 0x5AC3 to key in SYS.UNLOCK arms the writing master and one of another value disarms it; an
arming left unused ends. R365 to R367, R370, R374: a permitted write of an access-table entry of a target the tables hold takes
effect when the master is armed, the write is not refused and no code is reserved; refused whole it only raises table_refused;
one by an unarmed master that would change a field is refused as a KEY write and raises table_refused besides. -/
def Obligations.ArmingAndAccessTables : Prop :=
  ((∀ (s : State) (m : Nat) (v : Word), s.calm → m < 32 → s.admits m Addr.SYS_UNLOCK v →
    Takes (.unlock m v) s ((s.stored m Addr.SYS_UNLOCK v).setArmed m (decide (fldOf v 0 16 = 0x5AC3))))
  ∧ ∀ (s : State) (m : Nat), s.calm → m < 32 → Takes (.unlockTimeout m) s (s.setArmed m false))
  ∧ (∀ (s : State) (m t e : Nat) (v : Word), s.calm → t < 152 → t ≠ 15 → e < 32 → s.permitted m (Addr.ACC_TABLE t e) 2 →
    (s.armed m → s.tableRefused t e v = false → (∀ k < 16, fldOf v (2 * k) 2 ≠ 3) →
      Takes (.accTableWrite m t e v) s ((s.setArmed m false).setReg (Addr.ACC_TABLE t e) v))
    ∧ (s.armed m → s.tableRefused t e v →
      Takes (.accTableWrite m t e v) s ((s.setArmed m false).raise F.ACC_EVENT_table_refused))
    ∧ (s.armed m = false → v ≠ s.reg (Addr.ACC_TABLE t e) →
      Takes (.accTableWrite m t e v) s
        (((s.setArmed m false).keyRefused m (Addr.ACC_TABLE t e)).raise F.ACC_EVENT_table_refused)))


/-! ### Buffers, shapers and FRER (R194 to R218, R230 to R258) -/

/-- R197: ONCHIP_AVAIL is 786,432 cells, less the prefetch area of 32,768 while hbm_en is set, less the quarantined ones. HBM_AVAIL is
zero while hbm_en is clear, and otherwise 4,194,304 cells for each of 31 channels with the spare and of 32 without it, less the retired
channels that the spare does not replace. -/
def Obligations.CellsAvailable : Prop :=
  ∀ s : State, s.fab.spareWanted = s.getB F.BUF_CTRL_hbm_spare_en → s.fab.hbmReloc = none →
    s.onchipAvail = 786432 - (if s.getB F.BUF_CTRL_hbm_en then 32768 else 0) - s.fab.quarantined.length
    ∧ (s.getB F.BUF_CTRL_hbm_en = false → s.hbmAvail = 0)
    ∧ (s.getB F.BUF_CTRL_hbm_en → s.part.en = false →
      let n := if s.getB F.BUF_CTRL_hbm_spare_en then 31 else 32
      let gone := fun (c : Nat) => s.getFBit F.BUF_HBM_RETIRED_retired c = true
        ∧ ¬ (s.getB F.BUF_HBM_SPARE_MAP_in_use = true ∧ s.getF F.BUF_HBM_SPARE_MAP_replaced = c)
      s.hbmAvail = 4194304 * (n - ((List.range n).filter fun c => decide (gone c)).length))

/-- R196, R197: an apply that asks for more cells of a memory than are available is refused with OVER_CAPACITY, and with enough of them one
whose headroom exceeds its pool's on-chip size, that gives a FAIL_FAST pool headroom, or that gives HBM cells to a pool from 12 up or on
SV-E5128-EN is refused with BAD_FIELD (the order of the two is the model's reading: notes/assumptions/35.md); R218: one that passes takes
the registers of all 16 pools into force with hbm_spare_en. pool_apply_done is raised either way. -/
def Obligations.PoolApply : Prop :=
  ∀ (s : State) (m : Nat) (v : Word), s.calm → s.admits m Addr.BUF_POOL_APPLY v → fldOf v 0 1 = 1 →
    let t := s.stored m Addr.BUF_POOL_APPLY v
    let w : State := { t with fab := { t.fab with spareWanted := t.getB F.BUF_CTRL_hbm_spare_en } }
    let onchip := fun (k : Nat) => w.getF (F.BUF_POOL_ONCHIP_size_onchip k)
    let hbm := fun (k : Nat) => w.getF (F.BUF_POOL_HBM_size_hbm k)
    let headroom := fun (k : Nat) => w.getF (F.BUF_POOL_HEADROOM_headroom k)
    let above : Prop := w.onchipAvail < ((List.range 16).map onchip).sum ∨ w.hbmAvail < ((List.range 16).map hbm).sum
    let bad := fun (k : Nat) => onchip k < headroom k ∨ (w.getB (F.BUF_POOL_CFG_mode k) = false ∧ headroom k ≠ 0)
      ∨ (12 ≤ k ∧ hbm k ≠ 0) ∨ (w.part.en = true ∧ hbm k ≠ 0)
    let status := fun (x : State) (n : Nat) => (x.setF F.BUF_POOL_APPLY_STATUS_pool_apply_status n).raise F.BUF_EVENT_pool_apply_done
    (above → Takes (.poolApply m v) s (status t 2))
    ∧ (¬ above → (∃ k, k < 16 ∧ bad k) → Takes (.poolApply m v) s (status t 3))
    ∧ (¬ above → (∀ k, k < 16 → ¬ bad k) →
      let x := w.each (List.range 16) State.takePool
      Takes (.poolApply m v) s (status (x.dropCause Cause.ofHbm) 1)
      ∧ ∀ k, k < 16 → (x.pool k).threshold = w.getB (F.BUF_POOL_CFG_mode k) ∧ (x.pool k).onchip = onchip k ∧ (x.pool k).hbm = hbm k
          ∧ (x.pool k).headroom = headroom k ∧ (x.pool k).used = (w.pool k).used ∧ (x.pool k).usedHbm = (w.pool k).usedHbm)

/-- R217, R218: an armed go of BUF.HBM_RETIRE marks the channel retired, reports diagnostic 0x02 of class REDUNDANCY and starts the
relocation of its cells to the free spare, relocated at zero; while relocating go is ignored. The relocation's end puts the spare into
the channel's place and counts the cells still in use as moved; R209: a cell that fails its CRC on the way loses its frame
(notes/assumptions/42.md). -/
def Obligations.ChannelRetirement : Prop :=
  (∀ (s : State) (m : Nat) (v : Word), s.calm → s.admits m Addr.BUF_HBM_RETIRE v → s.armed m → fldOf v 5 1 = 1 → s.part.en = false →
    let t := s.stored m Addr.BUF_HBM_RETIRE v
    let c := t.getF F.BUF_HBM_RETIRE_channel
    (s.fab.hbmReloc.isSome → Takes (.hbmRetire m v) s t)
    ∧ (s.fab.hbmReloc = none → c < 31 → t.getFBit F.BUF_HBM_RETIRED_retired c = false → s.fab.spareWanted →
      t.getB F.BUF_HBM_SPARE_MAP_in_use = false → t.getFBit F.BUF_HBM_RETIRED_retired 31 = false → s.key.log.length < 767 →
      let x := t.setFBit F.BUF_HBM_RETIRED_retired c true
      let y : State := { x with fab := { x.fab with hbmReloc := some (c, (s.channelCells c).map Prod.fst) } }
      Takes (.hbmRetire m v) s ((y.setF F.BUF_HBM_RELOC_relocated 0).react 0x02 1 c c)))
  ∧ ∀ (s : State) (c : Nat) (l : List Nat), s.calm → s.fab.hbmReloc = some (c, l) →
    let live := l.filter fun a => (s.cell a).isSome
    (∀ a i : Nat, s.pwr.phase ≠ .held → a ∈ l → s.holders a = [i] → (s.key.logOn = false ∨ s.key.log.length < 766) →
      Takes (.faultReport ⟨0x02, a, 2⟩) s (s.crcFail i a))
    ∧ Takes .hbmRelocationDone s
      ((((((({ s with fab := { s.fab with hbmReloc := none } } : State).setF F.BUF_HBM_SPARE_MAP_replaced c).setF
        F.BUF_HBM_SPARE_MAP_in_use 1).setF F.BUF_HBM_RELOC_relocated live.length).countN 8 0 5 live.length).raise
        F.BUF_EVENT_relocation_done))

/-- R214: the scrubber counts a corrected word; an uncorrectable cell is counted, recorded and reported as MASKED, and one in use is
bad with every frame that holds it, whose copies in transmission end after the last good byte (R53, notes/assumptions/57.md); R353: one
of the DMA engine's staging cells has its beat fetched again; an uncorrectable error of a structure takes its cells out of use and is
reported as REDUNDANCY.
R215: scrub_fast asks leave for 6 W, and its clearing gives the leave back and withdraws what waits for it. -/
def Obligations.Scrubbing : Prop :=
  (∀ s : State, s.calm → Takes (.scrub .corrected) s (s.count 8 0 0))
  ∧ (∀ s : State, s.calm → Idles (.scrub .clean) s)
  ∧ (∀ (s : State) (a : Nat), s.calm → a < 2 ^ 27 → s.key.log.length < 767 →
    ((s.cell a).isSome → ∀ e ∈ s.dma, a ∉ e.2.cells) →
    let t := (((s.count 8 0 1).setF F.BUF_CELL_ERR_pointer a).setF F.BUF_CELL_ERR_kind 0).raise F.BUF_EVENT_ecc_uncorrectable
    let x := match s.cell a with
      | none => t
      | some c => (t.setCell a (some { c with bad := true })).each (s.holders a) fun y i => match y.frame i with
        | some g => (y.endAfterGood i).setFrame i (some { g with cellBad := true })
        | none => y
    Takes (.scrub (.cell a)) s ((((x.endTest).count 16 0 0).raise F.SAF_EVENT_fault_masked).ksLog .safety))
  ∧ (∀ (s : State) (a : Nat) (e : Nat × DmaCh), s.calm → a < 2 ^ 27 → s.key.log.length < 767 → (s.cell a).isSome →
    s.dma.find? (fun d => decide (a ∈ d.2.cells)) = some e → (s.ch e.1).cells ≠ [] →
    let t := (((s.count 8 0 1).setF F.BUF_CELL_ERR_pointer a).setF F.BUF_CELL_ERR_kind 0).raise F.BUF_EVENT_ecc_uncorrectable
    Takes (.scrub (.cell a)) s ((((t.setCh e.1 (s.ch e.1).refetch).count 23 0 0).raise F.DMA_EVENT_staging_ecc).react 0x01 0 e.1 0))
  ∧ (∀ (s : State) (n : Nat), s.calm → s.key.log.length < 767 →
    let t := s.countN 8 0 6 n
    Takes (.scrub (.structure_ n)) s
      ((({ t with fab := { t.fab with lost := t.fab.lost + n } } : State).raise F.BUF_EVENT_ecc_uncorrectable).react 0x01 1 0 0))
  ∧ ∀ (s : State) (m : Nat) (v : Word), s.calm → s.admits m Addr.BUF_CTRL v → s.ksBusy = false → s.key.log.length < 767 →
    let t := s.stored m Addr.BUF_CTRL v
    (t.getB F.BUF_CTRL_scrub_fast → s.holdsGrant 6 0 = false → s.dev ≠ .parking → s.dev ≠ .off → s.key.doubleFault = false →
      t.permanent + t.transient + 60 ≤ t.budget →
      Takes (.scrubFast m v) s ((t.setKs fun k => { k with grants := k.grants ++ [⟨6, 0, 60⟩] }).ksLog .power))
    ∧ (t.getB F.BUF_CTRL_scrub_fast = false →
      let x := t.allKs fun k => { k with queue := k.queue.filter fun g => decide (g ≠ ⟨6, 0, 60⟩) }
      Takes (.scrubFast m v) s
        (({ x with key := { x.key with deferred := x.key.deferred.filter fun d => decide (d ≠ .leave ⟨6, 0, 60⟩) } } :
          State).returnGrant 6 0))

/-- R257, R258: a write to the register that enables a shaper of a queue, of a port or of the CPU port loads the bucket of one that
was disabled with its burst; that of one that was enabled keeps its level, at most the burst; and one that stays or becomes disabled
keeps its level as it is. -/
def Obligations.ShaperEnable : Prop :=
  (∀ (s : State) (m x : Nat) (v : Word), s.calm → x < 4176 → s.admits m (Addr.TM_Q_CFG x) v →
    let t := s.stored m (Addr.TM_Q_CFG x) v
    let burst := t.getF (F.TM_Q_BURST_burst x)
    let kept := if (byteUnits burst : Int) ≤ (s.qTokens x).t then Bucket.full burst else s.qTokens x
    Takes (.shaperEnable m (.queue x) v) s
      (t.setQueue x { t.queue x with
        tokens := if t.getB (F.TM_Q_CFG_shaper_en x) then (if s.getB (F.TM_Q_CFG_shaper_en x) then kept else .full burst)
          else s.qTokens x,
        stamp := s.now }))
  ∧ (∀ (s : State) (m p : Nat) (v : Word), s.calm → p < 512 → s.admits m (Addr.TM_PORT_CFG p) v →
    let t := s.stored m (Addr.TM_PORT_CFG p) v
    let burst := t.getF (F.TM_PSHAPER_BURST_burst p)
    let kept := if (byteUnits burst : Int) ≤ (s.pTokens p).t then Bucket.full burst else s.pTokens p
    Takes (.shaperEnable m (.port p) v) s
      (t.setSched p { t.sched p with
        tokens := if t.getB (F.TM_PORT_CFG_pshaper_en p) then
            (if s.getB (F.TM_PORT_CFG_pshaper_en p) then kept else .full burst)
          else s.pTokens p,
        stamp := s.now }))
  ∧ ∀ (s : State) (m : Nat) (v : Word), s.calm → s.admits m Addr.TM_CPU_CFG v →
    let t := s.stored m Addr.TM_CPU_CFG v
    let burst := t.getF F.TM_CPU_BURST_burst
    let kept := if (byteUnits burst : Int) ≤ s.cpuTokensNow.t then Bucket.full burst else s.cpuTokensNow
    Takes (.shaperEnable m .cpu v) s
      { t with fab := { t.fab with
          cpuTokens := if t.getB F.TM_CPU_CFG_cpu_shaper_en then
              (if s.getB F.TM_CPU_CFG_cpu_shaper_en then kept else .full burst)
            else s.cpuTokensNow,
          cpuStamp := s.now } }

/-- R239, R246: an armed go of PIPE.FRER_RESET loads a generation entry's next number from its configuration, or asks for the reset
of a recovery function; the scanner that finds it asked, or the timer expired that no frame has restarted in the same core cycle, sets
take_any and counts, and otherwise does nothing. R240: at the end of a period with every member heard a difference above the threshold
is counted, raised, recorded and reported; either way the next period starts. -/
def Obligations.FrerResets : Prop :=
  (∀ (s : State) (m n : Nat) (v : Word), s.calm → n < 8 → s.admits m (Addr.PIPE_FRER_RESET n) v → s.armed m → fldOf v 15 1 = 1 →
    s.ash.1.valid →
    let t := s.stored m (Addr.PIPE_FRER_RESET n) v
    let k := t.getF (F.PIPE_FRER_RESET_index 0)
    (t.getF (F.PIPE_FRER_RESET_target 0) = 1 → (s.ash.1.stream k).kind = 1 →
      Takes (.frerReset m n v) s (t.setNextSeq k (s.ash.1.stream k).init))
    ∧ (t.getF (F.PIPE_FRER_RESET_target 0) = 0 → (s.ash.1.recovery k).valid →
      Takes (.frerReset m n v) s (t.setRec k { s.recState k with resetAsked := true })))
  ∧ (∀ (s : State) (k : Nat), s.calm → s.ash.1.valid → (s.ash.1.recovery k).valid → s.domainOn (17 + (s.ash.1.recovery k).home) →
    let due := (∃ t, (s.recState k).timer = some t ∧ t ≠ s.now) ∨ (s.recState k).resetAsked
    (due → Takes (.frerResetExpiry k) s
      ((s.setRec k { s.recState k with takeAny := true, resetAsked := false, timer := none }).count 12 k 7))
    ∧ (¬ due → Idles (.frerResetExpiry k) s))
  ∧ ∀ (s : State) (k : Nat), s.calm → s.ash.1.valid → (s.ash.1.recovery k).valid → s.domainOn (17 + (s.ash.1.recovery k).home) →
    (s.ash.1.recovery k).period ≠ 0 → (∀ m ∈ (s.ash.1.recovery k).streams, m ∈ (s.recState k).heard) → s.key.log.length < 767 →
    let e := s.ash.1.recovery k
    let diff := (((s.recState k).passed * (e.members - 1) : Nat) - ((s.recState k).dups : Int)).natAbs
    let next := { s.recState k with passed := 0, dups := 0, heard := [] }
    (diff ≤ e.threshold → Takes (.latentTest k) s (s.setRec k next))
    ∧ (e.threshold < diff →
      Takes (.latentTest k) s
        (((((((((s.count 12 k 8).raise (F.PIPE_REP_EVENT_latent_error e.home)).setF (F.PIPE_FRER_LAST_index e.home) k).setF
          (F.PIPE_FRER_LAST_is_stream e.home) 0).endTest).count 16 0 0).raise F.SAF_EVENT_fault_masked).ksLog .safety).setRec k next))

/-! ### Counters (R376 to R387) -/

/-- R378: a write of CNT.RD_ADDR captures the counter it names, with valid, and bad_addr for an address that no counter has.
An event that is decided later in the same core cycle is included at its end. R384: a write of a pacing register starts the count of cycles anew. R380: a write of CNT.PC_CFG configures a counter, and one of
CNT.PC_VAL sets its value and clears its overflow bit; until the end of its core cycle the counter counts by the old configuration, and
one whose value was written does not count. R381: a counter at 0xFFFF_FFFF wraps to 0, sets its overflow bit and raises pc_overflow; the
even counter of a chained pair carries into its partner instead, which alone sets a bit. -/
def Obligations.CounterRegisters : Prop :=
  (∀ (s : State) (m : Nat) (v : Word), s.calm → s.admits m Addr.CNT_RD_ADDR v →
    let t := s.stored m Addr.CNT_RD_ADDR v
    let a := (t.reg Addr.CNT_RD_ADDR).toNat
    let g := bitsOf a 20 5
    let ok := match groupTable[g]? with | none => false | some x => decide (bitsOf a 6 14 < x.insts) && decide (bitsOf a 0 6 < x.per)
    let c := if ok then t.ctrShown g (bitsOf a 6 14) (bitsOf a 0 6) else 0
    let x : State := { t with snap := { t.snap with rdAt := some s.now } }
    Takes (.counterCapture m v) s
      ((((x.setReg Addr.CNT_RD_VAL_LO (BitVec.ofNat 32 c)).setReg Addr.CNT_RD_VAL_HI (BitVec.ofNat 32 (c / 2 ^ 32))).setF
        F.CNT_RD_STATUS_valid 1).setF F.CNT_RD_STATUS_bad_addr (b2n !ok)))
  ∧ (∀ (s : State) (m : Nat) (r : DumpReg) (v : Word), s.calm →
    let a := match r with | .ctrl => Addr.CNT_CTRL | .everyN => Addr.CNT_DUMP_EVERY_N | .interval => Addr.CNT_DUMP_INTERVAL
    s.admits m a v →
    Takes (.dumpModeWrite m r v) s { s.stored m a v with snap := { s.snap with starts := 0 } })
  ∧ (∀ (s : State) (m k : Nat) (v : Word), s.calm → k < 2048 → s.admits m (Addr.CNT_PC_CFG k) v →
    let t := s.stored m (Addr.CNT_PC_CFG k) v
    let none' : Nat → Option Word := fun _ => none
    Takes (.pcCfgWrite m k v) s
      (if (SMap.get none' k s.pcLate).isSome then t
      else { t with snap := { t.snap with pcLate := (s.now, SMap.set none' k (some (s.reg (Addr.CNT_PC_CFG k))) s.pcLate) } }))
  ∧ (∀ (s : State) (m k : Nat) (v : Word), s.calm → k < 2048 → s.admits m (Addr.CNT_PC_VAL k) v →
    let set := if s.snap.pcSet.1 = s.now then s.snap.pcSet.2 else []
    let t : State := { s.stored m (Addr.CNT_PC_VAL k) v with snap := { s.snap with pcSet := (s.now, k :: set) } }
    Takes (.pcValWrite m k v) s ((t.setCtr (ctrKey 26 k 0) v.toNat).setFBit (F.CNT_PC_OVF_ovf (k / 32)) (k % 32) false))
  ∧ (∀ (s : State) (k : Nat), s.calm → s.domainOn 37 → k < 2048 → s.pcOn = [k] → s.pcLive k → s.pcWritten k = false →
    s.pcField F.CNT_PC_CFG_mode k ≠ 0 → s.pcChain k = false → s.pcChained k = false → s.ctr (ctrKey 26 k 0) = 0xFFFFFFFF →
    ∃ t, exec (.pcOverflow k) s = .next t ∧ t.ctr (ctrKey 26 k 0) = 0
      ∧ (t.reg (Addr.CNT_PC_OVF (k / 32))).toNat / 2 ^ (k % 32) % 2 = 1
      ∧ t.reg Addr.CNT_EVENT &&& BitVec.ofNat 32 (2 ^ F.CNT_EVENT_pc_overflow.lo) = BitVec.ofNat 32 (2 ^ F.CNT_EVENT_pc_overflow.lo))
  ∧ (∀ (s : State) (k : Nat), s.calm → k < 2048 → s.pcOn = [k] → s.pcLive k → s.pcWritten k = false → s.pcWritten (k + 1) = false →
    s.pcField F.CNT_PC_CFG_mode k ≠ 0 → s.pcChain k →
    s.ctr (ctrKey 26 k 0) = 0xFFFFFFFF → s.ctr (ctrKey 26 (k + 1) 0) < 0xFFFFFFFF →
    ∃ t, exec (.pcOverflow k) s = .next t ∧ t.ctr (ctrKey 26 k 0) = 0
      ∧ t.ctr (ctrKey 26 (k + 1) 0) = s.ctr (ctrKey 26 (k + 1) 0) + 1
      ∧ t.reg (Addr.CNT_PC_OVF (k / 32)) = s.reg (Addr.CNT_PC_OVF (k / 32)))
  ∧ ∀ (s : State) (k : Nat), s.calm → s.domainOn 37 → k + 1 < 2048 → s.pcOn = [k] → s.pcLive k → s.pcWritten k = false →
    s.pcWritten (k + 1) = false → s.pcField F.CNT_PC_CFG_mode k ≠ 0 → s.pcChain k →
    s.ctr (ctrKey 26 k 0) = 0xFFFFFFFF → s.ctr (ctrKey 26 (k + 1) 0) = 0xFFFFFFFF →
    ∃ t, exec (.pcOverflow (k + 1)) s = .next t ∧ t.ctr (ctrKey 26 k 0) = 0 ∧ t.ctr (ctrKey 26 (k + 1) 0) = 0
      ∧ t.reg (Addr.CNT_PC_OVF (k / 32)) = s.reg (Addr.CNT_PC_OVF (k / 32)) ||| BitVec.ofNat 32 (2 ^ ((k + 1) % 32))

/-- R382 to R384: a periodic latch that finds the snapshot store free takes a snapshot with the next sequence number, the time and
every counter that is not zero; one that finds it busy from before is counted as an overrun. A record whose ring does not run is
skipped and counted, and the store is free again; what was decided in the latch's own core cycle is in it. -/
def Obligations.Snapshots : Prop :=
  (∀ s : State, s.calm → s.periodicDue → s.snap.busy = false →
    let u := s.latch true false
    Takes .periodicLatch s u ∧ u.snap.busy ∧ u.snap.seq = (s.getF F.CNT_LAST_SEQ_snap_seq + 1) % 2 ^ 32
      ∧ u.snap.time = s.trn.time ∧ u.snap.periodic ∧ u.snap.command = false ∧ u.snap.window = s.now - s.snap.lastLatch
      ∧ u.getF F.CNT_LAST_SEQ_snap_seq = u.snap.seq ∧ u.ctrs = (s.count 28 0 0).ctrs
      ∧ ∀ e ∈ (s.count 28 0 0).ctrs, s.instExists (e.1 / 2 ^ 20) (e.1 / 64 % 2 ^ 14) → e ∈ u.snap.values)
  ∧ (∀ s : State, s.calm → s.periodicDue → s.snap.busy → s.snap.lastLatch ≠ s.now →
    Takes .periodicLatch s
      ((({ s with snap := { s.snap with starts := 0 } } : State).count 28 0 2).raise F.CNT_EVENT_dump_overrun))
  ∧ (∀ s : State, s.calm → s.snap.busy → s.ringRuns 0x101 = false →
    let t := s.includeEvents
    Takes .dumpRecordWrite s
      ((({ t with snap := { t.snap with busy := false, values := [] } } : State).count 21 0 1).raise F.CNT_EVENT_dump_skipped))
  ∧ ∀ (s x : State), s.calm → s.snap.busy →
    let t := s.includeEvents
    t.rxDeliver 0x101 ⟨tsBytes t.snap.time t.snap.flags, t.snap.record.len / 64, 0, false⟩ t.snap.record = (true, x) →
    Takes .dumpRecordWrite s
      ((({ x with snap := { x.snap with busy := false, values := [] } } : State).count 28 0 1).raise F.CNT_EVENT_dump_written)

/-! ### The Keystone pair (R276 to R293) -/

/-- R278, R291: a unit of a pair that conducts, out of its self-test, enters RESYNC with the active unit's state snapshotted and the
conductor log started; one that fails, or does not end, is FAILED, counted and raised. At boot A, passing before B, conducts. -/
def Obligations.SelfTests : Prop :=
  (∀ (s : State) (u : Unit2), s.calm → s.unitState u = 1 → s.pwr.phase ≠ .keystones → s.unitState (other u) = 4 →
    s.key.doubleFault = false →
    Takes (.selfTestEnd u true) s
      (({ s with key := { s.key with commit := s.key.ks, logOn := true, log := [], fullCopy := some u, firstCkpt := false,
                                     inFlight := none, behind := none, logDue := false } } : State).setUnit u 2)
    ∧ (s.getB F.KEY_CTRL_auto_resync = false →
      Takes (.selfTestEnd u false) s (s.resyncFail u) ∧ Takes (.keystoneSelfTestTimeout u) s (s.resyncFail u)))
  ∧ (∀ (s : State) (u : Unit2),
    (s.resyncFail u).unitState u = 5 ∧ (s.resyncFail u).resyncFails u = s.resyncFails u + 1
      ∧ (s.resyncFail u).unitState (other u) = s.unitState (other u))
  ∧ ∀ s : State, s.calm → s.unitState .a = 1 → s.pwr.phase = .keystones → s.key.bootDoneA = none → s.key.bootDoneB = none →
    s.pwr.fails = [] →
    Takes (.selfTestEnd .a true) s
      (((({ s with key := { s.key with bootDoneA := some true } } : State).setUnit .a 4).setF F.KEY_STATUS_active_unit 0).keyGrants .a
        true)

/-- R279 to R282: at the end of an interval with the standby SYNCED, none in flight and no Ephemeris active, the active unit
snapshots its state and the length of the log; a checkpoint that arrives whole is committed and trims the log, and the first one after
the full copy makes its unit SYNCED; one that does not is discarded and counted; either way one taken behind it is in flight then, and
the Mortar flits with CRC errors are counted (R294). The size of a checkpoint is free (notes/assumptions/3.md). -/
def Obligations.Checkpoints : Prop :=
  (∀ (s : State) (u : Unit2), s.calm → s.activeUnit = some u → s.unitState (other u) = 3 → s.ksBusy = false → s.ephOn = false →
    s.key.inFlight = none →
    let c : Ckpt := ⟨Config.freeNat s.freeCtr % (2 ^ 20 + 1), s.key.log.length, s.key.ks⟩
    Takes .checkpoint s { s with freeCtr := s.freeCtr + 1, key := { s.key with cyclesSinceCkpt := 0, inFlight := some c } })
  ∧ (∀ (s : State) (u : Unit2) (c : Ckpt) (n : Nat), s.calm → s.activeUnit = some u → s.key.inFlight = some c →
    let x := s.countN 15 0 8 n
    let next := s.key.behind.map fun b => { b with mark := b.mark - c.mark }
    let done := (((({ x with key := { x.key with commit := c.state, log := s.key.log.drop c.mark, inFlight := next, behind := none } } :
      State).setF F.KEY_COPY_STATUS_last_ckpt_bytes c.bytes).count 15 0 1).countN 15 0 4 c.bytes)
    (s.key.firstCkpt = false → Takes (.checkpointCommit ⟨true, n⟩) s done)
    ∧ (s.key.firstCkpt → s.unitState (other u) = 2 → Takes (.checkpointCommit ⟨true, n⟩) s (done.reachSynced (other u)))
    ∧ Takes (.checkpointCommit ⟨false, n⟩) s
      (({ x with key := { x.key with inFlight := s.key.behind, behind := none } } : State).count 15 0 2))
  ∧ ∀ (s : State) (u : Unit2), s.calm → s.key.fullCopy = some u → s.unitState u = 2 → s.key.firstCkpt = false →
    Takes .fullCopyCommit s
      (({ s with key := { s.key with firstCkpt := true } } : State).setF F.KEY_COPY_STATUS_last_ckpt_bytes (2 ^ 20))

/-- R284, R285: a fault of the active unit with the standby SYNCED begins a switchover: the unit is FAILED, the fault is recorded, and
the gap of 96 core cycles begins, in which both alarm outputs hold their levels (R286). A fault of a SYNCED standby makes it FAILED, recorded and raised as standby_fault, with conduction
unaffected; R283: MORTAR and SYNC_LOST are charged to the standby, whichever unit is named. R293: a fault of the active unit without a usable standby is a double fault, which ends in SAFE_HOLD. -/
def Obligations.KeystoneFaults : Prop :=
  (∀ (s : State) (u : Unit2) (c : KeyCause), s.calm → causeCode c < 7 → s.unitState u = 4 → s.unitState (other u) = 3 → s.ksBusy = false →
    let t := (s.setUnit u 5).keyFaultInfo (causeCode c) u
    Takes (.keystoneFault u c) s
      { t with key := { t.key with gapEnd := some (s.now + 96), gapTime := s.trn.time, forced := false, inFlight := none,
                                   behind := none, gapAlarm := (s.alarm .a, s.alarm .b) } })
  ∧ (∀ (s : State) (u v : Unit2) (c : KeyCause), s.calm → s.unitState v = 3 → s.unitState (other v) = 4 → s.activeUnit = some (other v) →
    (if causeCode c < 7 then u = v else True) → s.ksBusy = false → s.getB F.KEY_CTRL_auto_resync = false →
    Takes (.keystoneFault u c) s
      (((((s.setUnit v 5).stopCopies).keyFaultInfo (causeCode c) v).raise F.KEY_EVENT_standby_fault).react (causeDiag (causeCode c)) 1
        (unitCode v) 0))
  ∧ ∀ (s : State) (u : Unit2) (c : KeyCause), s.calm → causeCode c < 7 → s.unitState u = 4 → s.unitState (other u) ∈ [1, 2, 5] → s.inGap = false →
    s.dev ≠ .safeHold → s.dev ≠ .off → s.pwr.phase ≠ .held →
    ∃ t, exec (.keystoneFault u c) s = .next t ∧ t.dev = .safeHold ∧ t.key.doubleFault ∧ t.key.ks.servo = .holdover
      ∧ t.saf.safeA ∧ t.saf.safeB

/-- R290: an armed force_switch without a SYNCED standby only raises force_refused; with one the active unit's checkpoint is committed
and the switchover begins under cause FORCED (9). R291: an armed resync brings the FAILED unit back to INIT, its domain cycled, also in the gap of
a switchover. -/
def Obligations.KeystoneCommands : Prop :=
  (∀ (s : State) (m : Nat) (v : Word) (u : Unit2), s.calm → s.admits m Addr.KEY_COMMAND v → s.armed m → fldOf v 0 1 = 1 → fldOf v 1 1 = 0 →
    s.activeUnit = some u → s.ksBusy = false →
    let t := s.stored m Addr.KEY_COMMAND v
    (s.unitState (other u) ≠ 3 → Takes (.forceSwitch m v) s (t.raise F.KEY_EVENT_force_refused))
    ∧ (s.unitState (other u) = 3 →
      let c : Ckpt := ⟨Config.freeNat s.freeCtr % (2 ^ 20 + 1), s.key.log.length, s.key.ks⟩
      Takes (.forceSwitch m v) s
        ((({ t with freeCtr := s.freeCtr + 1, key := { t.key with cyclesSinceCkpt := 0, behind := none } } : State).commitCheckpoint c).startSwitch u 9
          true)))
  ∧ ∀ (s : State) (m : Nat) (v : Word) (u : Unit2), s.calm → s.admits m Addr.KEY_COMMAND v → s.armed m → fldOf v 0 1 = 0 →
    fldOf v 1 1 = 1 → s.unitState u = 5 → s.unitState (other u) ≠ 5 → s.key.doubleFault = false →
    (s.activeUnit.isSome ∨ s.inGap) →
    Takes (.resync m v) s (((s.stored m Addr.KEY_COMMAND v).setUnit u 1).raise F.PWR_EVENT_domain_change)

/-- R287: with the gap over the log is replayed: the conductor's state is what its last recorded decision left, but for the pending
switch, which the flywheel holds; every entry is counted, and nothing is deferred any longer. R286: within the gap nothing is served. -/
def Obligations.ReplayAppliesTheLog : Prop :=
  (∀ (s : State) (r : LogRec) (l : List LogRec), s.calm → s.inGap = false → s.key.replay → s.key.log = l ++ [r] → s.key.deferred = [] →
    s.key.logOn = false → r.after.queue = [] →
    Takes .deferredInputServe s
      (({ s with key := { s.key with ks := { r.after with pend := s.fly.armed }, log := [], replay := false } } : State).countN 15 0 5
        (l.length + 1)))
  ∧ ∀ s : State, s.calm → s.inGap → Idles .deferredInputServe s

/-! ### Functional safety (R294 to R312) -/

/-- R303: a MASKED report is counted and raised. R301, R303, R310, R312: a report above MASKED is written to the persistent record and
to SAF.FAULT_INFO, and is counted. REDUNDANCY (0x11) holds its cause; PORT (0x14) besides holds its port down; PIPELINE (0x13) switches
its pipeline off. 0x0E is disabled by an alarm threshold of 0 and raises time_alarm. R308, R282: each report ends an alarm test and is
logged. R439: while PWRON_RST_N is asserted none is taken. R300, R308: a SAFE report, the backstop and a disagreement of the monitor's
channels put the device in SAFE_HOLD, with a SAFE cause held by both channels and both alarm outputs asserted, in a switchover gap from
its end on (R286); R305: the report is written to the persistent record. R20: a system reference that has failed stops the core die. The
operands of a report are the model's choice (notes/assumptions/42.md). -/
def Obligations.FaultReports : Prop :=
  ((∀ (s : State) (r : FaultReport), s.calm → s.pwr.phase = .held → Idles (.faultReport r) s)
  ∧ (∀ (s : State) (i x : Nat), s.calm → s.pwr.phase ≠ .held → s.key.log.length < 767 →
    let masked := fun (t : State) => (((t.endTest).count 16 0 0).raise F.SAF_EVENT_fault_masked).ksLog .safety
    (∀ d ∈ [0x0A, 0x0B, 0x15, 0x1A], Takes (.faultReport ⟨d, i, x⟩) s (masked s))
    ∧ (s.getF F.SAF_TIME_ALARM_time_alarm_threshold ≠ 0 → Takes (.faultReport ⟨0x0E, i, x⟩) s (masked (s.raise F.SAF_EVENT_time_alarm)))
    ∧ (s.getF F.SAF_TIME_ALARM_time_alarm_threshold = 0 → Idles (.faultReport ⟨0x0E, i, x⟩) s))
  ∧ (∀ (s : State) (i x : Nat), s.calm → s.pwr.phase ≠ .held → s.key.log.length < 767 →
    let t := fun (d c : Nat) => (((((s.endTest).persist d c i).faultInfo d c i).count 16 0 1).raise F.SAF_EVENT_fault_degraded)
    Takes (.faultReport ⟨0x11, i, x⟩) s (((t 0x11 1).addCause (.redundancy 0x11 i)).ksLog .safety)
    ∧ (i < 512 → s.portExists i → x ≠ 1 →
      Takes (.faultReport ⟨0x14, i, x⟩) s (((((t 0x14 2).addCause (.port i)).holdDown i).portDown i false).ksLog .safety))
    ∧ (i < 8 →
      Takes (.faultReport ⟨0x13, i, x⟩) s ((((t 0x13 3).addCause (.pipeline i)).faultOff (17 + i)).ksLog .safety))))
  ∧ (∀ (s : State) (d i x : Nat), s.calm → d ∈ [0x06, 0x08, 0x18] → s.dev ≠ .safeHold → s.dev ≠ .off → s.pwr.phase ≠ .held → s.key.log.length < 767 →
    ∃ t, exec (.faultReport ⟨d, i, x⟩) s = .next t ∧ t.dev = .safeHold ∧ t.saf.safeA ∧ t.saf.safeB
      ∧ (∀ u, t.alarm u = if s.inGap then s.alarm u else true) ∧ t.mram.faults = (s.persist d 4 i).mram.faults
      ∧ t.stopped = (decide (d = 0x18) && decide (x = 1)))
  ∧ (∀ s : State, s.calm → s.dev ≠ .safeHold → s.dev ≠ .off → s.pwr.phase ≠ .held →
    ∃ t, exec .backstopFired s = .next t ∧ t.dev = .safeHold ∧ t.getF F.SAF_STATUS_backstop_fired = 1
      ∧ ∀ u, t.alarm u = if s.inGap then s.alarm u else true)
  ∧ ∀ s : State, s.calm → s.dev ≠ .safeHold → s.dev ≠ .off → s.pwr.phase ≠ .held → s.key.log.length < 767 →
    ∃ t, exec .channelDisagree s = .next t ∧ t.dev = .safeHold ∧ t.getF F.SAF_STATUS_channels_agree = 0
      ∧ ∀ u, t.alarm u = if s.inGap then s.alarm u else true

/-- R308: an armed write to SAF.ALARM_TEST tests one output while none is tested and it may be released; the test's end is raised.
R303: a sample is shown, and one above 110 °C is an over-temperature, MASKED unless thermal_hold is set, which makes it SAFE. R371: the background
vote changes nothing while the copies agree, and rewrites a third copy from two that are identical. -/
def Obligations.AlarmsTemperatureVotes : Prop :=
  (∀ (s : State) (m : Nat) (v : Word) (u : Unit2), s.calm → s.admits m Addr.SAF_ALARM_TEST v → s.armed m →
    v.toNat % 4 = 1 + unitCode u → s.saf.testing = none → s.dev ≠ .safeHold → s.saf.safeA = false → s.saf.safeB = false →
    let t := s.stored m Addr.SAF_ALARM_TEST v
    Takes (.alarmTest m v) s { t with saf := { t.saf with testing := some u } })
  ∧ (∀ s : State, s.calm → s.saf.testing.isSome →
    Takes .alarmTestDone s (({ s with saf := { s.saf with testing := none } } : State).raise F.SAF_EVENT_alarm_test_done))
  ∧ (∀ (s : State) (x : BitVec 16), s.calm →
    let t := s.setF F.SAF_TEMP_junction_temp x.toNat
    (x.toInt ≤ 1760 → Takes (.tempSample x) s t)
    ∧ (1760 < x.toInt → s.key.log.length < 767 →
      (s.getB F.SAF_CTRL_thermal_hold = false →
        Takes (.tempSample x) s
          (((((t.raise F.SAF_EVENT_over_temp).endTest).count 16 0 0).raise F.SAF_EVENT_fault_masked).ksLog .safety))
      ∧ (s.getB F.SAF_CTRL_thermal_hold → Takes (.tempSample x) s ((t.raise F.SAF_EVENT_over_temp).react 0x17 4 0 0))))
  ∧ (∀ s : State, s.calm → s.tmrB = [] → s.tmrC = [] → Idles .tmrVote s)
  ∧ ∀ (s : State) (a x y : Nat) (w : Word) (d : RegDesc) (f : FieldDesc), s.calm → s.tmrB = [(a, w)] → s.tmrC = [] → storesOnly a →
    regDesc a = some d → d.fields.filter FieldDesc.tmr = [f] → s.copies a f = (x, y, x) → x ≠ y → s.key.log.length < 767 →
    Takes .tmrVote s
      ((s.setRegBits a (BitVec.ofNat 32 ((2 ^ f.width - 1) * 2 ^ f.lo)) (BitVec.ofNat 32 (x * 2 ^ f.lo))).tmrReport a
        (BitVec.ofNat 32 ((x ^^^ y) * 2 ^ f.lo)) false)

/-- R417, R420: an attestation credit returns, up to 64; a failed entropy test clears rng_ok and is raised; the start-up tests
set it, with D36 on. R420: a read of SEC.RANDOM returns a fresh value of the DRBG while the random source is healthy, zero otherwise. -/
def Obligations.SecurityUnit : Prop :=
  ((∀ s : State, s.calm → Takes .attestCreditReturn s { s with sec := { s.sec with credits := min 64 (s.sec.credits + 1) } })
  ∧ (∀ s : State, s.calm → s.domainOn 36 →
    Takes .rngFail s (({ s with sec := { s.sec with rngOk := false } } : State).raise F.SEC_EVENT_rng_fail)
    ∧ Takes .rngReady s { s with sec := { s.sec with rngOk := true } })
  ∧ ∀ s : State, s.calm → s.domainOn 36 = false → Idles .rngFail s ∧ Idles .rngReady s)
  ∧ (∀ (s : State) (m : Nat), s.calm → s.permitted m Addr.SEC_RANDOM 1 → s.regOn Addr.SEC_RANDOM →
    Takes (.randomRead m) s
      (if s.sec.rngOk then
        { s with freeCtr := s.freeCtr + 1, rd := BitVec.ofNat 64 (Config.freeNat s.freeCtr % 2 ^ 32) }
      else { s with rd := 0 }))
/-! ### Rings and the host link (R313 to R326) -/

/-- R320: the write that enables a ring sets head and tail to 0 and runs it; the one that disables a ring with no command in progress
stops it at once. R317: a doorbell index in range is accepted, restarts a stalled ring and lets the device read on (R318: a command ring
its entry at head, behind a completion ring the command rings that wait for it, and own 0 there is an OWN_STALL); one out of range, or
behind the last, halts the ring with DOORBELL_RANGE, and a write of the high half alone does nothing. R326: at mod_time a ring with
entries not signalled signals its vector. R319, R320: a poll of a command ring that reads an entry without own does nothing, one whose
read fails halts the ring with READ_ERROR, and one that reads an entry with own takes it where a completion entry is free (else
cq_stall); a poll of a TX ring serves it; a failed read of an entry that the device reads before it writes it halts that ring too. A
poll of a ring in doorbell mode that no such read concerns does nothing. Which rings those are is the model's choice
(notes/assumptions/73.md). -/
def Obligations.HostRings : Prop :=
  (∀ (s : State) (m r : Nat) (v : Word), s.calm → r ≤ 0x101 → s.admits m (Addr.HIF_RING_CFG r) v →
    let t := s.stored m (Addr.HIF_RING_CFG r) v
    (s.getB (F.HIF_RING_CFG_enable r) = false → t.getB (F.HIF_RING_CFG_enable r) →
      Takes (.ringEnable m r v) s
        ((((t.setReg (Addr.HIF_RING_HEAD r) 0).setReg (Addr.HIF_RING_TAIL r) 0).setReg (Addr.HIF_RING_STATUS r) 1).setRingRun r .init))
    ∧ (s.getB (F.HIF_RING_CFG_enable r) → t.getB (F.HIF_RING_CFG_enable r) = false →
      Takes (.ringDisable m r v) s (((t.orphan r).setReg (Addr.HIF_RING_STATUS r) 0).setRingRun r .init)))
  ∧ (∀ (s : State) (m r : Nat) (part : DoorbellPart) (v : BitVec 64), s.calm → r ≤ 0x101 →
    s.permitted m (0x100000 + 8 * r + (match part with | .high => 4 | _ => 0)) 2 → (m < 16 → m = s.ownerFn r) → s.domainOn 34 →
    let t := s.setArmed m false
    let n := 2 * s.ringSize r
    let i := v.toNat % 2 ^ 17 % n
    let span := (i + n - s.ringHead r) % n
    (part = .high → Takes (.doorbell m r part v) s t)
    ∧ (part ≠ .high → (s.getF (F.HIF_RING_STATUS_state r) = 1 ∨ s.getF (F.HIF_RING_STATUS_state r) = 2) →
      s.getB (F.HIF_RING_CFG_polling r) = false →
      (span ≤ s.ringSize r → s.ringSpan r ≤ span →
        let u := (t.setF (F.HIF_RING_TAIL_tail r) i).setF (F.HIF_RING_STATUS_state r) 1
        let x := if r = 0x100 ∧ span ≠ 0 then u.setF F.HIF_STATUS_event_overflow 0 else u
        Takes (.doorbell m r part v) s
          (if r < 0x40 then x.readHead r
           else if 0x40 ≤ r ∧ r < 0x80 ∧ x.entryFree r then
            x.each ((List.range 64).filter fun c => x.readsHead c && decide (x.compRing c = r)) State.readHead
           else if 0xC0 ≤ r ∧ r < 0x100 ∧ x.txStalls r then
            ((x.setF (F.HIF_RING_STATUS_state r) 2).count 18 r 0).raise F.HIF_EVENT_own_stall
           else x))
      ∧ ((s.ringSize r < span ∨ span < s.ringSpan r) →
        Takes (.doorbell m r part v) s
          (((((t.setF (F.HIF_RING_STATUS_state r) 3).setF (F.HIF_RING_STATUS_cause r) 1).setF F.HIF_RING_FAULT_INFO_ring r).setF
            F.HIF_RING_FAULT_INFO_cause 1).raise F.HIF_EVENT_ring_fault))))
  ∧ (∀ (s : State) (r : Nat), s.calm → r ≤ 0x101 → s.getF (F.HIF_RING_CFG2_mod_time r) ≠ 0 → (s.ringRun r).unsignalled ≠ 0 →
    Takes (.modTimeExpiry r) s
      ((s.msix (s.ownerFn r) (s.getF (F.HIF_RING_CFG_msix_vector r))).setRingRun r { s.ringRun r with unsignalled := 0 }))
  ∧ (∀ (s : State) (r : Nat) (e : Bool), s.calm →
    (s.getB (F.HIF_RING_CFG_polling r) = false → (e = false ∨ s.devReads r = false) → Idles (.poll r e) s)
    ∧ (s.devReads r → Takes (.poll r true) s
        (((((s.setF (F.HIF_RING_STATUS_state r) 3).setF (F.HIF_RING_STATUS_cause r) 2).setF F.HIF_RING_FAULT_INFO_ring r).setF
          F.HIF_RING_FAULT_INFO_cause 2).raise F.HIF_EVENT_ring_fault))
    ∧ (s.getB (F.HIF_RING_CFG_polling r) → 0xC0 ≤ r → r ≤ 0xFF → exec (.poll r e) s = exec (.cpuTx r e) s))
  ∧ ∀ (s : State) (r : Nat), s.calm → r < 0x40 → s.getB (F.HIF_RING_CFG_polling r) → s.ringRuns r →
    (s.ringOwn r 0 = false → Idles (.poll r false) s)
    ∧ Takes (.poll r true) s
      (((((s.setF (F.HIF_RING_STATUS_state r) 3).setF (F.HIF_RING_STATUS_cause r) 2).setF F.HIF_RING_FAULT_INFO_ring r).setF
        F.HIF_RING_FAULT_INFO_cause 2).raise F.HIF_EVENT_ring_fault)
    ∧ (s.ringOwn r 0 → s.entryFree (s.compRing r) = false → Takes (.poll r false) s (s.raise F.HIF_EVENT_cq_stall))
    ∧ ∀ d : CmdDesc, cmdDesc r (s.hostRead (s.ringAddr r 0) 64) = (3, d) → s.accepts 3 d →
      Takes (.poll r false) s (s.ended 3 d (fun t => t) 0 0 0)

/-- R314: an FLR stops and disables every ring of the function, closes its interface, abandons its DMA channels and is raised; a hot
reset is an FLR of every function with the link down, raised as link_down. R313: a link that trains shows its speed and width. That a hot reset
raises link_down is the model's choice (notes/assumptions/50.md). -/
def Obligations.FunctionResets : Prop :=
  (∀ (s : State) (f : Nat), s.calm → f < 16 →
    Takes (.flr f) s ((s.flrOf f).raise F.HIF_EVENT_flr) ∧ (s.flrOf f).fnOpen f = false ∧ (s.flrOf f).fnVersion f = 0
      ∧ ∀ r, r ≤ 0x101 → s.ownerFn r = f →
        (s.flrOf f).getB (F.HIF_RING_CFG_enable r) = false ∧ (s.flrOf f).getF (F.HIF_RING_STATUS_state r) = 0)
  ∧ (∀ s : State, s.calm →
    Takes .hotReset s
      (((((s.each (List.range 16) State.flrOf).setF F.HIF_STATUS_link_up 0).setF F.HIF_STATUS_link_speed 0).setF
        F.HIF_STATUS_link_width 0).raise F.HIF_EVENT_link_down))
  ∧ ∀ (s : State) (v w : Nat), s.calm → s.domainOn 34 → 1 ≤ v → v ≤ 5 → w ∈ [1, 2, 4, 8] →
    w * 2 ^ bitsOf s.part.straps.toNat 9 2 ≤ 8 →
    Takes (.hostLinkUp v w) s
      (((s.setF F.HIF_STATUS_link_up 1).setF F.HIF_STATUS_link_speed v).setF F.HIF_STATUS_link_width w)

/-- R338: the copy that the CPU-port node selects, whose queue maps to a running RX ring with descriptors enough, is written into
them with its timestamp, port, queue and mirror bit, charged and counted; without descriptors enough it is dropped and counted, as is
one whose queue maps to no running ring. R336: a TX ring is served in its round-robin turn alone; a whole chain that breaks a rule is
written back as BAD_CHAIN and counted; a good one enters the device, its entries written back as ACCEPTED or, where it is not admitted,
NOT_ADMITTED, and head moves past it; a FORWARD one waits while the expansion queue is full. R320: a read that fails halts the ring, and
R318: own 0 inside the range stalls it. The receive stamp of a frame from a TX ring and the place of a polled ring in the turn are the
model's choice (notes/assumptions/36.md, 73.md), and so is what the device counts for a copy without a ring
(notes/assumptions/58.md). -/
def Obligations.CpuPort : Prop :=
  (∀ (s : State) (c : Nat) (cp : Copy) (l : List Copy) (f : Frame), s.calm → s.wakeCpu.pickCpu = some c →
    (s.queue (4096 + c)).copies = cp :: l → s.frame cp.frame = some f → s.cpuLoss (4096 + c) cp f = none →
    let i := s.getF (F.HIF_CPUQ_MAP_rx_ring c)
    let b := cp.edit.apply f.hdr f.seqNum cp.ce cp.dei (f.bytes.take (f.bytes.length - 4))
    let info : RxInfo := ⟨tsBytes f.tRx f.flags, b.length, f.port + c * 2 ^ 9, cp.mirror⟩
    (s.getB (F.HIF_CPUQ_MAP_enable c) → s.ringRuns (0x80 + i) →
      ∀ (ok : Bool) (x : State), s.rxDeliver (0x80 + i) info (Blob.ofList b) = (ok, x) →
      Takes .cpuRxDelivery s
        (if ok then
          (((((((x.chargeCpu c (b.length + 4)).popCopy (4096 + c)).loseCopy cp).count 19 i 0).countN 19 i 1 b.length).count 6 (4096 + c)
            7).countN 6 (4096 + c) 8 (b.length + 4))
        else (((x.popCopy (4096 + c)).loseCopy cp).count 19 i 2)))
    ∧ ((s.getB (F.HIF_CPUQ_MAP_enable c) = false ∨ s.ringRuns (0x80 + i) = false) →
      Takes .cpuRxDelivery s (((s.popCopy (4096 + c)).loseCopy cp).count 19 i 3)))
  ∧ (∀ (s : State) (r : Nat), s.calm → 0xC0 ≤ r → r ≤ 0xFF → s.ringRuns r →
    Takes (.cpuTx r true) s
      (((((s.setF (F.HIF_RING_STATUS_state r) 3).setF (F.HIF_RING_STATUS_cause r) 2).setF F.HIF_RING_FAULT_INFO_ring r).setF
        F.HIF_RING_FAULT_INFO_cause 2).raise F.HIF_EVENT_ring_fault)
    ∧ (s.txStalls r →
      Takes (.cpuTx r false) s (((s.setF (F.HIF_RING_STATUS_state r) 2).count 18 r 0).raise F.HIF_EVENT_own_stall)))
  ∧ ∀ (s : State) (r : Nat) (l : List (Nat × TxDesc)), s.calm → s.key.log.length + s.hr.length < 740 → 0xC0 ≤ r → r ≤ 0xFF →
    s.ringRuns r →
    s.txChain r 0 (s.ownRun r 0 (s.ringAvail r (s.ringSize r))) = some l →
    (s.txTurn r = false → Idles (.cpuTx r false) s)
    ∧ (s.txTurn r →
    let ds := l.map Prod.snd
    let d := ds.headD (txDesc [])
    let ix := l.map Prod.fst
    (badChain ds → Takes (.cpuTx r false) s (((s.txWriteBack r ix 1).count 20 (r - 0xC0) 2).txServed r l.length))
    ∧ (badChain ds = false → d.forward → s.expandFull (d.port / 64) → Idles (.cpuTx r false) s)
    ∧ (badChain ds = false → (d.forward = false ∨ s.expandFull (d.port / 64) = false) →
      let bytes := ds.flatMap fun e => s.hostRead e.addr e.fragLen
      ∀ (ok : Bool) (x : State), s.txAdmit r d bytes (s.ringAddr r (l.length - 1)) = (ok, x) →
      Takes (.cpuTx r false) s
        (if ok then
          (((x.txWriteBack r (if d.tsReq then ix.dropLast else ix) 0).count 20 (r - 0xC0) 0).countN 20 (r - 0xC0) 1 bytes.length).txServed
            r l.length
        else ((x.txWriteBack r ix 2).count 20 (r - 0xC0) 3).txServed r l.length)))

/-! ### DMA (R345 to R360) -/

/-- R347: the write that enables a channel takes its 16 staging cells from pool 15 and makes it IDLE with head and tail 0, or, where
the pool refuses them, leaves it DISABLED with cells_refused. R358: the write that disables a channel with nothing started gives
the cells back, and one that still runs a descriptor stops at its boundary. R357: restart makes a HALTED channel IDLE. R346: a doorbell index in range is accepted and starts an idle channel,
one out of range halts it, and disables it where it was stopping. What a refused enable leaves is the model's choice (notes/assumptions/31.md). -/
def Obligations.DmaChannels : Prop :=
  (∀ (s : State) (m c : Nat) (v : Word), s.calm → c < 32 → s.admits m (Addr.DMA_CH_CFG c) v →
    let t := s.stored m (Addr.DMA_CH_CFG c) v
    (s.getB (F.DMA_CH_CFG_enable c) = false → t.getB (F.DMA_CH_CFG_enable c) → t.poolGrants 15 16 && t.quotaLeft false 15 16 →
      ∀ (l : List Nat) (x : State), t.drawCells false ⟨0, false, 0, 1, 10, 15, false, 0⟩ 16 = (l, x) →
      Takes (.channelEnable m c v) s
        (((((x.poolMove 15 16 0).setCh c { DmaCh.init with cells := l }).setReg (Addr.DMA_CH_HEAD c) 0).setReg (Addr.DMA_CH_TAIL c)
          0).setReg (Addr.DMA_CH_STATUS c) 1))
    ∧ (s.getB (F.DMA_CH_CFG_enable c) = false → t.getB (F.DMA_CH_CFG_enable c) → (t.poolGrants 15 16 && t.quotaLeft false 15 16) = false →
      Takes (.channelEnable m c v) s
        (((((t.poolFail 15).setF (F.DMA_CH_CFG_enable c) 0).setF F.DMA_HALT_INFO_channel c).setF F.DMA_HALT_INFO_cause 8).raise
          F.DMA_EVENT_cells_refused))
    ∧ (s.getB (F.DMA_CH_CFG_enable c) → t.getB (F.DMA_CH_CFG_enable c) = false → s.chState c ≠ 0 → (s.ch c).active = [] →
      (s.ch c).waiting = none →
      Takes (.channelDisable m c v) s
        ((((((t.each (s.ch c).cells fun u a => u.releaseCell 10 0x11 a).poolMove 15 (-((s.ch c).cells.length : Int)) 0).setCh c .init).setF
          (F.DMA_CH_STATUS_state c) 0).setF (F.DMA_CH_STATUS_cause c) 0).setF (F.DMA_CH_CFG_enable c) 0))
    ∧ (s.getB (F.DMA_CH_CFG_enable c) → t.getB (F.DMA_CH_CFG_enable c) = false → s.chState c ≠ 0 →
      ∀ (d : DmaDesc) (l : List DmaDesc), (s.ch c).active = d :: l → (s.ch c).done d = false →
      Takes (.channelDisable m c v) s (t.setCh c { s.ch c with disabling := true })))
  ∧ (∀ (s : State) (m c : Nat) (v : Word), s.calm → c < 32 → s.admits m (Addr.DMA_CH_CTRL c) v → fldOf v 0 1 = 1 → s.chState c = 5 →
    let t := s.stored m (Addr.DMA_CH_CTRL c) v
    Takes (.restart m c v) s
      ((t.setCh c { s.ch c with disabling := false, haltAfter := none }).setReg
        (Addr.DMA_CH_STATUS c) 1))
  ∧ ∀ (s : State) (m c : Nat) (part : DoorbellPart) (v : BitVec 64), s.calm → c < 32 →
    s.permitted m (0x101000 + 8 * c + (match part with | .high => 4 | _ => 0)) 2 → (m < 16 → m = s.getF (F.DMA_CH_CFG_owner_fn c)) →
    s.domainOn 34 →
    let t := s.setArmed m false
    let n := 2 * s.chSize c
    let i := v.toNat % 2 ^ 17 % n
    let span := (i + n - s.getF (F.DMA_CH_HEAD_head c)) % n
    (part = .high → Takes (.dmaDoorbell m c part v) s t)
    ∧ (part ≠ .high → s.chState c = 1 → span ≤ s.chSize c → s.chSpan c ≤ span → span ≠ 0 →
      Takes (.dmaDoorbell m c part v) s ((t.setF (F.DMA_CH_TAIL_tail c) i).setF (F.DMA_CH_STATUS_state c) 2))
    ∧ (part ≠ .high → s.chState c = 1 → (s.chSize c < span ∨ span < s.chSpan c) →
      Takes (.dmaDoorbell m c part v) s (if (s.ch c).disabling then (t.chHalt c 6).chOff c else t.chHalt c 6))

/-- R346, R350, R351: a running channel reads its next descriptor: one with own 0 stalls it; one that follows a descriptor whose count
is zero, with its fence if it has one cleared, starts where it passes the checks and stays below the leave threshold, and ends with its
status where it does not pass. R351, R355: the channel picked writes the next 64 bytes of a FILL, or issues the next read request of a COPY,
up to 4,096 bytes and never across a 4,096-byte boundary of the source; a channel that it takes the engine from has been pre-empted.
R352: the data of the oldest request is staged, in beats of 64 bytes. R353: an error of the staging buffer is counted, raised and a MASKED
fault, and the beat staged there is fetched again: its slot waits for a new answer. -/
def Obligations.DmaEngine : Prop :=
  (∀ (s : State) (c : Nat), s.calm → c < 32 → s.dmaRuns → s.domainOn 34 → (s.chState c = 1 ∨ s.chState c = 2) →
    (s.ch c).disabling = false → (s.ch c).haltAfter = none → (s.ch c).waiting = none →
    let n := (s.ch c).active.length
    n < 4 → n < s.chSpan c →
    let ix := s.chIndex c n
    let r := dmaRaw ix (s.hostRead (s.chAddr c ix) 32)
    (r.own = false →
      Takes (.dmaDescriptor c false) s (((s.setF (F.DMA_CH_STATUS_state c) 4).count 22 c 3).raise F.DMA_EVENT_own_stall))
    ∧ (r.own → (∀ e ∈ (s.ch c).active, e.count = 0) → (r.fence → (s.ch c).reads = []) →
      (r.check = 0 → r.desc.length < s.getF F.DMA_LEAVE_THRESHOLD_leave_threshold →
        Takes (.dmaDescriptor c false) s
          ((s.setCh c { s.ch c with active := (s.ch c).active ++ [r.desc] }).setF (F.DMA_CH_STATUS_state c) 2))
      ∧ (r.check ≠ 0 → Takes (.dmaDescriptor c false) s (s.chFail c r.desc r.check))))
  ∧ (∀ (s : State) (c : Nat) (d : DmaDesc), s.calm → s.domainOn 34 → s.dmaPick = some c → (s.ch c).active = [d] →
    let q := s.dmaServed.1
    let prio := fun (k : Nat) => s.getF (F.DMA_CH_CFG_prio k)
    let lost := q ≠ c ∧ (s.ch q).ready ∧ (s.ch q).ended = false ∧ prio q < prio c
    let y : State := { (if lost then s.count 22 q 4 else s) with dmaServed := (c, SMap.set (fun _ => 31) (prio c) c s.dmaServed.2) }
    (d.op = 2 → (s.ch c).canWrite d → 64 < d.count → d.written + 64 ≠ d.length →
      let p := leBytes 8 d.src
      let x := { s.ch c with ended := false, active := [{ d with written := d.written + 64, count := d.count - 64 }] }
      Takes .dmaBeatIssue s ((y.hostWrite (d.dst + d.written) (p ++ p ++ p ++ p ++ p ++ p ++ p ++ p)).setCh c x))
    ∧ (d.op = 1 → (s.ch c).canWrite d = false → (s.ch c).canRead d →
      let n := min (min 4096 d.count) (4096 - (d.src + (d.length - d.count)) % 4096)
      let l : List DmaRead := (s.ch c).reads ++ [⟨d.index, false, d.length - d.count, n / 64⟩]
      let x := { s.ch c with ended := false, active := [{ d with count := d.count - n }], reads := l }
      Takes .dmaBeatIssue s (y.setCh c x)))
  ∧ (∀ (s : State) (c : Nat) (d : DmaDesc) (r : DmaRead) (l : List DmaRead), s.calm → (s.ch c).active = [d] → (s.ch c).reads = r :: l →
    r.index = d.index → r.second = false → d.op = 1 → d.err = none → d.mismatch = none → d.written ≠ d.length →
    let g := (s.ch c).staged ++ beatsOf r.index r.off (s.hostRead (d.src + r.off) (64 * r.beats)) r.beats
    Takes (.beatAnswer c .data) s (s.setCh c { s.ch c with reads := l, staged := g }))
  ∧ ∀ (s : State) (c : Nat), s.calm → (s.ch c).cells ≠ [] → s.pwr.phase ≠ .held → s.key.log.length < 767 →
    Takes (.beatAnswer c .stagingEcc) s
      (((((((s.setCh c (s.ch c).refetch).count 23 0 0).raise F.DMA_EVENT_staging_ecc).endTest).count 16 0 0).raise F.SAF_EVENT_fault_masked).ksLog .safety)

/-! ### Commands (R323 to R341) -/

/-- R324, R325, R327 to R334, R341, R383: an accepted command advances head, is given a sequence number and a log entry, and ends with a
completion. NOP changes nothing else; OPEN_INTERFACE takes the highest version of the range offered, or ends with
BAD_VERSION; CLOSE_INTERFACE closes the interface; GET_STATE, TABLE_READ, READ_FAULT_RECORD and READ_LOG write their block;
COUNTER_SNAPSHOT latches and waits for its record. A block that cannot be written ends its command with HOST_MEMORY_ERROR (R328). A
command that fails a check completes with its code and changes nothing. READ_LOG's
result with no entry retained is the model's choice (notes/assumptions/41.md), as are the end of a TABLE_READ that runs past the last way
and what a refused renegotiation keeps (notes/assumptions/15.md). -/
def Obligations.HostCommands : Prop :=
  ∀ (s : State) (d : CmdDesc),
    (s.accepts 3 d → Takes (.nop d) s (s.ended 3 d (fun t => t) 0 0 0))
    ∧ (∀ code : Nat, s.reaches d → (s.taking d).checkCommand (cmdOf 3) 3 (s.ownerFn d.ring) d = code → code ≠ 0 →
      Takes (.nop d) s ((s.taking d).reject 3 (s.ownerFn d.ring) d code))
    ∧ (s.accepts 1 d →
      let f := s.ownerFn d.ring
      Takes (.openInterface d) s
        (match chosenVersion f (argLe d 24 2) (argLe d 26 2) with
          | some v => s.ended 1 d (fun t => (t.setF (F.HIF_FN_VERSION_version f) v).setF (F.HIF_FN_VERSION_open f) 1) 0 v 0
          | none => s.ended 1 d (fun t => t) 4 0 0))
    ∧ (s.accepts 2 d →
      let f := s.ownerFn d.ring
      Takes (.closeInterface d) s
        (s.ended 2 d (fun t => (t.setF (F.HIF_FN_VERSION_version f) 0).setF (F.HIF_FN_VERSION_open f) 0) 0 0 0))
    ∧ (s.accepts 4 d → d.memErr = false →
      Takes (.getState d) s (s.ended 4 d (fun t => t.hostWrite d.argAddr (t.stateBlock (s.ownerFn d.ring))) 0 0 0))
    ∧ (s.accepts 0x20 d → d.memErr = false →
      let first := argLe d 28 4
      let n := min (argLe d 32 4) (262144 - first)
      let t := s.tab (argLe d 24 1)
      Takes (.tableRead d) s
        (s.ended 0x20 d (fun x => x.hostWrite d.argAddr ((List.range n).flatMap fun i => wayBytes (first + i) (t.way (first + i)))) 0 n 0))
    ∧ (s.accepts 0x30 d → d.memErr = false →
      Takes (.readFaultRecord d) s
        (s.ended 0x30 d (fun t => t.hostWrite d.argAddr (s.mram.faults.reverse.flatMap faultBytes)) 0 s.mram.faults.length 0))
    ∧ (s.accepts 0x31 d → d.memErr = false →
      let l := ((s.begun 0x31 d).2.hif.log.filter fun e => decide (argLe d 24 6 ≤ e.seq)).take (argLe d 32 4)
      Takes (.readLog d) s
        (s.ended 0x31 d (fun t => t.hostWrite d.argAddr (l.flatMap logBytes)) 0 ((l.head?.map LogEntry.seq).getD 0) l.length))
    ∧ (d.memErr →
      (s.accepts 4 d → Takes (.getState d) s (s.ended 4 d (fun t => t) 0x0E 0 0))
      ∧ (s.accepts 0x20 d → Takes (.tableRead d) s (s.ended 0x20 d (fun t => t) 0x0E 0 0))
      ∧ (s.accepts 0x30 d → Takes (.readFaultRecord d) s (s.ended 0x30 d (fun t => t) 0x0E 0 0))
      ∧ (s.accepts 0x31 d → Takes (.readLog d) s (s.ended 0x31 d (fun t => t) 0x0E 0 0)))
    ∧ (s.accepts 0x70 d → s.snap.busy = false → Takes (.counterSnapshot d) s (s.waits 0x70 d (fun t => t.latch false true) .snapshot))

/-- R389: POWER_DOMAIN accepts domains 1 to 24 and 27 to 33, but not 27 and 28 on SV-E5128-EN; with any other domain the command completes
with BAD_ARGUMENT. A request for the state that the domain already holds completes with OK and changes nothing: beside the completion
there is only the conductor's log of the command. -/
def Obligations.PowerDomainArguments : Prop :=
  ∀ (s : State) (d : CmdDesc),
    let x := argLe d 24 1
    let named := ((1 ≤ x ∧ x ≤ 24) ∨ (27 ≤ x ∧ x ≤ 33)) ∧ ¬ (s.part.en = true ∧ (x = 27 ∨ x = 28))
    let f := s.ownerFn d.ring
    ((cmdOf 0x41).args d s = 0 ↔ (named ∧ argLe d 25 1 ≤ 1))
    ∧ (s.reaches d → descClean d → (s.taking d).fnOpen f → 0x300 ≤ (s.taking d).fnVersion f → (s.taking d).accessCode f 3 0 = 2 →
      (s.dev = .config ∨ s.dev = .ready ∨ s.dev = .degraded) → ¬ named →
      Takes (.powerDomain d) s ((s.taking d).reject 0x41 f d 2))
    ∧ (s.accepts 0x41 d → s.ksBusy = false → s.key.log.length < 767 → (argLe d 25 1 = 1 ↔ s.domainOn x) →
      Takes (.powerDomain d) s ((s.ended 0x41 d (fun t => t) 0 0 0).ksLog .command))

/-- R396: the reset budget is 760 W; SET_POWER_BUDGET accepts 210 to 10,000, any other value completes with BAD_ARGUMENT and changes
nothing. R390, R391, R393, R401, R430: SET_POWER_BUDGET sets the budget; POWER_DOMAIN of a domain whose required domains are on and
whose charge fits charges it at once and waits for it to come up, one whose required domains are not on, or whose charge the budget can never hold,
is refused with the request noted; one to off switches the domain and its dependants off, or, where one of them may not go off now, is
refused with that reason; PARK withdraws a pending activation, disables the DMA channels, stops forwarding and enters
PARKING; PLUMB_GROUP with 6 W of leave to be had takes its group's ports down and tests it. -/
def Obligations.PowerCommands : Prop :=
  State.reset.budget = 7600
  ∧ (∀ (s : State) (d : CmdDesc),
    let v := argLe d 24 4
    let f := s.ownerFn d.ring
    (cmdOf 0x40).args d s = (if 210 ≤ v ∧ v ≤ 10000 then 0 else 2)
    ∧ (s.reaches d → descClean d → (s.taking d).fnOpen f → 0x300 ≤ (s.taking d).fnVersion f → (s.taking d).accessCode f 3 0 = 2 →
      (s.dev = .config ∨ s.dev = .ready ∨ s.dev = .degraded) → v < 210 ∨ 10000 < v →
      Takes (.setPowerBudget d) s ((s.taking d).reject 0x40 f d 2)))
  ∧ ∀ (s : State) (d : CmdDesc), s.key.log.length < 766 →
    (s.accepts 0x40 d → s.ksBusy = false →
      let v := argLe d 24 4
      Takes (.setPowerBudget d) s
        ((s.ended 0x40 d (fun t => (t.setF F.PWR_BUDGET_budget v).raiseIf (decide (v < s.permanent + s.transient))
          F.PWR_EVENT_over_budget) 0 0 0).ksLog .command))
    ∧ (s.accepts 0x41 d → s.ksBusy = false → s.key.doubleFault = false →
      let x := argLe d 24 1
      (argLe d 25 1 = 1 → s.domainOn x = false → x ∉ s.pwr.rising → (s.requires x).all s.domainOn →
        s.permanent + s.transient + chargeOf s.part x ≤ s.budget →
        let up := fun (t : State) => State.ksLog { t with pwr := { t.pwr with rising := t.pwr.rising ++ [x] } } .power
        Takes (.powerDomain d) s ((s.waits 0x41 d up (.domainOn x)).ksLog .command))
      ∧ (argLe d 25 1 = 1 → s.domainOn x = false → x ∉ s.pwr.rising →
        (let no := fun (r : Nat) (t : State) => (t.noteRefusal 0 x (chargeOf s.part x) r).ksLog .power
        ((s.requires x).all s.domainOn = false →
          Takes (.powerDomain d) s ((s.ended 0x41 d (no 4) 2 0 0).ksLog .command))
        ∧ ((s.requires x).all s.domainOn → s.budget < s.permanent + chargeOf s.part x →
          Takes (.powerDomain d) s ((s.ended 0x41 d (no 5) 6 0 0).ksLog .command))))
      ∧ (argLe d 25 1 = 0 → s.domainOn x → (∀ y ∈ s.dependants x ++ [x], s.offRefusal y = 0) →
        Takes (.powerDomain d) s
          ((s.ended 0x41 d (fun t => t.each (s.dependants x ++ [x]) State.switchOff) 0 0 0).ksLog .command))
      ∧ (argLe d 25 1 = 0 → s.domainOn x → ∀ (l : List Nat) (y : Nat) (r : List Nat), s.dependants x ++ [x] = l ++ y :: r →
        (∀ z ∈ l, s.offRefusal z = 0) → s.offRefusal y ≠ 0 →
        Takes (.powerDomain d) s
          ((s.ended 0x41 d (fun t => t.noteRefusal 0 x (chargeOf s.part x) (s.offRefusal y)) 7 0 0).ksLog .command)))
    ∧ (s.accepts 0x42 d →
      let off := fun (t : State) =>
        ((t.withdrawAct.each (List.range 32) State.chDisable).each (List.range 8) fun u n => u.setTmr (F.PIPE_CTRL_fwd_en n) 0).setTmr
          F.EPH_CTRL_meridian_en 0
      let park := fun (t : State) =>
        let u := (off t).each ((off t).ports.map Prod.fst) State.hardEnd
        { u with dev := .parking, pwr := { u.pwr with phase := .draining (decide (argLe d 24 1 = 1)) } }
      Takes (.park d) s (s.ended 0x42 d park 0 0 0))
    ∧ (s.accepts 0x60 d → s.ksBusy = false → s.key.doubleFault = false → s.permanent + s.transient + 60 ≤ s.budget →
      let g := argLe d 24 1
      let start := fun (t : State) =>
        let u := (t.setKs fun k => { k with grants := k.grants ++ [⟨3, 100 + g, 60⟩] }).ksLog .power
        let v := u.each ((domainPorts g).filter s.portExists) fun v p => v.portDown p true
        let w : State := { v with pwr := { v.pwr with plumbFrom := s.now } }
        ((w.setF F.PLB_STATUS_plb_state 2).setF F.PLB_STATUS_group g).setF F.PLB_STATUS_abandoned 0
      Takes (.plumbGroup d) s (s.waits 0x60 d start (.group g)))

/-- R94, R99, R144, R150, R152, R394, R404, R406: a load empties its shadow bank and verifies its object; one that fails ends with its
code, recorded in SEC.VERIFY_INFO, and a refused patch shows patch_state REFUSED; one whose object cannot be read ends with HOST_MEMORY_ERROR (R328). A calendar that passes its checks is then the shadow Ephemeris. An image that passes and fits the
tables is the shadow Ashlar bank, unless it waits while the bank drains; a patch that passes is applied to its bank. One with TCAM
entries holds leave for 20 W meanwhile; one that the tables cannot hold ends with NO_RESOURCE. Which loads ask leave, and what a refused
patch shows, is the model's choice (notes/assumptions/28.md). -/
def Obligations.LoadCommands : Prop :=
  (∀ (s : State) (d : CmdDesc), d.memErr → s.ksBusy = false → s.key.log.length < 767 →
    (s.accepts 0x12 d →
      Takes (.loadEphemeris d) s ((s.ended 0x12 d (fun t => { t with eph := (t.eph.1, EphBank.empty) }) 0x0E 0 0).ksLog .command))
    ∧ (s.accepts 0x10 d → Takes (.loadAshlar d) s ((s.ended 0x10 d State.emptyShadow 0x0E 0 0).ksLog .command))
    ∧ (s.accepts 0x11 d → Takes (.patchAshlar d) s ((s.ended 0x11 d State.patchRefused 0x0E 0 0).ksLog .command)))
  ∧ ∀ (s : State) (d : CmdDesc) (op p : Nat) (img : Blob), s.accepts op d → d.memErr = false → s.ksBusy = false →
    s.key.log.length < 766 → (s.begun op d).2.hostBlob d.argAddr d.argLen = img →
    sigBlockAt img = some p → s.key.doubleFault = false → s.permanent + s.transient + 200 ≤ s.budget →
    let lv := fun (tcam : Bool) (t : State) =>
      if tcam then (t.setKs fun k => { k with grants := k.grants ++ [⟨4, d.ring, 200⟩] }).ksLog .power else t
    let noted := fun (typ c : Nat) (t : State) => t.noteVerify typ c (img.le (p + 0x0C) 1)
    (op = 0x12 →
      let y := fun (t : State) => { t with eph := (t.eph.1, EphBank.empty) }
      let c := s.verifyAt img 3 p
      Takes (.loadEphemeris d) s (State.ksLog
        (if c ≠ 0 then s.ended 0x12 d (fun t => noted 3 c (y t)) (reasonCode c) 0 0
        else if ephCheck img p ≠ 0 then s.ended 0x12 d y (ephCheck img p) 0 0
        else s.ended 0x12 d (fun t => { t with eph := (t.eph.1, ⟨true, img.slice 0 p, signedOf img p, []⟩) }) 0 (ephId img) 0) .command))
    ∧ (op = 0x10 →
      let b := bankOf img (signedOf img p)
      let c := s.verifyAt img 2 p
      let v := imageCheck img p (s.fnVersion (s.ownerFn d.ring))
      Takes (.loadAshlar d) s (State.ksLog
        (if c ≠ 0 then s.ended 0x10 d (fun t => noted 2 c t.emptyShadow) (reasonCode c) 0 0
        else if v ≠ 0 then s.ended 0x10 d State.emptyShadow v 0 0
        else match (s.begun 0x10 d).2.emptyShadow.reserveTables true b with
          | none => s.ended 0x10 d State.emptyShadow 0x0B 0 0
          | some x =>
            let z := lv (decide (b.tcamCount ≠ 0)) x
            if s.draining then
              s.waits 0x10 d (fun _ => { z with loads := z.loads ++ [⟨d.ring, false, true, b, 0, [], false⟩] }) (.drain d.ring)
            else s.ended 0x10 d (fun _ => (z.writeFull b).returnGrant 4 d.ring) 0 b.id 0) .command))
    ∧ (op = 0x11 → patchVersion img = 0 →
      let c := s.verifyAt img 2 p
      let shadow := decide (argLe d 24 1 = 1)
      Takes (.patchAshlar d) s (State.ksLog
        (if c ≠ 0 then s.ended 0x11 d (fun t => (noted 2 c t).patchRefused) (reasonCode c) 0 0
        else match patchedBank img p (signedOf img p) (s.ashOf shadow) with
          | none => s.ended 0x11 d State.patchRefused 0x02 0 0
          | some (b, w) =>
            if ((s.begun 0x11 d).2.reserveTables shadow b).isNone then s.ended 0x11 d State.patchRefused 0x0B 0 0
            else match (lv (w.any fun e => decide (e.1 = 10)) (s.begun 0x11 d).2).writePatch
                ⟨d.ring, true, shadow, b, img.le 0x38 4, w, false⟩ with
              | none => s.ended 0x11 d (fun t => (lv (w.any fun e => decide (e.1 = 10)) t).patchRefused.returnGrant 4 d.ring) 0x0B 0 0
              | some x => s.ended 0x11 d (fun _ => x.returnGrant 4 d.ring) 0 b.id 0) .command))

/-- R108, R109, R175, R410, R412, R414, R416, R417, R419: ACTIVATE arms the switch for the first instant that its calendar allows and
answers with it, or is refused with its code; CANCEL_ACTIVATE withdraws a pending request in time and says whether it did; TABLE_FLUSH puts its event on
the learn bus and waits; ATTEST with a credit and a healthy random source uses one index and writes the report of this moment, signed; without them it is
BUSY, and with no index left NO_RESOURCE; FW_UPDATE, its image verified, waits for its flash writes, which put it into both slots (its
block at 0, its object at 0x2000) where they succeed and end the command (with the core cycle, the model's choice,
notes/assumptions/1.md); one that ends earlier raises fw_update_done too. RUN_BUNDLE, its bundle verified, raises counter 1 and starts
its items, which then run with what follows from the command; one of another shape is BAD_ARGUMENT (before counter 1 is raised, the
model's choice, notes/assumptions/14.md). -/
def Obligations.ActivationAndSecurityCommands : Prop :=
  ∀ (s : State) (d : CmdDesc), s.key.log.length < 767 →
    (s.accepts 0x13 d → s.ksBusy = false →
      let t := (s.begun 0x13 d).2
      let sel := argLe d 36 1
      ∀ (c : Nat) (a : PendAct) (x : State), t.requestSwitch sel (argLe d 24 6 * 10 ^ 9 + argLe d 32 4) = (c, some a, x) →
      let r0 := a.tEff / 10 ^ 9 % 2 ^ 48 + (b2n (decide (c = 0x0C)) + 2 * b2n a.predicted) * 2 ^ 48
      Takes (.activate d) s
        ((s.ended 0x13 d (fun _ => x.showAct 1 c sel (decide (c = 0x0C)) a.predicted) c r0 (a.tEff % 10 ^ 9)).ksLog .command)
      ∧ x.fly.armed = some a ∧ x.key.ks.pend = some a)
    ∧ (s.accepts 0x13 d → s.ksBusy = false →
      ∀ (c : Nat) (x : State), (s.begun 0x13 d).2.requestSwitch (argLe d 36 1) (argLe d 24 6 * 10 ^ 9 + argLe d 32 4) = (c, none, x) →
      Takes (.activate d) s ((s.ended 0x13 d (fun _ => x) c 0 0).ksLog .command))
    ∧ (s.accepts 0x14 d → s.ksBusy = false →
      ((∀ a : PendAct, s.key.ks.pend = some a → a.tEff < s.nsCeil + 1000) → Takes (.cancelActivate d) s ((s.ended 0x14 d (fun t => t) 0 0 0).ksLog .command))
      ∧ ∀ a : PendAct, s.key.ks.pend = some a → s.nsCeil + 1000 ≤ a.tEff →
        let y := fun (t : State) =>
          State.setF { t.setKs fun k => { k with pend := none } with fly := { t.fly with armed := none } } F.EPH_ACT_STATUS_act_state 0
        Takes (.cancelActivate d) s ((s.ended 0x14 d y 0 1 0).ksLog .command))
    ∧ (s.accepts 0x21 d → s.ksBusy = false → s.activeUnit.isSome →
      let e : BusEvent := .flush (argLe d 24 1) (argLe d 26 2) (argLe d 28 2) (argBe d 30 6) s.hif.nextSeq
      Takes (.tableFlush d) s
        ((s.waits 0x21 d (fun t => t.setKs fun k => { k with ctl := k.ctl ++ [e] }) .flush).ksLog .command))
    ∧ (s.accepts 0x50 d →
      (s.sec.credits = 0 ∨ s.sec.rngOk = false → Takes (.attest d) s (s.ended 0x50 d (fun t => t) 7 0 0))
      ∧ (s.sec.credits ≠ 0 → s.sec.rngOk → 2 ^ 30 ≤ s.sec.hssIndex → Takes (.attest d) s (s.ended 0x50 d (fun t => t) 0x0B 0 0))
      ∧ (s.sec.credits ≠ 0 → s.sec.rngOk → s.sec.hssIndex < 2 ^ 30 →
        let used := fun (t : State) =>
          State.attestReport (State.useHssIndex { t with sec := { t.sec with credits := t.sec.credits - 1 } })
            (Blob.ofList (t.attestHead (d.inl.take 32)))
        (d.memErr = false → Takes (.attest d) s (s.ended 0x50 d (fun t => (used t).2.hostWrite d.argAddr (used t).1) 0 3956 0))
        ∧ (d.memErr → Takes (.attest d) s (s.ended 0x50 d (fun t => (used t).2) 0x0E 0 0))
        ∧ (used (s.begun 0x50 d).2).2.sec.hssIndex = s.sec.hssIndex + 1))
    ∧ (d.memErr →
      (s.accepts 0x52 d → Takes (.fwUpdate d) s (s.ended 0x52 d (fun t => t.raise F.SEC_EVENT_fw_update_done) 0x0E 0 0))
      ∧ (s.accepts 0x51 d → Takes (.runBundle d) s (s.ended 0x51 d (fun t => t) 0x0E 0 0)))
    ∧ (∀ (p : Nat) (b : Blob), s.accepts 0x52 d → d.memErr = false → (s.begun 0x52 d).2.hostBlob d.argAddr d.argLen = b →
      sigBlockAt b = some p →
      let c := s.verifyAt b 1 p
      Takes (.fwUpdate d) s
        (if c ≠ 0 then s.ended 0x52 d (fun t => (t.noteVerify 1 c (b.le (p + 0x0C) 1)).raise F.SEC_EVENT_fw_update_done) (reasonCode c) 0 0
        else s.waits 0x52 d (fun t => t) (.flash b))
      ∧ ∀ (x : State) (e : InFlight), e.wait = .flash b →
        x.flashStep e = (x.fwWrite b).2.complete e (x.fwWrite b).1 0 0
        ∧ ((x.fwWrite b).1 = 0 ∧ (x.fwWrite b).2.mram.fw0 = slotOf b p ∧ (x.fwWrite b).2.mram.fw1 = slotOf b p
          ∨ (x.fwWrite b).1 ∈ [0x08, 0x0B, 0x0D])
        ∧ ∃ (y : State) (n : Nat), x.fwWrite b = (n, y.raise F.SEC_EVENT_fw_update_done))
    ∧ (∀ (p : Nat) (b : Blob), s.accepts 0x51 d → d.memErr = false → (s.begun 0x51 d).2.hostBlob d.argAddr d.argLen = b →
      sigBlockAt b = some p →
      let c := s.verifyAt b 4 p
      let items := (List.range (b.le 8 4)).map fun i => b.list (64 + 192 * i) 192
      exec (.runBundle d) s = .next (State.conclude s
        (if c ≠ 0 then s.ended 0x51 d (fun t => t.noteVerify 4 c (b.le (p + 0x0C) 1)) (reasonCode c) 0 0
        else if bundleOk b p = false then s.ended 0x51 d (fun t => t) 2 0 0
        else s.waits 0x51 d (fun t => t.advanceRollback 1 (b.le (p + 0x10) 4)) (.bundle items (decide (b.le (p + 0x14) 8 ≠ 0)) 0 none))))

/-! ### The way of a frame (R24 to R34, R49 to R54, R111, R124, R147, R199, R201, R207, R212, R224, R228, R250, R256) -/

/-- R24, R55, R111, R115, R26: the first bytes of a frame at a port that is up and not already receiving are consumed by the MAC when
it does not receive or their EtherType is 0x8808; go at once to the egress MAC of the slot's connection when the express test holds,
with a receive timestamp (R72): they start where that MAC is free, wait behind Meridian frames that are there, and interrupt or end the
packet-plane frame being sent (R54); and otherwise become a packet-plane frame, counted where the test found it late or out of
type, whose header enters the FIFO of its macro once 256 bytes are there, and is dropped and counted where 16 are in it (R31). A port
that is not up receives nothing. R199, R50: the end of a short good frame puts its header into the FIFO and counts frame and bytes; a
frame whose FCS is wrong is bad, and counted; the end of an express frame gives the frame being sent its length. -/
def Obligations.FrameArrival : Prop :=
  (∀ (s : State) (p : Nat) (head : List Byte), s.calm → (s.portUp p = false ∨ (s.port p).arriving.isSome) →
    Idles (.frameReceive p head) s)
  ∧ (∀ (s : State) (p : Nat) (head : List Byte), s.calm → s.portUp p → (s.port p).arriving = none →
    let cfg := s.reg (Addr.PORT_MAC_CFG (p / 4) (p % 4))
    let s1 := s.setPort p { s.port p with rxCfg := cfg, rxAddr := s.macAddr p, activity := true }
    let rcv := fun (t : State) (a : Arriving) => t.setPort p { t.port p with arriving := some a }
    let en := s.getB (F.PORT_MAC_CFG_rx_en (p / 4) (p % 4))
    ((en = false ∨ be16 head 12 = 0x8808) → Takes (.frameReceive p head) s (rcv s1 (.consumed head)))
    ∧ (en → be16 head 12 ≠ 0x8808 →
      (∀ (out t : Nat) (x : State), s1.expressTest p head = .yes out → (s1.count 1 p 0).rxStamp p = (t, x) →
        let y := rcv x (.express out false head s.now t)
        let send := fun (w : State) =>
          let r := w.stampTx out (w.meridianTx p head)
          r.2.startTx out r.1
        ((y.port out).skid = [] → (y.port out).tx = none → Takes (.frameReceive p head) s (send y))
        ∧ (((y.port out).skid ≠ [] ∨ (y.port out).tx.any TxFrame.meridian) →
          Takes (.frameReceive p head) s
            (y.setPort out { y.port out with skid := (y.port out).skid ++ [y.meridianTx p head] }))
        ∧ ∀ v : TxFrame, (y.port out).skid = [] → (y.port out).tx = some v → v.meridian = false →
          Takes (.frameReceive p head) s
            (if y.canCut out v then send (y.interrupt out v)
             else send ((y.stompNow out .collision true).raise (F.PORT_MAC_EVENT_meridian_collision (out / 4) (out % 4)))))
      ∧ ∀ (b : State) (t : Nat) (x : State),
        ((s1.expressTest p head = .no ∧ b = s1) ∨ (s1.expressTest p head = .late ∧ b = s1.count 1 p 2)
          ∨ (s1.expressTest p head = .fallback ∧ b = s1.count 1 p 4)) → b.rxStamp p = (t, x) →
        let i := x.fab.nextFrame
        let f := x.newFrame p head t
        let y := rcv (x.addFrame f).2 (.packet i)
        let l := y.fifo (p / 4)
        (head.length < 256 → Takes (.frameReceive p head) s y)
        ∧ (256 ≤ head.length → (∀ j ∈ l, y.enteredAfter p j = false) →
          (l.length < 16 →
            Takes (.frameReceive p head) s ((y.setFifo (p / 4) (l ++ [i])).setFrame i (some { f with hdrAt := s.now })))
          ∧ (16 ≤ l.length →
            Takes (.frameReceive p head) s
              ((x.count 0 p 8).setPort p { x.port p with arriving := some (.ignored head false) })))))
  ∧ (∀ (s : State) (p i : Nat) (rest : List Byte) (mm : Reassembly) (f : Frame), s.calm → (s.port p).arriving = some (.packet i) →
    s.frame i = some f → f.stage = .fifo → f.learn = .none → f.meter = none → 64 ≤ f.bytes.length + rest.length →
    f.bytes.length + rest.length ≤ fldOf (s.port p).rxCfg 0 14 →
    let l := f.bytes ++ rest
    let g := { f with bytes := l, len := l.length, ended := true }
    let y := (s.setPort p { s.port p with arriving := none, activity := true }).reassembled p mm
    let t := y.setFrame i (some g)
    (mm.bad = false → f.bytes.length < 256 → (s.fifo (p / 4)).length < 16 → (∀ j ∈ t.fifo (p / 4), t.enteredAfter p j = false) →
      Takes (.frameRxEnd p rest true ⟨false, mm⟩) s
        ((((t.setFifo (p / 4) (t.fifo (p / 4) ++ [i])).setFrame i (some { g with hdrAt := s.now })).count 0 p 0).countN 0 p 1 l.length))
    ∧ (256 ≤ f.bytes.length →
      Takes (.frameRxEnd p rest false ⟨false, mm⟩) s ((y.setFrame i (some { g with bad := true })).count 0 p 2)))
  ∧ ∀ (s : State) (p out t0 tRx : Nat) (got rest : List Byte) (mm : Reassembly) (x : TxFrame), s.calm →
    (s.port p).arriving = some (.express out false got t0 tRx) → (s.port out).tx = some x → (s.port out).skid = [] → x.crossing p →
    mm.bad = false → 64 ≤ got.length + rest.length → got.length + rest.length ≤ fldOf (s.port p).rxCfg 0 14 →
    let l := got ++ rest
    let y := (s.setPort p { s.port p with arriving := none, activity := true }).reassembled p mm
    let t := ((y.count 0 p 0).countN 0 p 1 l.length).countN 1 p 1 l.length
    Takes (.frameRxEnd p rest true ⟨false, mm⟩) s (t.setPort out { t.port out with tx := some { x with bytes := l, len := l.length } })

/-- R31, R124, R144, R147: the next header of a pipeline, taken round-robin over its macros, is resolved and counted; with no header
there, the pipeline off, or its expansion queue full (R224) nothing happens. Without forwarding or an active image the frame is dropped and
counted, as is one whose pipeline the image does not reach (R143), one that reads a poisoned entry (R305) and one whose lookups end in no
record; every other frame goes to step 4 with its action record, its entries' parity checked (R161, R178) and the learn event of a frame
that has arrived raised (R162). A DROP record without FRER and policing counts its reason. -/
def Obligations.HeaderResolution : Prop :=
  (∀ (s : State) (n : Nat) (full : Bool), s.calm → n < 8 → (s.domainOn (17 + n) = false ∨ s.expandFull n ∨ s.nextHeader n = none) →
    Idles (.headerResolve ⟨n, full⟩) s)
  ∧ (∀ (s : State) (n m i : Nat) (full : Bool), s.calm → n < 8 → s.domainOn (17 + n) → s.expandFull n = false →
    s.nextHeader n = some (m, i) →
    (s.frame i = none → Takes (.headerResolve ⟨n, full⟩) s (s.headerTaken n m))
    ∧ ∀ f : Frame, s.frame i = some f →
      let y := (s.headerTaken n m).count 3 n 0
      ((s.getB (F.PIPE_CTRL_fwd_en n) = false ∨ s.ash.1.valid = false) →
        Takes (.headerResolve ⟨n, full⟩) s ((y.count 3 n 1).dropFrame i (s.taken n f)))
      ∧ (s.getB (F.PIPE_CTRL_fwd_en n) → s.ash.1.valid → s.ash.1.fmt = 3 → 4 ≤ n →
        Takes (.headerResolve ⟨n, full⟩) s
          (((y.count 3 n 2).raise (F.PIPE_EVENT_image_limit_drop n)).dropFrame i (s.taken n f))))
  ∧ ∀ (s : State) (n m i : Nat) (f : Frame) (full : Bool), s.takesHeader n m i f →
    let l := s.ash.1.entriesRead f.port (s.parsed f) (s.lookedUp n m f) (s.foundAct n m f)
    let a := s.foundAct n m f
    let g := s.atStepFour n m f
    let t := s.beforeStepFour n m f
    ((∃ e ∈ l, e ∈ s.ash.1.poison) →
      Takes (.headerResolve ⟨n, full⟩) s (((s.checkedFor n m f).count 16 0 5).dropFrame i (s.taken n f)))
    ∧ ((∀ e ∈ l, e ∉ s.ash.1.poison) → (s.lookedUp n m f).record = none →
      Takes (.headerResolve ⟨n, full⟩) s (((s.checkedFor n m f).rangeError n (s.lookedUp n m f)).dropFrame i (s.taken n f)))
    ∧ (s.findsRecord n m f →
      Takes (.headerResolve ⟨n, full⟩) s (t.stepFour n i s.ash.1 g a full).2
      ∧ (a.dtype = 0 → a.role ≠ 1 → a.role ≠ 2 → a.policer = 0 →
        Takes (.headerResolve ⟨n, full⟩) s
          ((t.count 3 n (4 + a.reason)).dropFrame i { g with seqNum := g.hdr.rtag, markDei := false, meter := none })))

/-- Step 4 of a frame that has found its record (R26, R147). R233 to R238: a GENERATION record gives the frame the stream's next number; a
RECOVERY record passes, with the match or the vector algorithm, a number not seen before and discards a repeated one, one outside the
history, a frame without R-TAG or of no member stream; a home pipeline that is off discards too. R265 to R267: a policer takes the
counted length from the buckets its mode names and colours the frame, which is dropped, marked or passed as its entry says. A DROP record
counts its reason. R195, R198 to R203, R206, R226 to R228: an admitted frame keeps the copies whose queues are up and have room, a mirror
copy among them, and charges its pool, port and class; one that keeps no copy, whose class is at its limit, or whose pool refuses it is
dropped whole and counted. That a frame which has ended bad is dropped in place of its admission is the model's choice
(notes/assumptions/55.md), as are the orders within a core cycle (notes/assumptions/51.md). -/
def Obligations.StepFour : Prop :=
  ∀ (s : State) (n m i : Nat) (f : Frame) (full : Bool), s.takesHeader n m i f → s.findsRecord n m f →
    let b := s.ash.1
    let a := s.foundAct n m f
    let g := s.atStepFour n m f
    let t := s.beforeStepFour n m f
    let c : Instr := .headerResolve ⟨n, full⟩
    let e := b.recovery a.fn
    let r := t.recState a.fn
    let noted := fun (x : Recovery) (ok dup : Bool) (k : Nat) => if e.period = 0 then x else x.tested ok dup k
    (a.role = 1 → t.domainOn (17 + (b.stream a.fn).home) = false → Takes c s ((t.homeDown n a.fn true).dropFrame i g))
    ∧ (a.role = 2 → t.domainOn (17 + e.home) = false → Takes c s ((t.homeDown n a.fn false).dropFrame i g))
    ∧ (a.role = 2 → t.domainOn (17 + e.home) → b.memberOf e g.port = none → Takes c s ((t.count 12 a.fn 6).dropFrame i g))
    ∧ (a.role = 2 → t.domainOn (17 + e.home) → (b.memberOf e g.port).isSome → g.hdr.rtag = none →
      Takes c s ((t.count 12 a.fn 5).dropFrame i g))
    ∧ (∀ k q : Nat, a.role = 2 → t.domainOn (17 + e.home) → b.memberOf e g.port = some k → g.hdr.rtag = some q →
      r.takeAny = false →
      let d := signed 16 (q + 65536 - r.recov)
      let x := fun (dup : Bool) => (t.count 11 k 1).setRec a.fn (noted r false dup k)
      (e.isMatch → q = r.recov → Takes c s (((x true).count 12 a.fn 1).dropFrame i g))
      ∧ (e.isMatch = false → ((e.hist : Int) ≤ d ∨ d ≤ -(e.hist : Int)) → Takes c s (((x false).count 12 a.fn 4).dropFrame i g))
      ∧ (e.isMatch = false → -(e.hist : Int) < d → d ≤ 0 → bitAt r.history (-d).toNat →
        Takes c s (((x true).count 12 a.fn 1).dropFrame i g)))
    ∧ ∀ (q : Option Nat) (u : State),
      ((a.role ≠ 1 ∧ a.role ≠ 2 ∧ q = g.hdr.rtag ∧ u = t)
        ∨ (a.role = 1 ∧ t.domainOn (17 + (b.stream a.fn).home) = true ∧ q = some (t.nextSeq a.fn)
          ∧ u = (t.setNextSeq a.fn ((t.nextSeq a.fn + 1) % 65536)).count 11 a.fn 0)
        ∨ (a.role = 2 ∧ t.domainOn (17 + e.home) = true ∧ q = g.hdr.rtag
          ∧ ∃ k v : Nat, b.memberOf e g.port = some k ∧ g.hdr.rtag = some v ∧
            let d := signed 16 (v + 65536 - r.recov)
            let put := fun (x : Recovery) => (t.count 11 k 1).setRec a.fn (noted { x with timer := some t.now } true false k)
            ((e.isMatch = true ∧ (r.takeAny = true ∨ v ≠ r.recov)
                ∧ u = (put { r with recov := v, takeAny := false }).count 12 a.fn 0)
              ∨ (e.isMatch = false ∧ r.takeAny = true
                ∧ u = (put { r with recov := v, history := 2 ^ e.hist - 1, takeAny := false }).count 12 a.fn 0)
              ∨ (e.isMatch = false ∧ r.takeAny = false ∧ 0 < d ∧ d < (e.hist : Int)
                ∧ u = (((put { r with recov := v, history := (r.history * 2 ^ d.toNat + 1) % 2 ^ e.hist }).countN
                    12 a.fn 3 (zerosOut r.history e.hist d.toNat)).countN 12 a.fn 2 (b2n (decide (1 < d)))).count 12 a.fn 0)
              ∨ (e.isMatch = false ∧ r.takeAny = false ∧ -(e.hist : Int) < d ∧ d ≤ 0 ∧ bitAt r.history (-d).toNat = false
                ∧ u = ((put { r with history := r.history + 2 ^ (-d).toNat }).count 12 a.fn 2).count
                    12 a.fn 0)))) →
      let len := if g.ended then g.len else fldOf (u.port g.port).rxCfg 0 14
      let p := b.policer a.policer
      let z := u.policerNow a.policer
      let need := (u.counted p.prof len).toNat * 13200000
      let yellow := p.aware && g.hdr.outer && decide (g.hdr.dei = 1)
      let metered := fun (col mask : Nat) (z1 : Policer) (w : State) (h : Frame) =>
        w = (let y := (u.setPolicer a.policer (some z1)).count 13 a.policer (2 * col)
          if g.ended then y.countN 13 a.policer (2 * col + 1) len else y)
        ∧ h = { g with seqNum := q, markDei := (decide (col = 1) && decide (p.yellow = 1)) || (decide (col = 2) && decide (p.red = 1)),
                       meter := if g.ended then none else some (a.policer, len, mask + 4 * col) }
      let red := (p.mode = 2 ∧ z.e < need) ∨ (p.mode ≠ 2 ∧ (yellow = true ∨ z.c < need) ∧ z.e < need)
      let amber := need ≤ z.e ∧ (yellow = true ∨ z.c < need)
      let green := yellow = false ∧ need ≤ z.c ∧ (p.mode = 2 → need ≤ z.e)
      let unmetered := a.policer = 0 ∨ p.mode = 0
      (∀ (w : State) (h : Frame), ¬ unmetered → ((red ∧ p.red = 0 ∧ metered 2 0 z w h) ∨ (amber ∧ p.yellow = 2 ∧
          metered 1 2 { z with e := z.e - need } w h)) → Takes c s ((w.count 13 a.policer 6).dropFrame i h))
      ∧ ∀ (w : State) (h : Frame),
        ((unmetered ∧ w = u ∧ h = { g with seqNum := q, markDei := false, meter := none })
          ∨ (¬ unmetered ∧ red ∧ p.red ≠ 0 ∧ metered 2 0 z w h)
          ∨ (¬ unmetered ∧ amber ∧ p.yellow ≠ 2 ∧ metered 1 2 { z with e := z.e - need } w h)
          ∨ (¬ unmetered ∧ green ∧
              metered 0 (if p.mode = 2 then 3 else 1) { z with c := z.c - need, e := if p.mode = 2 then z.e - need else z.e } w h)) →
        (a.dtype = 0 → Takes c s ((w.count 3 n (4 + a.reason)).dropFrame i h))
        ∧ (a.dtype ≠ 0 → g.bad → Takes c s (w.dropFrame i h))
        ∧ (a.dtype ≠ 0 → g.bad = false →
          let ss := b.session a.session
          let cells := ceilDiv len 256
          ∀ (l0 l : List CopyReq) (took : Bool) (w0 w1 w2 : State), w.acceptAll cells (b.copiesOf h a) = (l0, w0) →
            (if a.mirrorEn && ss.valid then w0.mirrorTake a.session ss else (false, w0)) = (took, w1) →
            let plain := took && decide (ss.trunc = 0) && decide (ss.encapLen = 0)
            let cp : CopyReq := { queue := ss.queue a.session, edit := ⟨0, 0, 0, 0, 0, 0, 0, 0⟩, mirror := true }
            (l0 = [] → Takes c s ((w1.count 5 g.port 0).dropFrame i h))
            ∧ (l0 ≠ [] →
              ((plain = false ∧ w2 = w1 ∧ l = l0)
                ∨ (plain = true ∧ ∃ ok : Bool, w1.acceptCopy cp.queue cells = (ok, w2) ∧ l = if ok then l0 ++ [cp] else l0)) →
              let j : Frame := { h with mirror := if took then some (a.session, ss) else none, mirrorShare := took && !plain }
              let k := w2.chargePool j l
              let above := g.direct = false ∧ 16 * w2.limitF (F.BUF_ING_LIMIT_ing_limit (8 * g.port + h.cls)) < w2.charged g.port h.cls + cells
              (above → Takes c s ((w2.count 5 g.port 1).dropFrame i h))
              ∧ (¬ above →
                let w3 := w2.serveAsk k g.owner cells
                ((w2.poolGrants k cells ∨ w2.openAsks k = []) → w3 = w2)
                ∧ ((w3.poolGrants k cells = false ∨ w3.place k cells l j.mirrorShare full = none) →
                  Takes c s (w3.askFails k cells i { j with copies := l } full))
                ∧ ∀ hbm back : Bool, w3.poolGrants k cells → w3.place k cells l j.mirrorShare full = some (hbm, back) →
                  let y := w3.chargeFrame i j k cells hbm l full
                  Takes c s (if back then y.count 8 0 4 else y)
                  ∧ y.expandQ g.unit = w3.expandQ g.unit ++ [i]
                  ∧ (y.pool k).used + (y.pool k).usedHbm = (w3.pool k).used + (w3.pool k).usedHbm + cells
                  ∧ (g.direct = false → y.charged g.port h.cls = w3.charged g.port h.cls + cells))))

/-- R224, R201: the oldest admitted frame of a pipeline is expanded: it draws its cells, a share of the mirror engine becomes a job, and
each copy enters its queue at the tail, or is released and counted where its port is no longer up or SAFE_HOLD has shut the queue (R300).
R228: the mirror engine builds the next copy under the session read at admission; a bad frame's job is released, as is one that pool 12 or
the queue refuses, which is counted. -/
def Obligations.ExpansionAndMirrorBuild : Prop :=
  (∀ (s : State) (n : Nat), s.calm → s.expandQ n = [] → Idles (.copyEnqueue n) s)
  ∧ (∀ (s : State) (n i : Nat) (r : List Nat), s.calm → s.expandQ n = i :: r →
    let t := s.setExpand n r
    (s.frame i = none → Takes (.copyEnqueue n) s t)
    ∧ ∀ f : Frame, s.frame i = some f →
      let x := (t.setFrame i (some { f with stage := .live, copies := [] })).cellsOf i
      (∀ (k : Nat) (e : Session), f.mirrorShare → f.mirror = some (k, e) →
        let y : State := { x with fab := { x.fab with mirrorJobs := x.fab.mirrorJobs ++ [(⟨i, k, e⟩ : MirrorJob)] } }
        Takes (.copyEnqueue n) s (y.each f.copies fun w c => w.enqueue i c))
      ∧ ((f.mirrorShare = false ∨ f.mirror = none) → Takes (.copyEnqueue n) s (x.each f.copies fun w c => w.enqueue i c)))
  ∧ (∀ (s : State) (i : Nat) (f : Frame) (c : CopyReq), s.frame i = some f → (∀ d ∈ (s.queue c.queue).copies, d.enq ≠ s.now) →
    let x := c.queue
    let cut := s.cutsThrough f x
    let mk := if cut then (false, false, none) else s.marking f c
    let cp : Copy := { frame := i, charge := f.charge, len := f.copyLen c.edit, stamp := f.arrival, ce := mk.1,
                       dei := mk.2.1 || (f.markDei && !c.mirror), edit := c.edit, mirror := c.mirror, cut := cut, prefetched := false,
                       enq := s.now }
    (s.queueOpen x → s.safetyShut x = false →
      (s.enqueue i c).queue x = { s.queue x with copies := (s.queue x).copies ++ [cp] }
      ∧ (∀ y, y ≠ x → (s.enqueue i c).queue y = s.queue y) ∧ ∀ j, (s.enqueue i c).frame j = s.frame j)
    ∧ ((s.queueOpen x = false ∨ s.safetyShut x) → s.enqueue i c = ((s.loseShare i).count 6 x 4).fixSpill x))
  ∧ (∀ s : State, s.calm → s.mirrorJob = none → Idles .mirrorBuild s)
  ∧ ∀ (s : State) (j : MirrorJob), s.calm → s.mirrorJob = some j →
    let i := j.frame
    let k := j.session
    let e := j.entry
    let t : State := { s with fab := { s.fab with mirrorJobs := s.fab.mirrorJobs.erase j } }
    (s.frame i = none → Takes .mirrorBuild s t)
    ∧ ∀ f : Frame, s.frame i = some f →
      let m := if e.trunc = 0 then f.len - 4 else min (f.len - 4) e.trunc
      let n := ceilDiv (e.encapLen + m) 256
      let x := if e.toCpu then 4096 + e.dest % 64 else 4160 + k
      let lost := fun (u : State) => (u.raise (F.PIPE_REP_EVENT_mirror_drop f.unit)).release i
      ((f.bad ∨ f.cellBad ∨ e.valid = false) → Takes .mirrorBuild s (t.release i))
      ∧ (f.bad = false → f.cellBad = false → e.valid →
        (t.safetyShut x → Takes .mirrorBuild s ((t.count 6 x 4).release i))
        ∧ (t.safetyShut x = false →
          ((t.poolGrants 12 n && t.quotaLeft false 12 n) = false → Takes .mirrorBuild s (lost ((t.poolFail 12).count 10 k 2)))
          ∧ (t.poolGrants 12 n && t.quotaLeft false 12 n →
            (t.queueOpen x = false → Takes .mirrorBuild s (lost (t.count 6 x 1)))
            ∧ (t.queueOpen x → 16 * t.limitF (F.BUF_QCFG_A_q_limit x) < t.depthOf x + n →
              Takes .mirrorBuild s (lost (t.count 6 x 0)))
            ∧ (t.queueOpen x → t.depthOf x + n ≤ 16 * t.limitF (F.BUF_QCFG_A_q_limit x) →
              Takes .mirrorBuild s ((t.buildCopy f k x n (e.build f.bytes m)).release i)))))

/-- R250, R252: an idle port's scheduler selects a queue and notes it, unless the copy at its head is lost, which it is then, and
counted; beside a preemptable frame it selects an express queue (R262). The start test, ahead of which go a Meridian frame in the skid buffer
and a flow-control frame that is due (R54, R59), starts the selected copy, withdraws a selection that is no longer eligible, and counts
it; a held frame goes on when HOLD is off and no express frame is eligible. R54: the Meridian frames in the skid buffer follow once the
MAC is free. R256: at its last byte a Meridian frame is counted apart and charged to nothing; a packet-plane frame is counted, its
charges are corrected to what was sent, its timestamp reported and its share released. R211, R212: the age scanner discards the aged
copies at a queue's head. R207, R212: the prefetcher reads the first HBM-resident frame of a queue within the window, or discards it
where it is aged: its cells of the prefetch area take the place of those in HBM; while a flush runs it releases the first flushed one
instead. That a selection uses the tags its children would have if they woke now, and the units of the buckets, are the model's choice
(notes/assumptions/62.md). -/
def Obligations.Egress : Prop :=
  (∀ (s : State) (p : Nat), s.calm → (s.port p).tx = none → (s.port p).held = none → (s.port p).sel = none →
    ((s.wakePort p).selectQueue p false = none → Idles (.selection p) s)
    ∧ ∀ (x : Nat) (c : Copy) (l : List Copy), (s.wakePort p).selectQueue p false = some x → (s.queue x).copies = c :: l →
      (s.lossOf p x c = none → Takes (.selection p) s (s.setPort p { s.port p with sel := some x }))
      ∧ ∀ k : Nat × Nat × Nat, s.lossOf p x c = some k →
        let t := ((s.popCopy x).loseCopy c).count k.1 k.2.1 k.2.2
        Takes (.selection p) s (if k.1 = 3 then t.raise (F.PIPE_EVENT_edit_error k.2.1) else t))
  ∧ (∀ (s : State) (p x : Nat) (t : TxFrame) (c : Copy) (l : List Copy), s.calm → (s.port p).tx = some t → t.pre →
    (s.port p).selExpress = none → (s.wakePort p).selectQueue p true = some x → (s.queue x).copies = c :: l →
    s.lossOf p x c = none → Takes (.selection p) s (s.setPort p { s.port p with selExpress := some x }))
  ∧ (∀ (s : State) (p : Nat), s.calm → ((s.port p).skid ≠ [] ∨ s.fcWaits p) → Idles (.frameStart p) s)
  ∧ (∀ (s : State) (p x : Nat), s.calm → (s.port p).tx = none → (s.port p).held = none → (s.port p).skid = [] → s.fcWaits p = false →
    (s.port p).selExpress = none → (s.port p).sel = some x →
    let t := s.setPort p { s.port p with sel := none }
    ((t.queue x).copies = [] → Takes (.frameStart p) s (t.count 6 x 9))
    ∧ ∀ (c : Copy) (l : List Copy), (t.queue x).copies = c :: l →
      (∀ k : Nat × Nat × Nat, t.lossOf p x c = some k →
        let y := ((t.popCopy x).loseCopy c).count k.1 k.2.1 k.2.2
        Takes (.frameStart p) s (if k.1 = 3 then y.raise (F.PIPE_EVENT_edit_error k.2.1) else y))
      ∧ (t.lossOf p x c = none →
        (t.stillEligible p x = false → Takes (.frameStart p) s (t.count 6 x 9))
        ∧ (t.stillEligible p x → Takes (.frameStart p) s (t.startCopy p x))))
  ∧ (∀ (s : State) (p : Nat) (t : TxFrame), s.calm → (s.port p).tx = none → (s.port p).held = some t → (s.port p).skid = [] →
    s.fcWaits p = false → (s.port p).selExpress = none → (s.port p).sel = none → s.holdOn p = false → s.selectQueue p true = none →
    Takes (.frameStart p) s (s.setPort p { s.port p with tx := some { t with tx := s.now }, held := none }))
  ∧ (∀ (s : State) (p : Nat), s.calm →
    let w := s.skidCheck p
    ((s.skidFit 0 (s.port p).skid).2 = [] → w = s)
    ∧ (((w.port p).tx ≠ none ∨ (w.port p).skid = []) → Takes (.skidBufferSend p) s w)
    ∧ ∀ (t f : TxFrame) (l : List TxFrame) (x : State), (w.port p).tx = none → (w.port p).skid = t :: l →
      w.stampTx p t = (f, x) → Takes (.skidBufferSend p) s ((x.setPort p { x.port p with skid := l }).startTx p f))
  ∧ (∀ (s : State) (p : Nat) (t : TxFrame), s.calm → (s.port p).tx = some t → t.meridian →
    (t.len = 0 → Idles (.transmitEnd p) s)
    ∧ (t.len ≠ 0 →
      let done := fun (b : List Byte) (n : Nat) =>
        (s.setPort p { s.port p with tx := none, activity := true, sent := some ⟨b, n, t.stomp, true, t.tTx⟩ }).verifyDue p
      (t.stomp = none → Takes (.transmitEnd p) s ((((done t.bytes t.len).count 0 p 13).countN 0 p 14 t.len).count 1 p 5))
      ∧ ∀ c : Stomp, t.stomp = some c → Takes (.transmitEnd p) s ((done (stompAfter t.bytes t.len) (t.len + 4)).count 0 p c.idx)))
  ∧ (∀ (s : State) (p : Nat) (t : TxFrame) (f : Frame), s.calm → (s.port p).tx = some t → t.meridian = false → t.flow = none →
    t.stomp = none → s.frame t.frame = some f → f.ended → f.bad = false → f.cellBad = false →
    let b := withFcs (s.sentBytes t f true)
    let n := b.length
    (t.cut = false ∨ n ≤ t.mx) →
    let x := (s.setPort p { s.port p with tx := none, activity := true, sent := some ⟨b, n, none, false, t.tTx⟩ }).verifyDue p
    let y := ((x.count 0 p 13).countN 0 p 14 n).settleTx p t n
    Takes (.transmitEnd p) s ((y.txReport t.frame 0 (tsBytes t.tTx t.flags)).release t.frame))
  ∧ (∀ (s : State) (x : Nat), s.calm →
    ((s.queue x).copies = [] → Idles (.ageHeadScan x) s)
    ∧ ∀ (c : Copy) (l : List Copy), (s.queue x).copies = c :: l →
      (s.aged x c = false → Idles (.ageHeadScan x) s)
      ∧ (s.aged x c → Takes (.ageHeadScan x) s ((((s.popCopy x).loseCopy c).count 6 x 2).ageHead x l.length)))
  ∧ (∀ (s : State) (x : Nat) (fails : List Nat), s.calm → (s.queue x).flush.any s.copyInHbm →
    Takes (.prefetchRead ⟨x, fails⟩) s (s.flushOne true x))
  ∧ ∀ (s : State) (x : Nat) (fails : List Nat), s.calm → (s.queue x).flush.any s.copyInHbm = false →
    (s.nextHbm 0 (s.queue x).copies = none → Idles (.prefetchRead ⟨x, fails⟩) s)
    ∧ ∀ (ahead : Nat) (c : Copy), s.nextHbm 0 (s.queue x).copies = some (ahead, c) →
      let near := ahead < s.getF F.BUF_PREFETCH_CFG_prefetch_window ∨ ahead = 0
      (¬ near → Idles (.prefetchRead ⟨x, fails⟩) s)
      ∧ (near → s.aged x c →
        let t := s.setQueue x { s.queue x with copies := (s.queue x).copies.filter fun d => decide (d.frame ≠ c.frame) }
        Takes (.prefetchRead ⟨x, fails⟩) s (((t.loseCopy c).count 6 x 2).fixSpill x))
      ∧ (near → s.aged x c = false → ∀ f : Frame, s.frame c.frame = some f →
        ((32768 < s.prefetched + c.charge ∨ f.ended = false) → Idles (.prefetchRead ⟨x, fails⟩) s)
        ∧ (s.prefetched + c.charge ≤ 32768 → f.ended → fails = [] →
          ∀ (l : List Nat) (y : State),
          (s.each f.cells fun y a => y.freeCell 8 a).drawCells false ⟨0, false, 0, f.refs, f.owner, f.pool, false, 0⟩ f.cells.length
            = (l, y) →
          let t := (y.linkCells true f.storedLen f.stored l).setFrame c.frame (some { f with cells := l })
          let done := fun (d : Copy) => if d.frame = c.frame then { d with prefetched := true } else d
          Takes (.prefetchRead ⟨x, fails⟩) s
            ((t.setQueue x { t.queue x with copies := (t.queue x).copies.map done }).fixSpill x)))

/-! ### Learning (R162 to R185) -/

/-- R164, R165, R168, R171 to R175: a grant slot gives the next event of the Keystone, else of the next pipeline that has one, to the
apply FIFO of every powered pipeline; while one of them is nearly full it grants nothing, and the stall is counted in every pipeline; in a
switchover gap or with no unit active nothing is granted (R286). SWEEP and EPOCH are issued to the bus, SWEEP only while age_time is not
0, and wait out a gap; during replay they go to the bus too (R287). A pipeline whose domain is off, or whose flush pass runs, applies nothing, and each command applies an event of its own type
alone. LEARN is ignored and counted where a static entry holds the key; it makes an entry for an unknown address, evicting one where no
way is free or can be freed, and is counted as failed where none may be evicted; it refreshes an entry of the same port, leaves a frozen
one, and moves one of another port, or freezes it where the move would pass move_limit, which the pipeline that raised the event
reports. REFRESH refreshes the entry, where there is one; SWEEP starts a pass, whose every visit of a bucket ages each entry there that the pass
has not visited and that was not hit, twice before it goes (R174); EPOCH starts a flap window; FLUSH removes what its selector names, and
its pass then ends. That a move refreshes the entry, and that move_count stops at 15, are the model's choice
(notes/assumptions/29.md). -/
def Obligations.LearnBus : Prop :=
  (∀ s : State, s.calm → s.inGap = false → s.activeUnit.isSome →
    let d := fun (t : State) (e : BusEvent) =>
      let u := t.setF (F.PIPE_LRN_BUS_SEQ_bus_seq 0) ((t.getF (F.PIPE_LRN_BUS_SEQ_bus_seq 0) + 1) % 2 ^ 32)
      u.each s.pipesOn fun x n => x.setTab n { x.tab n with fifo := (x.tab n).fifo ++ [e] }
    let room := s.pipesOn.all fun n => decide ((s.tab n).fifo.length ≤ 61)
    (∀ (e : BusEvent) (r : List BusEvent), room → s.key.ks.ctl = e :: r →
      Takes .learnGrant s (d (s.allKs fun k => { k with ctl := k.ctl.erase e }) e))
    ∧ (∀ (n : Nat) (e : BusEvent) (r : List BusEvent), room → s.key.ks.ctl = [] → s.nextLearner = some n → (s.tab n).queue = e :: r →
      Takes .learnGrant s (d { s.setTab n { s.tab n with queue := r } with learnPtr := n } e))
    ∧ (room = false → (s.key.ks.ctl ≠ [] ∨ s.nextLearner.isSome) →
      Takes .learnGrant s (s.each (List.range 8) fun t n => t.count 4 n 13))
    ∧ (s.key.ks.ctl = [] → s.nextLearner = none → Idles .learnGrant s))
  ∧ (∀ s : State, s.calm → (s.inGap ∨ s.activeUnit = none) → Idles .learnGrant s)
  ∧ (∀ s : State, s.calm →
    (s.getF (F.PIPE_LRN_GLOBAL_age_time 0) = 0 → Idles .sweepIssue s)
    ∧ (s.inGap →
      let wait := fun (e : BusEvent) => ({ s with key := { s.key with deferred := s.key.deferred ++ [.ctl e] } } : State)
      Takes .epochIssue s (wait .epoch) ∧ (s.getF (F.PIPE_LRN_GLOBAL_age_time 0) ≠ 0 → Takes .sweepIssue s (wait .sweep)))
    ∧ (s.inGap = false → s.activeUnit = none → Idles .epochIssue s ∧ Idles .sweepIssue s)
    ∧ (s.inGap = false → s.activeUnit.isSome →
      let add := fun (e : BusEvent) (k : KsState) => { k with ctl := k.ctl ++ [e] }
      let put := fun (e : BusEvent) => if s.key.replay then s.allKs (add e) else s.setKs (add e)
      Takes .epochIssue s (put .epoch) ∧ (s.getF (F.PIPE_LRN_GLOBAL_age_time 0) ≠ 0 → Takes .sweepIssue s (put .sweep))))
  ∧ (∀ (s : State) (n : Nat), s.calm →
    ((s.domainOn (17 + n) = false ∨ (s.tab n).flushing.isSome ∨ (s.tab n).fifo = []) →
      Idles (.learn n) s ∧ Idles (.refresh n) s ∧ Idles (.sweep n) s ∧ Idles (.epoch n) s ∧ Idles (.flush n) s)
    ∧ ∀ (e : BusEvent) (r : List BusEvent), (s.tab n).fifo = e :: r →
      ((∀ v m p c, e ≠ .learn v m p c) → Idles (.learn n) s) ∧ ((∀ v m p c, e ≠ .refresh v m p c) → Idles (.refresh n) s)
      ∧ (e ≠ .sweep → Idles (.sweep n) s) ∧ (e ≠ .epoch → Idles (.epoch n) s)
      ∧ ((∀ k v p m c, e ≠ .flush k v p m c) → Idles (.flush n) s))
  ∧ (∀ (s : State) (n vlan mac port src : Nat) (r : List BusEvent), s.calm → s.domainOn (17 + n) → (s.tab n).flushing = none →
    (s.tab n).fifo = .learn vlan mac port src :: r →
    let x : PipeTab := { s.tab n with fifo := r }
    let t := s.setTab n x
    let new := x.fresh vlan mac port
    let v := x.victims vlan mac
    let limit := s.getF (F.PIPE_LRN_GLOBAL_move_limit 0)
    ((x.find vlan mac fun e => e.static).isSome → Takes (.learn n) s (t.count 4 n 8))
    ∧ ((x.find vlan mac fun e => e.static) = none → x.find vlan mac (fun e => !e.static) = none →
      (∀ y : PipeTab, x.insert new = some y → Takes (.learn n) s ((t.setTab n y).count 4 n 3))
      ∧ (x.insert new = none → s.getB (F.PIPE_LRN_CTRL_evict_mode n) →
        (x.oldest v = none → Takes (.learn n) s (t.count 4 n 10))
        ∧ ∀ (w : Nat) (e : MacEntry), x.oldest v = some (w, e) →
          Takes (.learn n) s (((t.setTab n (x.writeWay w new)).count 4 n 9).count 4 n 3))
      ∧ (x.insert new = none → s.getB (F.PIPE_LRN_CTRL_evict_mode n) = false → ∀ (k : Nat) (y : State), t.free (max 1 v.length) = (k, y) →
        (v[k]? = none → Takes (.learn n) s (t.count 4 n 10))
        ∧ ∀ (w : Nat) (e : MacEntry), v[k]? = some (w, e) →
          Takes (.learn n) s (((y.setTab n (x.writeWay w new)).count 4 n 9).count 4 n 3)))
    ∧ ∀ (w : Nat) (e : MacEntry), (x.find vlan mac fun e => e.static) = none → x.find vlan mac (fun e => !e.static) = some (w, e) →
      (e.frozen → Takes (.learn n) s t)
      ∧ (e.frozen = false → e.port = port → Takes (.learn n) s (t.setTab n (x.writeWay w (x.touch e))))
      ∧ (e.frozen = false → e.port ≠ port → (limit = 0 ∨ e.moveCount + 1 ≤ limit) →
        let y := t.setTab n (x.writeWay w { x.touch e with port := port, moveCount := min 15 (e.moveCount + 1) })
        Takes (.learn n) s (if n = src then y.reportMove n vlan mac e.port port false else y))
      ∧ (e.frozen = false → e.port ≠ port → limit ≠ 0 → limit < e.moveCount + 1 →
        let left := s.getF (F.PIPE_LRN_GLOBAL_freeze_epochs 0)
        let y := t.setTab n (x.writeWay w { e with frozen := true, freezeLeft := left })
        Takes (.learn n) s (if n = src then y.reportMove n vlan mac e.port port true else y)))
  ∧ (∀ (s : State) (n vlan mac port src : Nat) (r : List BusEvent), s.calm → s.domainOn (17 + n) →
    (s.tab n).flushing = none → (s.tab n).fifo = .refresh vlan mac port src :: r →
    let x : PipeTab := { s.tab n with fifo := r }
    (x.find vlan mac (fun e => !e.static) = none → Takes (.refresh n) s (s.setTab n x))
    ∧ ∀ (w : Nat) (e : MacEntry), x.find vlan mac (fun e => !e.static) = some (w, e) →
      Takes (.refresh n) s ((s.setTab n x).setTab n (x.writeWay w (x.touch e))))
  ∧ (∀ (s : State) (n : Nat) (r : List BusEvent), s.calm → s.domainOn (17 + n) → (s.tab n).flushing = none →
    (s.tab n).fifo = .sweep :: r →
    Takes (.sweep n) s (s.setTab n { s.tab n with fifo := r, pass := ((s.tab n).pass + 1) % 256, sweep := some 0 }))
  ∧ (∀ (s : State) (n b : Nat), (s.tab n).sweep = some b → (s.tab n).flushing = none →
    let t := s.sweepStep n
    let mine := [2 * b, 2 * b + 1, 131072 + 2 * b, 131072 + 2 * b + 1]
    let pass := (s.tab n).pass
    (t.tab n).sweep = (if b + 1 < 65536 then some (b + 1) else none)
    ∧ (∀ w, w ∉ mine → (t.tab n).way w = (s.tab n).way w)
    ∧ ∀ (w : Nat) (x : MacEntry), w ∈ mine → (s.tab n).way w = some x →
      ((x.static ∨ x.seen = pass) → (t.tab n).way w = some x)
      ∧ (x.static = false → x.seen ≠ pass →
        (x.frozen → (t.tab n).way w = some { x with seen := pass })
        ∧ (x.frozen = false → x.hit → (t.tab n).way w = some { x with seen := pass, hit := false, stale := false })
        ∧ (x.frozen = false → x.hit = false → x.stale → (t.tab n).way w = none)
        ∧ (x.frozen = false → x.hit = false → x.stale = false → (t.tab n).way w = some { x with seen := pass, stale := true })))
  ∧ (∀ (s : State) (n : Nat) (r : List BusEvent), s.calm → s.domainOn (17 + n) → (s.tab n).flushing = none →
    (s.tab n).fifo = .epoch :: r →
    let t := s.setTab n { s.tab n with fifo := r }
    let k := (s.tab n).learnedN fun x => x.frozen && decide (x.freezeLeft ≤ 1)
    let f := fun (x : MacEntry) =>
      if x.frozen = false then some { x with moveCount := 0 }
      else if x.freezeLeft ≤ 1 then some { x with moveCount := 0, frozen := false, freezeLeft := 0, hit := true, stale := false }
      else some { x with moveCount := 0, freezeLeft := x.freezeLeft - 1 }
    Takes (.epoch n) s ((t.sweepWays n f).countN 4 n 6 k))
  ∧ (∀ (s : State) (n sel vlan port mac c : Nat) (r : List BusEvent), s.calm → s.domainOn (17 + n) → (s.tab n).flushing = none →
    (s.tab n).fifo = .flush sel vlan port mac c :: r →
    let t := s.setTab n { s.tab n with fifo := r }
    let u := t.sweepWays n fun x => if flushHits sel vlan port mac x then none else some x
    Takes (.flush n) s (u.setTab n { u.tab n with flushing := some c }))
  ∧ ∀ (s : State) (n : Nat), s.calm → Takes (.flushPassEnd n) s (s.setTab n { s.tab n with flushing := none })

/-- R150, R170, R178, R179, R185: a static event adds an entry for its banks or joins them to the one there, replaces the banks of one,
or removes one. A background check of a bucket with good parity changes nothing, and none runs while the table's domain is off; one that
finds bad parity handles the entry as R161 and R178 say, which is reported as a MASKED fault (R303); one of a TCAM entry that differs from
the store rewrites it, counted in every pipeline and reported in every powered one. The end of the drain frees the shadow bank, for the
load that waits for it. -/
def Obligations.StaticEntriesAndChecks : Prop :=
  (∀ (s : State) (n vlan mac cls dest mask : Nat) (r : List BusEvent), s.calm → s.domainOn (17 + n) → (s.tab n).flushing = none →
    let x : PipeTab := { s.tab n with fifo := r }
    let t := s.setTab n x
    ((s.tab n).fifo = .staticAdd vlan mac cls dest mask :: r →
      let b := match x.find vlan mac (fun e => !e.static) with
        | some (w, _) => x.setWay w none
        | none => x
      (∀ (w : Nat) (e : MacEntry), b.findStatic vlan mac cls dest = some (w, e) →
        Takes (.staticAdd n) s (t.setTab n (b.setWay w (some { e with bankMask := e.bankMask ||| mask }))))
      ∧ (b.findStatic vlan mac cls dest = none → ∀ y : PipeTab, b.insert (staticWay vlan mac cls dest mask) = some y →
        Takes (.staticAdd n) s ((t.setTab n b).setTab n y))
      ∧ (b.findStatic vlan mac cls dest = none →
        Takes (.staticAdd n) s ((t.setTab n b).insertStatic n (staticWay vlan mac cls dest mask))))
    ∧ ((s.tab n).fifo = .staticMask vlan mac cls dest mask :: r →
      (∀ (w : Nat) (e : MacEntry), x.findStatic vlan mac cls dest = some (w, e) →
        Takes (.staticMask n) s (t.setTab n (x.setWay w (some { e with bankMask := mask }))))
      ∧ (x.findStatic vlan mac cls dest = none → Takes (.staticMask n) s t))
    ∧ ((s.tab n).fifo = .staticDel vlan mac cls dest :: r →
      (∀ (w : Nat) (e : MacEntry), x.findStatic vlan mac cls dest = some (w, e) →
        Takes (.staticDel n) s (t.setTab n (x.setWay w none)))
      ∧ (x.findStatic vlan mac cls dest = none → Takes (.staticDel n) s t)))
  ∧ (∀ (s : State) (n b : Nat), s.calm → s.domainOn (17 + n) →
    ([2 * b, 2 * b + 1, 131072 + 2 * b, 131072 + 2 * b + 1].all fun w => ((s.tab n).way w).all MacEntry.parityGood) →
    Idles (.tableCheck (.learned n b)) s)
  ∧ (∀ (s : State) (n b : Nat), s.calm →
    (s.domainOn (17 + n) = false → Idles (.tableCheck (.learned n b)) s)
    ∧ (s.domainOn 37 = false → Idles (.tableCheck (.hostRoute b)) s))
  ∧ (∀ (s : State) (n b : Nat) (e : MacEntry), s.calm → s.domainOn (17 + n) → (s.tab n).way (2 * b) = some e → e.parityGood = false →
    ([2 * b + 1, 131072 + 2 * b, 131072 + 2 * b + 1].all fun w => ((s.tab n).way w).all MacEntry.parityGood) →
    s.key.log.length < 767 →
    let fresh := if e.static then some { e with parityGood := true } else none
    let t := (((s.setTab n ((s.tab n).setWay (2 * b) fresh)).count 4 n 12).raise (F.PIPE_LRN_EVENT_table_error n)).tblErr n 0 (2 * b)
    Takes (.tableCheck (.learned n b)) s ((((t.endTest).count 16 0 0).raise F.SAF_EVENT_fault_masked).ksLog .safety))
  ∧ (∀ (s : State) (b : Nat), s.calm → s.domainOn 37 → s.key.log.length < 767 →
    let here := fun (e : HrEntry) => [8 * b, 262144 + 8 * b].any fun k => decide (k ≤ e.unit) && decide (e.unit < k + 8)
    let bad := s.hr.filter fun e => !e.parityGood && here e
    (bad = [] → Idles (.tableCheck (.hostRoute b)) s)
    ∧ ∀ e : HrEntry, bad = [e] →
      let t : State := { s with hr := s.hr.map fun x => if x.unit = e.unit then { x with parityGood := true } else x }
      let u := (t.each (List.range 8) fun u n => u.count 4 n 14).each s.pipesOn fun u n =>
        (u.raise (F.PIPE_LRN_EVENT_hr_error n)).tblErr n 1 e.unit
      Takes (.tableCheck (.hostRoute b)) s ((((u.endTest).count 16 0 0).raise F.SAF_EVENT_fault_masked).ksLog .safety))
  ∧ (∀ (s : State) (g : Nat), s.calm → SMap.get (fun _ => none) g s.tcam = none → Idles (.tcamCheck g) s)
  ∧ (∀ (s : State) (g : Nat) (e : TcamEntry), s.calm → SMap.get (fun _ => none) g s.tcam = some e →
    (e.good → Idles (.tcamCheck g) s)
    ∧ (e.good = false → s.key.log.length < 767 →
      let t : State := { s with tcam := SMap.set (fun _ => none) g (some { e with good := true }) s.tcam }
      let u := (t.each (List.range 8) fun u n => u.count 4 n 15).each s.pipesOn fun u n =>
        (u.raise (F.PIPE_LRN_EVENT_tcam_repair n)).tblErr n 2 g
      Takes (.tcamCheck g) s ((((u.endTest).count 16 0 0).raise F.SAF_EVENT_fault_masked).ksLog .safety)))
  ∧ (∀ s : State, s.calm →
    ((s.draining = false ∨ s.drainingFrames) → Idles .drainEnd s)
    ∧ (s.draining → s.drainingFrames = false → (∀ l ∈ s.loads, l.asking) → Takes .drainEnd s { s with draining := false }))
  ∧ ∀ s : State, s.stopped = false → s.draining → s.drainingFrames = false →
    let t : State := { s with draining := false }
    exec .drainEnd s = .next (State.conclude s (t.each (s.loads.filter fun l => !l.asking) State.endLoad))

/-! ### Power, parking, Plumb (R390 to R401, R424 to R431) -/

/-- R393: the request at the head of the queue whose leave_timeout ends is refused with reason 7, and what asked for it goes on without. R395: a held grant returns to the
ledger, and a domain that may be switched off goes off with its dependants, after the gap or replay where one runs (R286). R394: a stack is
trained anew, and firmware has its operation, under leave. R390: a domain that has been rising comes up, a port
group with its retained configuration applied, a pipeline with new seeds and the static entries of both banks, an HBM stack asking leave
to be trained; a pipeline that fails its built-in self-test stays off and is reported under 0x13; one whose required domains have gone off does not come up (R22);
the end of training returns its leave and makes the HBM ready with the second stack. R401: at the end of park_drain every port goes
down, and the device goes off unless Plumb was asked for. R425, R427: a native step that is granted its leave runs; its end returns
the leave, keeps what it found and makes the next one due, or ends Plumb after the last. R428: a step of the boot-time test is followed by the
next, the last one by the rest of the boot. R430: the end of a group test shows its results and restores the group. Which operands a
power-up and a step's end bring, what parking leaves queued, the steps that count in a record and the rows by which firmware and a
retraining ask are the model's choice (notes/assumptions/11.md, 12.md, 13.md, 83.md). -/
def Obligations.PowerAndPlumb : Prop :=
  (∀ (s : State) (g : Grant), s.key.ks.queue = [g] → (s.setKs fun k => { k with queue := [] }).calm →
    s.ksBusy = false → (s.dev ≠ .parking ∨ g.isStep) → s.key.log.length < 767 →
    let t := (s.setKs fun k => { k with queue := [] }).ksLog .power
    Takes .leaveTimeout s (t.afterRefusal g 7)
    ∧ ((g.requester = 0 ∨ g.requester = 6) → Takes .leaveTimeout s (t.noteRefusal g.requester g.domain g.cost 7)))
  ∧ (∀ (s : State) (r k : Nat), s.calm →
    let keep := fun (g : Grant) => !(decide (g.requester = r) && decide (g.key = k))
    Takes (.leaveReturn (.grant r k)) s (s.allKs fun x => { x with grants := x.grants.filter keep }))
  ∧ (∀ (s : State) (d : Nat), s.calm → s.ksBusy →
    Takes (.leaveReturn (.domainOff d)) s { s with key := { s.key with deferred := s.key.deferred ++ [.domainOff d] } })
  ∧ (∀ (s : State) (k c : Nat), s.calm → s.ksBusy = false → s.key.doubleFault = false → s.dev ≠ .parking → s.dev ≠ .off →
    s.key.log.length < 767 →
    let ask := fun (g : Grant) => if s.permanent + s.transient + g.cost ≤ s.budget then
        (s.setKs fun x => { x with grants := x.grants ++ [g] }).ksLog .power
      else if s.budget < s.permanent + g.cost then (s.noteRefusal g.requester 0 g.cost 5).ksLog .power
      else (s.setKs fun x => { x with queue := x.queue ++ [g] }).ksLog .power
    Takes (.leaveReturn (.firmware k c)) s (ask ⟨7, k, c⟩)
    ∧ (k < 2 → s.domainOn (27 + k) → s.holdsGrant 2 k = false → Takes (.leaveReturn (.retrain k)) s (ask ⟨2, k, 150⟩)))
  ∧ (∀ (s : State) (d : Nat), s.calm → s.ksBusy = false → s.key.doubleFault = false → s.dev ≠ .parking → s.switchable d → s.domainOn d →
    (∀ y ∈ s.dependants d ++ [d], s.offRefusal y = 0) →
    Takes (.leaveReturn (.domainOff d)) s (s.each (s.dependants d ++ [d]) State.switchOff))
  ∧ (∀ (s : State) (d : Nat) (pass : Bool), s.calm → s.inGap →
    Takes (.domainPowerUpDone d pass) s { s with key := { s.key with deferred := s.key.deferred ++ [.domainUp d pass] } })
  ∧ (∀ (s : State) (d : Nat) (pass : Bool), s.calm → s.inGap = false → d ∉ s.pwr.rising → Idles (.domainPowerUpDone d pass) s)
  ∧ (∀ (s : State) (d : Nat) (pass : Bool), s.calm → s.inGap = false → d ∈ s.pwr.rising → (s.requires d).all s.domainOn = false →
    (17 ≤ d → d ≤ 24 → pass) → Takes (.domainPowerUpDone d pass) s (s.switchOff d))
  ∧ (∀ (s : State) (d : Nat) (pass : Bool), s.calm → s.inGap = false → d ∈ s.pwr.rising → s.domainOn d = false → (s.requires d).all s.domainOn →
    s.key.log.length < 767 →
    let up : State := { s with pwr := { s.pwr with rising := s.pwr.rising.filter fun x => decide (x ≠ d) } }
    let t := (up.setDomain d true).raise F.PWR_EVENT_domain_change
    (29 ≤ d → d ≤ 33 → Takes (.domainPowerUpDone d pass) s t)
    ∧ (1 ≤ d → d ≤ 16 → (s.pwr.fails = [] ∨ s.key.logOn = false) → Takes (.domainPowerUpDone d pass) s ((t.firstApplies d).groupNets d))
    ∧ ((d = 27 ∨ d = 28) → Takes (.domainPowerUpDone d pass) s (t.askTraining (d - 27)))
    ∧ (17 ≤ d → d ≤ 24 → pass →
      Takes (.domainPowerUpDone d pass) s
        (((t.drawSeeds (d - 17)).fillStatics (d - 17)).dropCause fun c => decide (c = .pipeline (d - 17))))
    ∧ (17 ≤ d → d ≤ 24 → pass = false → Takes (.domainPowerUpDone d false) s (up.react 0x13 3 (d - 17) (d - 17))))
  ∧ (∀ (s : State) (k : Nat), s.calm → k < 2 → s.pwr.phase = .none →
    (s.holdsGrant 2 k = false → Idles (.hbmTrainingDone k) s)
    ∧ (s.holdsGrant 2 k → s.domainOn (27 + k) → (1 - k) ∈ s.pwr.trained → s.domainOn (28 - k) →
      let t := s.returnGrant 2 k
      let l := t.pwr.trained.filter (fun j => decide (j ≠ k)) ++ [k]
      Takes (.hbmTrainingDone k) s (({ t with pwr := { t.pwr with trained := l } } : State).setF F.BUF_STATUS_hbm_ready 1)))
  ∧ (∀ (s : State) (plumb : Bool), s.calm → s.pwr.phase = .draining plumb →
    let t := s.each ((List.range 512).filter s.portExists) fun x p => x.portDown p true
    (plumb = false → Takes .parkDrainEnd s t.goOff)
    ∧ (plumb → (List.range 16).any (fun k => decide (((t.setTmr F.BUF_CTRL_hbm_en 0).pool k).usedHbm ≠ 0)) →
      Takes .parkDrainEnd s (t.setTmr F.BUF_CTRL_hbm_en 0))
    ∧ (plumb → (List.range 16).any (fun k => decide (((t.setTmr F.BUF_CTRL_hbm_en 0).pool k).usedHbm ≠ 0)) = false →
      Takes .parkDrainEnd s (t.setTmr F.BUF_CTRL_hbm_en 0).plumbBegin))
  ∧ (∀ (s : State) (k : Nat) (start : List Byte), s.calm → s.pwr.phase = .plumb k false start → s.ksBusy = false → s.key.deferred = [] →
    s.key.log.length < 767 → s.key.doubleFault = false → k < 7 →
    let c := if k = 1 then 60 else if k = 2 ∨ k = 3 then 400 else if k = 4 then 360 else if k = 5 then 100 else 440
    s.permanent + s.transient + c ≤ s.budget →
    let first := if k = 1 then s.tsNow else start
    let t := ({ s.setKs fun x => { x with grants := x.grants ++ [⟨3, k, c⟩] } with
      pwr := { s.pwr with phase := .plumb k true first, plumbFrom := if k = 1 then s.now else s.pwr.plumbFrom } } : State).ksLog .power
    Takes .plumbStep s (t.setF F.PLB_STATUS_step k))
  ∧ (∀ (s : State) (k j : Nat) (start : List Byte) (l : List NetFail), s.calm → j ≠ k →
    (s.pwr.phase = .plumb k true start ∨ s.pwr.phase = .bootTest k) → Idles (.plumbStepEnd l j) s)
  ∧ (∀ (s : State) (k : Nat) (start : List Byte) (l : List NetFail), s.calm → s.pwr.phase = .plumb k true start →
    let keep := fun (g : Grant) => !(decide (g.requester = 3) && decide (g.key = k))
    let t := s.allKs fun x => { x with grants := x.grants.filter keep }
    let mine := l.filter (netInStep k)
    let p := { s.pwr with steps := putBits s.pwr.steps (k - 1) 1 1, fails := s.pwr.fails ++ mine.map fun n => (n, k),
                          nFails := s.pwr.nFails + mine.length }
    let u := ({ t with pwr := p } : State).raiseIf (!mine.isEmpty) F.PLB_EVENT_net_fail
    (k < s.lastStep →
      Takes (.plumbStepEnd l k) s
        (({ u with pwr := { u.pwr with phase := .plumb (k + 1) false start } } : State).setF F.PLB_STATUS_step 0))
    ∧ (s.lastStep ≤ k → Takes (.plumbStepEnd l k) s (u.plumbEnd start)))
  ∧ (∀ (s : State) (l : List NetFail), s.stopped = false →
    (s.pwr.phase = .none → s.getF F.PLB_STATUS_plb_state = 2 →
      exec (.plumbStepEnd l 5) s = .next (State.conclude s (s.groupEnd l)))
    ∧ (s.pwr.phase = .bootTest 5 → exec (.plumbStepEnd l 5) s = .next (State.conclude s (s.bootStepEnd 5 l))))
  ∧ ∀ (s : State) (k : Nat) (l : List NetFail), s.calm → s.pwr.phase = .bootTest k → 1 ≤ k → k < 5 →
    let mine := l.filter (netInStep k)
    let p := { s.pwr with phase := .bootTest (k + 1), steps := putBits s.pwr.steps (k - 1) 1 1,
                          fails := s.pwr.fails ++ mine.map fun n => (n, k), nFails := s.pwr.nFails + mine.length }
    Takes (.plumbStepEnd l k) s (({ s with pwr := p } : State).setF F.PLB_STATUS_step (k + 1))
end

