-- ==== Sys2Proof/Laws/Maps.lean ====
section
/-! SUPPORT. Laws of sparse data: what a key reads as after a write, a write leaves every other key alone, and every
operation keeps the canonical form. -/

namespace Sys2Proof.Machine

set_option Elab.async false

theorem SMap.get_put_same {α : Type} (d : Nat → α) (k : Nat) (v : α) (m : SMap α) : SMap.get d k (SMap.put k v m) = v := by
  induction m with
  | nil => simp [SMap.put, SMap.get]
  | cons e r ih =>
    obtain ⟨k', v'⟩ := e
    simp only [SMap.put]
    split
    · simp [SMap.get]
    · split
      · simp [SMap.get]
      · simp only [SMap.get, ih]; rw [if_neg ‹_›]

theorem SMap.get_put_other {α : Type} (d : Nat → α) {j k : Nat} (h : j ≠ k) (v : α) (m : SMap α) :
    SMap.get d j (SMap.put k v m) = SMap.get d j m := by
  induction m with
  | nil => simp [SMap.put, SMap.get, h]
  | cons e r ih =>
    obtain ⟨k', v'⟩ := e
    simp only [SMap.put]
    split
    · simp [SMap.get, h]
    · split
      · subst_vars; simp [SMap.get, h]
      · simp [SMap.get, ih]

theorem SMap.get_del_same {α : Type} (d : Nat → α) (k : Nat) (m : SMap α) : SMap.get d k (SMap.del k m) = d k := by
  induction m with
  | nil => rfl
  | cons e r ih =>
    obtain ⟨k', v'⟩ := e
    simp only [SMap.del]
    split
    · exact ih
    · simp only [SMap.get, ih]; rw [if_neg ‹_›]

theorem SMap.get_del_other {α : Type} (d : Nat → α) {j k : Nat} (h : j ≠ k) (m : SMap α) :
    SMap.get d j (SMap.del k m) = SMap.get d j m := by
  induction m with
  | nil => rfl
  | cons e r ih =>
    obtain ⟨k', v'⟩ := e
    simp only [SMap.del]
    split
    · subst_vars; simp [SMap.get, h, ih]
    · simp [SMap.get, ih]

/-- A key written reads as what was written. -/
@[simp] theorem SMap.get_set_same {α : Type} [DecidableEq α] (d : Nat → α) (k : Nat) (v : α) (m : SMap α) :
    SMap.get d k (SMap.set d k v m) = v := by
  unfold SMap.set
  split
  · rename_i h; rw [SMap.get_del_same, h]
  · exact SMap.get_put_same d k v m

/-- A write leaves every other key as it was. -/
theorem SMap.get_set_other {α : Type} [DecidableEq α] (d : Nat → α) {d' : Nat → α} {j k : Nat} (h : j ≠ k) (v : α)
    (m : SMap α) : SMap.get d j (SMap.set d' k v m) = SMap.get d j m := by
  unfold SMap.set
  split
  · exact SMap.get_del_other d h m
  · exact SMap.get_put_other d h v m

theorem SMap.wfFrom_mono {α : Type} [DecidableEq α] (d : Nat → α) {lo lo' : Nat} (h : lo ≤ lo') (m : SMap α)
    (w : SMap.wfFrom d lo' m) : SMap.wfFrom d lo m := by
  cases m with
  | nil => rfl
  | cons e r =>
    obtain ⟨k, v⟩ := e
    simp only [SMap.wfFrom, Bool.and_eq_true, decide_eq_true_eq] at *
    exact ⟨⟨Nat.le_trans h w.1.1, w.1.2⟩, w.2⟩

theorem SMap.wfFrom_del {α : Type} [DecidableEq α] (d : Nat → α) (k : Nat) (m : SMap α) :
    ∀ lo, SMap.wfFrom d lo m → SMap.wfFrom d lo (SMap.del k m) := by
  induction m with
  | nil => intro lo _; rfl
  | cons e r ih =>
    obtain ⟨k', v'⟩ := e
    intro lo w
    simp only [SMap.wfFrom, Bool.and_eq_true, decide_eq_true_eq] at w
    simp only [SMap.del]
    split
    · exact ih lo (SMap.wfFrom_mono d (by omega) r w.2)
    · simp only [SMap.wfFrom, Bool.and_eq_true, decide_eq_true_eq]
      exact ⟨w.1, ih _ w.2⟩

theorem SMap.wfFrom_put {α : Type} [DecidableEq α] (d : Nat → α) (k : Nat) (v : α) (hv : v ≠ d k) (m : SMap α) :
    ∀ lo, lo ≤ k → SMap.wfFrom d lo m → SMap.wfFrom d lo (SMap.put k v m) := by
  induction m with
  | nil => intro lo hl _; simp [SMap.put, SMap.wfFrom, hl, hv]
  | cons e r ih =>
    obtain ⟨k', v'⟩ := e
    intro lo hl w
    simp only [SMap.wfFrom, Bool.and_eq_true, decide_eq_true_eq] at w
    simp only [SMap.put]
    split
    · simp only [SMap.wfFrom, Bool.and_eq_true, decide_eq_true_eq]
      exact ⟨⟨hl, hv⟩, ⟨by omega, w.1.2⟩, w.2⟩
    · split
      · subst_vars
        simp only [SMap.wfFrom, Bool.and_eq_true, decide_eq_true_eq]
        exact ⟨⟨hl, hv⟩, w.2⟩
      · simp only [SMap.wfFrom, Bool.and_eq_true, decide_eq_true_eq]
        exact ⟨w.1, ih _ (by omega) w.2⟩

/-- A write keeps the canonical form. -/
theorem SMap.wf_set {α : Type} [DecidableEq α] (d : Nat → α) (k : Nat) (v : α) (m : SMap α) (w : SMap.wf d m) :
    SMap.wf d (SMap.set d k v m) := by
  unfold SMap.set
  split
  · exact SMap.wfFrom_del d k m 0 w
  · exact SMap.wfFrom_put d k v ‹_› m 0 (Nat.zero_le _) w

theorem SMap.wfFrom_filter {α : Type} [DecidableEq α] (d : Nat → α) (f : Nat × α → Bool) (m : SMap α) :
    ∀ lo, SMap.wfFrom d lo m → SMap.wfFrom d lo (m.filter f) := by
  induction m with
  | nil => intro lo _; rfl
  | cons e r ih =>
    obtain ⟨k', v'⟩ := e
    intro lo w
    simp only [SMap.wfFrom, Bool.and_eq_true, decide_eq_true_eq] at w
    simp only [List.filter]
    split
    · simp only [SMap.wfFrom, Bool.and_eq_true, decide_eq_true_eq]
      exact ⟨w.1, ih _ w.2⟩
    · exact ih lo (SMap.wfFrom_mono d (by omega) r w.2)

end Sys2Proof.Machine
end

