-- ==== Sys2Proof/Laws/State.lean ====
section
/-! SUPPORT. Laws of State: what each update leaves alone, field by field, and what it writes. -/

namespace Sys2Proof.Machine

set_option Elab.async false

/-! ### Frames: every field an update does not write -/

@[simp] theorem setReg_frame (s : State) (a : Nat) (w : Word) :
    (s.setReg a w).pending = s.pending ∧ (s.setReg a w).part = s.part ∧ (s.setReg a w).now = s.now ∧
    (s.setReg a w).dev = s.dev ∧ (s.setReg a w).sqc = s.sqc ∧ (s.setReg a w).raised = s.raised ∧
    (s.setReg a w).ctrs = s.ctrs ∧ (s.setReg a w).host = s.host ∧ (s.setReg a w).rd = s.rd ∧
    (s.setReg a w).freeCtr = s.freeCtr ∧ (s.setReg a w).trn = s.trn ∧ (s.setReg a w).eph = s.eph ∧
    (s.setReg a w).ash = s.ash ∧ (s.setReg a w).draining = s.draining ∧ (s.setReg a w).ashBank = s.ashBank ∧
    (s.setReg a w).loads = s.loads ∧ (s.setReg a w).fly = s.fly ∧ (s.setReg a w).key = s.key ∧
    (s.setReg a w).tabs = s.tabs ∧ (s.setReg a w).learnPtr = s.learnPtr ∧ (s.setReg a w).hr = s.hr ∧
    (s.setReg a w).tcam = s.tcam ∧ (s.setReg a w).ports = s.ports ∧ (s.setReg a w).macros = s.macros ∧
    (s.setReg a w).fab = s.fab ∧ (s.setReg a w).hif = s.hif ∧ (s.setReg a w).pwr = s.pwr ∧ (s.setReg a w).saf = s.saf ∧
    (s.setReg a w).mram = s.mram ∧ (s.setReg a w).sec = s.sec ∧ (s.setReg a w).dma = s.dma ∧
    (s.setReg a w).dmaServed = s.dmaServed ∧ (s.setReg a w).snap = s.snap ∧ (s.setReg a w).led = s.led ∧
    (s.setReg a w).pins = s.pins ∧ (s.setReg a w).refLost = s.refLost ∧ (s.setReg a w).stopped = s.stopped :=
  ⟨rfl, rfl, rfl, rfl, rfl, rfl, rfl, rfl, rfl, rfl, rfl, rfl, rfl, rfl, rfl, rfl, rfl, rfl, rfl, rfl, rfl, rfl, rfl, rfl, rfl, rfl, rfl, rfl, rfl, rfl, rfl, rfl, rfl, rfl, rfl, rfl, rfl⟩

@[simp] theorem setRegBits_frame (s : State) (a : Nat) (k w : Word) :
    (s.setRegBits a k w).pending = s.pending ∧ (s.setRegBits a k w).part = s.part ∧ (s.setRegBits a k w).now = s.now ∧
    (s.setRegBits a k w).dev = s.dev ∧ (s.setRegBits a k w).sqc = s.sqc ∧ (s.setRegBits a k w).raised = s.raised ∧
    (s.setRegBits a k w).ctrs = s.ctrs ∧ (s.setRegBits a k w).host = s.host ∧ (s.setRegBits a k w).rd = s.rd ∧
    (s.setRegBits a k w).freeCtr = s.freeCtr ∧ (s.setRegBits a k w).trn = s.trn ∧ (s.setRegBits a k w).eph = s.eph ∧
    (s.setRegBits a k w).ash = s.ash ∧ (s.setRegBits a k w).draining = s.draining ∧
    (s.setRegBits a k w).ashBank = s.ashBank ∧ (s.setRegBits a k w).loads = s.loads ∧ (s.setRegBits a k w).fly = s.fly ∧
    (s.setRegBits a k w).key = s.key ∧ (s.setRegBits a k w).tabs = s.tabs ∧ (s.setRegBits a k w).learnPtr = s.learnPtr ∧
    (s.setRegBits a k w).hr = s.hr ∧ (s.setRegBits a k w).tcam = s.tcam ∧ (s.setRegBits a k w).ports = s.ports ∧
    (s.setRegBits a k w).macros = s.macros ∧ (s.setRegBits a k w).fab = s.fab ∧ (s.setRegBits a k w).hif = s.hif ∧
    (s.setRegBits a k w).pwr = s.pwr ∧ (s.setRegBits a k w).saf = s.saf ∧ (s.setRegBits a k w).mram = s.mram ∧
    (s.setRegBits a k w).sec = s.sec ∧ (s.setRegBits a k w).dma = s.dma ∧ (s.setRegBits a k w).dmaServed = s.dmaServed ∧
    (s.setRegBits a k w).snap = s.snap ∧ (s.setRegBits a k w).led = s.led ∧
    (s.setRegBits a k w).pins = s.pins ∧ (s.setRegBits a k w).refLost = s.refLost ∧ (s.setRegBits a k w).stopped = s.stopped :=
  ⟨rfl, rfl, rfl, rfl, rfl, rfl, rfl, rfl, rfl, rfl, rfl, rfl, rfl, rfl, rfl, rfl, rfl, rfl, rfl, rfl, rfl, rfl, rfl, rfl, rfl, rfl, rfl, rfl, rfl, rfl, rfl, rfl, rfl, rfl, rfl, rfl, rfl⟩

@[simp] theorem setF_frame (s : State) (f : Fld) (v : Nat) :
    (s.setF f v).pending = s.pending ∧ (s.setF f v).part = s.part ∧ (s.setF f v).now = s.now ∧ (s.setF f v).dev = s.dev ∧
    (s.setF f v).sqc = s.sqc ∧ (s.setF f v).raised = s.raised ∧ (s.setF f v).ctrs = s.ctrs ∧ (s.setF f v).host = s.host ∧
    (s.setF f v).rd = s.rd ∧ (s.setF f v).freeCtr = s.freeCtr ∧ (s.setF f v).trn = s.trn ∧ (s.setF f v).eph = s.eph ∧
    (s.setF f v).ash = s.ash ∧ (s.setF f v).draining = s.draining ∧ (s.setF f v).ashBank = s.ashBank ∧
    (s.setF f v).loads = s.loads ∧ (s.setF f v).fly = s.fly ∧ (s.setF f v).key = s.key ∧ (s.setF f v).tabs = s.tabs ∧
    (s.setF f v).learnPtr = s.learnPtr ∧ (s.setF f v).hr = s.hr ∧ (s.setF f v).tcam = s.tcam ∧
    (s.setF f v).ports = s.ports ∧ (s.setF f v).macros = s.macros ∧ (s.setF f v).fab = s.fab ∧ (s.setF f v).hif = s.hif ∧
    (s.setF f v).pwr = s.pwr ∧ (s.setF f v).saf = s.saf ∧ (s.setF f v).mram = s.mram ∧ (s.setF f v).sec = s.sec ∧
    (s.setF f v).dma = s.dma ∧ (s.setF f v).dmaServed = s.dmaServed ∧ (s.setF f v).snap = s.snap ∧
    (s.setF f v).led = s.led ∧
    (s.setF f v).pins = s.pins ∧ (s.setF f v).refLost = s.refLost ∧ (s.setF f v).stopped = s.stopped :=
  ⟨rfl, rfl, rfl, rfl, rfl, rfl, rfl, rfl, rfl, rfl, rfl, rfl, rfl, rfl, rfl, rfl, rfl, rfl, rfl, rfl, rfl, rfl, rfl, rfl, rfl, rfl, rfl, rfl, rfl, rfl, rfl, rfl, rfl, rfl, rfl, rfl, rfl⟩

@[simp] theorem setFBit_frame (s : State) (f : Fld) (i : Nat) (b : Bool) :
    (s.setFBit f i b).pending = s.pending ∧ (s.setFBit f i b).part = s.part ∧ (s.setFBit f i b).now = s.now ∧
    (s.setFBit f i b).dev = s.dev ∧ (s.setFBit f i b).sqc = s.sqc ∧ (s.setFBit f i b).raised = s.raised ∧
    (s.setFBit f i b).ctrs = s.ctrs ∧ (s.setFBit f i b).host = s.host ∧ (s.setFBit f i b).rd = s.rd ∧
    (s.setFBit f i b).freeCtr = s.freeCtr ∧ (s.setFBit f i b).trn = s.trn ∧ (s.setFBit f i b).eph = s.eph ∧
    (s.setFBit f i b).ash = s.ash ∧ (s.setFBit f i b).draining = s.draining ∧ (s.setFBit f i b).ashBank = s.ashBank ∧
    (s.setFBit f i b).loads = s.loads ∧ (s.setFBit f i b).fly = s.fly ∧ (s.setFBit f i b).key = s.key ∧
    (s.setFBit f i b).tabs = s.tabs ∧ (s.setFBit f i b).learnPtr = s.learnPtr ∧ (s.setFBit f i b).hr = s.hr ∧
    (s.setFBit f i b).tcam = s.tcam ∧ (s.setFBit f i b).ports = s.ports ∧ (s.setFBit f i b).macros = s.macros ∧
    (s.setFBit f i b).fab = s.fab ∧ (s.setFBit f i b).hif = s.hif ∧ (s.setFBit f i b).pwr = s.pwr ∧
    (s.setFBit f i b).saf = s.saf ∧ (s.setFBit f i b).mram = s.mram ∧ (s.setFBit f i b).sec = s.sec ∧
    (s.setFBit f i b).dma = s.dma ∧ (s.setFBit f i b).dmaServed = s.dmaServed ∧ (s.setFBit f i b).snap = s.snap ∧
    (s.setFBit f i b).led = s.led ∧
    (s.setFBit f i b).pins = s.pins ∧ (s.setFBit f i b).refLost = s.refLost ∧ (s.setFBit f i b).stopped = s.stopped :=
  ⟨rfl, rfl, rfl, rfl, rfl, rfl, rfl, rfl, rfl, rfl, rfl, rfl, rfl, rfl, rfl, rfl, rfl, rfl, rfl, rfl, rfl, rfl, rfl, rfl, rfl, rfl, rfl, rfl, rfl, rfl, rfl, rfl, rfl, rfl, rfl, rfl, rfl⟩

@[simp] theorem setSqc_frame (s : State) (a : Nat) (x : Sqc) :
    (s.setSqc a x).pending = s.pending ∧ (s.setSqc a x).part = s.part ∧ (s.setSqc a x).now = s.now ∧
    (s.setSqc a x).dev = s.dev ∧ (s.setSqc a x).regs = s.regs ∧ (s.setSqc a x).tmrB = s.tmrB ∧
    (s.setSqc a x).tmrC = s.tmrC ∧ (s.setSqc a x).raised = s.raised ∧ (s.setSqc a x).ctrs = s.ctrs ∧
    (s.setSqc a x).host = s.host ∧ (s.setSqc a x).rd = s.rd ∧ (s.setSqc a x).freeCtr = s.freeCtr ∧
    (s.setSqc a x).trn = s.trn ∧ (s.setSqc a x).eph = s.eph ∧ (s.setSqc a x).ash = s.ash ∧
    (s.setSqc a x).draining = s.draining ∧ (s.setSqc a x).ashBank = s.ashBank ∧ (s.setSqc a x).loads = s.loads ∧
    (s.setSqc a x).fly = s.fly ∧ (s.setSqc a x).key = s.key ∧ (s.setSqc a x).tabs = s.tabs ∧
    (s.setSqc a x).learnPtr = s.learnPtr ∧ (s.setSqc a x).hr = s.hr ∧ (s.setSqc a x).tcam = s.tcam ∧
    (s.setSqc a x).ports = s.ports ∧ (s.setSqc a x).macros = s.macros ∧ (s.setSqc a x).fab = s.fab ∧
    (s.setSqc a x).hif = s.hif ∧ (s.setSqc a x).pwr = s.pwr ∧ (s.setSqc a x).saf = s.saf ∧ (s.setSqc a x).mram = s.mram ∧
    (s.setSqc a x).sec = s.sec ∧ (s.setSqc a x).dma = s.dma ∧ (s.setSqc a x).dmaServed = s.dmaServed ∧
    (s.setSqc a x).snap = s.snap ∧ (s.setSqc a x).led = s.led ∧
    (s.setSqc a x).pins = s.pins ∧ (s.setSqc a x).refLost = s.refLost ∧ (s.setSqc a x).stopped = s.stopped :=
  ⟨rfl, rfl, rfl, rfl, rfl, rfl, rfl, rfl, rfl, rfl, rfl, rfl, rfl, rfl, rfl, rfl, rfl, rfl, rfl, rfl, rfl, rfl, rfl, rfl, rfl, rfl, rfl, rfl, rfl, rfl, rfl, rfl, rfl, rfl, rfl, rfl, rfl, rfl, rfl⟩

@[simp] theorem raiseBit_frame (s : State) (f : Fld) (i : Nat) :
    (s.raiseBit f i).pending = s.pending ∧ (s.raiseBit f i).part = s.part ∧ (s.raiseBit f i).now = s.now ∧
    (s.raiseBit f i).dev = s.dev ∧ (s.raiseBit f i).regs = s.regs ∧ (s.raiseBit f i).tmrB = s.tmrB ∧
    (s.raiseBit f i).tmrC = s.tmrC ∧ (s.raiseBit f i).sqc = s.sqc ∧ (s.raiseBit f i).ctrs = s.ctrs ∧
    (s.raiseBit f i).host = s.host ∧ (s.raiseBit f i).rd = s.rd ∧ (s.raiseBit f i).freeCtr = s.freeCtr ∧
    (s.raiseBit f i).trn = s.trn ∧ (s.raiseBit f i).eph = s.eph ∧ (s.raiseBit f i).ash = s.ash ∧
    (s.raiseBit f i).draining = s.draining ∧ (s.raiseBit f i).ashBank = s.ashBank ∧ (s.raiseBit f i).loads = s.loads ∧
    (s.raiseBit f i).fly = s.fly ∧ (s.raiseBit f i).key = s.key ∧ (s.raiseBit f i).tabs = s.tabs ∧
    (s.raiseBit f i).learnPtr = s.learnPtr ∧ (s.raiseBit f i).hr = s.hr ∧ (s.raiseBit f i).tcam = s.tcam ∧
    (s.raiseBit f i).ports = s.ports ∧ (s.raiseBit f i).macros = s.macros ∧ (s.raiseBit f i).fab = s.fab ∧
    (s.raiseBit f i).hif = s.hif ∧ (s.raiseBit f i).pwr = s.pwr ∧ (s.raiseBit f i).saf = s.saf ∧
    (s.raiseBit f i).mram = s.mram ∧ (s.raiseBit f i).sec = s.sec ∧ (s.raiseBit f i).dma = s.dma ∧
    (s.raiseBit f i).dmaServed = s.dmaServed ∧ (s.raiseBit f i).snap = s.snap ∧ (s.raiseBit f i).led = s.led ∧
    (s.raiseBit f i).pins = s.pins ∧ (s.raiseBit f i).refLost = s.refLost ∧ (s.raiseBit f i).stopped = s.stopped :=
  ⟨rfl, rfl, rfl, rfl, rfl, rfl, rfl, rfl, rfl, rfl, rfl, rfl, rfl, rfl, rfl, rfl, rfl, rfl, rfl, rfl, rfl, rfl, rfl, rfl, rfl, rfl, rfl, rfl, rfl, rfl, rfl, rfl, rfl, rfl, rfl, rfl, rfl, rfl, rfl⟩

@[simp] theorem raise_frame (s : State) (f : Fld) :
    (s.raise f).pending = s.pending ∧ (s.raise f).part = s.part ∧ (s.raise f).now = s.now ∧ (s.raise f).dev = s.dev ∧
    (s.raise f).regs = s.regs ∧ (s.raise f).tmrB = s.tmrB ∧ (s.raise f).tmrC = s.tmrC ∧ (s.raise f).sqc = s.sqc ∧
    (s.raise f).ctrs = s.ctrs ∧ (s.raise f).host = s.host ∧ (s.raise f).rd = s.rd ∧ (s.raise f).freeCtr = s.freeCtr ∧
    (s.raise f).trn = s.trn ∧ (s.raise f).eph = s.eph ∧ (s.raise f).ash = s.ash ∧ (s.raise f).draining = s.draining ∧
    (s.raise f).ashBank = s.ashBank ∧ (s.raise f).loads = s.loads ∧ (s.raise f).fly = s.fly ∧ (s.raise f).key = s.key ∧
    (s.raise f).tabs = s.tabs ∧ (s.raise f).learnPtr = s.learnPtr ∧ (s.raise f).hr = s.hr ∧ (s.raise f).tcam = s.tcam ∧
    (s.raise f).ports = s.ports ∧ (s.raise f).macros = s.macros ∧ (s.raise f).fab = s.fab ∧ (s.raise f).hif = s.hif ∧
    (s.raise f).pwr = s.pwr ∧ (s.raise f).saf = s.saf ∧ (s.raise f).mram = s.mram ∧ (s.raise f).sec = s.sec ∧
    (s.raise f).dma = s.dma ∧ (s.raise f).dmaServed = s.dmaServed ∧ (s.raise f).snap = s.snap ∧ (s.raise f).led = s.led ∧
    (s.raise f).pins = s.pins ∧ (s.raise f).refLost = s.refLost ∧ (s.raise f).stopped = s.stopped :=
  ⟨rfl, rfl, rfl, rfl, rfl, rfl, rfl, rfl, rfl, rfl, rfl, rfl, rfl, rfl, rfl, rfl, rfl, rfl, rfl, rfl, rfl, rfl, rfl, rfl, rfl, rfl, rfl, rfl, rfl, rfl, rfl, rfl, rfl, rfl, rfl, rfl, rfl, rfl, rfl⟩

@[simp] theorem setCtr_frame (s : State) (k v : Nat) :
    (s.setCtr k v).pending = s.pending ∧ (s.setCtr k v).part = s.part ∧ (s.setCtr k v).now = s.now ∧
    (s.setCtr k v).dev = s.dev ∧ (s.setCtr k v).regs = s.regs ∧ (s.setCtr k v).tmrB = s.tmrB ∧
    (s.setCtr k v).tmrC = s.tmrC ∧ (s.setCtr k v).sqc = s.sqc ∧ (s.setCtr k v).raised = s.raised ∧
    (s.setCtr k v).host = s.host ∧ (s.setCtr k v).rd = s.rd ∧ (s.setCtr k v).freeCtr = s.freeCtr ∧
    (s.setCtr k v).trn = s.trn ∧ (s.setCtr k v).eph = s.eph ∧ (s.setCtr k v).ash = s.ash ∧
    (s.setCtr k v).draining = s.draining ∧ (s.setCtr k v).ashBank = s.ashBank ∧ (s.setCtr k v).loads = s.loads ∧
    (s.setCtr k v).fly = s.fly ∧ (s.setCtr k v).key = s.key ∧ (s.setCtr k v).tabs = s.tabs ∧
    (s.setCtr k v).learnPtr = s.learnPtr ∧ (s.setCtr k v).hr = s.hr ∧ (s.setCtr k v).tcam = s.tcam ∧
    (s.setCtr k v).ports = s.ports ∧ (s.setCtr k v).macros = s.macros ∧ (s.setCtr k v).fab = s.fab ∧
    (s.setCtr k v).hif = s.hif ∧ (s.setCtr k v).pwr = s.pwr ∧ (s.setCtr k v).saf = s.saf ∧ (s.setCtr k v).mram = s.mram ∧
    (s.setCtr k v).sec = s.sec ∧ (s.setCtr k v).dma = s.dma ∧ (s.setCtr k v).dmaServed = s.dmaServed ∧
    (s.setCtr k v).snap = s.snap ∧ (s.setCtr k v).led = s.led ∧
    (s.setCtr k v).pins = s.pins ∧ (s.setCtr k v).refLost = s.refLost ∧ (s.setCtr k v).stopped = s.stopped :=
  ⟨rfl, rfl, rfl, rfl, rfl, rfl, rfl, rfl, rfl, rfl, rfl, rfl, rfl, rfl, rfl, rfl, rfl, rfl, rfl, rfl, rfl, rfl, rfl, rfl, rfl, rfl, rfl, rfl, rfl, rfl, rfl, rfl, rfl, rfl, rfl, rfl, rfl, rfl, rfl⟩

@[simp] theorem count_frame (s : State) (g i c : Nat) :
    (s.count g i c).pending = s.pending ∧ (s.count g i c).part = s.part ∧ (s.count g i c).now = s.now ∧
    (s.count g i c).dev = s.dev ∧ (s.count g i c).regs = s.regs ∧ (s.count g i c).tmrB = s.tmrB ∧
    (s.count g i c).tmrC = s.tmrC ∧ (s.count g i c).sqc = s.sqc ∧ (s.count g i c).raised = s.raised ∧
    (s.count g i c).host = s.host ∧ (s.count g i c).rd = s.rd ∧ (s.count g i c).freeCtr = s.freeCtr ∧
    (s.count g i c).trn = s.trn ∧ (s.count g i c).eph = s.eph ∧ (s.count g i c).ash = s.ash ∧
    (s.count g i c).draining = s.draining ∧ (s.count g i c).ashBank = s.ashBank ∧ (s.count g i c).loads = s.loads ∧
    (s.count g i c).fly = s.fly ∧ (s.count g i c).key = s.key ∧ (s.count g i c).tabs = s.tabs ∧
    (s.count g i c).learnPtr = s.learnPtr ∧ (s.count g i c).hr = s.hr ∧ (s.count g i c).tcam = s.tcam ∧
    (s.count g i c).ports = s.ports ∧ (s.count g i c).macros = s.macros ∧ (s.count g i c).fab = s.fab ∧
    (s.count g i c).hif = s.hif ∧ (s.count g i c).pwr = s.pwr ∧ (s.count g i c).saf = s.saf ∧
    (s.count g i c).mram = s.mram ∧ (s.count g i c).sec = s.sec ∧ (s.count g i c).dma = s.dma ∧
    (s.count g i c).dmaServed = s.dmaServed ∧ (s.count g i c).snap = s.snap ∧ (s.count g i c).led = s.led ∧
    (s.count g i c).pins = s.pins ∧ (s.count g i c).refLost = s.refLost ∧ (s.count g i c).stopped = s.stopped :=
  ⟨rfl, rfl, rfl, rfl, rfl, rfl, rfl, rfl, rfl, rfl, rfl, rfl, rfl, rfl, rfl, rfl, rfl, rfl, rfl, rfl, rfl, rfl, rfl, rfl, rfl, rfl, rfl, rfl, rfl, rfl, rfl, rfl, rfl, rfl, rfl, rfl, rfl, rfl, rfl⟩

@[simp] theorem countN_frame (s : State) (g i c n : Nat) :
    (s.countN g i c n).pending = s.pending ∧ (s.countN g i c n).part = s.part ∧ (s.countN g i c n).now = s.now ∧
    (s.countN g i c n).dev = s.dev ∧ (s.countN g i c n).regs = s.regs ∧ (s.countN g i c n).tmrB = s.tmrB ∧
    (s.countN g i c n).tmrC = s.tmrC ∧ (s.countN g i c n).sqc = s.sqc ∧ (s.countN g i c n).raised = s.raised ∧
    (s.countN g i c n).host = s.host ∧ (s.countN g i c n).rd = s.rd ∧ (s.countN g i c n).freeCtr = s.freeCtr ∧
    (s.countN g i c n).trn = s.trn ∧ (s.countN g i c n).eph = s.eph ∧ (s.countN g i c n).ash = s.ash ∧
    (s.countN g i c n).draining = s.draining ∧ (s.countN g i c n).ashBank = s.ashBank ∧
    (s.countN g i c n).loads = s.loads ∧ (s.countN g i c n).fly = s.fly ∧ (s.countN g i c n).key = s.key ∧
    (s.countN g i c n).tabs = s.tabs ∧ (s.countN g i c n).learnPtr = s.learnPtr ∧ (s.countN g i c n).hr = s.hr ∧
    (s.countN g i c n).tcam = s.tcam ∧ (s.countN g i c n).ports = s.ports ∧ (s.countN g i c n).macros = s.macros ∧
    (s.countN g i c n).fab = s.fab ∧ (s.countN g i c n).hif = s.hif ∧ (s.countN g i c n).pwr = s.pwr ∧
    (s.countN g i c n).saf = s.saf ∧ (s.countN g i c n).mram = s.mram ∧ (s.countN g i c n).sec = s.sec ∧
    (s.countN g i c n).dma = s.dma ∧ (s.countN g i c n).dmaServed = s.dmaServed ∧ (s.countN g i c n).snap = s.snap ∧
    (s.countN g i c n).led = s.led ∧
    (s.countN g i c n).pins = s.pins ∧ (s.countN g i c n).refLost = s.refLost ∧ (s.countN g i c n).stopped = s.stopped :=
  ⟨rfl, rfl, rfl, rfl, rfl, rfl, rfl, rfl, rfl, rfl, rfl, rfl, rfl, rfl, rfl, rfl, rfl, rfl, rfl, rfl, rfl, rfl, rfl, rfl, rfl, rfl, rfl, rfl, rfl, rfl, rfl, rfl, rfl, rfl, rfl, rfl, rfl, rfl, rfl⟩

@[simp] theorem hostPut_frame (s : State) (a : Nat) (b : Byte) :
    (s.hostPut a b).pending = s.pending ∧ (s.hostPut a b).part = s.part ∧ (s.hostPut a b).now = s.now ∧
    (s.hostPut a b).dev = s.dev ∧ (s.hostPut a b).regs = s.regs ∧ (s.hostPut a b).tmrB = s.tmrB ∧
    (s.hostPut a b).tmrC = s.tmrC ∧ (s.hostPut a b).sqc = s.sqc ∧ (s.hostPut a b).raised = s.raised ∧
    (s.hostPut a b).ctrs = s.ctrs ∧ (s.hostPut a b).rd = s.rd ∧ (s.hostPut a b).freeCtr = s.freeCtr ∧
    (s.hostPut a b).trn = s.trn ∧ (s.hostPut a b).eph = s.eph ∧ (s.hostPut a b).ash = s.ash ∧
    (s.hostPut a b).draining = s.draining ∧ (s.hostPut a b).ashBank = s.ashBank ∧ (s.hostPut a b).loads = s.loads ∧
    (s.hostPut a b).fly = s.fly ∧ (s.hostPut a b).key = s.key ∧ (s.hostPut a b).tabs = s.tabs ∧
    (s.hostPut a b).learnPtr = s.learnPtr ∧ (s.hostPut a b).hr = s.hr ∧ (s.hostPut a b).tcam = s.tcam ∧
    (s.hostPut a b).ports = s.ports ∧ (s.hostPut a b).macros = s.macros ∧ (s.hostPut a b).fab = s.fab ∧
    (s.hostPut a b).hif = s.hif ∧ (s.hostPut a b).pwr = s.pwr ∧ (s.hostPut a b).saf = s.saf ∧
    (s.hostPut a b).mram = s.mram ∧ (s.hostPut a b).sec = s.sec ∧ (s.hostPut a b).dma = s.dma ∧
    (s.hostPut a b).dmaServed = s.dmaServed ∧ (s.hostPut a b).snap = s.snap ∧ (s.hostPut a b).led = s.led ∧
    (s.hostPut a b).pins = s.pins ∧ (s.hostPut a b).refLost = s.refLost ∧ (s.hostPut a b).stopped = s.stopped :=
  ⟨rfl, rfl, rfl, rfl, rfl, rfl, rfl, rfl, rfl, rfl, rfl, rfl, rfl, rfl, rfl, rfl, rfl, rfl, rfl, rfl, rfl, rfl, rfl, rfl, rfl, rfl, rfl, rfl, rfl, rfl, rfl, rfl, rfl, rfl, rfl, rfl, rfl, rfl, rfl⟩

@[simp] theorem setTab_frame (s : State) (n : Nat) (t : PipeTab) :
    (s.setTab n t).pending = s.pending ∧ (s.setTab n t).part = s.part ∧ (s.setTab n t).now = s.now ∧
    (s.setTab n t).dev = s.dev ∧ (s.setTab n t).regs = s.regs ∧ (s.setTab n t).tmrB = s.tmrB ∧
    (s.setTab n t).tmrC = s.tmrC ∧ (s.setTab n t).sqc = s.sqc ∧ (s.setTab n t).raised = s.raised ∧
    (s.setTab n t).ctrs = s.ctrs ∧ (s.setTab n t).host = s.host ∧ (s.setTab n t).rd = s.rd ∧
    (s.setTab n t).freeCtr = s.freeCtr ∧ (s.setTab n t).trn = s.trn ∧ (s.setTab n t).eph = s.eph ∧
    (s.setTab n t).ash = s.ash ∧ (s.setTab n t).draining = s.draining ∧ (s.setTab n t).ashBank = s.ashBank ∧
    (s.setTab n t).loads = s.loads ∧ (s.setTab n t).fly = s.fly ∧ (s.setTab n t).key = s.key ∧
    (s.setTab n t).learnPtr = s.learnPtr ∧ (s.setTab n t).hr = s.hr ∧ (s.setTab n t).tcam = s.tcam ∧
    (s.setTab n t).ports = s.ports ∧ (s.setTab n t).macros = s.macros ∧ (s.setTab n t).fab = s.fab ∧
    (s.setTab n t).hif = s.hif ∧ (s.setTab n t).pwr = s.pwr ∧ (s.setTab n t).saf = s.saf ∧ (s.setTab n t).mram = s.mram ∧
    (s.setTab n t).sec = s.sec ∧ (s.setTab n t).dma = s.dma ∧ (s.setTab n t).dmaServed = s.dmaServed ∧
    (s.setTab n t).snap = s.snap ∧ (s.setTab n t).led = s.led ∧
    (s.setTab n t).pins = s.pins ∧ (s.setTab n t).refLost = s.refLost ∧ (s.setTab n t).stopped = s.stopped :=
  ⟨rfl, rfl, rfl, rfl, rfl, rfl, rfl, rfl, rfl, rfl, rfl, rfl, rfl, rfl, rfl, rfl, rfl, rfl, rfl, rfl, rfl, rfl, rfl, rfl, rfl, rfl, rfl, rfl, rfl, rfl, rfl, rfl, rfl, rfl, rfl, rfl, rfl, rfl, rfl⟩

@[simp] theorem setPort_frame (s : State) (p : Nat) (r : PortRun) :
    (s.setPort p r).pending = s.pending ∧ (s.setPort p r).part = s.part ∧ (s.setPort p r).now = s.now ∧
    (s.setPort p r).dev = s.dev ∧ (s.setPort p r).regs = s.regs ∧ (s.setPort p r).tmrB = s.tmrB ∧
    (s.setPort p r).tmrC = s.tmrC ∧ (s.setPort p r).sqc = s.sqc ∧ (s.setPort p r).raised = s.raised ∧
    (s.setPort p r).ctrs = s.ctrs ∧ (s.setPort p r).host = s.host ∧ (s.setPort p r).rd = s.rd ∧
    (s.setPort p r).freeCtr = s.freeCtr ∧ (s.setPort p r).trn = s.trn ∧ (s.setPort p r).eph = s.eph ∧
    (s.setPort p r).ash = s.ash ∧ (s.setPort p r).draining = s.draining ∧ (s.setPort p r).ashBank = s.ashBank ∧
    (s.setPort p r).loads = s.loads ∧ (s.setPort p r).fly = s.fly ∧ (s.setPort p r).key = s.key ∧
    (s.setPort p r).tabs = s.tabs ∧ (s.setPort p r).learnPtr = s.learnPtr ∧ (s.setPort p r).hr = s.hr ∧
    (s.setPort p r).tcam = s.tcam ∧ (s.setPort p r).macros = s.macros ∧ (s.setPort p r).fab = s.fab ∧
    (s.setPort p r).hif = s.hif ∧ (s.setPort p r).pwr = s.pwr ∧ (s.setPort p r).saf = s.saf ∧
    (s.setPort p r).mram = s.mram ∧ (s.setPort p r).sec = s.sec ∧ (s.setPort p r).dma = s.dma ∧
    (s.setPort p r).dmaServed = s.dmaServed ∧ (s.setPort p r).snap = s.snap ∧ (s.setPort p r).led = s.led ∧
    (s.setPort p r).pins = s.pins ∧ (s.setPort p r).refLost = s.refLost ∧ (s.setPort p r).stopped = s.stopped :=
  ⟨rfl, rfl, rfl, rfl, rfl, rfl, rfl, rfl, rfl, rfl, rfl, rfl, rfl, rfl, rfl, rfl, rfl, rfl, rfl, rfl, rfl, rfl, rfl, rfl, rfl, rfl, rfl, rfl, rfl, rfl, rfl, rfl, rfl, rfl, rfl, rfl, rfl, rfl, rfl⟩

@[simp] theorem setMac_frame (s : State) (m : Nat) (r : MacroRun) :
    (s.setMac m r).pending = s.pending ∧ (s.setMac m r).part = s.part ∧ (s.setMac m r).now = s.now ∧
    (s.setMac m r).dev = s.dev ∧ (s.setMac m r).regs = s.regs ∧ (s.setMac m r).tmrB = s.tmrB ∧
    (s.setMac m r).tmrC = s.tmrC ∧ (s.setMac m r).sqc = s.sqc ∧ (s.setMac m r).raised = s.raised ∧
    (s.setMac m r).ctrs = s.ctrs ∧ (s.setMac m r).host = s.host ∧ (s.setMac m r).rd = s.rd ∧
    (s.setMac m r).freeCtr = s.freeCtr ∧ (s.setMac m r).trn = s.trn ∧ (s.setMac m r).eph = s.eph ∧
    (s.setMac m r).ash = s.ash ∧ (s.setMac m r).draining = s.draining ∧ (s.setMac m r).ashBank = s.ashBank ∧
    (s.setMac m r).loads = s.loads ∧ (s.setMac m r).fly = s.fly ∧ (s.setMac m r).key = s.key ∧
    (s.setMac m r).tabs = s.tabs ∧ (s.setMac m r).learnPtr = s.learnPtr ∧ (s.setMac m r).hr = s.hr ∧
    (s.setMac m r).tcam = s.tcam ∧ (s.setMac m r).ports = s.ports ∧ (s.setMac m r).fab = s.fab ∧
    (s.setMac m r).hif = s.hif ∧ (s.setMac m r).pwr = s.pwr ∧ (s.setMac m r).saf = s.saf ∧ (s.setMac m r).mram = s.mram ∧
    (s.setMac m r).sec = s.sec ∧ (s.setMac m r).dma = s.dma ∧ (s.setMac m r).dmaServed = s.dmaServed ∧
    (s.setMac m r).snap = s.snap ∧ (s.setMac m r).led = s.led ∧
    (s.setMac m r).pins = s.pins ∧ (s.setMac m r).refLost = s.refLost ∧ (s.setMac m r).stopped = s.stopped :=
  ⟨rfl, rfl, rfl, rfl, rfl, rfl, rfl, rfl, rfl, rfl, rfl, rfl, rfl, rfl, rfl, rfl, rfl, rfl, rfl, rfl, rfl, rfl, rfl, rfl, rfl, rfl, rfl, rfl, rfl, rfl, rfl, rfl, rfl, rfl, rfl, rfl, rfl, rfl, rfl⟩

@[simp] theorem setQueue_frame (s : State) (x : Nat) (q : Queue) :
    (s.setQueue x q).pending = s.pending ∧ (s.setQueue x q).part = s.part ∧ (s.setQueue x q).now = s.now ∧
    (s.setQueue x q).dev = s.dev ∧ (s.setQueue x q).regs = s.regs ∧ (s.setQueue x q).tmrB = s.tmrB ∧
    (s.setQueue x q).tmrC = s.tmrC ∧ (s.setQueue x q).sqc = s.sqc ∧ (s.setQueue x q).raised = s.raised ∧
    (s.setQueue x q).ctrs = s.ctrs ∧ (s.setQueue x q).host = s.host ∧ (s.setQueue x q).rd = s.rd ∧
    (s.setQueue x q).freeCtr = s.freeCtr ∧ (s.setQueue x q).trn = s.trn ∧ (s.setQueue x q).eph = s.eph ∧
    (s.setQueue x q).ash = s.ash ∧ (s.setQueue x q).draining = s.draining ∧ (s.setQueue x q).ashBank = s.ashBank ∧
    (s.setQueue x q).loads = s.loads ∧ (s.setQueue x q).fly = s.fly ∧ (s.setQueue x q).key = s.key ∧
    (s.setQueue x q).tabs = s.tabs ∧ (s.setQueue x q).learnPtr = s.learnPtr ∧ (s.setQueue x q).hr = s.hr ∧
    (s.setQueue x q).tcam = s.tcam ∧ (s.setQueue x q).ports = s.ports ∧ (s.setQueue x q).macros = s.macros ∧
    (s.setQueue x q).hif = s.hif ∧ (s.setQueue x q).pwr = s.pwr ∧ (s.setQueue x q).saf = s.saf ∧
    (s.setQueue x q).mram = s.mram ∧ (s.setQueue x q).sec = s.sec ∧ (s.setQueue x q).dma = s.dma ∧
    (s.setQueue x q).dmaServed = s.dmaServed ∧ (s.setQueue x q).snap = s.snap ∧ (s.setQueue x q).led = s.led ∧
    (s.setQueue x q).pins = s.pins ∧ (s.setQueue x q).refLost = s.refLost ∧ (s.setQueue x q).stopped = s.stopped :=
  ⟨rfl, rfl, rfl, rfl, rfl, rfl, rfl, rfl, rfl, rfl, rfl, rfl, rfl, rfl, rfl, rfl, rfl, rfl, rfl, rfl, rfl, rfl, rfl, rfl, rfl, rfl, rfl, rfl, rfl, rfl, rfl, rfl, rfl, rfl, rfl, rfl, rfl, rfl, rfl⟩

@[simp] theorem setPool_frame (s : State) (k : Nat) (p : Pool) :
    (s.setPool k p).pending = s.pending ∧ (s.setPool k p).part = s.part ∧ (s.setPool k p).now = s.now ∧
    (s.setPool k p).dev = s.dev ∧ (s.setPool k p).regs = s.regs ∧ (s.setPool k p).tmrB = s.tmrB ∧
    (s.setPool k p).tmrC = s.tmrC ∧ (s.setPool k p).sqc = s.sqc ∧ (s.setPool k p).raised = s.raised ∧
    (s.setPool k p).ctrs = s.ctrs ∧ (s.setPool k p).host = s.host ∧ (s.setPool k p).rd = s.rd ∧
    (s.setPool k p).freeCtr = s.freeCtr ∧ (s.setPool k p).trn = s.trn ∧ (s.setPool k p).eph = s.eph ∧
    (s.setPool k p).ash = s.ash ∧ (s.setPool k p).draining = s.draining ∧ (s.setPool k p).ashBank = s.ashBank ∧
    (s.setPool k p).loads = s.loads ∧ (s.setPool k p).fly = s.fly ∧ (s.setPool k p).key = s.key ∧
    (s.setPool k p).tabs = s.tabs ∧ (s.setPool k p).learnPtr = s.learnPtr ∧ (s.setPool k p).hr = s.hr ∧
    (s.setPool k p).tcam = s.tcam ∧ (s.setPool k p).ports = s.ports ∧ (s.setPool k p).macros = s.macros ∧
    (s.setPool k p).hif = s.hif ∧ (s.setPool k p).pwr = s.pwr ∧ (s.setPool k p).saf = s.saf ∧
    (s.setPool k p).mram = s.mram ∧ (s.setPool k p).sec = s.sec ∧ (s.setPool k p).dma = s.dma ∧
    (s.setPool k p).dmaServed = s.dmaServed ∧ (s.setPool k p).snap = s.snap ∧ (s.setPool k p).led = s.led ∧
    (s.setPool k p).pins = s.pins ∧ (s.setPool k p).refLost = s.refLost ∧ (s.setPool k p).stopped = s.stopped :=
  ⟨rfl, rfl, rfl, rfl, rfl, rfl, rfl, rfl, rfl, rfl, rfl, rfl, rfl, rfl, rfl, rfl, rfl, rfl, rfl, rfl, rfl, rfl, rfl, rfl, rfl, rfl, rfl, rfl, rfl, rfl, rfl, rfl, rfl, rfl, rfl, rfl, rfl, rfl, rfl⟩

@[simp] theorem setFrame_frame (s : State) (i : Nat) (f : Option Frame) :
    (s.setFrame i f).pending = s.pending ∧ (s.setFrame i f).part = s.part ∧ (s.setFrame i f).now = s.now ∧
    (s.setFrame i f).dev = s.dev ∧ (s.setFrame i f).regs = s.regs ∧ (s.setFrame i f).tmrB = s.tmrB ∧
    (s.setFrame i f).tmrC = s.tmrC ∧ (s.setFrame i f).sqc = s.sqc ∧ (s.setFrame i f).raised = s.raised ∧
    (s.setFrame i f).ctrs = s.ctrs ∧ (s.setFrame i f).host = s.host ∧ (s.setFrame i f).rd = s.rd ∧
    (s.setFrame i f).freeCtr = s.freeCtr ∧ (s.setFrame i f).trn = s.trn ∧ (s.setFrame i f).eph = s.eph ∧
    (s.setFrame i f).ash = s.ash ∧ (s.setFrame i f).draining = s.draining ∧ (s.setFrame i f).ashBank = s.ashBank ∧
    (s.setFrame i f).loads = s.loads ∧ (s.setFrame i f).fly = s.fly ∧ (s.setFrame i f).key = s.key ∧
    (s.setFrame i f).tabs = s.tabs ∧ (s.setFrame i f).learnPtr = s.learnPtr ∧ (s.setFrame i f).hr = s.hr ∧
    (s.setFrame i f).tcam = s.tcam ∧ (s.setFrame i f).ports = s.ports ∧ (s.setFrame i f).macros = s.macros ∧
    (s.setFrame i f).hif = s.hif ∧ (s.setFrame i f).pwr = s.pwr ∧ (s.setFrame i f).saf = s.saf ∧
    (s.setFrame i f).mram = s.mram ∧ (s.setFrame i f).sec = s.sec ∧ (s.setFrame i f).dma = s.dma ∧
    (s.setFrame i f).dmaServed = s.dmaServed ∧ (s.setFrame i f).snap = s.snap ∧ (s.setFrame i f).led = s.led ∧
    (s.setFrame i f).pins = s.pins ∧ (s.setFrame i f).refLost = s.refLost ∧ (s.setFrame i f).stopped = s.stopped :=
  ⟨rfl, rfl, rfl, rfl, rfl, rfl, rfl, rfl, rfl, rfl, rfl, rfl, rfl, rfl, rfl, rfl, rfl, rfl, rfl, rfl, rfl, rfl, rfl, rfl, rfl, rfl, rfl, rfl, rfl, rfl, rfl, rfl, rfl, rfl, rfl, rfl, rfl, rfl, rfl⟩

@[simp] theorem setRingRun_frame (s : State) (r : Nat) (x : RingRun) :
    (s.setRingRun r x).pending = s.pending ∧ (s.setRingRun r x).part = s.part ∧ (s.setRingRun r x).now = s.now ∧
    (s.setRingRun r x).dev = s.dev ∧ (s.setRingRun r x).regs = s.regs ∧ (s.setRingRun r x).tmrB = s.tmrB ∧
    (s.setRingRun r x).tmrC = s.tmrC ∧ (s.setRingRun r x).sqc = s.sqc ∧ (s.setRingRun r x).raised = s.raised ∧
    (s.setRingRun r x).ctrs = s.ctrs ∧ (s.setRingRun r x).host = s.host ∧ (s.setRingRun r x).rd = s.rd ∧
    (s.setRingRun r x).freeCtr = s.freeCtr ∧ (s.setRingRun r x).trn = s.trn ∧ (s.setRingRun r x).eph = s.eph ∧
    (s.setRingRun r x).ash = s.ash ∧ (s.setRingRun r x).draining = s.draining ∧ (s.setRingRun r x).ashBank = s.ashBank ∧
    (s.setRingRun r x).loads = s.loads ∧ (s.setRingRun r x).fly = s.fly ∧ (s.setRingRun r x).key = s.key ∧
    (s.setRingRun r x).tabs = s.tabs ∧ (s.setRingRun r x).learnPtr = s.learnPtr ∧ (s.setRingRun r x).hr = s.hr ∧
    (s.setRingRun r x).tcam = s.tcam ∧ (s.setRingRun r x).ports = s.ports ∧ (s.setRingRun r x).macros = s.macros ∧
    (s.setRingRun r x).fab = s.fab ∧ (s.setRingRun r x).pwr = s.pwr ∧ (s.setRingRun r x).saf = s.saf ∧
    (s.setRingRun r x).mram = s.mram ∧ (s.setRingRun r x).sec = s.sec ∧ (s.setRingRun r x).dma = s.dma ∧
    (s.setRingRun r x).dmaServed = s.dmaServed ∧ (s.setRingRun r x).snap = s.snap ∧ (s.setRingRun r x).led = s.led ∧
    (s.setRingRun r x).pins = s.pins ∧ (s.setRingRun r x).refLost = s.refLost ∧ (s.setRingRun r x).stopped = s.stopped :=
  ⟨rfl, rfl, rfl, rfl, rfl, rfl, rfl, rfl, rfl, rfl, rfl, rfl, rfl, rfl, rfl, rfl, rfl, rfl, rfl, rfl, rfl, rfl, rfl, rfl, rfl, rfl, rfl, rfl, rfl, rfl, rfl, rfl, rfl, rfl, rfl, rfl, rfl, rfl, rfl⟩

@[simp] theorem setCh_frame (s : State) (c : Nat) (x : DmaCh) :
    (s.setCh c x).pending = s.pending ∧ (s.setCh c x).part = s.part ∧ (s.setCh c x).now = s.now ∧
    (s.setCh c x).dev = s.dev ∧ (s.setCh c x).regs = s.regs ∧ (s.setCh c x).tmrB = s.tmrB ∧ (s.setCh c x).tmrC = s.tmrC ∧
    (s.setCh c x).sqc = s.sqc ∧ (s.setCh c x).raised = s.raised ∧ (s.setCh c x).ctrs = s.ctrs ∧
    (s.setCh c x).host = s.host ∧ (s.setCh c x).rd = s.rd ∧ (s.setCh c x).freeCtr = s.freeCtr ∧ (s.setCh c x).trn = s.trn ∧
    (s.setCh c x).eph = s.eph ∧ (s.setCh c x).ash = s.ash ∧ (s.setCh c x).draining = s.draining ∧
    (s.setCh c x).ashBank = s.ashBank ∧ (s.setCh c x).loads = s.loads ∧ (s.setCh c x).fly = s.fly ∧
    (s.setCh c x).key = s.key ∧ (s.setCh c x).tabs = s.tabs ∧ (s.setCh c x).learnPtr = s.learnPtr ∧
    (s.setCh c x).hr = s.hr ∧ (s.setCh c x).tcam = s.tcam ∧ (s.setCh c x).ports = s.ports ∧
    (s.setCh c x).macros = s.macros ∧ (s.setCh c x).fab = s.fab ∧ (s.setCh c x).hif = s.hif ∧ (s.setCh c x).pwr = s.pwr ∧
    (s.setCh c x).saf = s.saf ∧ (s.setCh c x).mram = s.mram ∧ (s.setCh c x).sec = s.sec ∧
    (s.setCh c x).dmaServed = s.dmaServed ∧ (s.setCh c x).snap = s.snap ∧ (s.setCh c x).led = s.led ∧
    (s.setCh c x).pins = s.pins ∧ (s.setCh c x).refLost = s.refLost ∧ (s.setCh c x).stopped = s.stopped :=
  ⟨rfl, rfl, rfl, rfl, rfl, rfl, rfl, rfl, rfl, rfl, rfl, rfl, rfl, rfl, rfl, rfl, rfl, rfl, rfl, rfl, rfl, rfl, rfl, rfl, rfl, rfl, rfl, rfl, rfl, rfl, rfl, rfl, rfl, rfl, rfl, rfl, rfl, rfl, rfl⟩

/-! ### What an update writes -/

@[simp] theorem ctr_setCtr (s : State) (k v : Nat) : (s.setCtr k v).ctr k = v := SMap.get_set_same _ k v s.ctrs

theorem ctr_setCtr_other (s : State) {j k : Nat} (h : j ≠ k) (v : Nat) : (s.setCtr k v).ctr j = s.ctr j := by
  unfold State.ctr State.setCtr; rw [SMap.get_set_other _ h]

@[simp] theorem port_setPort (s : State) (p : Nat) (r : PortRun) : (s.setPort p r).port p = r :=
  SMap.get_set_same _ p r s.ports

theorem port_setPort_other (s : State) {p q : Nat} (h : q ≠ p) (r : PortRun) : (s.setPort p r).port q = s.port q := by
  unfold State.port State.setPort; rw [SMap.get_set_other _ h]

@[simp] theorem tab_setTab (s : State) (n : Nat) (t : PipeTab) : (s.setTab n t).tab n = t := SMap.get_set_same _ n t s.tabs

theorem tab_setTab_other (s : State) {n k : Nat} (h : k ≠ n) (t : PipeTab) : (s.setTab n t).tab k = s.tab k := by
  unfold State.tab State.setTab; rw [SMap.get_set_other _ h]

@[simp] theorem queue_setQueue (s : State) (x : Nat) (q : Queue) : (s.setQueue x q).queue x = q :=
  SMap.get_set_same _ x q s.fab.queues

theorem queue_setQueue_other (s : State) {x y : Nat} (h : y ≠ x) (q : Queue) : (s.setQueue x q).queue y = s.queue y := by
  unfold State.queue State.setQueue; rw [SMap.get_set_other _ h]

@[simp] theorem frame_setFrame (s : State) (i : Nat) (f : Option Frame) : (s.setFrame i f).frame i = f :=
  SMap.get_set_same _ i f s.fab.frames

theorem frame_setFrame_other (s : State) {i j : Nat} (h : j ≠ i) (f : Option Frame) : (s.setFrame i f).frame j = s.frame j := by
  unfold State.frame State.setFrame; rw [SMap.get_set_other _ h]

@[simp] theorem mac_setMac (s : State) (m : Nat) (r : MacroRun) : (s.setMac m r).mac m = r := SMap.get_set_same _ m r s.macros

@[simp] theorem ch_setCh (s : State) (c : Nat) (x : DmaCh) : (s.setCh c x).ch c = x := SMap.get_set_same _ c x s.dma

theorem ch_setCh_other (s : State) {c d : Nat} (h : d ≠ c) (x : DmaCh) : (s.setCh c x).ch d = s.ch d := by
  unfold State.ch State.setCh; rw [SMap.get_set_other _ h]

@[simp] theorem ringRun_setRingRun (s : State) (r : Nat) (x : RingRun) : (s.setRingRun r x).ringRun r = x :=
  SMap.get_set_same _ r x s.hif.rings

@[simp] theorem sqcOf_setSqc (s : State) (a : Nat) (x : Sqc) : (s.setSqc a x).sqcOf a = x := SMap.get_set_same _ a x s.sqc

theorem sqcOf_setSqc_other (s : State) {a b : Nat} (h : b ≠ a) (x : Sqc) : (s.setSqc a x).sqcOf b = s.sqcOf b := by
  unfold State.sqcOf State.setSqc; rw [SMap.get_set_other _ h]

/-! ### Registers -/

/-- A register written holds the word, in all three copies. -/
@[simp] theorem reg_setReg (s : State) (a : Nat) (w : Word) : (s.setReg a w).reg a = w := by
  simp [State.reg, State.setReg, SMap.get_del_same]

/-- A write of one register leaves the others. -/
theorem reg_setReg_other (s : State) {a b : Nat} (h : b ≠ a) (w : Word) : (s.setReg a w).reg b = s.reg b := by
  simp only [State.reg, State.setReg, SMap.get_set_other _ h, SMap.get_del_other _ h]

/-- The bits under the mask are written, the others are kept. -/
theorem reg_setRegBits (s : State) (a : Nat) (k w : Word) :
    (s.setRegBits a k w).reg a = (s.reg a &&& ~~~k) ||| (w &&& k) := by
  simp only [State.reg, State.setRegBits, SMap.get_set_same]
  ext i hi
  simp only [BitVec.getElem_or, BitVec.getElem_and, BitVec.getElem_not]
  cases k[i] <;> cases w[i] <;> simp

theorem reg_setRegBits_other (s : State) {a b : Nat} (h : b ≠ a) (k w : Word) : (s.setRegBits a k w).reg b = s.reg b := by
  simp only [State.reg, State.setRegBits, SMap.get_set_other _ h]

theorem reg_setF (s : State) (f : Fld) (v : Nat) : (s.setF f v).reg f.addr = putFld (s.reg f.addr) f.lo f.width v :=
  reg_setReg s f.addr _

theorem reg_setF_other (s : State) (f : Fld) {b : Nat} (h : b ≠ f.addr) (v : Nat) : (s.setF f v).reg b = s.reg b :=
  reg_setReg_other s h _

/-! ### Fields of a word -/

/-- A number with a field replaced: what stands above the field, the field, what stands below. -/
theorem putBits_eq (n lo width v : Nat) :
    putBits n lo width v = (n / 2 ^ lo / 2 ^ width * 2 ^ width + v % 2 ^ width) * 2 ^ lo + n % 2 ^ lo := by
  have e1 : n = n / 2 ^ lo * 2 ^ lo + n % 2 ^ lo := (Nat.div_add_mod' n _).symm
  have e2 : n / 2 ^ lo = n / 2 ^ lo / 2 ^ width * 2 ^ width + n / 2 ^ lo % 2 ^ width := (Nat.div_add_mod' _ _).symm
  unfold putBits bitsOf
  generalize n / 2 ^ lo / 2 ^ width = q at *
  generalize n / 2 ^ lo % 2 ^ width = b at *
  have e3 : n = q * 2 ^ width * 2 ^ lo + b * 2 ^ lo + n % 2 ^ lo := by
    conv => lhs; rw [e1, e2, Nat.add_mul]
  rw [Nat.add_mul]
  omega

/-- The field replaced reads as the new value, cut to its width. -/
theorem bitsOf_putBits (n lo width v : Nat) : bitsOf (putBits n lo width v) lo width = v % 2 ^ width := by
  have hp : 0 < 2 ^ lo := Nat.two_pow_pos lo
  rw [putBits_eq, bitsOf, Nat.mul_comm, Nat.mul_add_div hp, Nat.div_eq_of_lt (Nat.mod_lt _ hp), Nat.add_zero,
    Nat.mul_comm, Nat.mul_add_mod, Nat.mod_mod]

/-- A field of a word replaced stays in the word. -/
theorem putBits_lt (n lo width v : Nat) (hn : n < 2 ^ 32) (hw : lo + width ≤ 32) : putBits n lo width v < 2 ^ 32 := by
  have hp : 0 < 2 ^ lo := Nat.two_pow_pos lo
  have hb : v % 2 ^ width < 2 ^ width := Nat.mod_lt _ (Nat.two_pow_pos width)
  have hr : n % 2 ^ lo < 2 ^ lo := Nat.mod_lt _ hp
  have e5 : 2 ^ 32 = 2 ^ (32 - lo - width) * 2 ^ width * 2 ^ lo := by
    rw [← Nat.pow_add, ← Nat.pow_add]; congr 1; omega
  have h1 : n / 2 ^ lo / 2 ^ width < 2 ^ (32 - lo - width) := by
    rw [Nat.div_div_eq_div_mul, Nat.div_lt_iff_lt_mul (Nat.mul_pos hp (Nat.two_pow_pos width)),
      Nat.mul_comm (2 ^ lo), ← Nat.mul_assoc, ← e5]
    exact hn
  rw [putBits_eq, e5]
  generalize n / 2 ^ lo / 2 ^ width = q at *
  have h3 : q * 2 ^ width + v % 2 ^ width + 1 ≤ 2 ^ (32 - lo - width) * 2 ^ width := by
    have := Nat.mul_le_mul_right (2 ^ width) h1
    rw [Nat.succ_mul] at this; omega
  have h4 := Nat.mul_le_mul_right (2 ^ lo) h3
  rw [Nat.add_mul _ 1] at h4
  omega

/-- A field written into a word reads back, cut to its width. -/
theorem fldOf_putFld (w : Word) (lo width v : Nat) (h : lo + width ≤ 32) : fldOf (putFld w lo width v) lo width = v % 2 ^ width := by
  unfold fldOf putFld
  rw [BitVec.toNat_ofNat, Nat.mod_eq_of_lt (putBits_lt _ lo width v w.isLt h), bitsOf_putBits]

/-- A field below the one replaced is kept. -/
theorem bitsOf_putBits_below (n lo width v lo' width' : Nat) (h : lo' + width' ≤ lo) :
    bitsOf (putBits n lo width v) lo' width' = bitsOf n lo' width' := by
  have key : ∀ m : Nat, bitsOf m lo' width' = m % 2 ^ lo / 2 ^ lo' % 2 ^ width' := by
    intro m
    unfold bitsOf
    have e : 2 ^ lo = 2 ^ lo' * 2 ^ (lo - lo') := by rw [← Nat.pow_add]; congr 1; omega
    rw [e, Nat.mod_mul_right_div_self]
    have e2 : 2 ^ (lo - lo') = 2 ^ width' * 2 ^ (lo - lo' - width') := by rw [← Nat.pow_add]; congr 1; omega
    rw [e2, Nat.mod_mul_right_mod]
  rw [key, key n, putBits_eq, Nat.mul_comm _ (2 ^ lo), Nat.mul_add_mod, Nat.mod_mod]

/-- A field above the one replaced is kept. -/
theorem bitsOf_putBits_above (n lo width v lo' width' : Nat) (h : lo + width ≤ lo') :
    bitsOf (putBits n lo width v) lo' width' = bitsOf n lo' width' := by
  have hp : 0 < 2 ^ lo := Nat.two_pow_pos lo
  have key : ∀ m : Nat, bitsOf m lo' width' = m / 2 ^ lo / 2 ^ width / 2 ^ (lo' - lo - width) % 2 ^ width' := by
    intro m
    unfold bitsOf
    rw [Nat.div_div_eq_div_mul, Nat.div_div_eq_div_mul, ← Nat.pow_add, ← Nat.pow_add]
    congr 3; omega
  rw [key, key n, putBits_eq]
  congr 2
  rw [Nat.mul_comm _ (2 ^ lo), Nat.mul_add_div hp, Nat.div_eq_of_lt (Nat.mod_lt _ hp), Nat.add_zero,
    Nat.mul_comm, Nat.mul_add_div (Nat.two_pow_pos width), Nat.div_eq_of_lt (Nat.mod_lt _ (Nat.two_pow_pos width)), Nat.add_zero]

/-- A field written leaves a field beside it. -/
theorem fldOf_putFld_other (w : Word) (lo width v lo' width' : Nat) (h : lo + width ≤ 32)
    (d : lo' + width' ≤ lo ∨ lo + width ≤ lo') : fldOf (putFld w lo width v) lo' width' = fldOf w lo' width' := by
  unfold fldOf putFld
  rw [BitVec.toNat_ofNat, Nat.mod_eq_of_lt (putBits_lt _ lo width v w.isLt h)]
  cases d with
  | inl d => exact bitsOf_putBits_below _ _ _ _ _ _ d
  | inr d => exact bitsOf_putBits_above _ _ _ _ _ _ d

/-- A field written reads back, cut to its width. -/
theorem getF_setF (s : State) (f : Fld) (v : Nat) (h : f.lo + f.width ≤ 32) : (s.setF f v).getF f = v % 2 ^ f.width := by
  unfold State.getF
  rw [reg_setF, fldOf_putFld _ _ _ _ h]

/-- A field written leaves a field of another register, or beside it in the same one. -/
theorem getF_setF_other (s : State) (f g : Fld) (v : Nat) (h : f.lo + f.width ≤ 32)
    (d : g.addr ≠ f.addr ∨ g.lo + g.width ≤ f.lo ∨ f.lo + f.width ≤ g.lo) : (s.setF f v).getF g = s.getF g := by
  unfold State.getF
  by_cases e : g.addr = f.addr
  · rw [e, reg_setF, fldOf_putFld_other _ _ _ _ _ _ h (d.resolve_left (fun n => n e)), ← e]
  · rw [reg_setF_other s f e]

end Sys2Proof.Machine
end

