-- ==== Sys2Proof/Laws/Conclude.lean ====
section
/-! SUPPORT. What follows from a command (State.conclude): with nothing waiting it is the device state and the events alone,
and settling the events touches registers, their counts, counters, host memory, rings and interrupts alone. -/

namespace Sys2Proof.Machine

set_option Elab.async false

@[simp] theorem setReg_core (s : State) (a : Nat) (w : Word) : (s.setReg a w).core = s.core := rfl
@[simp] theorem setF_core (s : State) (f : Fld) (v : Nat) : (s.setF f v).core = s.core := rfl
@[simp] theorem setFBit_core (s : State) (f : Fld) (i : Nat) (b : Bool) : (s.setFBit f i b).core = s.core := rfl
@[simp] theorem setSqc_core (s : State) (a : Nat) (x : Sqc) : (s.setSqc a x).core = s.core := rfl
@[simp] theorem raise_core (s : State) (f : Fld) : (s.raise f).core = s.core := rfl
@[simp] theorem setCtr_core (s : State) (k v : Nat) : (s.setCtr k v).core = s.core := rfl
@[simp] theorem count_core (s : State) (g i c : Nat) : (s.count g i c).core = s.core := rfl
@[simp] theorem hostPut_core (s : State) (a : Nat) (b : Byte) : (s.hostPut a b).core = s.core := rfl
@[simp] theorem setRingRun_core (s : State) (r : Nat) (x : RingRun) : (s.setRingRun r x).core = s.core := rfl
@[simp] theorem ringAdvance_core (s : State) (r n : Nat) : (s.ringAdvance r n).core = s.core := rfl
@[simp] theorem ringSignal_core (s : State) (r : Nat) : (s.ringSignal r).core = s.core := rfl
@[simp] theorem clearRaised_core (s : State) : State.core { s with raised := [] } = s.core := rfl

theorem each_core {α : Type} (l : List α) (f : State → α → State) (h : ∀ t x, (f t x).core = t.core) :
    ∀ s : State, (s.each l f).core = s.core := by
  induction l with
  | nil => intro s; rfl
  | cons x r ih => intro s; exact (ih (f s x)).trans (h s x)

@[simp] theorem hostWrite_core (l : List Byte) : ∀ (s : State) (a : Nat), (s.hostWrite a l).core = s.core := by
  induction l with
  | nil => intro s a; rfl
  | cons b r ih => intro s a; exact (ih (s.hostPut a b) (a + 1)).trans (hostPut_core s a b)

@[simp] theorem pcIncr_core (n : Nat) : ∀ (s : State) (k : Nat), (s.pcIncr k n).core = s.core := by
  induction n with
  | zero => intro s k; rfl
  | succ n ih =>
    intro s k
    simp only [State.pcIncr]
    split
    · rfl
    · split
      · simp
      · split
        · rw [ih, setCtr_core]
        · simp

@[simp] theorem pcCount_core (s : State) (l : List Nat) : (s.pcCount l).core = s.core := each_core l _ (fun t k => pcIncr_core 2 t k) s

@[simp] theorem entryPass_core (s : State) (r : Nat) : (s.entryPass r).core = s.core := by
  unfold State.entryPass
  dsimp only
  split <;> simp

@[simp] theorem ringPass_core (n : Nat) : ∀ (s : State) (r : Nat), (s.ringPass r n).core = s.core := by
  induction n with
  | zero => intro s r; rfl
  | succ n ih => intro s r; exact (ih (s.entryPass r) r).trans (entryPass_core s r)

theorem postEvent_core (s : State) (a : Nat) : (s.postEvent a).core = s.core := by
  unfold State.postEvent
  split
  · split <;> simp
  · rfl

theorem postAll_core (l : List (Nat × Nat)) (s : State) : (s.each l fun t e => t.postEvent e.1).core = s.core :=
  each_core l _ (fun (t : State) (e : Nat × Nat) => postEvent_core t e.1) s

theorem commitReg_core (s : State) (r : Nat × Nat) : (s.commitReg r).core = s.core := by
  unfold State.commitReg
  split
  · exact (setSqc_core _ _ _).trans (setReg_core _ _ _)
  · rfl

theorem settleRound_core (s : State) (l : List Nat) : (s.settleRound l).core = s.core := by
  unfold State.settleRound
  rw [postAll_core, each_core _ _ commitReg_core, pcCount_core, clearRaised_core]

theorem settleN_core (n : Nat) : ∀ (old s : State), (State.settleN n old s).core = s.core := by
  induction n with
  | zero => intro old s; rfl
  | succ n ih =>
    intro old s
    simp only [State.settleN]
    split
    · rfl
    · rw [ih, settleRound_core]

/-- Settling events keeps everything but registers, counts, counters, host memory, rings and interrupts. -/
theorem settle_core (old s : State) : (State.settle old s).core = s.core := settleN_core 6 old s

/-- The device state's update keeps everything but the device state and the events raised. -/
theorem devStep_core (s : State) : { s.devStep.core with dev := s.dev } = s.core := by
  unfold State.devStep
  split
  · rfl
  · split
    · rfl
    · split <;> rfl

theorem devUpdate_core (s : State) : { s.devUpdate.core with dev := s.dev } = s.core := by
  have h := devStep_core s.devStep
  have g := devStep_core s
  rw [← g, ← h]; rfl

/-- With nothing due, nothing follows before the device state and the events. -/
theorem tail_idle (s : State) (n : Nat) (h : s.tailDue = false) : s.tail n = s := by
  cases n with
  | zero => rfl
  | succ n => simp [State.tail, h]

/-- With nothing due, a command's consequences keep everything but the device state and what settling events writes. -/
theorem conclude_core (old s : State) (h : s.tailDue = false) : { (State.conclude old s).core with dev := s.dev } = s.core := by
  unfold State.conclude
  rw [tail_idle s 1024 h, settle_core]
  exact devUpdate_core s

/-- No event stands raised after settling. -/
theorem settleN_raised (n : Nat) : ∀ (old s : State), (State.settleN n old s).raised = [] := by
  induction n with
  | zero => intro old s; rfl
  | succ n ih =>
    intro old s
    simp only [State.settleN]
    split
    · rename_i h; exact List.isEmpty_iff.mp ((Bool.and_eq_true _ _).mp h).1
    · exact ih _ _

end Sys2Proof.Machine
end

