-- ==== Sys2Proof/Laws/Takes.lean ====
section
/-! SUPPORT. From a command's own effect to its next state: what settling events does to registers, counters and host memory, and
the one lemma by which a statement about a command is proved (takes_intro). -/

namespace Sys2Proof.Machine

set_option Elab.async false

/-! ### Lists of pairs -/

theorem mem_put {α : Type} (k : Nat) (v : α) (m : SMap α) (e : Nat × α) (h : e ∈ SMap.put k v m) : e = (k, v) ∨ e ∈ m := by
  induction m with
  | nil => simpa [SMap.put] using h
  | cons x r ih =>
    obtain ⟨k', v'⟩ := x
    simp only [SMap.put] at h
    split at h
    · simpa using h
    · split at h
      · rcases List.mem_cons.mp h with h | h
        · exact .inl h
        · exact .inr (List.mem_cons_of_mem _ h)
      · rcases List.mem_cons.mp h with h | h
        · exact .inr (h ▸ List.mem_cons_self ..)
        · exact (ih h).imp id (List.mem_cons_of_mem _)

theorem mem_del {α : Type} (k : Nat) (m : SMap α) (e : Nat × α) (h : e ∈ SMap.del k m) : e ∈ m := by
  induction m with
  | nil => exact h
  | cons x r ih =>
    obtain ⟨k', v'⟩ := x
    simp only [SMap.del] at h
    split at h
    · exact List.mem_cons_of_mem _ (ih h)
    · rcases List.mem_cons.mp h with h | h
      · exact h ▸ List.mem_cons_self ..
      · exact List.mem_cons_of_mem _ (ih h)

theorem mem_set {α : Type} [DecidableEq α] (d : Nat → α) (k : Nat) (v : α) (m : SMap α) (e : Nat × α)
    (h : e ∈ SMap.set d k v m) : e = (k, v) ∨ e ∈ m := by
  unfold SMap.set at h
  split at h
  · exact .inr (mem_del k m e h)
  · exact mem_put k v m e h

/-- What holds of a state and is kept by every element holds after all of them. -/
theorem each_keeps {α : Type} (P : State → Prop) (f : State → α → State) (l : List α)
    (h : ∀ t, ∀ x ∈ l, P t → P (f t x)) : ∀ t : State, P t → P (t.each l f) := by
  induction l with
  | nil => intro t n; exact n
  | cons x r ih =>
    intro t n
    exact ih (fun t y m => h t y (List.mem_cons_of_mem _ m)) _ (h t x (List.mem_cons_self ..) n)

/-! ### Plain and quiet registers -/

theorem plain_ne {a b : Nat} (p : plainReg a) (h : plainReg b = false) : a ≠ b := by
  rintro rfl; simp [h] at p

theorem quiet_ne {a b : Nat} (p : quietReg a) (h : quietReg b = false) : a ≠ b := by
  rintro rfl; simp [h] at p

theorem plain_of_quiet {a : Nat} (p : quietReg a) : plainReg a := by
  unfold quietReg at p
  exact ((Bool.and_eq_true _ _).mp p).1

theorem hif_status_plain : plainReg F.HIF_STATUS_event_overflow.addr = false := by decide
theorem hif_head_plain : plainReg (F.HIF_RING_HEAD_head 0x100).addr = false := by decide
theorem hif_event_quiet : quietReg F.HIF_EVENT_event_lost.addr = false := by decide
theorem cnt_event_quiet : quietReg F.CNT_EVENT_pc_overflow.addr = false := by decide

theorem ovf_plain (k : Nat) (h : k ≤ 0x800) : plainReg (F.CNT_PC_OVF_ovf (k / 32)).addr = false := by
  simp only [F.CNT_PC_OVF_ovf, Addr.CNT_PC_OVF, plainReg, Bool.not_eq_false', Bool.or_eq_true, Bool.and_eq_true]
  exact .inr ⟨decide_eq_true (by omega), decide_eq_true (by omega)⟩

theorem hostWrite_regs (l : List Byte) : ∀ (s : State) (a : Nat), (s.hostWrite a l).ctrs = s.ctrs ∧
    (s.hostWrite a l).raised = s.raised ∧ ∀ b, (s.hostWrite a l).reg b = s.reg b := by
  induction l with
  | nil => intro s a; exact ⟨rfl, rfl, fun _ => rfl⟩
  | cons b r ih => intro s a; exact ih (s.hostPut a b) (a + 1)

theorem ctr_group (g i c : Nat) (h : i * 2 ^ 6 + c < 2 ^ 20) : ctrKey g i c / 2 ^ 20 = g := by
  unfold ctrKey
  omega

/-- What the events' own working leaves alone in a state: the plain registers, the counters but groups 21 and 26, and which
quiet registers have events raised. -/
structure Calmer (t v : State) : Prop where
  reg : ∀ a, plainReg a → v.reg a = t.reg a
  ctr : ∀ k, k / 2 ^ 20 ≠ 21 → k / 2 ^ 20 ≠ 26 → v.ctr k = t.ctr k
  raised : ∀ e ∈ v.raised, e ∈ t.raised ∨ quietReg e.1 = false

theorem Calmer.refl (t : State) : Calmer t t := ⟨fun _ _ => rfl, fun _ _ _ => rfl, fun _ h => .inl h⟩

theorem Calmer.trans {t v w : State} (x : Calmer t v) (y : Calmer v w) : Calmer t w :=
  ⟨fun a p => (y.reg a p).trans (x.reg a p), fun k a b => (y.ctr k a b).trans (x.ctr k a b),
    fun e h => (y.raised e h).elim (x.raised e) .inr⟩

theorem calmer_same {t v : State} (hr : ∀ a, v.reg a = t.reg a) (hc : v.ctrs = t.ctrs) (he : v.raised = t.raised) : Calmer t v :=
  ⟨fun a _ => hr a, fun k _ _ => by unfold State.ctr; rw [hc], fun _ h => .inl (he ▸ h)⟩

theorem calmer_setF (t : State) (f : Fld) (v : Nat) (h : plainReg f.addr = false) : Calmer t (t.setF f v) :=
  ⟨fun _ p => reg_setF_other t f (plain_ne p h) v, fun _ _ _ => rfl, fun _ h => .inl h⟩

theorem calmer_raise (t : State) (f : Fld) (h : quietReg f.addr = false) : Calmer t (t.raise f) :=
  ⟨fun _ _ => rfl, fun _ _ _ => rfl, fun e m => by
    rcases mem_set (fun _ => 0) f.addr _ t.raised e m with rfl | m
    · exact .inr h
    · exact .inl m⟩

theorem calmer_setCtr (t : State) (k v : Nat) (h : k / 2 ^ 20 = 21 ∨ k / 2 ^ 20 = 26) : Calmer t (t.setCtr k v) :=
  ⟨fun _ _ => rfl, fun j a b => ctr_setCtr_other t (by rintro rfl; rcases h with h | h <;> contradiction) v, fun _ h => .inl h⟩

theorem calmer_pcIncr (n : Nat) : ∀ (t : State) (k : Nat), (n = 2 → k < 0x800) → (n = 1 → k ≤ 0x800) → n ≤ 2 →
    Calmer t (t.pcIncr k n) := by
  induction n with
  | zero => intro t k _ _ _; exact .refl t
  | succ n ih =>
    intro t k h2 h1 hn
    have hk : k ≤ 0x800 := by
      rcases Nat.lt_or_ge n 1 with c | c
      · exact h1 (by omega)
      · exact Nat.le_of_lt (h2 (by omega))
    have g : ctrKey 26 k 0 / 2 ^ 20 = 26 := ctr_group 26 k 0 (by omega)
    simp only [State.pcIncr]
    split
    · exact .refl t
    split
    · exact calmer_setCtr t _ _ (.inr g)
    · have c := calmer_setCtr t (ctrKey 26 k 0) 0 (.inr g)
      split
      · exact c.trans (ih _ _ (by omega) (by intro e; subst e; have := h2 rfl; omega) (by omega))
      · exact (c.trans (calmer_setF _ _ _ (ovf_plain k hk))).trans (calmer_raise _ _ cnt_event_quiet)

theorem calmer_each {α : Type} (f : State → α → State) (l : List α) (h : ∀ t, ∀ x ∈ l, Calmer t (f t x)) (t : State) :
    Calmer t (t.each l f) :=
  each_keeps (Calmer t) f l (fun v x m c => c.trans (h v x m)) t (.refl t)

theorem pcOn_lt {s : State} {k : Nat} (h : k ∈ s.pcOn) : k < 0x800 := by
  unfold State.pcOn at h
  have := (List.mem_filter.mp h).2
  simp only [Bool.and_eq_true, decide_eq_true_eq] at this
  exact this.1

theorem pcHits_lt {s old : State} {k : Nat} (h : k ∈ s.pcHits old) : k < 0x800 := by
  unfold State.pcHits State.pcMode at h
  exact pcOn_lt (List.mem_filter.mp (List.mem_filter.mp h).1).1

theorem calmer_pcCount (t : State) (l : List Nat) (h : ∀ k ∈ l, k < 0x800) : Calmer t (t.pcCount l) :=
  calmer_each _ l (fun v k m => calmer_pcIncr 2 v k (fun _ => h k m) (by omega) (by omega)) t

theorem calmer_entryPass (t : State) (r : Nat) : Calmer t (t.entryPass r) := by
  unfold State.entryPass
  dsimp only
  split
  · exact calmer_same (fun _ => rfl) rfl rfl
  · exact calmer_same (fun _ => rfl) rfl rfl

theorem calmer_ringPass (n : Nat) : ∀ (t : State) (r : Nat), Calmer t (t.ringPass r n) := by
  induction n with
  | zero => intro t r; exact .refl t
  | succ n ih => intro t r; exact (calmer_entryPass t r).trans (ih _ r)

theorem calmer_ringAdvance (t : State) (n : Nat) : Calmer t (t.ringAdvance 0x100 n) := calmer_setF t _ _ hif_head_plain

theorem calmer_hostWrite (t : State) (a : Nat) (l : List Byte) : Calmer t (t.hostWrite a l) :=
  calmer_same (hostWrite_regs l t a).2.2 (hostWrite_regs l t a).1 (hostWrite_regs l t a).2.1

theorem calmer_postEvent (t : State) (a : Nat) : Calmer t (t.postEvent a) := by
  unfold State.postEvent
  split
  · split
    · exact ((calmer_setCtr t _ _ (.inl (ctr_group 21 0 0 (by decide)))).trans (calmer_setF _ _ _ hif_status_plain)).trans
        (calmer_raise _ _ hif_event_quiet)
    · exact (((calmer_hostWrite t _ _).trans (calmer_ringAdvance _ _)).trans (calmer_setF _ _ _ hif_status_plain)).trans
        (calmer_ringPass _ _ _)
  · exact .refl t

/-! ### Registers and counters after settling -/

theorem setSqc_reg (t : State) (b : Nat) (x : Sqc) (a : Nat) : (t.setSqc b x).reg a = t.reg a := rfl

theorem commitReg_reg (t : State) (r : Nat × Nat) (a : Nat) (h : a ≠ r.1) : (t.commitReg r).reg a = t.reg a := by
  unfold State.commitReg
  split
  · exact (setSqc_reg _ _ _ _).trans (reg_setReg_other t h _)
  · rfl

theorem setBoth_parts (t : State) (a : Nat) (w : Word) (x : Sqc) : ((t.setReg a w).setSqc a x).ctrs = t.ctrs
    ∧ ((t.setReg a w).setSqc a x).raised = t.raised ∧ ((t.setReg a w).setSqc a x).host = t.host
    ∧ ((t.setReg a w).setSqc a x).hif = t.hif := ⟨rfl, rfl, rfl, rfl⟩

/-- Setting a register and its event count keeps what is neither. -/
theorem commitReg_parts (t : State) (r : Nat × Nat) : (t.commitReg r).ctrs = t.ctrs ∧ (t.commitReg r).raised = t.raised
    ∧ (t.commitReg r).host = t.host ∧ (t.commitReg r).hif = t.hif := by
  unfold State.commitReg
  split
  · exact setBoth_parts t r.1 _ _
  · exact ⟨rfl, rfl, rfl, rfl⟩

theorem commitReg_ctrs (t : State) (r : Nat × Nat) : (t.commitReg r).ctrs = t.ctrs := (commitReg_parts t r).1

theorem commitReg_raised (t : State) (r : Nat × Nat) : (t.commitReg r).raised = t.raised := (commitReg_parts t r).2.1

/-- What a round of settling works on before the events are applied, and after. -/
theorem round_parts (t : State) (l : List Nat) (h : ∀ k ∈ l, k < 0x800) :
    Calmer ({ t with raised := [] } : State) (({ t with raised := [] } : State).pcCount l) ∧
      Calmer ((({ t with raised := [] } : State).pcCount l).each t.raised State.commitReg) (t.settleRound l) := by
  refine ⟨calmer_pcCount _ l h, ?_⟩
  unfold State.settleRound
  generalize (({ t with raised := [] } : State).pcCount l).each t.raised State.commitReg = v
  apply calmer_each
  intro w r _
  exact calmer_postEvent w r.1

/-- Events raised by a round stand on registers that are not quiet. -/
theorem settleRound_raised (t : State) (l : List Nat) (h : ∀ k ∈ l, k < 0x800) (e : Nat × Nat) (m : e ∈ (t.settleRound l).raised) :
    quietReg e.1 = false := by
  obtain ⟨h1, h2⟩ := round_parts t l h
  rcases h2.raised e m with g | g
  · have h3 : ((({ t with raised := [] } : State).pcCount l).each t.raised State.commitReg).raised
        = (({ t with raised := [] } : State).pcCount l).raised :=
      each_keeps (fun v => v.raised = _) _ _ (fun v r _ c => (commitReg_raised v r).trans c) _ rfl
    rw [h3] at g
    rcases h1.raised e g with q | q
    · simp at q
    · exact q
  · exact g

/-- A round leaves a quiet register without events raised. -/
theorem settleRound_reg (t : State) (l : List Nat) (h : ∀ k ∈ l, k < 0x800) (a : Nat) (p : quietReg a) (m : a ∉ t.raised.map Prod.fst) :
    (t.settleRound l).reg a = t.reg a := by
  obtain ⟨h1, h2⟩ := round_parts t l h
  rw [h2.reg a (plain_of_quiet p)]
  refine Eq.trans ?_ (h1.reg a (plain_of_quiet p))
  exact each_keeps (fun v => v.reg a = (({ t with raised := [] } : State).pcCount l).reg a) _ _
    (fun v r hr c => (commitReg_reg v r a (by rintro rfl; exact m (List.mem_map_of_mem hr))).trans c) _ rfl

/-- A round leaves every counter but those of lost events and the programmable ones. -/
theorem settleRound_ctr (t : State) (l : List Nat) (h : ∀ k ∈ l, k < 0x800) (k : Nat) (a : k / 2 ^ 20 ≠ 21) (b : k / 2 ^ 20 ≠ 26) :
    (t.settleRound l).ctr k = t.ctr k := by
  obtain ⟨h1, h2⟩ := round_parts t l h
  rw [h2.ctr k a b]
  refine Eq.trans ?_ (h1.ctr k a b)
  exact each_keeps (fun v => v.ctr k = (({ t with raised := [] } : State).pcCount l).ctr k) _ _
    (fun v r _ c => by unfold State.ctr at *; rw [commitReg_ctrs v r]; exact c) _ rfl

/-- Settling leaves a quiet register without events raised. -/
theorem settleN_plain (n : Nat) : ∀ (old t : State) (a : Nat), quietReg a → a ∉ t.raised.map Prod.fst →
    (State.settleN n old t).reg a = t.reg a := by
  induction n with
  | zero => intro _ _ _ _ _; rfl
  | succ n ih =>
    intro old t a p m
    simp only [State.settleN]
    split
    · rfl
    · rw [ih _ _ a p ?_, settleRound_reg t _ (fun k q => pcHits_lt q) a p m]
      intro h
      obtain ⟨e, he, rfl⟩ := List.mem_map.mp h
      simp [settleRound_raised t _ (fun k q => pcHits_lt q) e he] at p

/-- Settling leaves every counter but those of lost events and the programmable ones. -/
theorem settleN_ctr (n : Nat) : ∀ (old t : State) (k : Nat), k / 2 ^ 20 ≠ 21 → k / 2 ^ 20 ≠ 26 →
    (State.settleN n old t).ctr k = t.ctr k := by
  induction n with
  | zero => intro _ _ _ _ _; rfl
  | succ n ih =>
    intro old t k a b
    simp only [State.settleN]
    split
    · rfl
    · rw [ih _ _ k a b, settleRound_ctr t _ (fun k q => pcHits_lt q) k a b]

/-! ### Events stand set -/

theorem has_or (x y w : Word) (h : x &&& w = w) : (x ||| y) &&& w = w := by
  ext i hi
  have := congrArg (fun z => z[i]) h
  simp only [BitVec.getElem_and, BitVec.getElem_or] at *
  cases hx : x[i] <;> cases hy : y[i] <;> cases hw : w[i] <;> simp_all

theorem has_orSelf (x w : Word) : (x ||| w) &&& w = w := by
  ext i hi
  simp only [BitVec.getElem_and, BitVec.getElem_or]
  cases x[i] <;> cases w[i] <;> rfl

theorem commitReg_has (t : State) (r : Nat × Nat) (a : Nat) (w : Word) (h : t.reg a &&& w = w) :
    (t.commitReg r).reg a &&& w = w := by
  by_cases e : a = r.1
  · subst e
    unfold State.commitReg
    split
    · dsimp only
      rw [setSqc_reg, reg_setReg]; exact has_or _ _ _ (has_or _ _ _ h)
    · exact h
  · rw [commitReg_reg t r a e]; exact h

/-- Bits of a plain register that stand set stay set through a round. -/
theorem settleRound_has (t : State) (l : List Nat) (h : ∀ k ∈ l, k < 0x800) (a : Nat) (w : Word) (p : plainReg a) (g : t.reg a &&& w = w) :
    (t.settleRound l).reg a &&& w = w := by
  obtain ⟨h1, h2⟩ := round_parts t l h
  rw [h2.reg a p]
  exact each_keeps (fun v => v.reg a &&& w = w) _ _ (fun v r _ c => commitReg_has v r a w c) _
    (by rw [h1.reg a p]; exact g)

/-- Bits of a plain register that stand set stay set. -/
theorem settleN_has (n : Nat) : ∀ (old t : State) (a : Nat) (w : Word), plainReg a → t.reg a &&& w = w →
    (State.settleN n old t).reg a &&& w = w := by
  induction n with
  | zero => intro _ _ _ _ _ h; exact h
  | succ n ih =>
    intro old t a w p h
    simp only [State.settleN]
    split
    · exact h
    · exact ih _ _ _ _ p (settleRound_has t _ (fun k q => pcHits_lt q) a w p h)

/-! ### Events raised come to stand set -/

theorem mem_put_of_mem {α : Type} (k : Nat) (v : α) (m : SMap α) (e : Nat × α) (n : e.1 ≠ k) (h : e ∈ m) : e ∈ SMap.put k v m := by
  induction m with
  | nil => simp at h
  | cons x r ih =>
    obtain ⟨k', v'⟩ := x
    simp only [SMap.put]
    split
    · exact List.mem_cons_of_mem _ h
    · split
      · rename_i _ q
        rcases List.mem_cons.mp h with rfl | h
        · exact absurd q.symm n
        · exact List.mem_cons_of_mem _ h
      · rcases List.mem_cons.mp h with h | h
        · exact h ▸ List.mem_cons_self ..
        · exact List.mem_cons_of_mem _ (ih h)

theorem mem_del_of_mem {α : Type} (k : Nat) (m : SMap α) (e : Nat × α) (n : e.1 ≠ k) (h : e ∈ m) : e ∈ SMap.del k m := by
  induction m with
  | nil => exact h
  | cons x r ih =>
    obtain ⟨k', v'⟩ := x
    simp only [SMap.del]
    split
    · rename_i q
      rcases List.mem_cons.mp h with rfl | h
      · exact absurd q.symm n
      · exact ih h
    · rcases List.mem_cons.mp h with h | h
      · exact h ▸ List.mem_cons_self ..
      · exact List.mem_cons_of_mem _ (ih h)

theorem mem_set_of_mem {α : Type} [DecidableEq α] (d : Nat → α) (k : Nat) (v : α) (m : SMap α) (e : Nat × α) (n : e.1 ≠ k)
    (h : e ∈ m) : e ∈ SMap.set d k v m := by
  unfold SMap.set
  split
  · exact mem_del_of_mem k m e n h
  · exact mem_put_of_mem k v m e n h

/-- The bits `w` of register `a` stand raised. -/
def Raised (m : List (Nat × Nat)) (a : Nat) (w : Word) : Prop := ∃ e ∈ m, e.1 = a ∧ BitVec.ofNat 32 e.2 &&& w = w

theorem put_raised (k b : Nat) (m : SMap Nat) (e : Nat × Nat) (w : Word) (h : e ∈ m) (hw : BitVec.ofNat 32 e.2 &&& w = w) :
    Raised (SMap.put k (SMap.get (fun _ => 0) k m ||| b) m) e.1 w := by
  induction m with
  | nil => simp at h
  | cons x r ih =>
    obtain ⟨k', v'⟩ := x
    simp only [SMap.put, SMap.get]
    by_cases q : k = k'
    · subst q
      rw [if_neg (Nat.lt_irrefl k), if_pos rfl, if_pos rfl]
      rcases List.mem_cons.mp h with rfl | h
      · refine ⟨_, List.mem_cons_self .., rfl, ?_⟩
        rw [BitVec.ofNat_or]
        exact has_or _ _ _ hw
      · exact ⟨e, List.mem_cons_of_mem _ h, rfl, hw⟩
    · rw [if_neg q, if_neg q]
      split
      · exact ⟨e, List.mem_cons_of_mem _ h, rfl, hw⟩
      · rcases List.mem_cons.mp h with rfl | h
        · exact ⟨_, List.mem_cons_self .., rfl, hw⟩
        · obtain ⟨e', m', a', w'⟩ := ih h
          exact ⟨e', List.mem_cons_of_mem _ m', a', w'⟩

theorem raise_keeps (t : State) (f : Fld) (a : Nat) (w : Word) (h : Raised t.raised a w) : Raised (t.raise f).raised a w := by
  obtain ⟨e, m, rfl, hw⟩ := h
  unfold State.raise State.raiseBit SMap.set
  dsimp only
  split
  · rename_i q
    have := congrArg (fun n => Nat.testBit n (f.lo + 0)) q
    simp [Nat.testBit_or] at this
  · exact put_raised _ _ _ e w m hw

theorem commitReg_sets (t : State) (r : Nat × Nat) (h : (t.domainOn (domainOf r.1) || sharedPipe r.1) = true) :
    (t.commitReg r).reg r.1 &&& BitVec.ofNat 32 r.2 = BitVec.ofNat 32 r.2 := by
  unfold State.commitReg
  rw [if_pos h]
  dsimp only
  rw [setSqc_reg, reg_setReg]; exact has_or _ _ _ (has_orSelf _ _)

/-- A bit of a word, as a mask that stands set. -/
theorem bit_has (w : Word) (i : Nat) (h : i < 32) : bitAt w.toNat i = true ↔ w &&& (1#32 <<< i) = 1#32 <<< i := by
  unfold bitAt
  rw [decide_eq_true_iff]
  constructor
  · intro q
    ext j hj
    simp only [BitVec.getElem_and, BitVec.getElem_shiftLeft, BitVec.getElem_one]
    by_cases e : j < i
    · simp [e]
    · by_cases e2 : j = i
      · subst e2
        have : w[j] = true := by
          rw [BitVec.getElem_eq_testBit_toNat, Nat.testBit_eq_decide_div_mod_eq]
          exact decide_eq_true q
        simp [this]
      · have : ¬ j - i = 0 := by omega
        simp [this]
  · intro q
    have := congrArg (fun z : Word => z[i]) q
    simp only [BitVec.getElem_and, BitVec.getElem_shiftLeft, BitVec.getElem_one] at this
    simp only [Nat.lt_irrefl, Nat.sub_self, decide_true, decide_false, Bool.not_false, Bool.and_true] at this
    rw [BitVec.getElem_eq_testBit_toNat, Nat.testBit_eq_decide_div_mod_eq] at this
    exact of_decide_eq_true this

theorem commitReg_domain (t : State) (r : Nat × Nat) (d : Nat) (h : t.domainOn d = true) :
    (t.commitReg r).domainOn d = true := by
  unfold State.domainOn at *
  by_cases c : d < 32
  · rw [if_pos c] at *
    rw [bit_has _ _ c] at *
    exact commitReg_has _ _ _ _ h
  · rw [if_neg c] at *
    by_cases c2 : d - 32 < 32
    · rw [bit_has _ _ c2] at *
      exact commitReg_has _ _ _ _ h
    · exfalso
      have hlt : (t.reg Addr.PWR_DOMAIN_ON_HI).toNat < 2 ^ (d - 32) :=
        Nat.lt_of_lt_of_le (BitVec.isLt _) (Nat.pow_le_pow_right (by decide) (by omega))
      unfold bitAt at h
      rw [Nat.div_eq_of_lt hlt] at h
      simp at h

theorem commitAll_sets (e : Nat × Nat) (l : List (Nat × Nat)) : ∀ t : State, e ∈ l →
    (t.domainOn (domainOf e.1) || sharedPipe e.1) = true →
    (t.each l (State.commitReg)).reg e.1 &&& BitVec.ofNat 32 e.2 = BitVec.ofNat 32 e.2 := by
  induction l with
  | nil => intro t m _; simp at m
  | cons r l ih =>
    intro t m h
    show ((t.commitReg r).each l (State.commitReg)).reg e.1 &&& _ = _
    rcases List.mem_cons.mp m with rfl | m
    · exact each_keeps (fun v => v.reg e.1 &&& BitVec.ofNat 32 e.2 = BitVec.ofNat 32 e.2) _ l
        (fun v r _ c => commitReg_has v r _ _ c) _ (commitReg_sets t e h)
    · refine ih _ m ?_
      rcases Bool.or_eq_true _ _ ▸ h with h | h
      · rw [commitReg_domain t r _ h]; rfl
      · rw [h]; exact Bool.or_true _

theorem domainOn_reg {t v : State} (h : ∀ a, plainReg a → v.reg a = t.reg a) (d : Nat) : v.domainOn d = t.domainOn d := by
  unfold State.domainOn
  rw [h Addr.PWR_DOMAIN_ON_LO (by decide), h Addr.PWR_DOMAIN_ON_HI (by decide)]

theorem has_trans (x y w : Word) (h : x &&& y = y) (g : y &&& w = w) : x &&& w = w := by
  ext i hi
  have h := congrArg (fun z => z[i]) h
  have g := congrArg (fun z => z[i]) g
  simp only [BitVec.getElem_and] at *
  cases hx : x[i] <;> cases hy : y[i] <;> cases hw : w[i] <;> simp_all

/-- The bits of every event raised on a plain register whose domain is on stand set after a round. -/
theorem settleRound_sets (t : State) (l : List Nat) (hl : ∀ k ∈ l, k < 0x800) (a : Nat) (w : Word) (m : Raised t.raised a w)
    (p : plainReg a) (h : (t.domainOn (domainOf a) || sharedPipe a) = true) : (t.settleRound l).reg a &&& w = w := by
  obtain ⟨h1, h2⟩ := round_parts t l hl
  obtain ⟨e, m1, rfl, hw⟩ := m
  rw [h2.reg e.1 p]
  refine has_trans _ _ _ (commitAll_sets e _ _ m1 ?_) hw
  rw [domainOn_reg h1.reg]; exact h

/-- The bits of every event raised on a plain register whose domain is on stand set after settling. -/
theorem settleN_sets (n : Nat) (old t : State) (a : Nat) (w : Word) (m : Raised t.raised a w) (p : plainReg a)
    (h : (t.domainOn (domainOf a) || sharedPipe a) = true) :
    (State.settleN (n + 1) old t).reg a &&& w = w := by
  simp only [State.settleN]
  split
  · rename_i q
    obtain ⟨e, m1, -, -⟩ := m
    rw [List.isEmpty_iff.mp ((Bool.and_eq_true _ _).mp q).1] at m1; simp at m1
  · exact settleN_has _ _ _ _ _ p (settleRound_sets t _ (fun k q => pcHits_lt q) a w m p h)

/-! ### Host memory while the event ring does not run -/

/-- The registers that say whether the event ring runs, and HIF.STATUS. -/
def eventRingReg (a : Nat) : Bool :=
  decide (a = Addr.PWR_DOMAIN_ON_HI) || decide (a = Addr.HIF_RING_STATUS 0x100) || decide (a = Addr.HIF_STATUS)

/-- Host memory and the registers that say whether the event ring runs are those of `t`, and no event stands raised there. -/
structure Still (t v : State) : Prop where
  host : v.host = t.host
  hif : v.hif = t.hif
  reg : ∀ a, eventRingReg a → v.reg a = t.reg a
  raised : ∀ e ∈ v.raised, eventRingReg e.1 = false

theorem Still.ringRuns {t v : State} (h : Still t v) : v.ringRuns 0x100 = t.ringRuns 0x100 := by
  unfold State.ringRuns State.domainOn State.getF
  rw [if_neg (by decide), if_neg (by decide), h.reg _ (by decide)]
  rw [show (F.HIF_RING_STATUS_state 0x100).addr = Addr.HIF_RING_STATUS 0x100 from rfl, h.reg _ (by decide)]

theorem ring_ne {a b : Nat} (p : eventRingReg a) (h : eventRingReg b = false) : a ≠ b := by
  rintro rfl; simp [h] at p

theorem still_setF {t v : State} (h : Still t v) (f : Fld) (x : Nat) (q : eventRingReg f.addr = false) : Still t (v.setF f x) :=
  ⟨h.host, h.hif, fun a p => (reg_setF_other v f (ring_ne p q) x).trans (h.reg a p), h.raised⟩

theorem still_raise {t v : State} (h : Still t v) (f : Fld) (q : eventRingReg f.addr = false) : Still t (v.raise f) :=
  ⟨h.host, h.hif, h.reg, fun e m => by
    rcases mem_set (fun _ => 0) f.addr _ v.raised e m with rfl | m
    · exact q
    · exact h.raised e m⟩

theorem ovf_ring (k : Nat) : eventRingReg (F.CNT_PC_OVF_ovf k).addr = false := by
  simp only [F.CNT_PC_OVF_ovf, Addr.CNT_PC_OVF, eventRingReg, Addr.PWR_DOMAIN_ON_HI, Addr.HIF_RING_STATUS, Addr.HIF_STATUS,
    Bool.or_eq_false_iff]
  exact ⟨⟨decide_eq_false (by omega), decide_eq_false (by omega)⟩, decide_eq_false (by omega)⟩

theorem still_pcIncr (t : State) (n : Nat) : ∀ (v : State) (k : Nat), Still t v → Still t (v.pcIncr k n) := by
  induction n with
  | zero => intro v k h; exact h
  | succ n ih =>
    intro v k h
    simp only [State.pcIncr]
    split
    · exact h
    split
    · exact ⟨h.host, h.hif, h.reg, h.raised⟩
    · split
      · exact ih _ _ ⟨h.host, h.hif, h.reg, h.raised⟩
      · have g : Still t (v.setCtr (ctrKey 26 k 0) 0) := ⟨h.host, h.hif, h.reg, h.raised⟩
        exact still_raise (still_setF g (F.CNT_PC_OVF_ovf (k / 32)) _ (ovf_ring (k / 32))) F.CNT_EVENT_pc_overflow (by decide)

theorem still_pcCount (t v : State) (l : List Nat) (h : Still t v) : Still t (v.pcCount l) :=
  each_keeps (Still t) _ _ (fun v k _ c => still_pcIncr t 2 v k c) v h

theorem still_commitReg (t v : State) (r : Nat × Nat) (h : Still t v) (q : eventRingReg r.1 = false) : Still t (v.commitReg r) := by
  obtain ⟨-, h2, h3, h4⟩ := commitReg_parts v r
  exact ⟨h3.trans h.host, h4.trans h.hif, fun a p => (commitReg_reg v r a (ring_ne p q)).trans (h.reg a p), h2 ▸ h.raised⟩

theorem still_postEvent (t v : State) (a : Nat) (h : Still t v) (q : t.ringRuns 0x100 = false) : Still t (v.postEvent a) := by
  unfold State.postEvent
  rw [h.ringRuns, q, Bool.false_and, if_neg (by decide)]
  exact h

/-- While the event ring does not run, settling writes no byte of host memory. -/
theorem settleN_still (n : Nat) : ∀ (old t v : State), Still t v → t.ringRuns 0x100 = false →
    Still t (State.settleN n old v) := by
  induction n with
  | zero => intro _ _ _ h _; exact ⟨h.host, h.hif, h.reg, fun e m => by simp [State.settleN] at m⟩
  | succ n ih =>
    intro old t v h q
    simp only [State.settleN]
    split
    · exact h
    · refine ih _ _ _ ?_ q
      unfold State.settleRound
      refine each_keeps (Still t) _ _ (fun v r _ c => still_postEvent t v r.1 c q) _ ?_
      refine each_keeps (Still t) _ _ (fun v r m c => still_commitReg t v r c (h.raised r m)) _ ?_
      exact still_pcCount t _ _ ⟨h.host, h.hif, h.reg, fun e m => by simp at m⟩

/-! ### Programmable counters while none is enabled -/

/-- The registers of the programmable counters. -/
def pcReg (a : Nat) : Bool :=
  (decide (0x94000 ≤ a) && decide (a < 0x98000)) || (decide (Addr.CNT_PC_OVF 0 ≤ a) && decide (a < Addr.CNT_PC_OVF 64))

theorem filter_put {α : Type} (k : Nat) (v : α) (p : Nat × α → Bool) (h : ∀ x, p (k, x) = false) (m : SMap α) :
    (SMap.put k v m).filter p = m.filter p := by
  induction m with
  | nil => simp [SMap.put, h]
  | cons x r ih =>
    obtain ⟨k', v'⟩ := x
    simp only [SMap.put]
    split
    · simp [List.filter_cons, h]
    · split
      · rename_i _ q; subst q; simp [h]
      · simp [List.filter_cons, ih]

theorem filter_del {α : Type} (k : Nat) (p : Nat × α → Bool) (h : ∀ x, p (k, x) = false) (m : SMap α) :
    (SMap.del k m).filter p = m.filter p := by
  induction m with
  | nil => rfl
  | cons x r ih =>
    obtain ⟨k', v'⟩ := x
    simp only [SMap.del]
    split
    · rename_i q; subst q; simp [h, ih]
    · simp [List.filter_cons, ih]

theorem filter_set {α : Type} [DecidableEq α] (d : Nat → α) (k : Nat) (v : α) (p : Nat × α → Bool) (h : ∀ x, p (k, x) = false)
    (m : SMap α) : (SMap.set d k v m).filter p = m.filter p := by
  unfold SMap.set
  split
  · exact filter_del k p h m
  · exact filter_put k v p h m

theorem cfg_pc {k : Nat} (h : k < 2048) : pcReg (Addr.CNT_PC_CFG k) = true := by
  unfold pcReg Addr.CNT_PC_CFG
  simp only [Bool.or_eq_true, Bool.and_eq_true, decide_eq_true_eq]
  exact .inl ⟨by omega, by omega⟩

/-- The counters enabled depend on the configurations held, on those that stand to the end of the core cycle, and on the registers that
hold them. -/
theorem pcOn_parts {v w : State} (h1 : w.pcHeld = v.pcHeld) (h2 : w.snap = v.snap) (h3 : w.now = v.now)
    (h4 : ∀ k, k < 2048 → w.reg (Addr.CNT_PC_CFG k) = v.reg (Addr.CNT_PC_CFG k)) : w.pcOn = v.pcOn := by
  have l : w.pcLate = v.pcLate := by unfold State.pcLate; rw [h2, h3]
  unfold State.pcOn
  rw [h1, l]
  apply List.filter_congr
  intro k _
  by_cases q : k < 2048
  · unfold State.pcField State.pcCfg; rw [l, h4 k q]
  · simp [q]

theorem pcOn_setReg (t : State) (a : Nat) (w : Word) (h : pcReg a = false) : (t.setReg a w).pcOn = t.pcOn := by
  refine pcOn_parts ?_ rfl rfl (fun k q => reg_setReg_other t (by rintro rfl; simp [cfg_pc q] at h) w)
  unfold State.pcHeld State.setReg
  dsimp only
  rw [filter_set]
  intro x
  unfold pcReg at h
  rw [Bool.or_eq_false_iff] at h
  simp [h.1]

/-- No programmable counter is enabled, and their values and overflow bits are those of `t`. -/
structure Fixed (t v : State) : Prop where
  on : v.pcOn = []
  ctr : ∀ k, k / 2 ^ 20 = 26 → v.ctr k = t.ctr k
  reg : ∀ a, pcReg a → v.reg a = t.reg a
  raised : ∀ e ∈ v.raised, pcReg e.1 = false

theorem pc_ne {a b : Nat} (p : pcReg a) (h : pcReg b = false) : a ≠ b := by
  rintro rfl; simp [h] at p

theorem fixed_setReg {t v : State} (h : Fixed t v) (a : Nat) (w : Word) (q : pcReg a = false) : Fixed t (v.setReg a w) :=
  ⟨(pcOn_setReg v a w q).trans h.on, h.ctr, fun b p => (reg_setReg_other v (pc_ne p q) w).trans (h.reg b p), h.raised⟩

theorem fixed_setF {t v : State} (h : Fixed t v) (f : Fld) (x : Nat) (q : pcReg f.addr = false) : Fixed t (v.setF f x) :=
  fixed_setReg h f.addr _ q

theorem fixed_same {t v w : State} (h : Fixed t v) (h1 : w.regs = v.regs) (h2 : w.tmrB = v.tmrB) (h3 : w.tmrC = v.tmrC)
    (h4 : w.part = v.part) (h5 : w.ctrs = v.ctrs) (h6 : w.raised = v.raised) (h7 : w.snap = v.snap) (h8 : w.now = v.now) : Fixed t w :=
  ⟨(pcOn_parts (by unfold State.pcHeld; rw [h1]) h7 h8 (fun _ _ => by unfold State.reg; rw [h1, h2, h3, h4])).trans h.on, fun k q => by unfold State.ctr; rw [h5]; exact h.ctr k q,
    fun a p => by unfold State.reg; rw [h1, h2, h3, h4]; exact h.reg a p, fun e m => h.raised e (h6 ▸ m)⟩

/-- With the events taken out. -/
theorem fixed_clear {t v : State} (h : Fixed t v) : Fixed t { v with raised := [] } :=
  ⟨(pcOn_parts rfl rfl rfl (fun _ _ => rfl)).trans h.on, h.ctr, h.reg, fun e m => by simp at m⟩

theorem fixed_setSqc {t v : State} (h : Fixed t v) (a : Nat) (x : Sqc) : Fixed t (v.setSqc a x) := fixed_same h rfl rfl rfl rfl rfl rfl rfl rfl

theorem fixed_raise {t v : State} (h : Fixed t v) (f : Fld) (q : pcReg f.addr = false) : Fixed t (v.raise f) :=
  ⟨(pcOn_parts rfl rfl rfl (fun _ _ => rfl)).trans h.on, h.ctr, h.reg, fun e m => by
    rcases mem_set (fun _ => 0) f.addr _ v.raised e m with rfl | m
    · exact q
    · exact h.raised e m⟩

theorem fixed_ringPass (n : Nat) : ∀ {t v : State} (_ : Fixed t v) (r : Nat), Fixed t (v.ringPass r n) := by
  induction n with
  | zero => intro t v h r; exact h
  | succ n ih =>
    intro t v h r
    refine ih ?_ r
    unfold State.entryPass
    dsimp only
    split <;> exact fixed_same h rfl rfl rfl rfl rfl rfl rfl rfl

theorem fixed_postEvent {t v : State} (h : Fixed t v) (a : Nat) : Fixed t (v.postEvent a) := by
  unfold State.postEvent
  split
  · split
    · have h1 : Fixed t (v.count 21 0 0) :=
        ⟨(pcOn_parts rfl rfl rfl (fun _ _ => rfl)).trans h.on, fun k q => (ctr_setCtr_other v (by rintro rfl; rw [ctr_group 21 0 0 (by decide)] at q; contradiction) _).trans (h.ctr k q),
          h.reg, h.raised⟩
      have h2 := fixed_setF h1 F.HIF_STATUS_event_overflow 1 (by decide)
      exact fixed_raise h2 F.HIF_EVENT_event_lost (by decide)
    · dsimp only
      generalize leBytes 4 (a % 2 ^ 24) ++ leBytes 4 (v.view a).toNat ++ v.tsNow ++ [0, 0, 0, 0, 0, 0, 0, 0] = d
      have k : ∀ (l : List Byte) (w : State) (b : Nat), Fixed t w → Fixed t (w.hostWrite b l) := by
        intro l
        induction l with
        | nil => intro w b g; exact g
        | cons x r ih => intro w b g; exact ih _ _ (fixed_same g rfl rfl rfl rfl rfl rfl rfl rfl)
      have h1 := k d v (v.ringAddr 0x100 0) h
      have h2 : Fixed t ((v.hostWrite (v.ringAddr 0x100 0) d).ringAdvance 0x100 1) :=
        fixed_setF h1 (F.HIF_RING_HEAD_head 0x100) _ (by decide)
      have h3 := fixed_setF h2 F.HIF_STATUS_event_overflow 0 (by decide)
      exact fixed_ringPass 1 h3 0x100
  · exact h

theorem fixed_commitReg {t v : State} (h : Fixed t v) (r : Nat × Nat) (q : pcReg r.1 = false) :
    Fixed t (v.commitReg r) := by
  unfold State.commitReg
  split
  · exact fixed_setSqc (fixed_setReg h r.1 _ q) _ _
  · exact h

theorem pcHits_off (v old : State) (h : v.pcOn = []) : v.pcHits old = [] := by
  unfold State.pcHits State.pcMode
  rw [h]; rfl

/-- While no programmable counter is enabled, settling changes none. -/
theorem settleN_fixed (n : Nat) : ∀ (old t v : State), Fixed t v → Fixed t (State.settleN n old v) := by
  induction n with
  | zero => intro _ _ _ h; exact fixed_clear h
  | succ n ih =>
    intro old t v h
    simp only [State.settleN]
    rw [pcHits_off v old h.on]
    split
    · exact h
    · refine ih _ _ _ ?_
      unfold State.settleRound
      refine each_keeps (Fixed t) _ _ (fun v r _ c => ?_) _ ?_
      · exact fixed_postEvent c r.1
      · exact each_keeps (Fixed t) _ _ (fun v r m c => fixed_commitReg c r (h.raised r m)) _
          (fixed_clear h)

/-! ### A command's own effect and its next state -/

/-- Nothing is due in a calm state. -/
theorem calm_due (s : State) (h : s.calm = true) : s.tailDue = false := by
  unfold State.calm at h
  simp only [Bool.and_eq_true, decide_eq_true_eq, List.isEmpty_iff, List.all_eq_true, Bool.not_eq_true'] at h
  obtain ⟨⟨⟨⟨⟨⟨⟨h1, h2⟩, h3⟩, h4⟩, -⟩, h6⟩, -⟩, h8⟩ := h
  unfold State.tailDue State.leaveHead State.unitNext
  rw [h1, h2, h4, h6, h8]
  have : (s.hif.rings.any fun e => e.2.stopping && (s.runningOn e.1).isEmpty) = false := by
    rw [List.any_eq_false]
    intro e he
    simp [h3 e he]
  simp [this]

theorem devStep_fields (s : State) : s.devStep.regs = s.regs ∧ s.devStep.tmrB = s.tmrB ∧ s.devStep.tmrC = s.tmrC ∧ s.devStep.part = s.part
    ∧ s.devStep.ctrs = s.ctrs ∧ s.devStep.host = s.host ∧ s.devStep.hif = s.hif ∧
      s.devStep.snap = s.snap ∧ s.devStep.now = s.now ∧
      (s.devStep.raised = s.raised ∨ s.devStep.raised = (s.raise F.SAF_EVENT_fault_degraded).raised) := by
  unfold State.devStep
  split
  · exact ⟨rfl, rfl, rfl, rfl, rfl, rfl, rfl, rfl, rfl, .inl rfl⟩
  · split
    · exact ⟨rfl, rfl, rfl, rfl, rfl, rfl, rfl, rfl, rfl, .inr rfl⟩
    · split <;> exact ⟨rfl, rfl, rfl, rfl, rfl, rfl, rfl, rfl, rfl, .inl rfl⟩

theorem reg_same {s t : State} (h1 : s.regs = t.regs) (h2 : s.tmrB = t.tmrB) (h3 : s.tmrC = t.tmrC) (h4 : s.part = t.part) (a : Nat) :
    s.reg a = t.reg a := by unfold State.reg; rw [h1, h2, h3, h4]

theorem devStep_reg (s : State) (a : Nat) : s.devStep.reg a = s.reg a :=
  have h := devStep_fields s
  reg_same h.1 h.2.1 h.2.2.1 h.2.2.2.1 a

theorem devUpdate_reg (s : State) (a : Nat) : s.devUpdate.reg a = s.reg a := (devStep_reg s.devStep a).trans (devStep_reg s a)

theorem devUpdate_ctrs (s : State) : s.devUpdate.ctrs = s.ctrs :=
  (devStep_fields s.devStep).2.2.2.2.1.trans (devStep_fields s).2.2.2.2.1

theorem devUpdate_host (s : State) : s.devUpdate.host = s.host :=
  (devStep_fields s.devStep).2.2.2.2.2.1.trans (devStep_fields s).2.2.2.2.2.1

theorem devUpdate_hif (s : State) : s.devUpdate.hif = s.hif :=
  (devStep_fields s.devStep).2.2.2.2.2.2.1.trans (devStep_fields s).2.2.2.2.2.2.1

theorem with_dev (x y : State) (d : DevState) (h : { x with dev := d } = y) : x = { y with dev := x.dev } := by
  subst h; rfl

theorem core_dev (x : State) : x.core.dev = x.dev := rfl

/-- Registers in which no event is ever raised: those on which the posting of events and the programmable counters depend. -/
def guardReg (a : Nat) : Bool := eventRingReg a || pcReg a

/-- Nothing is due after the device state's update if nothing was due before: the form in which a statement about a command
is proved from the command's own effect. -/
theorem yields_intro {o : Host.Outcome State Fault Refusal} {s u : State} (h : o = .next (State.conclude s u))
    (d : u.tailDue = false) (q : ∀ e ∈ u.raised, guardReg e.1 = false) : Yields o u := by
  have t : State.conclude s u = State.settle s u.devUpdate := by unfold State.conclude; rw [tail_idle u 1024 d]
  have k : ∀ v : State, (∀ e ∈ v.raised, guardReg e.1 = false) → ∀ e ∈ v.devStep.raised, guardReg e.1 = false := by
    intro v hv e m
    rcases (devStep_fields v).2.2.2.2.2.2.2.2.2 with r | r
    · exact hv e (r ▸ m)
    · rw [r] at m
      rcases mem_set (fun _ => 0) F.SAF_EVENT_fault_degraded.addr _ v.raised e m with rfl | m
      · exact (by decide : guardReg F.SAF_EVENT_fault_degraded.addr = false)
      · exact hv e m
  have q2 := k _ (k _ q)
  refine ⟨_, h, ?_, ?_, ?_, ?_, ?_, ?_⟩
  · rw [t]; exact settle_core s u.devUpdate
  · intro a p m
    rw [t]
    exact (settleN_plain 6 s u.devUpdate a p m).trans (devUpdate_reg u a)
  · intro e m p o
    rw [t]
    refine settleN_sets 5 s u.devUpdate e.1 _ ⟨e, m, rfl, BitVec.and_self⟩ p ?_
    rw [domainOn_reg (fun a _ => devUpdate_reg u a)]; exact o
  · intro k a b
    rw [t]
    refine (settleN_ctr 6 s u.devUpdate k a b).trans ?_
    unfold State.ctr; rw [devUpdate_ctrs]
  · intro o
    rw [t]
    have z := settleN_still 6 s u u.devUpdate ⟨devUpdate_host u, devUpdate_hif u, fun a _ => devUpdate_reg u a,
      fun e m => ((Bool.or_eq_false_iff).mp (q2 e m)).1⟩ o
    exact ⟨z.host, congrArg Hif.rings z.hif, congrArg Hif.msix z.hif, z.reg Addr.HIF_STATUS (by decide)⟩
  · intro o
    rw [t]
    have z := settleN_fixed 6 s u u.devUpdate ⟨?_, ?_, fun a _ => devUpdate_reg u a,
      fun e m => ((Bool.or_eq_false_iff).mp (q2 e m)).2⟩
    · refine ⟨z.ctr, fun j hj => z.reg _ ?_⟩
      unfold pcReg Addr.CNT_PC_OVF
      simp only [Bool.or_eq_true, Bool.and_eq_true, decide_eq_true_eq]
      omega
    · refine (pcOn_parts ?_ ?_ ?_ (fun _ _ => devUpdate_reg u _)).trans o
      · unfold State.pcHeld
        rw [show u.devUpdate.regs = u.regs from (devStep_fields u.devStep).1.trans (devStep_fields u).1]
      · exact (devStep_fields u.devStep).2.2.2.2.2.2.2.1.trans (devStep_fields u).2.2.2.2.2.2.2.1
      · exact (devStep_fields u.devStep).2.2.2.2.2.2.2.2.1.trans (devStep_fields u).2.2.2.2.2.2.2.2.1
    · intro k _; unfold State.ctr; rw [devUpdate_ctrs]

theorem takes_intro {c : Instr} {s u : State} (h : exec c s = .next (State.conclude s u)) (d : u.tailDue = false)
    (q : ∀ e ∈ u.raised, guardReg e.1 = false) : Takes c s u := yields_intro h d q

/-- Nothing is due while no request waits, no command runs or waits for a fence, no ring is being stopped, no group is under test, and
the conductor log asks for nothing. -/
theorem due_parts (u : State) (h1 : u.key.ks.queue = []) (h2 : u.hif.inflight = [])
    (h3 : (u.hif.rings.all fun e => !e.2.stopping) = true) (h4 : u.groupTested = 0) (h5 : u.key.logDue = false)
    (h6 : u.hif.fenced = []) : u.tailDue = false := by
  unfold State.tailDue State.leaveHead State.unitNext
  rw [h1, h2, h4, h5, h6]
  have : (u.hif.rings.any fun e => e.2.stopping && (u.runningOn e.1).isEmpty) = false := by
    rw [List.any_eq_false]
    intro e he
    have := List.all_eq_true.mp h3 e he
    simp at this
    simp [this]
  simp [this]

theorem calm_parts {s : State} (h : s.calm = true) : s.key.ks.queue = [] ∧ s.hif.inflight = [] ∧
    (s.hif.rings.all fun e => !e.2.stopping) = true ∧ s.groupTested = 0 ∧ s.raised = [] ∧ s.key.logDue = false ∧ s.hif.fenced = [] := by
  unfold State.calm at h
  simp only [Bool.and_eq_true, decide_eq_true_eq, List.isEmpty_iff, Bool.not_eq_true'] at h
  obtain ⟨⟨⟨⟨⟨⟨⟨h1, h2⟩, h3⟩, h4⟩, h5⟩, h6⟩, -⟩, h8⟩ := h
  exact ⟨h1, h2, h3, h4, h5, h6, h8⟩

/-- The core die of a calm state runs. -/
theorem calm_runs {s : State} (h : s.calm = true) : s.stopped = false := by
  unfold State.calm at h
  simp only [Bool.and_eq_true, Bool.not_eq_true'] at h
  exact h.1.2

/-- In a calm state a command's outcome is its own effect and what follows from it. -/
theorem run_calm {s : State} (h : s.calm = true) (f : State → State) : run f s = .next (State.conclude s (f s)) := by
  unfold run
  rw [calm_runs h]; rfl

end Sys2Proof.Machine
end

