-- ==== Sys2Proof/Laws/Writes.lean ====
section
/-! SUPPORT. A register write that passes its checks (regWord_admits), and what the change of its fields and of others keeps of
what a calm state is made of. -/

namespace Sys2Proof.Machine

set_option Elab.async false

theorem stored_parts (s : State) (m a : Nat) (v : Word) : (s.stored m a v).key = s.key ∧ (s.stored m a v).hif = s.hif ∧
    (s.stored m a v).raised = s.raised ∧ (s.stored m a v).core = s.core := by
  unfold State.stored
  dsimp only
  split <;> exact ⟨rfl, rfl, rfl, rfl⟩

@[simp] theorem stored_key (s : State) (m a : Nat) (v : Word) : (s.stored m a v).key = s.key := (stored_parts s m a v).1
@[simp] theorem stored_hif (s : State) (m a : Nat) (v : Word) : (s.stored m a v).hif = s.hif := (stored_parts s m a v).2.1
@[simp] theorem stored_raised (s : State) (m a : Nat) (v : Word) : (s.stored m a v).raised = s.raised := (stored_parts s m a v).2.2.1
@[simp] theorem stored_core (s : State) (m a : Nat) (v : Word) : (s.stored m a v).core = s.core := (stored_parts s m a v).2.2.2

/-- A write changes no register but its own and SYS.ARMED. -/
theorem stored_reg (s : State) (m a : Nat) (v : Word) (b : Nat) (h1 : b ≠ canonAddr a) (h2 : b ≠ Addr.SYS_ARMED) :
    (s.stored m a v).reg b = s.reg b := by
  have h : (s.setArmed m false).reg b = s.reg b := reg_setReg_other s h2 _
  unfold State.stored
  dsimp only
  split
  · exact h
  · rw [reg_setRegBits_other _ h1]; exact h

theorem armed_on (s : State) (m d : Nat) : (s.setArmed m false).domainOn d = s.domainOn d := by
  unfold State.domainOn
  rw [show (s.setArmed m false).reg Addr.PWR_DOMAIN_ON_LO = s.reg Addr.PWR_DOMAIN_ON_LO from reg_setReg_other s (by decide) _,
    show (s.setArmed m false).reg Addr.PWR_DOMAIN_ON_HI = s.reg Addr.PWR_DOMAIN_ON_HI from reg_setReg_other s (by decide) _]

/-- A write that passes every check changes the fields it may change, and then the block acts on it. -/
theorem regWord_admits (s : State) (m a : Nat) (v : Word) (h : s.admits m a v = true) :
    s.regWord m a v = (s.stored m a v).after m (canonAddr a) (s.armed m) v (s.setArmed m false) := by
  unfold State.admits at h
  simp only [Bool.and_eq_true] at h
  obtain ⟨⟨⟨⟨h1, h2⟩, h3⟩, h4⟩, h5⟩ := h
  have h6 : (s.setArmed m false).regOn a = true := by unfold State.regOn at *; rw [armed_on]; exact h3
  unfold State.regWord State.writeWord
  rw [if_neg (by cases q : targetOf a <;> simp_all), if_neg (by simp [h2])]
  unfold State.writeFields State.stored
  dsimp only
  cases q : regDesc (canonAddr a) with
  | none => rw [q] at h5; simp at h5
  | some d =>
    rw [q] at h5
    dsimp only at h5 ⊢
    rw [if_neg (by simp [h6]), if_neg (by simpa using h4)]
    have h7 : (!s.armed m && keyDiffers d v ((s.setArmed m false).view (canonAddr a))) = false := by
      cases x : s.armed m <;> simp_all
    rw [h7]
    rfl

end Sys2Proof.Machine
end

