-- ==== Sys2Proof/Laws/Keep.lean ====
section
/-! SUPPORT. The relation Keep between a state and what an operation makes of it: nothing has come to wait, and no event stands raised
in a register that the settling of events depends on. A statement about a command follows from it (takes_keep); one lemma for
each shared operation says that it keeps. -/

namespace Sys2Proof.Machine

set_option Elab.async false

/-- `t` has the queue of requests, the commands in flight and the group under test of `s`, stops no ring that `s` does not, and
has raised events in no guarded register. -/
structure Keep (s t : State) : Prop where
  queue : t.key.ks.queue = s.key.ks.queue
  flight : t.hif.inflight = s.hif.inflight
  rings : (s.hif.rings.all fun e => !e.2.stopping) = true → (t.hif.rings.all fun e => !e.2.stopping) = true
  group : t.reg Addr.PLB_STATUS = s.reg Addr.PLB_STATUS
  raised : ∀ e ∈ t.raised, e ∈ s.raised ∨ guardReg e.1 = false
  log : t.key.logDue = s.key.logDue
  fenced : t.hif.fenced = s.hif.fenced

/-- A register of the rings, the pipelines, the buffer, the traffic manager or the ports is not guarded. -/
theorem guard_high {a : Nat} (h : 0x100000 ≤ a) : guardReg a = false := by
  unfold guardReg eventRingReg pcReg Addr.PWR_DOMAIN_ON_HI Addr.HIF_RING_STATUS Addr.HIF_STATUS Addr.CNT_PC_OVF
  simp only [Bool.or_eq_false_iff, Bool.and_eq_false_iff, decide_eq_false_iff_not]
  omega

/-- Nor is it PLB.STATUS. -/
theorem plb_high {a : Nat} (h : 0x100000 ≤ a) : a ≠ Addr.PLB_STATUS := by unfold Addr.PLB_STATUS; omega

namespace Keep

theorem refl (s : State) : Keep s s := ⟨rfl, rfl, id, rfl, fun _ h => .inl h, rfl, rfl⟩

theorem trans {s t u : State} (h : Keep s t) (g : Keep t u) : Keep s u :=
  ⟨g.queue.trans h.queue, g.flight.trans h.flight, fun r => g.rings (h.rings r), g.group.trans h.group,
    fun e m => (g.raised e m).elim (h.raised e) .inr, g.log.trans h.log, g.fenced.trans h.fenced⟩

/-- An operation that leaves the registers, the events raised, the requests, the commands and the rings. -/
theorem same {s t : State} (h1 : t.key.ks.queue = s.key.ks.queue) (h2 : t.hif.inflight = s.hif.inflight)
    (h3 : t.hif.rings = s.hif.rings) (h4 : t.regs = s.regs) (h5 : t.tmrB = s.tmrB) (h6 : t.tmrC = s.tmrC) (h7 : t.part = s.part)
    (h8 : t.raised = s.raised) (h9 : t.key.logDue = s.key.logDue) (h10 : t.hif.fenced = s.hif.fenced) : Keep s t :=
  ⟨h1, h2, fun r => h3 ▸ r, reg_same h4 h5 h6 h7 _, fun _ m => .inl (h8 ▸ m), h9, h10⟩

theorem setReg {s t : State} (k : Keep s t) (a : Nat) (w : Word) (h : a ≠ Addr.PLB_STATUS) : Keep s (t.setReg a w) :=
  k.trans ⟨rfl, rfl, id, reg_setReg_other t (Ne.symm h) w, fun _ m => .inl m, rfl, rfl⟩

theorem setF {s t : State} (k : Keep s t) (f : Fld) (v : Nat) (h : f.addr ≠ Addr.PLB_STATUS) : Keep s (t.setF f v) :=
  k.setReg f.addr _ h

theorem setFBit {s t : State} (k : Keep s t) (f : Fld) (i : Nat) (b : Bool) (h : f.addr ≠ Addr.PLB_STATUS) :
    Keep s (t.setFBit f i b) := k.setReg f.addr _ h

theorem stored {s t : State} (k : Keep s t) (m a : Nat) (v : Word) (h : canonAddr a ≠ Addr.PLB_STATUS) : Keep s (t.stored m a v) :=
  k.trans ⟨by rw [stored_key], by rw [stored_hif], fun r => by rw [stored_hif]; exact r,
    stored_reg t m a v _ (Ne.symm h) (by decide), fun e m => .inl (by rw [stored_raised] at m; exact m),
    by rw [stored_key], by rw [stored_hif]⟩

theorem raiseBit {s t : State} (k : Keep s t) (f : Fld) (i : Nat) (h : guardReg f.addr = false) : Keep s (t.raiseBit f i) :=
  k.trans ⟨rfl, rfl, id, rfl, fun e m => by
    rcases mem_set (fun _ => 0) f.addr _ t.raised e m with rfl | m
    · exact .inr h
    · exact .inl m, rfl, rfl⟩

theorem raise {s t : State} (k : Keep s t) (f : Fld) (h : guardReg f.addr = false) : Keep s (t.raise f) := k.raiseBit f 0 h

theorem raiseIf {s t : State} (k : Keep s t) (c : Bool) (f : Fld) (h : guardReg f.addr = false) : Keep s (t.raiseIf c f) := by
  unfold State.raiseIf
  split
  · exact k.raise f h
  · exact k

theorem doIf {s t : State} (k : Keep s t) (c : Bool) (f : State → State) (h : ∀ u, Keep u (f u)) : Keep s (t.doIf c f) := by
  unfold State.doIf
  split
  · exact k.trans (h t)
  · exact k

theorem each {α : Type} {s t : State} (k : Keep s t) (l : List α) (f : State → α → State) (h : ∀ u, ∀ x ∈ l, Keep u (f u x)) :
    Keep s (t.each l f) :=
  each_keeps (Keep s) f l (fun t x m c => c.trans (h t x m)) t k

theorem count {s t : State} (k : Keep s t) (g i c : Nat) : Keep s (t.count g i c) := k.trans (same rfl rfl rfl rfl rfl rfl rfl rfl rfl rfl)
theorem countN {s t : State} (k : Keep s t) (g i c n : Nat) : Keep s (t.countN g i c n) := k.trans (same rfl rfl rfl rfl rfl rfl rfl rfl rfl rfl)
theorem setPort {s t : State} (k : Keep s t) (p : Nat) (r : PortRun) : Keep s (t.setPort p r) := k.trans (same rfl rfl rfl rfl rfl rfl rfl rfl rfl rfl)
theorem setQueue {s t : State} (k : Keep s t) (x : Nat) (q : Queue) : Keep s (t.setQueue x q) := k.trans (same rfl rfl rfl rfl rfl rfl rfl rfl rfl rfl)
theorem setFrame {s t : State} (k : Keep s t) (i : Nat) (f : Option Frame) : Keep s (t.setFrame i f) := k.trans (same rfl rfl rfl rfl rfl rfl rfl rfl rfl rfl)
theorem setPool {s t : State} (k : Keep s t) (j : Nat) (p : Pool) : Keep s (t.setPool j p) := k.trans (same rfl rfl rfl rfl rfl rfl rfl rfl rfl rfl)
theorem setCell {s t : State} (k : Keep s t) (a : Nat) (c : Option Cell) : Keep s (t.setCell a c) := k.trans (same rfl rfl rfl rfl rfl rfl rfl rfl rfl rfl)
theorem setTab {s t : State} (k : Keep s t) (n : Nat) (p : PipeTab) : Keep s (t.setTab n p) := k.trans (same rfl rfl rfl rfl rfl rfl rfl rfl rfl rfl)
theorem setMac {s t : State} (k : Keep s t) (m : Nat) (r : MacroRun) : Keep s (t.setMac m r) := k.trans (same rfl rfl rfl rfl rfl rfl rfl rfl rfl rfl)
theorem setCh {s t : State} (k : Keep s t) (c : Nat) (x : DmaCh) : Keep s (t.setCh c x) := k.trans (same rfl rfl rfl rfl rfl rfl rfl rfl rfl rfl)
theorem setSched {s t : State} (k : Keep s t) (p : Nat) (x : PortSched) : Keep s (t.setSched p x) := k.trans (same rfl rfl rfl rfl rfl rfl rfl rfl rfl rfl)
theorem chargeMove {s t : State} (k : Keep s t) (p c : Nat) (d : Int) : Keep s (t.chargeMove p c d) := k.trans (same rfl rfl rfl rfl rfl rfl rfl rfl rfl rfl)
theorem dropCause {s t : State} (k : Keep s t) (f : Cause → Bool) : Keep s (t.dropCause f) := k.trans (same rfl rfl rfl rfl rfl rfl rfl rfl rfl rfl)
theorem setCtr {s t : State} (k : Keep s t) (a v : Nat) : Keep s (t.setCtr a v) := k.trans (same rfl rfl rfl rfl rfl rfl rfl rfl rfl rfl)
theorem setSqc {s t : State} (k : Keep s t) (a : Nat) (x : Sqc) : Keep s (t.setSqc a x) := k.trans (same rfl rfl rfl rfl rfl rfl rfl rfl rfl rfl)
theorem hostPut {s t : State} (k : Keep s t) (a : Nat) (b : Byte) : Keep s (t.hostPut a b) := k.trans (same rfl rfl rfl rfl rfl rfl rfl rfl rfl rfl)

theorem addCause {s t : State} (k : Keep s t) (c : Cause) : Keep s (t.addCause c) := by
  unfold State.addCause; split
  · exact k
  · exact k.trans (same rfl rfl rfl rfl rfl rfl rfl rfl rfl rfl)

theorem hostWrite {s : State} (l : List Byte) : ∀ {t : State} (_ : Keep s t) (a : Nat), Keep s (t.hostWrite a l) := by
  induction l with
  | nil => intro t k a; exact k
  | cons b r ih => intro t k a; exact ih (k.hostPut a b) (a + 1)

/-- An update of what is neither a register, an event, a request, a command nor a ring. -/
theorem upd {s t u : State} (k : Keep s t) (h1 : u.key.ks.queue = t.key.ks.queue) (h2 : u.hif.inflight = t.hif.inflight)
    (h3 : u.hif.rings = t.hif.rings) (h4 : u.regs = t.regs) (h5 : u.tmrB = t.tmrB) (h6 : u.tmrC = t.tmrC) (h7 : u.part = t.part)
    (h8 : u.raised = t.raised) (h9 : u.key.logDue = t.key.logDue) (h10 : u.hif.fenced = t.hif.fenced) : Keep s u :=
  k.trans (same h1 h2 h3 h4 h5 h6 h7 h8 h9 h10)

end Keep

theorem groupTested_reg {s t : State} (h : t.reg Addr.PLB_STATUS = s.reg Addr.PLB_STATUS) : t.groupTested = s.groupTested := by
  unfold State.groupTested State.getF
  rw [show F.PLB_STATUS_plb_state.addr = Addr.PLB_STATUS from rfl, show F.PLB_STATUS_group.addr = Addr.PLB_STATUS from rfl, h]

/-- From a calm state, a command whose own effect keeps completes with that effect. -/
theorem takes_keep {c : Instr} {s u : State} (k : s.calm = true) (h : exec c s = .next (State.conclude s u)) (g : Keep s u) :
    Takes c s u := by
  obtain ⟨h1, h2, h3, h4, h5, h6, h7⟩ := calm_parts k
  refine takes_intro h (due_parts u (g.queue.trans h1) (g.flight.trans h2) (g.rings h3) ((groupTested_reg g.group).trans h4)
    (g.log.trans h6) (g.fenced.trans h7)) ?_
  intro e m
  rcases g.raised e m with q | q
  · rw [h5] at q; simp at q
  · exact q

end Sys2Proof.Machine
end

