-- ==== Sys2Proof/Laws/Memory.lean ====
section
/-! SUPPORT. Host memory: reads after writes, and every operation keeps the canonical form. -/

namespace Sys2Proof.Machine

set_option Elab.async false

/-- Reset memory is in canonical form. -/
theorem Memory.wf_nil : Memory.wf [] := rfl

theorem hostPut_wf (s : State) (a : Nat) (b : Byte) (h : Memory.wf s.host) : Memory.wf (s.hostPut a b).host :=
  SMap.wf_set hostDefault _ b s.host h

/-- A byte written reads back. -/
theorem hostByte_hostPut (s : State) (a : Nat) (b : Byte) : (s.hostPut a b).hostByte a = b :=
  SMap.get_set_same hostDefault _ b s.host

/-- A byte written leaves the others. -/
theorem hostByte_hostPut_other (s : State) (a c : Nat) (b : Byte) (h : c % 2 ^ 64 ≠ a % 2 ^ 64) :
    (s.hostPut a b).hostByte c = s.hostByte c :=
  SMap.get_set_other hostDefault h b s.host

theorem hostWrite_wf (l : List Byte) : ∀ (s : State) (a : Nat), Memory.wf s.host → Memory.wf (s.hostWrite a l).host := by
  induction l with
  | nil => intro s a h; exact h
  | cons b r ih => intro s a h; exact ih _ _ (hostPut_wf s a b h)

/-- A run of bytes written leaves every byte outside it. -/
theorem hostByte_hostWrite_other (l : List Byte) : ∀ (s : State) (a c : Nat),
    (∀ i, i < l.length → c % 2 ^ 64 ≠ (a + i) % 2 ^ 64) → (s.hostWrite a l).hostByte c = s.hostByte c := by
  induction l with
  | nil => intro s a c _; rfl
  | cons b r ih =>
    intro s a c h
    have h0 : c % 2 ^ 64 ≠ a % 2 ^ 64 := by simpa using h 0 (by simp)
    have hr : ∀ i, i < r.length → c % 2 ^ 64 ≠ (a + 1 + i) % 2 ^ 64 := by
      intro i hi
      have := h (i + 1) (by simpa using hi)
      rwa [show a + 1 + i = a + (i + 1) by omega]
    show ((s.hostPut a b).hostWrite (a + 1) r).hostByte c = s.hostByte c
    rw [ih _ _ _ hr, hostByte_hostPut_other s a c b h0]

theorem foldl_set_wf (b : Blob) (a : Nat) (l : List (Nat × Byte)) : ∀ m : List Host.Cell, Memory.wf m →
    Memory.wf (l.foldl (fun m (p : Nat × Byte) =>
      if p.1 < b.len then SMap.set hostDefault ((a + p.1) % 2 ^ 64) p.2 m else m) m) := by
  induction l with
  | nil => intro m h; exact h
  | cons p r ih =>
    intro m h
    simp only [List.foldl]
    split
    · exact ih _ (SMap.wf_set hostDefault _ _ _ h)
    · exact ih _ h

theorem hostPutBlob_wf (s : State) (a : Nat) (b : Blob) (h : Memory.wf s.host) : Memory.wf (s.hostPutBlob a b).host :=
  foldl_set_wf b a b.bytes _ (SMap.wfFrom_filter hostDefault _ s.host 0 h)

end Sys2Proof.Machine
end

