-- ==== Sys2Proof/Laws/PerInstr.lean ====
section
/-! SUPPORT. What well-formedness says of each row as syntax: the master that issues a register access is one of the 32, and
a logical port one of the 512. -/

namespace Sys2Proof.Laws

set_option Elab.async false

/-- The master a row names. -/
def masters : Instr → List Nat
  | .openInterface _ => []
  | .closeInterface _ => []
  | .nop _ => []
  | .getState _ => []
  | .loadAshlar _ => []
  | .patchAshlar _ => []
  | .loadEphemeris _ => []
  | .activate _ => []
  | .cancelActivate _ => []
  | .tableRead _ => []
  | .tableFlush _ => []
  | .readFaultRecord _ => []
  | .readLog _ => []
  | .setPowerBudget _ => []
  | .powerDomain _ => []
  | .park _ => []
  | .attest _ => []
  | .runBundle _ => []
  | .fwUpdate _ => []
  | .plumbGroup _ => []
  | .counterSnapshot _ => []
  | .apply m _ _ => [m]
  | .applyDone _ => []
  | .poolApply m _ => [m]
  | .hbmRetire m _ => [m]
  | .hbmRelocationDone => []
  | .ephActivateGo m _ => [m]
  | .ephActivateCancel m _ => [m]
  | .timeSet m _ => [m]
  | .timeSetEffect => []
  | .rateBaseWrite m _ _ => [m]
  | .offsetSubmit m _ => [m]
  | .ppsInEdge => []
  | .ppsInMissing => []
  | .ppsOutEdge => []
  | .servoEnable m _ => [m]
  | .servoDisable m _ => [m]
  | .hold m _ => [m]
  | .holdRelease m _ => [m]
  | .holdoverTimeout => []
  | .timeCapture m _ => [m]
  | .forceSwitch m _ => [m]
  | .resync m _ => [m]
  | .alarmTest m _ => [m]
  | .alarmTestDone => []
  | .alarmRelease m _ => [m]
  | .softwareReset m _ => [m]
  | .unlock m _ => [m]
  | .unlockTimeout m => [m]
  | .sqcClear m _ _ => [m]
  | .sqcRead m _ => [m]
  | .randomRead m => [m]
  | .counterCapture m _ => [m]
  | .pcCfgWrite m _ _ => [m]
  | .pcValWrite m _ _ => [m]
  | .dumpModeWrite m _ _ => [m]
  | .frerReset m _ _ => [m]
  | .scrubFast m _ => [m]
  | .shaperEnable m _ _ => [m]
  | .accTableWrite m _ _ _ => [m]
  | .ringEnable m _ _ => [m]
  | .ringDisable m _ _ => [m]
  | .doorbell m _ _ _ => [m]
  | .poll _ _ => []
  | .modTimeExpiry _ => []
  | .channelEnable m _ _ => [m]
  | .channelDisable m _ _ => [m]
  | .restart m _ _ => [m]
  | .dmaDoorbell m _ _ _ => [m]
  | .dmaDescriptor _ _ => []
  | .beatAnswer _ _ => []
  | .registerWrite m _ _ _ => [m]
  | .frameReceive _ _ => []
  | .skidBufferSend _ => []
  | .frameRxEnd _ _ _ _ => []
  | .flowControlReceive _ _ _ => []
  | .pauseTimerExpiry _ _ => []
  | .pauseWdBreak _ _ => []
  | .wdRecoveryEnd _ _ => []
  | .backPressureAssert _ _ => []
  | .backPressureRelease _ _ => []
  | .fcRefresh _ _ => []
  | .fcFrameSend _ => []
  | .verifyTimer _ => []
  | .lpiEntry _ => []
  | .wakeDetect _ _ => []
  | .linkUp _ => []
  | .linkDown _ => []
  | .anFail _ => []
  | .refClockLoss _ => []
  | .refClockRelock _ => []
  | .flitError _ => []
  | .headerResolve _ => []
  | .copyEnqueue _ => []
  | .mirrorBuild => []
  | .selection _ => []
  | .frameStart _ => []
  | .transmitEnd _ => []
  | .cpuRxDelivery => []
  | .cpuTx _ _ => []
  | .ageHeadScan _ => []
  | .prefetchRead _ => []
  | .scrub _ => []
  | .learnGrant => []
  | .learn _ => []
  | .refresh _ => []
  | .sweep _ => []
  | .sweepIssue => []
  | .epoch _ => []
  | .epochIssue => []
  | .flush _ => []
  | .flushPassEnd _ => []
  | .staticAdd _ => []
  | .staticMask _ => []
  | .staticDel _ => []
  | .tableCheck _ => []
  | .tcamCheck _ => []
  | .drainEnd => []
  | .frerResetExpiry _ => []
  | .latentTest _ => []
  | .slotBoundary => []
  | .bankSwitch => []
  | .cycleRefEdge => []
  | .refMissing => []
  | .checkpoint => []
  | .checkpointCommit _ => []
  | .keystoneFault _ _ => []
  | .deferredInputServe => []
  | .selfTestEnd _ _ => []
  | .fullCopyCommit => []
  | .faultReport _ => []
  | .backstopFired => []
  | .channelDisagree => []
  | .tmrVote => []
  | .tempSample _ => []
  | .leaveTimeout => []
  | .leaveReturn _ => []
  | .domainPowerUpDone _ _ => []
  | .hbmTrainingDone _ => []
  | .pwronRstN => []
  | .sysRstN => []
  | .parkDrainEnd => []
  | .plumbStep => []
  | .plumbStepEnd _ _ => []
  | .flr _ => []
  | .hotReset => []
  | .periodicLatch => []
  | .dumpRecordWrite => []
  | .attestCreditReturn => []
  | .rngFail => []
  | .rngReady => []
  | .ledStream => []
  | .registerRead m _ _ => [m]
  | .pwronRstNRelease _ => []
  | .hostLinkUp _ _ => []
  | .keystoneSelfTestTimeout _ => []
  | .mpacketReceive _ _ => []
  | .dmaBeatIssue => []
  | .anDone _ _ _ _ => []
  | .time10mInMeasure _ _ => []
  | .pcOverflow _ => []
  | .rxLpi _ _ => []

/-- The logical port a row names. -/
def portsOf : Instr → List Nat
  | .openInterface _ => []
  | .closeInterface _ => []
  | .nop _ => []
  | .getState _ => []
  | .loadAshlar _ => []
  | .patchAshlar _ => []
  | .loadEphemeris _ => []
  | .activate _ => []
  | .cancelActivate _ => []
  | .tableRead _ => []
  | .tableFlush _ => []
  | .readFaultRecord _ => []
  | .readLog _ => []
  | .setPowerBudget _ => []
  | .powerDomain _ => []
  | .park _ => []
  | .attest _ => []
  | .runBundle _ => []
  | .fwUpdate _ => []
  | .plumbGroup _ => []
  | .counterSnapshot _ => []
  | .apply _ _ _ => []
  | .applyDone _ => []
  | .poolApply _ _ => []
  | .hbmRetire _ _ => []
  | .hbmRelocationDone => []
  | .ephActivateGo _ _ => []
  | .ephActivateCancel _ _ => []
  | .timeSet _ _ => []
  | .timeSetEffect => []
  | .rateBaseWrite _ _ _ => []
  | .offsetSubmit _ _ => []
  | .ppsInEdge => []
  | .ppsInMissing => []
  | .ppsOutEdge => []
  | .servoEnable _ _ => []
  | .servoDisable _ _ => []
  | .hold _ _ => []
  | .holdRelease _ _ => []
  | .holdoverTimeout => []
  | .timeCapture _ _ => []
  | .forceSwitch _ _ => []
  | .resync _ _ => []
  | .alarmTest _ _ => []
  | .alarmTestDone => []
  | .alarmRelease _ _ => []
  | .softwareReset _ _ => []
  | .unlock _ _ => []
  | .unlockTimeout _ => []
  | .sqcClear _ _ _ => []
  | .sqcRead _ _ => []
  | .randomRead _ => []
  | .counterCapture _ _ => []
  | .pcCfgWrite _ _ _ => []
  | .pcValWrite _ _ _ => []
  | .dumpModeWrite _ _ _ => []
  | .frerReset _ _ _ => []
  | .scrubFast _ _ => []
  | .shaperEnable _ _ _ => []
  | .accTableWrite _ _ _ _ => []
  | .ringEnable _ _ _ => []
  | .ringDisable _ _ _ => []
  | .doorbell _ _ _ _ => []
  | .poll _ _ => []
  | .modTimeExpiry _ => []
  | .channelEnable _ _ _ => []
  | .channelDisable _ _ _ => []
  | .restart _ _ _ => []
  | .dmaDoorbell _ _ _ _ => []
  | .dmaDescriptor _ _ => []
  | .beatAnswer _ _ => []
  | .registerWrite _ _ _ _ => []
  | .frameReceive p _ => [p]
  | .skidBufferSend p => [p]
  | .frameRxEnd p _ _ _ => [p]
  | .flowControlReceive p _ _ => [p]
  | .pauseTimerExpiry p _ => [p]
  | .pauseWdBreak p _ => [p]
  | .wdRecoveryEnd p _ => [p]
  | .backPressureAssert p _ => [p]
  | .backPressureRelease p _ => [p]
  | .fcRefresh p _ => [p]
  | .fcFrameSend p => [p]
  | .verifyTimer p => [p]
  | .lpiEntry p => [p]
  | .wakeDetect _ _ => []
  | .linkUp p => [p]
  | .linkDown p => [p]
  | .anFail p => [p]
  | .refClockLoss _ => []
  | .refClockRelock _ => []
  | .flitError _ => []
  | .headerResolve _ => []
  | .copyEnqueue _ => []
  | .mirrorBuild => []
  | .selection p => [p]
  | .frameStart p => [p]
  | .transmitEnd p => [p]
  | .cpuRxDelivery => []
  | .cpuTx _ _ => []
  | .ageHeadScan _ => []
  | .prefetchRead _ => []
  | .scrub _ => []
  | .learnGrant => []
  | .learn _ => []
  | .refresh _ => []
  | .sweep _ => []
  | .sweepIssue => []
  | .epoch _ => []
  | .epochIssue => []
  | .flush _ => []
  | .flushPassEnd _ => []
  | .staticAdd _ => []
  | .staticMask _ => []
  | .staticDel _ => []
  | .tableCheck _ => []
  | .tcamCheck _ => []
  | .drainEnd => []
  | .frerResetExpiry _ => []
  | .latentTest _ => []
  | .slotBoundary => []
  | .bankSwitch => []
  | .cycleRefEdge => []
  | .refMissing => []
  | .checkpoint => []
  | .checkpointCommit _ => []
  | .keystoneFault _ _ => []
  | .deferredInputServe => []
  | .selfTestEnd _ _ => []
  | .fullCopyCommit => []
  | .faultReport _ => []
  | .backstopFired => []
  | .channelDisagree => []
  | .tmrVote => []
  | .tempSample _ => []
  | .leaveTimeout => []
  | .leaveReturn _ => []
  | .domainPowerUpDone _ _ => []
  | .hbmTrainingDone _ => []
  | .pwronRstN => []
  | .sysRstN => []
  | .parkDrainEnd => []
  | .plumbStep => []
  | .plumbStepEnd _ _ => []
  | .flr _ => []
  | .hotReset => []
  | .periodicLatch => []
  | .dumpRecordWrite => []
  | .attestCreditReturn => []
  | .rngFail => []
  | .rngReady => []
  | .ledStream => []
  | .registerRead _ _ _ => []
  | .pwronRstNRelease _ => []
  | .hostLinkUp _ _ => []
  | .keystoneSelfTestTimeout _ => []
  | .mpacketReceive p _ => [p]
  | .dmaBeatIssue => []
  | .anDone p _ _ _ => [p]
  | .time10mInMeasure _ _ => []
  | .pcOverflow _ => []
  | .rxLpi p _ => [p]

/-- A well-formed row names a master below 32 and a logical port below 512, where it names one. -/
def Operands.Statement (i : Instr) : Prop := i.wf = true → (∀ m ∈ masters i, m < 32) ∧ ∀ p ∈ portsOf i, p < 512

theorem Operands.openInterface (d : CmdDesc) : Operands.Statement (.openInterface d) := by
  simp +contextual [Operands.Statement, Instr.wf, masters, portsOf]
theorem Operands.closeInterface (d : CmdDesc) : Operands.Statement (.closeInterface d) := by
  simp +contextual [Operands.Statement, Instr.wf, masters, portsOf]
theorem Operands.nop (d : CmdDesc) : Operands.Statement (.nop d) := by
  simp +contextual [Operands.Statement, Instr.wf, masters, portsOf]
theorem Operands.getState (d : CmdDesc) : Operands.Statement (.getState d) := by
  simp +contextual [Operands.Statement, Instr.wf, masters, portsOf]
theorem Operands.loadAshlar (d : CmdDesc) : Operands.Statement (.loadAshlar d) := by
  simp +contextual [Operands.Statement, Instr.wf, masters, portsOf]
theorem Operands.patchAshlar (d : CmdDesc) : Operands.Statement (.patchAshlar d) := by
  simp +contextual [Operands.Statement, Instr.wf, masters, portsOf]
theorem Operands.loadEphemeris (d : CmdDesc) : Operands.Statement (.loadEphemeris d) := by
  simp +contextual [Operands.Statement, Instr.wf, masters, portsOf]
theorem Operands.activate (d : CmdDesc) : Operands.Statement (.activate d) := by
  simp +contextual [Operands.Statement, Instr.wf, masters, portsOf]
theorem Operands.cancelActivate (d : CmdDesc) : Operands.Statement (.cancelActivate d) := by
  simp +contextual [Operands.Statement, Instr.wf, masters, portsOf]
theorem Operands.tableRead (d : CmdDesc) : Operands.Statement (.tableRead d) := by
  simp +contextual [Operands.Statement, Instr.wf, masters, portsOf]
theorem Operands.tableFlush (d : CmdDesc) : Operands.Statement (.tableFlush d) := by
  simp +contextual [Operands.Statement, Instr.wf, masters, portsOf]
theorem Operands.readFaultRecord (d : CmdDesc) : Operands.Statement (.readFaultRecord d) := by
  simp +contextual [Operands.Statement, Instr.wf, masters, portsOf]
theorem Operands.readLog (d : CmdDesc) : Operands.Statement (.readLog d) := by
  simp +contextual [Operands.Statement, Instr.wf, masters, portsOf]
theorem Operands.setPowerBudget (d : CmdDesc) : Operands.Statement (.setPowerBudget d) := by
  simp +contextual [Operands.Statement, Instr.wf, masters, portsOf]
theorem Operands.powerDomain (d : CmdDesc) : Operands.Statement (.powerDomain d) := by
  simp +contextual [Operands.Statement, Instr.wf, masters, portsOf]
theorem Operands.park (d : CmdDesc) : Operands.Statement (.park d) := by
  simp +contextual [Operands.Statement, Instr.wf, masters, portsOf]
theorem Operands.attest (d : CmdDesc) : Operands.Statement (.attest d) := by
  simp +contextual [Operands.Statement, Instr.wf, masters, portsOf]
theorem Operands.runBundle (d : CmdDesc) : Operands.Statement (.runBundle d) := by
  simp +contextual [Operands.Statement, Instr.wf, masters, portsOf]
theorem Operands.fwUpdate (d : CmdDesc) : Operands.Statement (.fwUpdate d) := by
  simp +contextual [Operands.Statement, Instr.wf, masters, portsOf]
theorem Operands.plumbGroup (d : CmdDesc) : Operands.Statement (.plumbGroup d) := by
  simp +contextual [Operands.Statement, Instr.wf, masters, portsOf]
theorem Operands.counterSnapshot (d : CmdDesc) : Operands.Statement (.counterSnapshot d) := by
  simp +contextual [Operands.Statement, Instr.wf, masters, portsOf]
theorem Operands.apply (m : Nat) (mac : Nat) (v : Word) : Operands.Statement (.apply m mac v) := by
  simp +contextual [Operands.Statement, Instr.wf, masters, portsOf]
theorem Operands.applyDone (mac : Nat) : Operands.Statement (.applyDone mac) := by
  simp +contextual [Operands.Statement, Instr.wf, masters, portsOf]
theorem Operands.poolApply (m : Nat) (v : Word) : Operands.Statement (.poolApply m v) := by
  simp +contextual [Operands.Statement, Instr.wf, masters, portsOf]
theorem Operands.hbmRetire (m : Nat) (v : Word) : Operands.Statement (.hbmRetire m v) := by
  simp +contextual [Operands.Statement, Instr.wf, masters, portsOf]
theorem Operands.hbmRelocationDone : Operands.Statement .hbmRelocationDone := by
  simp +contextual [Operands.Statement, Instr.wf, masters, portsOf]
theorem Operands.ephActivateGo (m : Nat) (v : Word) : Operands.Statement (.ephActivateGo m v) := by
  simp +contextual [Operands.Statement, Instr.wf, masters, portsOf]
theorem Operands.ephActivateCancel (m : Nat) (v : Word) : Operands.Statement (.ephActivateCancel m v) := by
  simp +contextual [Operands.Statement, Instr.wf, masters, portsOf]
theorem Operands.timeSet (m : Nat) (v : Word) : Operands.Statement (.timeSet m v) := by
  simp +contextual [Operands.Statement, Instr.wf, masters, portsOf]
theorem Operands.timeSetEffect : Operands.Statement (.timeSetEffect) := by
  simp +contextual [Operands.Statement, Instr.wf, masters, portsOf]
theorem Operands.rateBaseWrite (m : Nat) (hi : Bool) (v : Word) : Operands.Statement (.rateBaseWrite m hi v) := by
  simp +contextual [Operands.Statement, Instr.wf, masters, portsOf]
theorem Operands.offsetSubmit (m : Nat) (v : Word) : Operands.Statement (.offsetSubmit m v) := by
  simp +contextual [Operands.Statement, Instr.wf, masters, portsOf]
theorem Operands.ppsInEdge : Operands.Statement .ppsInEdge := by
  simp +contextual [Operands.Statement, Instr.wf, masters, portsOf]
theorem Operands.ppsInMissing : Operands.Statement (.ppsInMissing) := by
  simp +contextual [Operands.Statement, Instr.wf, masters, portsOf]
theorem Operands.ppsOutEdge : Operands.Statement (.ppsOutEdge) := by
  simp +contextual [Operands.Statement, Instr.wf, masters, portsOf]
theorem Operands.servoEnable (m : Nat) (v : Word) : Operands.Statement (.servoEnable m v) := by
  simp +contextual [Operands.Statement, Instr.wf, masters, portsOf]
theorem Operands.servoDisable (m : Nat) (v : Word) : Operands.Statement (.servoDisable m v) := by
  simp +contextual [Operands.Statement, Instr.wf, masters, portsOf]
theorem Operands.hold (m : Nat) (v : Word) : Operands.Statement (.hold m v) := by
  simp +contextual [Operands.Statement, Instr.wf, masters, portsOf]
theorem Operands.holdRelease (m : Nat) (v : Word) : Operands.Statement (.holdRelease m v) := by
  simp +contextual [Operands.Statement, Instr.wf, masters, portsOf]
theorem Operands.holdoverTimeout : Operands.Statement (.holdoverTimeout) := by
  simp +contextual [Operands.Statement, Instr.wf, masters, portsOf]
theorem Operands.timeCapture (m : Nat) (v : Word) : Operands.Statement (.timeCapture m v) := by
  simp +contextual [Operands.Statement, Instr.wf, masters, portsOf]
theorem Operands.forceSwitch (m : Nat) (v : Word) : Operands.Statement (.forceSwitch m v) := by
  simp +contextual [Operands.Statement, Instr.wf, masters, portsOf]
theorem Operands.resync (m : Nat) (v : Word) : Operands.Statement (.resync m v) := by
  simp +contextual [Operands.Statement, Instr.wf, masters, portsOf]
theorem Operands.alarmTest (m : Nat) (v : Word) : Operands.Statement (.alarmTest m v) := by
  simp +contextual [Operands.Statement, Instr.wf, masters, portsOf]
theorem Operands.alarmTestDone : Operands.Statement (.alarmTestDone) := by
  simp +contextual [Operands.Statement, Instr.wf, masters, portsOf]
theorem Operands.alarmRelease (m : Nat) (v : Word) : Operands.Statement (.alarmRelease m v) := by
  simp +contextual [Operands.Statement, Instr.wf, masters, portsOf]
theorem Operands.softwareReset (m : Nat) (v : Word) : Operands.Statement (.softwareReset m v) := by
  simp +contextual [Operands.Statement, Instr.wf, masters, portsOf]
theorem Operands.unlock (m : Nat) (v : Word) : Operands.Statement (.unlock m v) := by
  simp +contextual [Operands.Statement, Instr.wf, masters, portsOf]
theorem Operands.unlockTimeout (m : Nat) : Operands.Statement (.unlockTimeout m) := by
  simp +contextual [Operands.Statement, Instr.wf, masters, portsOf]
theorem Operands.sqcClear (m : Nat) (addr : Nat) (v : Word) : Operands.Statement (.sqcClear m addr v) := by
  simp +contextual [Operands.Statement, Instr.wf, masters, portsOf]
theorem Operands.sqcRead (m : Nat) (addr : Nat) : Operands.Statement (.sqcRead m addr) := by
  simp +contextual [Operands.Statement, Instr.wf, masters, portsOf]
theorem Operands.randomRead (m : Nat) : Operands.Statement (.randomRead m) := by
  simp +contextual [Operands.Statement, Instr.wf, masters, portsOf]
theorem Operands.counterCapture (m : Nat) (v : Word) : Operands.Statement (.counterCapture m v) := by
  simp +contextual [Operands.Statement, Instr.wf, masters, portsOf]
theorem Operands.pcCfgWrite (m : Nat) (k : Nat) (v : Word) : Operands.Statement (.pcCfgWrite m k v) := by
  simp +contextual [Operands.Statement, Instr.wf, masters, portsOf]
theorem Operands.pcValWrite (m : Nat) (k : Nat) (v : Word) : Operands.Statement (.pcValWrite m k v) := by
  simp +contextual [Operands.Statement, Instr.wf, masters, portsOf]
theorem Operands.dumpModeWrite (m : Nat) (r : DumpReg) (v : Word) : Operands.Statement (.dumpModeWrite m r v) := by
  simp +contextual [Operands.Statement, Instr.wf, masters, portsOf]
theorem Operands.frerReset (m : Nat) (pipe : Nat) (v : Word) : Operands.Statement (.frerReset m pipe v) := by
  simp +contextual [Operands.Statement, Instr.wf, masters, portsOf]
theorem Operands.scrubFast (m : Nat) (v : Word) : Operands.Statement (.scrubFast m v) := by
  simp +contextual [Operands.Statement, Instr.wf, masters, portsOf]
theorem Operands.shaperEnable (m : Nat) (sh : ShaperRef) (v : Word) : Operands.Statement (.shaperEnable m sh v) := by
  simp +contextual [Operands.Statement, Instr.wf, masters, portsOf]
theorem Operands.accTableWrite (m : Nat) (t : Nat) (e : Nat) (v : Word) : Operands.Statement (.accTableWrite m t e v) := by
  simp +contextual [Operands.Statement, Instr.wf, masters, portsOf]
theorem Operands.ringEnable (m : Nat) (r : Nat) (v : Word) : Operands.Statement (.ringEnable m r v) := by
  simp +contextual [Operands.Statement, Instr.wf, masters, portsOf]
theorem Operands.ringDisable (m : Nat) (r : Nat) (v : Word) : Operands.Statement (.ringDisable m r v) := by
  simp +contextual [Operands.Statement, Instr.wf, masters, portsOf]
theorem Operands.doorbell (m : Nat) (r : Nat) (part : DoorbellPart) (v : BitVec 64) : Operands.Statement (.doorbell m r part v) := by
  simp +contextual [Operands.Statement, Instr.wf, masters, portsOf]
theorem Operands.poll (r : Nat) (readErr : Bool) : Operands.Statement (.poll r readErr) := by
  simp +contextual [Operands.Statement, Instr.wf, masters, portsOf]
theorem Operands.modTimeExpiry (r : Nat) : Operands.Statement (.modTimeExpiry r) := by
  simp +contextual [Operands.Statement, Instr.wf, masters, portsOf]
theorem Operands.channelEnable (m : Nat) (c : Nat) (v : Word) : Operands.Statement (.channelEnable m c v) := by
  simp +contextual [Operands.Statement, Instr.wf, masters, portsOf]
theorem Operands.channelDisable (m : Nat) (c : Nat) (v : Word) : Operands.Statement (.channelDisable m c v) := by
  simp +contextual [Operands.Statement, Instr.wf, masters, portsOf]
theorem Operands.restart (m : Nat) (c : Nat) (v : Word) : Operands.Statement (.restart m c v) := by
  simp +contextual [Operands.Statement, Instr.wf, masters, portsOf]
theorem Operands.dmaDoorbell (m : Nat) (c : Nat) (part : DoorbellPart) (v : BitVec 64) : Operands.Statement (.dmaDoorbell m c part v) := by
  simp +contextual [Operands.Statement, Instr.wf, masters, portsOf]
theorem Operands.dmaDescriptor (c : Nat) (readErr : Bool) : Operands.Statement (.dmaDescriptor c readErr) := by
  simp +contextual [Operands.Statement, Instr.wf, masters, portsOf]
theorem Operands.beatAnswer (c : Nat) (a : BeatAnswer) : Operands.Statement (.beatAnswer c a) := by
  simp +contextual [Operands.Statement, Instr.wf, masters, portsOf]
theorem Operands.registerWrite (m : Nat) (addr : Nat) (size : Nat) (v : BitVec 64) : Operands.Statement (.registerWrite m addr size v) := by
  simp +contextual [Operands.Statement, Instr.wf, masters, portsOf]
theorem Operands.frameReceive (p : Nat) (head : List Byte) : Operands.Statement (.frameReceive p head) := by
  simp +contextual [Operands.Statement, Instr.wf, masters, portsOf]
theorem Operands.skidBufferSend (p : Nat) : Operands.Statement (.skidBufferSend p) := by
  simp +contextual [Operands.Statement, Instr.wf, masters, portsOf]
theorem Operands.frameRxEnd (p : Nat) (rest : List Byte) (fcsGood : Bool) (e : RxEnd) : Operands.Statement (.frameRxEnd p rest fcsGood e) := by
  simp +contextual [Operands.Statement, Instr.wf, masters, portsOf]
theorem Operands.flowControlReceive (p : Nat) (bytes : List Byte) (fcsGood : Bool) : Operands.Statement (.flowControlReceive p bytes fcsGood) := by
  simp +contextual [Operands.Statement, Instr.wf, masters, portsOf]
theorem Operands.pauseTimerExpiry (p : Nat) (i : Nat) : Operands.Statement (.pauseTimerExpiry p i) := by
  simp +contextual [Operands.Statement, Instr.wf, masters, portsOf]
theorem Operands.pauseWdBreak (p : Nat) (i : Nat) : Operands.Statement (.pauseWdBreak p i) := by
  simp +contextual [Operands.Statement, Instr.wf, masters, portsOf]
theorem Operands.wdRecoveryEnd (p : Nat) (i : Nat) : Operands.Statement (.wdRecoveryEnd p i) := by
  simp +contextual [Operands.Statement, Instr.wf, masters, portsOf]
theorem Operands.backPressureAssert (p : Nat) (i : Nat) : Operands.Statement (.backPressureAssert p i) := by
  simp +contextual [Operands.Statement, Instr.wf, masters, portsOf]
theorem Operands.backPressureRelease (p : Nat) (i : Nat) : Operands.Statement (.backPressureRelease p i) := by
  simp +contextual [Operands.Statement, Instr.wf, masters, portsOf]
theorem Operands.fcRefresh (p : Nat) (i : Nat) : Operands.Statement (.fcRefresh p i) := by
  simp +contextual [Operands.Statement, Instr.wf, masters, portsOf]
theorem Operands.fcFrameSend (p : Nat) : Operands.Statement (.fcFrameSend p) := by
  simp +contextual [Operands.Statement, Instr.wf, masters, portsOf]
theorem Operands.verifyTimer (p : Nat) : Operands.Statement (.verifyTimer p) := by
  simp +contextual [Operands.Statement, Instr.wf, masters, portsOf]
theorem Operands.lpiEntry (p : Nat) : Operands.Statement (.lpiEntry p) := by
  simp +contextual [Operands.Statement, Instr.wf, masters, portsOf]
theorem Operands.wakeDetect (mac : Nat) (lane : Nat) : Operands.Statement (.wakeDetect mac lane) := by
  simp +contextual [Operands.Statement, Instr.wf, masters, portsOf]
theorem Operands.linkUp (p : Nat) : Operands.Statement (.linkUp p) := by
  simp +contextual [Operands.Statement, Instr.wf, masters, portsOf]
theorem Operands.linkDown (p : Nat) : Operands.Statement (.linkDown p) := by
  simp +contextual [Operands.Statement, Instr.wf, masters, portsOf]
theorem Operands.anFail (p : Nat) : Operands.Statement (.anFail p) := by
  simp +contextual [Operands.Statement, Instr.wf, masters, portsOf]
theorem Operands.refClockLoss (k : Nat) : Operands.Statement (.refClockLoss k) := by
  simp +contextual [Operands.Statement, Instr.wf, masters, portsOf]
theorem Operands.refClockRelock (k : Nat) : Operands.Statement (.refClockRelock k) := by
  simp +contextual [Operands.Statement, Instr.wf, masters, portsOf]
theorem Operands.flitError (l : LinkRef) : Operands.Statement (.flitError l) := by
  simp +contextual [Operands.Statement, Instr.wf, masters, portsOf]
theorem Operands.headerResolve (h : HeaderTake) : Operands.Statement (.headerResolve h) := by
  simp +contextual [Operands.Statement, Instr.wf, masters, portsOf]
theorem Operands.copyEnqueue (n : Nat) : Operands.Statement (.copyEnqueue n) := by
  simp +contextual [Operands.Statement, Instr.wf, masters, portsOf]
theorem Operands.mirrorBuild : Operands.Statement (.mirrorBuild) := by
  simp +contextual [Operands.Statement, Instr.wf, masters, portsOf]
theorem Operands.selection (p : Nat) : Operands.Statement (.selection p) := by
  simp +contextual [Operands.Statement, Instr.wf, masters, portsOf]
theorem Operands.frameStart (p : Nat) : Operands.Statement (.frameStart p) := by
  simp +contextual [Operands.Statement, Instr.wf, masters, portsOf]
theorem Operands.transmitEnd (p : Nat) : Operands.Statement (.transmitEnd p) := by
  simp +contextual [Operands.Statement, Instr.wf, masters, portsOf]
theorem Operands.cpuRxDelivery : Operands.Statement (.cpuRxDelivery) := by
  simp +contextual [Operands.Statement, Instr.wf, masters, portsOf]
theorem Operands.cpuTx (r : Nat) (readErr : Bool) : Operands.Statement (.cpuTx r readErr) := by
  simp +contextual [Operands.Statement, Instr.wf, masters, portsOf]
theorem Operands.ageHeadScan (x : Nat) : Operands.Statement (.ageHeadScan x) := by
  simp +contextual [Operands.Statement, Instr.wf, masters, portsOf]
theorem Operands.prefetchRead (r : HbmRead) : Operands.Statement (.prefetchRead r) := by
  simp +contextual [Operands.Statement, Instr.wf, masters, portsOf]
theorem Operands.scrub (t : ScrubFinding) : Operands.Statement (.scrub t) := by
  simp +contextual [Operands.Statement, Instr.wf, masters, portsOf]
theorem Operands.learnGrant : Operands.Statement (.learnGrant) := by
  simp +contextual [Operands.Statement, Instr.wf, masters, portsOf]
theorem Operands.learn (n : Nat) : Operands.Statement (.learn n) := by
  simp +contextual [Operands.Statement, Instr.wf, masters, portsOf]
theorem Operands.refresh (n : Nat) : Operands.Statement (.refresh n) := by
  simp +contextual [Operands.Statement, Instr.wf, masters, portsOf]
theorem Operands.sweep (n : Nat) : Operands.Statement (.sweep n) := by
  simp +contextual [Operands.Statement, Instr.wf, masters, portsOf]
theorem Operands.sweepIssue : Operands.Statement (.sweepIssue) := by
  simp +contextual [Operands.Statement, Instr.wf, masters, portsOf]
theorem Operands.epoch (n : Nat) : Operands.Statement (.epoch n) := by
  simp +contextual [Operands.Statement, Instr.wf, masters, portsOf]
theorem Operands.epochIssue : Operands.Statement (.epochIssue) := by
  simp +contextual [Operands.Statement, Instr.wf, masters, portsOf]
theorem Operands.flush (n : Nat) : Operands.Statement (.flush n) := by
  simp +contextual [Operands.Statement, Instr.wf, masters, portsOf]
theorem Operands.flushPassEnd (n : Nat) : Operands.Statement (.flushPassEnd n) := by
  simp +contextual [Operands.Statement, Instr.wf, masters, portsOf]
theorem Operands.staticAdd (n : Nat) : Operands.Statement (.staticAdd n) := by
  simp +contextual [Operands.Statement, Instr.wf, masters, portsOf]
theorem Operands.staticMask (n : Nat) : Operands.Statement (.staticMask n) := by
  simp +contextual [Operands.Statement, Instr.wf, masters, portsOf]
theorem Operands.staticDel (n : Nat) : Operands.Statement (.staticDel n) := by
  simp +contextual [Operands.Statement, Instr.wf, masters, portsOf]
theorem Operands.tableCheck (t : TableRef) : Operands.Statement (.tableCheck t) := by
  simp +contextual [Operands.Statement, Instr.wf, masters, portsOf]
theorem Operands.tcamCheck (g : Nat) : Operands.Statement (.tcamCheck g) := by
  simp +contextual [Operands.Statement, Instr.wf, masters, portsOf]
theorem Operands.drainEnd : Operands.Statement (.drainEnd) := by
  simp +contextual [Operands.Statement, Instr.wf, masters, portsOf]
theorem Operands.frerResetExpiry (f : Nat) : Operands.Statement (.frerResetExpiry f) := by
  simp +contextual [Operands.Statement, Instr.wf, masters, portsOf]
theorem Operands.latentTest (f : Nat) : Operands.Statement (.latentTest f) := by
  simp +contextual [Operands.Statement, Instr.wf, masters, portsOf]
theorem Operands.slotBoundary : Operands.Statement (.slotBoundary) := by
  simp +contextual [Operands.Statement, Instr.wf, masters, portsOf]
theorem Operands.bankSwitch : Operands.Statement (.bankSwitch) := by
  simp +contextual [Operands.Statement, Instr.wf, masters, portsOf]
theorem Operands.cycleRefEdge : Operands.Statement (.cycleRefEdge) := by
  simp +contextual [Operands.Statement, Instr.wf, masters, portsOf]
theorem Operands.refMissing : Operands.Statement (.refMissing) := by
  simp +contextual [Operands.Statement, Instr.wf, masters, portsOf]
theorem Operands.checkpoint : Operands.Statement (.checkpoint) := by
  simp +contextual [Operands.Statement, Instr.wf, masters, portsOf]
theorem Operands.checkpointCommit (a : CkptArrival) : Operands.Statement (.checkpointCommit a) := by
  simp +contextual [Operands.Statement, Instr.wf, masters, portsOf]
theorem Operands.keystoneFault (u : Unit2) (cause : KeyCause) : Operands.Statement (.keystoneFault u cause) := by
  simp +contextual [Operands.Statement, Instr.wf, masters, portsOf]
theorem Operands.deferredInputServe : Operands.Statement (.deferredInputServe) := by
  simp +contextual [Operands.Statement, Instr.wf, masters, portsOf]
theorem Operands.selfTestEnd (u : Unit2) (pass : Bool) : Operands.Statement (.selfTestEnd u pass) := by
  simp +contextual [Operands.Statement, Instr.wf, masters, portsOf]
theorem Operands.fullCopyCommit : Operands.Statement (.fullCopyCommit) := by
  simp +contextual [Operands.Statement, Instr.wf, masters, portsOf]
theorem Operands.faultReport (r : FaultReport) : Operands.Statement (.faultReport r) := by
  simp +contextual [Operands.Statement, Instr.wf, masters, portsOf]
theorem Operands.backstopFired : Operands.Statement (.backstopFired) := by
  simp +contextual [Operands.Statement, Instr.wf, masters, portsOf]
theorem Operands.channelDisagree : Operands.Statement (.channelDisagree) := by
  simp +contextual [Operands.Statement, Instr.wf, masters, portsOf]
theorem Operands.tmrVote : Operands.Statement (.tmrVote) := by
  simp +contextual [Operands.Statement, Instr.wf, masters, portsOf]
theorem Operands.tempSample (t : BitVec 16) : Operands.Statement (.tempSample t) := by
  simp +contextual [Operands.Statement, Instr.wf, masters, portsOf]
theorem Operands.leaveTimeout : Operands.Statement (.leaveTimeout) := by
  simp +contextual [Operands.Statement, Instr.wf, masters, portsOf]
theorem Operands.leaveReturn (q : LeaveReturn) : Operands.Statement (.leaveReturn q) := by
  simp +contextual [Operands.Statement, Instr.wf, masters, portsOf]
theorem Operands.domainPowerUpDone (dom : Nat) (pass : Bool) : Operands.Statement (.domainPowerUpDone dom pass) := by
  simp +contextual [Operands.Statement, Instr.wf, masters, portsOf]
theorem Operands.hbmTrainingDone (stack : Nat) : Operands.Statement (.hbmTrainingDone stack) := by
  simp +contextual [Operands.Statement, Instr.wf, masters, portsOf]
theorem Operands.pwronRstN : Operands.Statement (.pwronRstN) := by
  simp +contextual [Operands.Statement, Instr.wf, masters, portsOf]
theorem Operands.sysRstN : Operands.Statement (.sysRstN) := by
  simp +contextual [Operands.Statement, Instr.wf, masters, portsOf]
theorem Operands.parkDrainEnd : Operands.Statement (.parkDrainEnd) := by
  simp +contextual [Operands.Statement, Instr.wf, masters, portsOf]
theorem Operands.plumbStep : Operands.Statement (.plumbStep) := by
  simp +contextual [Operands.Statement, Instr.wf, masters, portsOf]
theorem Operands.plumbStepEnd (fails : List NetFail) (usec : Nat) : Operands.Statement (.plumbStepEnd fails usec) := by
  simp +contextual [Operands.Statement, Instr.wf, masters, portsOf]
theorem Operands.flr (f : Nat) : Operands.Statement (.flr f) := by
  simp +contextual [Operands.Statement, Instr.wf, masters, portsOf]
theorem Operands.hotReset : Operands.Statement (.hotReset) := by
  simp +contextual [Operands.Statement, Instr.wf, masters, portsOf]
theorem Operands.periodicLatch : Operands.Statement (.periodicLatch) := by
  simp +contextual [Operands.Statement, Instr.wf, masters, portsOf]
theorem Operands.dumpRecordWrite : Operands.Statement (.dumpRecordWrite) := by
  simp +contextual [Operands.Statement, Instr.wf, masters, portsOf]
theorem Operands.attestCreditReturn : Operands.Statement (.attestCreditReturn) := by
  simp +contextual [Operands.Statement, Instr.wf, masters, portsOf]
theorem Operands.rngFail : Operands.Statement (.rngFail) := by
  simp +contextual [Operands.Statement, Instr.wf, masters, portsOf]
theorem Operands.rngReady : Operands.Statement (.rngReady) := by
  simp +contextual [Operands.Statement, Instr.wf, masters, portsOf]
theorem Operands.ledStream : Operands.Statement (.ledStream) := by
  simp +contextual [Operands.Statement, Instr.wf, masters, portsOf]
theorem Operands.registerRead (m : Nat) (addr : Nat) (size : Nat) : Operands.Statement (.registerRead m addr size) := by
  simp +contextual [Operands.Statement, Instr.wf, masters, portsOf]
theorem Operands.pwronRstNRelease (straps : BitVec 16) : Operands.Statement (.pwronRstNRelease straps) := by
  simp +contextual [Operands.Statement, Instr.wf, masters, portsOf]
theorem Operands.hostLinkUp (speed : Nat) (width : Nat) : Operands.Statement (.hostLinkUp speed width) := by
  simp +contextual [Operands.Statement, Instr.wf, masters, portsOf]
theorem Operands.keystoneSelfTestTimeout (u : Unit2) : Operands.Statement (.keystoneSelfTestTimeout u) := by
  simp +contextual [Operands.Statement, Instr.wf, masters, portsOf]
theorem Operands.mpacketReceive (p : Nat) (k : MPacket) : Operands.Statement (.mpacketReceive p k) := by
  simp +contextual [Operands.Statement, Instr.wf, masters, portsOf]
theorem Operands.dmaBeatIssue : Operands.Statement (.dmaBeatIssue) := by
  simp +contextual [Operands.Statement, Instr.wf, masters, portsOf]
theorem Operands.anDone (p : Nat) (ability : Nat) (fec : FecPage) (eee : Bool) : Operands.Statement (.anDone p ability fec eee) := by
  simp +contextual [Operands.Statement, Instr.wf, masters, portsOf]
theorem Operands.time10mInMeasure (offset : Int) (inRange : Bool) : Operands.Statement (.time10mInMeasure offset inRange) := by
  simp +contextual [Operands.Statement, Instr.wf, masters, portsOf]
theorem Operands.pcOverflow (k : Nat) : Operands.Statement (.pcOverflow k) := by
  simp +contextual [Operands.Statement, Instr.wf, masters, portsOf]
theorem Operands.rxLpi (p : Nat) (enter : Bool) : Operands.Statement (.rxLpi p enter) := by
  simp +contextual [Operands.Statement, Instr.wf, masters, portsOf]

end Sys2Proof.Laws
end

