-- ==== Sys2Proof/Laws/Runs.lean ====
section
/-! SUPPORT. Every command's outcome is a run (Machine/Leave.lean): its own effect, and what follows from it; PWRON_RST_N needs no
clock. -/

namespace Sys2Proof.Machine

set_option Elab.async false

/-- Every command but PWRON_RST_N runs some effect. -/
theorem exec_runs (c : Instr) (s : State) (h : c ≠ .pwronRstN) : ∃ f : State → State, exec c s = run f s := by
  cases c <;> simp only [exec,
    execAccTableWrite, execActivate, execAgeHeadScan, execAlarmRelease, execAlarmTest, execAlarmTestDone, execAnDone, execAnFail,
    execApply, execApplyDone, execAttest, execAttestCreditReturn, execBackPressureAssert, execBackPressureRelease,
    execBackstopFired, execBankSwitch, execBeatAnswer, execCancelActivate, execChannelDisable, execChannelDisagree,
    execChannelEnable, execCheckpoint, execCheckpointCommit, execCloseInterface, execCopyEnqueue, execCounterCapture,
    execCounterSnapshot, execCpuRxDelivery, execCpuTx, execCycleRefEdge, execDeferredInputServe, execDmaBeatIssue,
    execDmaDescriptor, execDmaDoorbell, execDomainPowerUpDone, execDoorbell, execDrainEnd, execDumpModeWrite, execDumpRecordWrite,
    execEphActivateCancel, execEphActivateGo, execEpoch, execEpochIssue, execFaultReport, execFcFrameSend, execFcRefresh,
    execFlitError, execFlowControlReceive, execFlr, execFlush, execFlushPassEnd, execForceSwitch, execFrameReceive,
    execFrameRxEnd, execFrameStart, execFrerReset, execFrerResetExpiry, execFullCopyCommit, execFwUpdate, execGetState,
    execHbmRelocationDone, execHbmRetire, execHbmTrainingDone, execHeaderResolve, execHold, execHoldRelease, execHoldoverTimeout,
    execHostLinkUp, execHotReset, execKeystoneFault, execKeystoneSelfTestTimeout, execLatentTest, execLearn, execLearnGrant,
    execLeaveReturn, execLeaveTimeout, execLedStream, execLinkDown, execLinkUp, execLoadAshlar, execLoadEphemeris, execLpiEntry,
    execMirrorBuild, execModTimeExpiry, execMpacketReceive, execNop, execOffsetSubmit, execOpenInterface, execPark,
    execParkDrainEnd, execPatchAshlar, execPauseTimerExpiry, execPauseWdBreak, execPcCfgWrite, execPcOverflow, execPcValWrite,
    execPeriodicLatch, execPlumbGroup, execPlumbStep, execPlumbStepEnd, execPoll, execPoolApply, execPowerDomain, execPpsInEdge,
    execPpsInMissing, execPpsOutEdge, execPrefetchRead, execPwronRstNRelease, execRandomRead, execRateBaseWrite,
    execReadFaultRecord, execReadLog, execRefClockLoss, execRefClockRelock, execRefMissing, execRefresh, execRegisterRead,
    execRegisterWrite, execRestart, execResync, execRingDisable, execRingEnable, execRngFail, execRngReady, execRunBundle,
    execRxLpi, execScrub, execScrubFast, execSelection, execSelfTestEnd, execServoDisable, execServoEnable, execSetPowerBudget,
    execShaperEnable, execSkidBufferSend, execSlotBoundary, execSoftwareReset, execSqcClear, execSqcRead, execStaticAdd,
    execStaticDel, execStaticMask, execSweep, execSweepIssue, execSysRstN, execTableCheck, execTableFlush, execTableRead,
    execTcamCheck, execTempSample, execTime10mInMeasure, execTimeCapture, execTimeSet, execTimeSetEffect, execTmrVote,
    execTransmitEnd, execUnlock, execUnlockTimeout, execVerifyTimer, execWakeDetect, execWdRecoveryEnd] <;> first | exact ⟨_, rfl⟩ | exact absurd rfl h

end Sys2Proof.Machine
end

