-- ==== Sys2Proof/Tests/Slice0.lean ====
section
/-! SUPPORT. Tests: small facts whose expected values the manual gives, and for every statement with hypotheses a state and
operands that meet them. -/

namespace Sys2Proof.Tests

open Sys2Proof.Machine

set_option Elab.async false

/-- A device past its boot: every domain on, Keystone A active and B synced, nothing loaded. -/
def lit : State :=
  let s : State := { State.reset with dev := .config, pwr := { State.reset.pwr with phase := .none } }
  (((s.setReg Addr.PWR_DOMAIN_ON_LO 0xFFFFFFFF).setReg Addr.PWR_DOMAIN_ON_HI 0x3F).setUnit .a 4).setUnit .b 3

/-- Master 0 is armed. -/
def armed : State := lit.setArmed 0 true

/-- The word that sets one bit field. -/
def bitOf (f : Fld) : Word := BitVec.ofNat 32 (2 ^ f.lo)

/-- Ring `r` runs with 16 entries, the host's doorbell at `tail`. -/
def runRing (s : State) (r tail : Nat) : State :=
  ((((s.setF (F.HIF_RING_CFG_log2_size r) 4).setF (F.HIF_RING_CFG_enable r) 1).setF (F.HIF_RING_STATUS_state r) 1).setF
    (F.HIF_RING_TAIL_tail r) tail).setReg (Addr.HIF_RING_BASE_LO r) (BitVec.ofNat 32 (0x100000 + 0x1000 * r))

/-! ### Ports -/

/-- Macro 127 runs one port, P508, whose link is down. -/
def dark : State := lit.setMac 127 { MacroRun.init with mode := 1 }

/-- The same with its link up. -/
def linked : State := dark.setF (F.PORT_LINK_STATUS_link_up 127 0) 1

theorem wit_PortApply :
    let t := lit.stored 0 (Addr.PORT_APPLY 127) 1
    lit.admits 0 (Addr.PORT_APPLY 127) 1 = true ∧ t.applyCheck 127 = 1 ∧ t.applySet 127 = [127]
      ∧ (t.affected 127).all (fun i => !t.portExists (4 * 127 + i)) = true
      ∧ (List.range 4).all (fun i => !(t.port (4 * 127 + i)).downFault) = true := by decide +kernel

/-- An apply is in progress. -/
def applying : State := lit.setF (F.PORT_APPLY_STATUS_apply_status 127) 1

theorem wit_PortApply_others :
    let s := lit.setDomain 16 false
    applying.calm = true ∧ applying.admits 0 (Addr.PORT_APPLY 127) 1 = true
      ∧ (applying.stored 0 (Addr.PORT_APPLY 127) 1).getF (F.PORT_APPLY_STATUS_apply_status 127) = 1
      ∧ s.calm = true ∧ s.admits 0 (Addr.PORT_APPLY 127) 1 = true ∧ (s.stored 0 (Addr.PORT_APPLY 127) 1).applyCheck 127 = 5 := by
  decide +kernel

theorem wit_PortLinkUpAndDown :
    dark.calm = true ∧ dark.portExists 508 = true ∧ dark.domainOn 16 = true ∧ dark.linkUp 508 = false
      ∧ (dark.port 508).downFault = false ∧ 3 ∉ dark.refLost ∧ dark.key.log.length < 767 ∧ dark.anOn 508 = false ∧ dark.ephOn = false ∧ linked.portExists 508 = true
      ∧ linked.linkUp 508 = true := by decide +kernel

/-- The port negotiates: an_enable is set and technology 0 offered. -/
def offering : State := lit.setMac 127 { mode := 1, lanes := [4, 0xA0, 0x140, 0x1E0], subs := [0x10004, 0, 0, 0] }

/-- A partner's page that asks for no FEC. -/
def page : FecPage := ⟨false, false, false, false⟩

/-- The port negotiates by Clause 37. -/
def offering37 : State := lit.setMac 127 { mode := 1, lanes := [4, 0xA0, 0x140, 0x1E0], subs := [4, 0, 0, 0] }

theorem wit_PortAutoNegotiation :
    offering.calm = true ∧ offering.portExists 508 = true ∧ offering.anOn 508 = true ∧ offering.domainOn 16 = true
      ∧ offering.clause37 508 = false ∧ offering.ephOn = false ∧ techOrder = techOrder.take 10 ++ 0 :: []
      ∧ (techOrder.take 10).all (fun t => !(bitAt (fldOf (offering.subCfg 508) 16 11) t && bitAt 1 t)) = true
      ∧ (bitAt (fldOf (offering.subCfg 508) 16 11) 0 && bitAt 1 0) = true
      ∧ techFec 0 (fldOf (offering.subCfg 508) 0 2) page ∈ fecAllowed (offering.mac 127).mode ((offering.mac 127).lane 0) 0
      ∧ techOrder.all (fun t => !(bitAt (fldOf (offering.subCfg 508) 16 11) t && bitAt 2 t)) = true
      ∧ offering.linkUp 508 = false ∧ offering37.calm = true ∧ offering37.portExists 508 = true ∧ offering37.anOn 508 = true
      ∧ offering37.domainOn 16 = true ∧ offering37.clause37 508 = true := by decide +kernel

/-- The link is up and PAUSE frames are acted on. -/
def pausing : State := (linked.setF (F.PORT_MAC_CFG_rx_en 127 0) 1).setF (F.PORT_MAC_CFG_pause_mode 127 0) 1

/-- A PAUSE frame of 16 quanta to the reserved address. -/
def pauseFrame : List Byte := [1, 0x80, 0xC2, 0, 0, 1, 2, 0, 0, 0, 0, 1, 0x88, 0x08, 0, 1, 0, 16] ++ List.replicate 46 0

theorem wit_PortPauseAndWatchdog :
    pausing.calm = true ∧ pausing.portUp 508 = true ∧ pausing.getB (F.PORT_MAC_CFG_rx_en 127 0) = true ∧ pauseFrame.length = 64
      ∧ 64 ≤ pausing.getF (F.PORT_MAC_CFG_max_frame 127 0) ∧ be16 pauseFrame 12 = 0x8808 ∧ beAt pauseFrame 0 6 = 0x0180C2000001
      ∧ be16 pauseFrame 14 = 1 ∧ be16 pauseFrame 16 = 16 ∧ pausing.getF (F.PORT_MAC_CFG_pause_mode 127 0) = 1
      ∧ (List.range 8).all (fun i => !pausing.recovering 508 i) = true := by decide +kernel

/-- A copy of frame 0. -/
def copyOf0 : Copy :=
  { frame := 0, charge := 0, len := 64, stamp := 0, ce := false, dei := false, edit := ⟨0, 0, 0, 0, 0, 0, 0, 0⟩, mirror := false, cut := false,
    prefetched := false, enq := 0 }

/-- Priority 0 is paused while a frame waits in its queue, and the watchdog is on. -/
def storm : State :=
  let s := (pausing.setF (F.PORT_PAUSE_WD_wd_limit 127 0) 5).setF (F.PORT_MAC_STATUS_rx_paused 127 0) 1
  s.setQueue ((s.maskQueues 508 0).headD 0) { Queue.init with copies := [copyOf0] }

theorem wit_PortPauseAndWatchdog_breaks :
    storm.calm = true ∧ storm.getF (F.PORT_PAUSE_WD_wd_limit 127 0) ≠ 0 ∧ storm.getFBit (F.PORT_MAC_STATUS_rx_paused 127 0) 0 = true
      ∧ (storm.maskQueues 508 0).any (fun x => !(storm.queue x).copies.isEmpty) = true := by decide +kernel

/-- Class 3 of P508 has back-pressure, and its MAC generates PAUSE frames. -/
def pressed : State :=
  let s := pausing.setF (F.PORT_MAC_CFG_fc_gen_en 127 0) 1
  s.setPort 508 { s.port 508 with bp := 8, fcPend := 8 }

/-- Class 3 of P508 has frames charged beyond its XOFF threshold. -/
def crowded : State :=
  let s := pausing.setF (F.BUF_ING_LIMIT_ing_xoff (8 * 508 + 3)) 1
  (s.setPool (s.classPool 3) { s.pool (s.classPool 3) with threshold := true }).chargeMove 508 3 100

/-- P508 has sent 60 bytes of a preemptable frame of 1,000 bytes. -/
def cuttable : State :=
  { pressed with now := pressed.now + 8 }.setPort 508 { pressed.port 508 with tx := some { TxFrame.unbilled [] 1000 with pre := true, frag := 64, done := 0, tx := pressed.now } }

theorem wit_PortBackPressure :
    pressed.calm = true ∧ bitAt (pressed.port 508).bp 3 = true ∧ pressed.bpCond 508 3 = false ∧ pressed.fcGen 508 = true
      ∧ crowded.calm = true ∧ bitAt (crowded.port 508).bp 3 = false ∧ crowded.bpCond 508 3 = true
      ∧ (pressed.port 508).fcPend ≠ 0 ∧ pressed.portUp 508 = true ∧ (pressed.port 508).skid = [] ∧ pressed.fcSlot 508 = true
      ∧ (pressed.port 508).tx = none ∧ cuttable.calm = true ∧ (cuttable.port 508).fcPend ≠ 0 ∧ cuttable.portUp 508 = true
      ∧ (cuttable.port 508).skid = [] ∧ cuttable.fcGen 508 = true ∧ cuttable.fcSlot 508 = true
      ∧ (cuttable.port 508).tx.any (cuttable.canCut 508) = true := by decide +kernel

/-- Verification of P508 runs; it has sent three verify mPackets in the second. -/
def verifying : State :=
  (linked.setF (F.PORT_MAC_CFG_preempt_enable 127 0) 1).setF (F.PORT_MAC_STATUS_verify_status 127 0) 2

/-- See verifying. -/
def verified3 : State := verifying.setPort 508 { verifying.port 508 with verifyTries := 3 }

/-- Low Power Idle is agreed on P508. -/
def sleepy : State :=
  let s := (linked.setF (F.PORT_LINK_STATUS_resolved_tech 127 0) 1).setF (F.PORT_MAC_CFG_eee_enable 127 0) 1
  s.setPort 508 { s.port 508 with eeeAgreed := true }

theorem wit_PortVerificationAndLpi :
    verifying.calm = true ∧ verifying.portUp 508 = true ∧ verifying.getF (F.PORT_MAC_STATUS_verify_status 127 0) = 2
      ∧ verifying.getB (F.PORT_MAC_CFG_preempt_enable 127 0) = true ∧ (verified3.port 508).verifyTries = 3 ∧ sleepy.calm = true
      ∧ sleepy.portUp 508 = true ∧ sleepy.getB (F.PORT_MAC_CFG_eee_enable 127 0) = true ∧ sleepy.lpiAllowed 508 = true
      ∧ sleepy.txIdle 508 = true ∧ sleepy.getB (F.PORT_MAC_STATUS_tx_lpi 127 0) = false
      ∧ (sleepy.port 508).eeeAgreed = true
      ∧ sleepy.getB (F.PORT_MAC_STATUS_rx_lpi 127 0) = false := by decide +kernel

/-- Port group 16 is off, with lane 3 of macro 127 armed: to report, to ask for power, and to ask for it beyond the budget. -/
def armedLane : State := ((lit.setDomain 16 false).setReg (Addr.PORT_WAKE_CFG 127) 0x40).setF (F.PORT_WAKE_CFG_wake_action 127) 0

/-- See armedLane. -/
def askingLane : State := armedLane.setF (F.PORT_WAKE_CFG_wake_action 127) 1

/-- See armedLane. -/
def poorLane : State := askingLane.setF F.PWR_BUDGET_budget 210

/-- Reference 3 is lost. -/
def lostRef : State := { lit with refLost := [3] }

theorem wit_PortWakeReferenceFlitLed :
    let g : Grant := ⟨1, 16, chargeOf lit.part 16⟩
    armedLane.calm = true ∧ armedLane.domainOn 16 = false ∧ bitsOf (armedLane.reg (Addr.PORT_WAKE_CFG 127)).toNat 6 2 ≠ 0
      ∧ armedLane.dev = .config ∧ armedLane.getB (F.PORT_WAKE_CFG_wake_action 127) = false
      ∧ askingLane.calm = true ∧ askingLane.getB (F.PORT_WAKE_CFG_wake_action 127) = true ∧ askingLane.ksBusy = false
      ∧ 16 ∉ askingLane.pwr.rising ∧ askingLane.key.log.length < 767 ∧ askingLane.decideLeave g 0 = .granted
      ∧ poorLane.decideLeave g 0 = .refused 5 ∧ lit.key.log.length < 639 ∧ 3 ∉ lit.refLost ∧ lostRef.calm = true ∧ 3 ∈ lostRef.refLost
      ∧ ((chipletPorts 3).filter lit.portExists).isEmpty = true ∧ ((chipletPorts 3).filter linked.portExists).isEmpty = false
      ∧ lit.dev ≠ .boot ∧ lit.dev ≠ .off ∧ State.reset.dev = .boot := by decide +kernel

/-- The device is OFF and wake_boot is clear. -/
def offLane : State := { armedLane with dev := .off }

theorem wit_WakeInOff :
    offLane.calm = true ∧ offLane.domainOn 16 = false ∧ offLane.getB F.PWR_CTRL_wake_boot = false ∧ State.reset.calm = true := by
  decide +kernel
/-! ### Time and the Ephemeris -/

/-- A time set waits for its 64 core cycles. -/
def setting : State := { lit with trn := { lit.trn with setPending := some (5 * 2 ^ 40) } }

theorem wit_TimeSetAndRate :
    armed.calm = true ∧ armed.admits 0 Addr.TRN_TIME_SET 1 = true ∧ armed.admits 0 Addr.TRN_RATE_BASE_LO 7 = true
      ∧ armed.admits 0 Addr.TRN_RATE_BASE_HI 7 = true ∧ setting.calm = true ∧ 5 * 2 ^ 40 < timeRange ∧ setting.trn.time ≠ 5 * 2 ^ 40
      ∧ setting.ephOn = false ∧ setting.fly.armed = none := by decide +kernel

/-- Every time pin is enabled, and an edge has been seen. -/
def pins : State :=
  let s := ((lit.setF F.TRN_CTRL_pps_in_en 1).setF F.TRN_CTRL_pps_out_en 1).setF F.TRN_CTRL_clk10m_in_en 1
  { s with trn := { s.trn with lastPps := some 0 } }

theorem wit_TimeCaptureAndPins :
    lit.admits 0 Addr.TRN_TIME_CAPTURE 1 = true ∧ pins.calm = true ∧ pins.getB F.TRN_CTRL_pps_in_en = true
      ∧ pins.getB F.TRN_CTRL_source = false ∧ pins.getB F.TRN_CTRL_pps_out_en = true ∧ pins.getB F.TRN_CTRL_clk10m_in_en = true
      ∧ pins.getB F.TRN_CTRL_pps_in_edge = pins.pins.pps
      ∧ pins.turnPps.getB F.TRN_CTRL_pps_in_edge = !pins.turnPps.pins.pps ∧ pins.dev ≠ .off ∧ pins.trn.lastPps.isSome = true
      ∧ ({ pins with trn := { pins.trn with time := 3 * 10 ^ 9 * 2 ^ 40 } } : State).ppsSecond ≠ pins.trn.ppsSec := by
  decide +kernel

/-- The word of TRN.CTRL that enables the servo, and the one that also sets hold. -/
def servoOn : Word := bitOf F.TRN_CTRL_servo_enable

/-- See servoOn. -/
def servoHeld : Word := servoOn ||| bitOf F.TRN_CTRL_hold

/-- The servo tracks; in the second state it is held. -/
def tracking : State := (armed.setF F.TRN_CTRL_servo_enable 1).setKs fun k => { k with servo := .locked }

/-- See tracking. -/
def onHold : State := (tracking.setF F.TRN_CTRL_hold 1).setKs fun k => { k with servo := .holdover, hold := true }

theorem wit_ServoStates :
    armed.admits 0 Addr.TRN_CTRL servoOn = true ∧ armed.ksBusy = false ∧ armed.key.doubleFault = false ∧ armed.key.log.length < 767
      ∧ armed.getB F.TRN_CTRL_servo_enable = false ∧ (armed.stored 0 Addr.TRN_CTRL servoOn).getB F.TRN_CTRL_servo_enable = true
      ∧ (armed.stored 0 Addr.TRN_CTRL servoOn).getB F.TRN_CTRL_hold = false ∧ armed.getB F.TRN_CTRL_hold = false
      ∧ armed.key.ks.servo = .disabled ∧ tracking.calm = true ∧ tracking.admits 0 Addr.TRN_CTRL 0 = true
      ∧ (tracking.stored 0 Addr.TRN_CTRL 0).getB F.TRN_CTRL_servo_enable = false
      ∧ (tracking.stored 0 Addr.TRN_CTRL servoHeld).getB F.TRN_CTRL_servo_enable = tracking.getB F.TRN_CTRL_servo_enable
      ∧ (tracking.stored 0 Addr.TRN_CTRL servoHeld).getB F.TRN_CTRL_hold = true ∧ onHold.getB F.TRN_CTRL_hold = true
      ∧ (onHold.stored 0 Addr.TRN_CTRL servoOn).getB F.TRN_CTRL_servo_enable = onHold.getB F.TRN_CTRL_servo_enable
      ∧ (onHold.stored 0 Addr.TRN_CTRL servoOn).getB F.TRN_CTRL_hold = false := by decide +kernel

/-- The servo takes submitted offsets: a low half of 1,000 waits in TRN.OFFSET_LO. -/
def offered : State :=
  ((tracking.setReg Addr.TRN_OFFSET_LO 1000).setF F.TRN_FREQ_LIMIT_freq_limit 1000).setF F.SAF_TIME_ALARM_time_alarm_threshold 0

/-- The same in HOLDOVER, hold released; with a clamp at 0; with every offset stepping; with an alarm at one unit of 2^-16 ns. -/
def resumed : State := offered.setKs fun k => { k with servo := .holdover, hold := false }

/-- See resumed. -/
def clamped : State := (offered.setF F.TRN_FREQ_LIMIT_freq_limit 0).setF F.TRN_KI_ki 1

/-- See resumed. -/
def stepper : State := ((offered.setReg Addr.TRN_OFFSET_LO 0x10000).setF F.TRN_CTRL_step_enable 1).setF F.TRN_STEP_THRESHOLD_step_threshold 1

/-- See resumed. -/
def alarming : State := stepper.setF F.SAF_TIME_ALARM_time_alarm_threshold 1

/-- An offset comes while Keystone A restarts. -/
def gapOffer : State := { offered with key := { offered.key with gapEnd := some 96 } }

theorem wit_OffsetMovesTheServo :
    let th := fun (s : State) => signed 48 ((s.reg Addr.TRN_OFFSET_LO).toNat + fldOf (0 : Word) 0 16 * 2 ^ 32)
    offered.calm = true ∧ offered.admits 0 Addr.TRN_OFFSET_HI 0 = true ∧ offered.getB F.TRN_CTRL_source = false ∧ offered.ksBusy = false
      ∧ offered.key.doubleFault = false ∧ offered.key.log.length < 765 ∧ offered.key.ks.servo = .locked ∧ th offered = 1000
      ∧ resumed.calm = true ∧ resumed.admits 0 Addr.TRN_OFFSET_HI 0 = true ∧ resumed.key.ks.servo = .holdover ∧ resumed.key.ks.hold = false
      ∧ clamped.calm = true ∧ clamped.admits 0 Addr.TRN_OFFSET_HI 0 = true
      ∧ clamped.getF F.TRN_FREQ_LIMIT_freq_limit * 2 ^ 32
          < (clamped.key.ks.i + (clamped.getF F.TRN_KI_ki : Nat) * th clamped + (clamped.getF F.TRN_KP_kp : Nat) * th clamped).natAbs
      ∧ stepper.calm = true ∧ stepper.admits 0 Addr.TRN_OFFSET_HI 0 = true ∧ stepper.getB F.TRN_CTRL_step_enable = true
      ∧ stepper.getF F.TRN_STEP_THRESHOLD_step_threshold * 2 ^ 16 = (th stepper).natAbs
      ∧ alarming.calm = true ∧ alarming.admits 0 Addr.TRN_OFFSET_HI 0 = true
      ∧ alarming.getF F.SAF_TIME_ALARM_time_alarm_threshold * 2 ^ 16 = (th alarming).natAbs
      ∧ (offered.setF F.TRN_CTRL_source 1).calm = true ∧ (offered.setF F.TRN_CTRL_source 1).admits 0 Addr.TRN_OFFSET_HI 0 = true
      ∧ (offered.setF F.TRN_CTRL_source 1).getB F.TRN_CTRL_source = true := by decide +kernel

theorem wit_OffsetMovesTheServo_others :
    gapOffer.calm = true ∧ gapOffer.admits 0 Addr.TRN_OFFSET_HI 0 = true ∧ gapOffer.ksBusy = true ∧ gapOffer.key.doubleFault = false
      ∧ gapOffer.getB F.TRN_CTRL_source = false
      ∧ armed.admits 0 Addr.TRN_OFFSET_HI 0 = true ∧ armed.key.ks.servo = .disabled ∧ armed.getB F.TRN_CTRL_source = false
      ∧ onHold.calm = true ∧ onHold.admits 0 Addr.TRN_OFFSET_HI 0 = true ∧ onHold.key.ks.servo = .holdover ∧ onHold.key.ks.hold = true
      ∧ onHold.getB F.TRN_CTRL_source = false := by decide +kernel

/-- holdover_timeout has passed for a servo that tracks, in this core cycle with an offset, and without one. -/
def timedOut : State := { tracking with trn := { tracking.trn with expired := true } }

/-- See timedOut. -/
def justMoved : State := { tracking with trn := { tracking.trn with thetaAt := some tracking.now } }

theorem wit_HoldoverTimeout :
    tracking.calm = true ∧ tracking.key.doubleFault = false ∧ tracking.trn.thetaAt ≠ some tracking.now ∧ justMoved.calm = true
      ∧ justMoved.trn.thetaAt = some justMoved.now ∧ timedOut.trn.expired = true ∧ timedOut.ksBusy = false
      ∧ timedOut.key.doubleFault = false ∧ timedOut.key.ks.servo = .locked := by decide +kernel

/-- A calendar of two slots of 16 and 984 us, bound to TIME (0) or to CYCLE_REF_IN (1). -/
def calendar (bound : Nat) : Blob :=
  let b : Blob := ⟨0xB00, []⟩
  let h := leBytes 4 1000000 ++ leBytes 2 2 ++ [BitVec.ofNat 8 bound, 0] ++ leBytes 4 0 ++ leBytes 4 0 ++ leBytes 4 5000 ++ leBytes 4 1100000
    ++ leBytes 4 500000
  (((b.write 0 (leBytes 4 0x4D485045 ++ leBytes 2 1 ++ leBytes 2 0x200 ++ leBytes 8 7)).write 0x10 h).write 0x200 (leBytes 4 1000)).write 0x680
    (leBytes 4 61500)

theorem test_calendar_passes : ephCheck (calendar 0) 0xB00 = 0 ∧ ephCheck (calendar 1) 0xB00 = 0 := by decide +kernel

/-- It is the active Ephemeris. -/
def running (bound : Nat) : State := { armed with eph := ({ EphBank.empty with valid := true, blob := calendar bound }, .empty) }

/-- Its last slot runs. -/
def lastSlot : State := { running 0 with fly := { (running 0).fly with slot := 1 } }

/-- It is the shadow Ephemeris. -/
def shadowed : State := { armed with eph := (.empty, { EphBank.empty with valid := true, blob := calendar 0 }) }

/-- A switch to it is armed. -/
def aboutTo : State :=
  let a : PendAct := ⟨1, 0, 0, 10 ^ 10, false⟩
  { shadowed.setKs fun k => { k with pend := some a } with fly := { shadowed.fly with armed := some a } }

theorem wit_SlotsAndSwitches :
    (running 0).calm = true ∧ (running 0).ephOn = true ∧ ephRefBound (running 0).cal = false ∧ (running 0).fly.slot = 0
      ∧ ephSlots (running 0).cal = 2 ∧ lastSlot.fly.armed = none ∧ lastSlot.fly.slot = 1 ∧ lastSlot.eph.1.badSlots = []
      ∧ aboutTo.calm = true ∧ aboutTo.fly.armed = some ⟨1, 0, 0, 10 ^ 10, false⟩ ∧ aboutTo.eph.2.valid = true := by decide +kernel

/-- CYCLE_REF_IN is enabled and the calendar bound to it; the second state saw an edge just now, the third is LOCKED on an earlier
one. -/
def edged : State := (running 1).setF F.EPH_CTRL_ref_in_en 1

/-- See edged. -/
def edgedNow : State := edged.setKs fun k => { k with edges := [0] }

/-- See edged. -/
def edgedLocked : State := { edged.setKs fun k => { k with refState := 2 } with fly := { edged.fly with started := true, fromEdge := false } }

theorem wit_CycleReference :
    edged.calm = true ∧ edged.getB F.EPH_CTRL_ref_in_en = true ∧ edged.getB F.EPH_CTRL_ref_edge = edged.pins.ref ∧
      edged.turnRef.getB F.EPH_CTRL_ref_edge = (!edged.turnRef.pins.ref) ∧ edged.ksBusy = false ∧ edged.ephOn = true
      ∧ ephRefBound edged.cal = true ∧ edged.key.doubleFault = false ∧ edged.key.ks.edges = [] ∧ edgedNow.key.ks.edges = [0]
      ∧ (edgedNow.timeNs : Int) - (0 : Nat) < edgedNow.cal.le 0x28 4 ∧ edgedLocked.fly.started = true
      ∧ edgedLocked.key.ks.refState = 2 ∧ edgedLocked.fly.fromEdge = false ∧ edgedLocked.fly.armed = none := by decide +kernel

/-- The word of EPH.ACTIVATE for an armed go that selects the Ephemeris, and for a cancel. -/
def goWord : Word := BitVec.ofNat 32 (2 ^ F.EPH_ACTIVATE_go.lo + 2 ^ F.EPH_ACTIVATE_select.lo)

theorem wit_ActivationByRegister :
    let t := shadowed.stored 0 Addr.EPH_ACTIVATE goWord
    shadowed.calm = true ∧ shadowed.admits 0 Addr.EPH_ACTIVATE goWord = true ∧ shadowed.armed 0 = true ∧ fldOf goWord 0 1 = 1
      ∧ fldOf goWord 3 1 = 0 ∧ shadowed.ksBusy = false ∧ shadowed.dev = .config ∧ t.getF F.EPH_ACTIVATE_select = 1
      ∧ ((t.requestSwitch 1 0).2.1.map PendAct.sel) = some 1 ∧ aboutTo.admits 0 Addr.EPH_ACTIVATE 8 = true
      ∧ aboutTo.armed 0 = true ∧ fldOf (8 : Word) 3 1 = 1 ∧ aboutTo.nsCeil + 1000 ≤ 10 ^ 10 := by decide +kernel

/-! ### Registers and resets -/

/-- The gap ends with the next core cycle; a reset takes effect in it. -/
def gapDone : State := { lit with key := { lit.key with gapEnd := some 1 } }

/-- See gapDone. -/
def resetDue : State := { lit with pwr := { lit.pwr with pendingReset := some (1, 1) } }

/-- A queue of pipeline 7 is being flushed. -/
def flushing : State := lit.setQueue 4000 { Queue.init with flush := [{ frame := 0, charge := 0, len := 64, stamp := 0, ce := false, dei := false, edit := ⟨0, 0, 0, 0, 0, 0, 0, 0⟩, mirror := false, cut := false, prefetched := false, enq := 0 }] }

theorem wit_EmptyQueuePassesACycle :
    lit.pending = [] ∧ lit.calm = true ∧ lit.pwr.phase ≠ .held ∧ lit.key.log.length < 767 ∧ lit.key.gapEnd = none
      ∧ lit.pwr.pendingReset = none
      ∧ lit.clocked.fab.queues.all (fun e => e.2.flush.isEmpty) = true ∧ lit.trn.expired = false
      ∧ lit.ports.all (fun e => e.2.skid.isEmpty && !e.2.holdNow) = true ∧ (List.range 8).all (fun n => decide ((lit.clocked.expandQ n).length < 64)) = true
      ∧ gapDone.pending = [] ∧ gapDone.calm = true ∧ gapDone.pwr.phase ≠ .held ∧ gapDone.key.log.length < 767
      ∧ gapDone.key.gapEnd = some (gapDone.now + 1) ∧ gapDone.pwr.pendingReset = none ∧ gapDone.key.commit.queue = []
      ∧ resetDue.pending = [] ∧ resetDue.calm = true ∧ resetDue.pwr.phase ≠ .held ∧ resetDue.key.log.length < 767
      ∧ resetDue.key.gapEnd = none ∧ resetDue.pwr.pendingReset = some (resetDue.now + 1, 1)
      ∧ SMap.wf (fun _ => Queue.init) flushing.fab.queues = true ∧ (flushing.queue 4000).flush.length = 1
      ∧ (flushing.queue 4000).flush.all (fun c => !flushing.copyInHbm c) = true ∧ flushing.queueUnit 4000 < 9
      ∧ flushing.fab.queues.all (fun e => decide (e.1 = 4000)) = true
      ∧ ({ lit with stopped := true } : State).stopped = true := by decide +kernel

theorem wit_EveryStepKeepsTheInvariant : lit.Inv := by
  refine ⟨rfl, fun h => ?_, fun _ => by decide⟩
  exact absurd h (by decide)

/-- An event is raised; bits of its register were cleared in this core cycle, or in the one before. -/
def raisedNow : State :=
  let s := { lit with now := 1 }.raise F.TRN_EVENT_stepped
  s.setSqc Addr.TRN_EVENT { s.sqcOf Addr.TRN_EVENT with cleared := some (s.now, 1) }

/-- See raisedNow. -/
def raisedLater : State := { raisedNow with now := 2 }

theorem wit_EventsSetBitsAndCount :
    raisedNow.raised = [(Addr.TRN_EVENT, 2 ^ F.TRN_EVENT_stepped.lo)] ∧ quietReg Addr.TRN_EVENT = true
      ∧ raisedNow.domainOn (domainOf Addr.TRN_EVENT) = true ∧ (raisedNow.sqcOf Addr.TRN_EVENT).cleared = some (raisedNow.now, 1)
      ∧ raisedLater.raised = raisedNow.raised ∧ (raisedLater.sqcOf Addr.TRN_EVENT).cleared = some (raisedLater.now - 1, 1) := by decide +kernel

/-- The event ring runs with one free entry, or none, for events of TRN. -/
def eventful (free : Nat) : State := (runRing lit 0x100 free).setF F.HIF_EVENT_MASK_block_mask (2 ^ blockBit Addr.TRN_EVENT)

theorem wit_EventsSetBitsAndCount_posted :
    let s := fun n => (eventful n).raise F.TRN_EVENT_stepped
    let t := fun n => ({ s n with raised := [] } : State).commitReg (Addr.TRN_EVENT, 2 ^ F.TRN_EVENT_stepped.lo)
    (∀ n ∈ [0, 1], (s n).raised = [(Addr.TRN_EVENT, 2 ^ F.TRN_EVENT_stepped.lo)] ∧ ((s n).sqcOf Addr.TRN_EVENT).advanced ≠ some (s n).now
        ∧ (s n).pcOn = [] ∧ (t n).ringRuns 0x100 = true ∧ (t n).getFBit F.HIF_EVENT_MASK_block_mask (blockBit Addr.TRN_EVENT) = true)
      ∧ (Addr.TRN_EVENT < 0x94000 ∨ 0x98000 ≤ Addr.TRN_EVENT) ∧ (t 1).ringAvail 0x100 1 = 1 ∧ (t 0).ringAvail 0x100 1 = 0
      ∧ (t 0).getFBit F.HIF_EVENT_MASK_block_mask 1 = false := by decide +kernel

/-- Counter 0 counts the rises of bit 0 of SAF.CTRL, or its cycles at 1. -/
def counting (mode : Nat) : State :=
  let s := ((lit.setReg Addr.SAF_CTRL 1).setF (F.CNT_PC_CFG_enable 0) 1).setF (F.CNT_PC_CFG_mode 0) mode
  s.setF (F.CNT_PC_CFG_src_word 0) (Addr.SAF_CTRL / 4)

theorem wit_EventsSetBitsAndCount_counted :
    (counting 0).raised = [] ∧ (counting 0).pcHits lit = [0] ∧ ((counting 0).pcCount [0]).raised = []
      ∧ ((counting 0).pcCount [0]).pcHits (counting 0) = []
      ∧ (counting 1).pcMode 1 = [0] ∧ (counting 1).pcBit 0 (counting 1) = true ∧ (counting 0).pcWritten 0 = false
      ∧ (counting 0).ctr (ctrKey 26 0 0) = 0 ∧ (counting 1).pcWritten 0 = false := by decide +kernel

theorem wit_Resets :
    lit.calm = true ∧ lit.pwr.pendingReset = none ∧ lit.pwr.phase ≠ .held ∧ lit.admits 0 Addr.PWR_SW_RESET 0 = true
      ∧ armed.calm = true ∧ armed.admits 0 Addr.PWR_SW_RESET 1 = true ∧ State.reset.calm = true ∧ State.reset.pwr.phase = .held
      ∧ lit.key.ks.servo = .disabled ∧ tracking.key.ks.servo ≠ .disabled := by decide +kernel

theorem wit_RegisterWriteStores :
    storesOnly (canonAddr Addr.SAF_CTRL) = true ∧ storesOnly (canonAddr (Addr.SAF_CTRL + 4)) = true
      ∧ (lit.setArmed 0 true).admits 0 Addr.SAF_CTRL 1 = true
      ∧ ((lit.setArmed 0 true).stored 0 Addr.SAF_CTRL 1).admits 0 (Addr.SAF_CTRL + 4) 0 = true := by decide +kernel

theorem wit_RegisterWriteStores_blocks :
    ∀ a ∈ [Addr.PORT_WAKE_CFG 127, Addr.CNT_DUMP_MASK, Addr.TRN_KP, Addr.EPH_ACT_TIME_NS, Addr.DMA_CH_BASE_LO 15, Addr.BUF_POOL_ONCHIP 7,
        Addr.TM_LEN_PROFILE 3, Addr.HIF_RING_BASE_LO 0x101],
      storesOnly (canonAddr a) = true ∧ armed.admits 0 a 1 = true := by decide +kernel

theorem wit_RegisterWriteRefused_denied :
    storesOnly Addr.SAF_CTRL = true ∧ targetOf Addr.SAF_CTRL = some 10 ∧ lit.permitted 1 Addr.SAF_CTRL 2 = false := by decide +kernel

theorem wit_RegisterWriteRefused_off :
    let s := lit.setDomain 17 false
    let a := Addr.PIPE_CTRL 0
    s.calm = true ∧ storesOnly a = true ∧ (targetOf a).isSome = true ∧ s.permitted 0 a 2 = true ∧ (regDesc (canonAddr a)).isSome = true
      ∧ s.regOn a = false := by decide +kernel

theorem wit_RegisterWriteRefused_key :
    let a := Addr.SAF_CTRL
    lit.permitted 0 a 2 = true ∧ lit.regOn a = true ∧ isSqc (canonAddr a) = false ∧ lit.armed 0 = false
      ∧ (regDesc (canonAddr a)).any (fun d => keyDiffers d 1 ((lit.setArmed 0 false).view (canonAddr a))) = true := by decide +kernel

theorem wit_RegisterReads :
    let a := Addr.SAF_CTRL
    wordsOf (a + 2) 4 = [a, a + 4]
      ∧ (∀ x ∈ wordsOf (a + 2) 4, lit.permitted 0 x 1 = true ∧ (regDesc (canonAddr x)).isSome = true ∧ lit.regOn x = true
        ∧ canonAddr x ≠ Addr.SEC_RANDOM ∧ isSqc (canonAddr x) = false)
      ∧ lit.tmrB ++ lit.tmrC = [] ∧ ((wordsOf a 8).find? fun y => !lit.permitted 1 y 1) = some a
      ∧ wordsOf (Addr.PIPE_CTRL 0) 1 = [Addr.PIPE_CTRL 0] ∧ lit.permitted 0 (Addr.PIPE_CTRL 0) 1 = true
      ∧ (lit.setDomain 17 false).regOn (Addr.PIPE_CTRL 0) = false := by decide +kernel

theorem wit_SequenceClearedRegisters :
    let a := Addr.TRN_EVENT
    lit.permitted 0 a 1 = true ∧ lit.permitted 0 a 2 = true ∧ lit.regOn a = true ∧ isSqc (canonAddr a) = true
      ∧ (regDesc (canonAddr a)).isSome = true ∧ (targetOf a).isSome = true ∧ canonAddr a ≠ Addr.SEC_RANDOM := by decide +kernel

theorem wit_UnlockArmsTheMaster :
    lit.admits 0 Addr.SYS_UNLOCK 0x5AC3 = true ∧ (lit.setArmed 31 true).admits 31 Addr.SYS_UNLOCK 0 = true := by decide +kernel

theorem wit_AccessTableWrites :
    lit.permitted 0 (Addr.ACC_TABLE 151 31) 2 = true ∧ (lit.setArmed 0 true).tableRefused 0 1 5 = false
      ∧ (lit.setArmed 0 true).tableRefused 151 31 0 = true ∧ lit.armed 0 = false ∧ (5 : Word) ≠ lit.reg (Addr.ACC_TABLE 0 1) := by decide +kernel

/-! ### Buffers, counters -/

/-- HBM is in use, without the spare; logical channel 31 is retired. -/
def hbmOn : State :=
  let s := ((lit.setF F.BUF_CTRL_hbm_en 1).setF F.BUF_CTRL_hbm_spare_en 0).setFBit F.BUF_HBM_RETIRED_retired 31 true
  { s with fab := { s.fab with spareWanted := false } }

theorem wit_CellsAvailable :
    lit.fab.spareWanted = lit.getB F.BUF_CTRL_hbm_spare_en ∧ lit.fab.hbmReloc = none ∧ lit.getB F.BUF_CTRL_hbm_en = false
      ∧ hbmOn.fab.spareWanted = hbmOn.getB F.BUF_CTRL_hbm_spare_en ∧ hbmOn.fab.hbmReloc = none ∧ hbmOn.getB F.BUF_CTRL_hbm_en = true
      ∧ hbmOn.part.en = false ∧ hbmOn.hbmAvail = 31 * 4194304 ∧ hbmOn.onchipAvail = 753664 := by decide +kernel

theorem wit_PoolApply :
    let t := lit.stored 0 Addr.BUF_POOL_APPLY 1
    let w : State := { t with fab := { t.fab with spareWanted := t.getB F.BUF_CTRL_hbm_spare_en } }
    lit.admits 0 Addr.BUF_POOL_APPLY 1 = true ∧ w.poolCheck = 1 := by decide +kernel

theorem wit_PoolApply_over :
    let s := lit.setF (F.BUF_POOL_ONCHIP_size_onchip 3) 786433
    s.admits 0 Addr.BUF_POOL_APPLY 1 = true ∧ s.onchipAvail < ((List.range 16).map fun k => s.getF (F.BUF_POOL_ONCHIP_size_onchip k)).sum := by
  decide +kernel

/-- Pool 0 asks for headroom in FAIL_FAST mode, pool 15 for exactly its size in THRESHOLD mode. -/
def headroomBad : State :=
  ((lit.setF (F.BUF_POOL_HEADROOM_headroom 0) 1).setF (F.BUF_POOL_ONCHIP_size_onchip 0) 1).setF (F.BUF_POOL_CFG_mode 0) 0

/-- See headroomBad. -/
def headroomGood : State :=
  ((lit.setF (F.BUF_POOL_HEADROOM_headroom 15) 1).setF (F.BUF_POOL_ONCHIP_size_onchip 15) 1).setF (F.BUF_POOL_CFG_mode 15) 1

theorem wit_PoolApply_fields :
    headroomBad.calm = true ∧ headroomBad.admits 0 Addr.BUF_POOL_APPLY 1 = true ∧ headroomBad.getB (F.BUF_POOL_CFG_mode 0) = false
      ∧ headroomBad.getF (F.BUF_POOL_HEADROOM_headroom 0) = 1
      ∧ ((List.range 16).map fun k => headroomBad.getF (F.BUF_POOL_ONCHIP_size_onchip k)).sum ≤ headroomBad.onchipAvail
      ∧ headroomBad.hbmAvail = 0 ∧ ((List.range 16).map fun k => headroomBad.getF (F.BUF_POOL_HBM_size_hbm k)).sum = 0
      ∧ headroomGood.calm = true ∧ headroomGood.admits 0 Addr.BUF_POOL_APPLY 1 = true
      ∧ (headroomGood.stored 0 Addr.BUF_POOL_APPLY 1).poolCheck = 1 := by decide +kernel

/-- The write of go for channel 30. -/
def retire30 : State := armed.stored 0 Addr.BUF_HBM_RETIRE 0x3E

theorem wit_ChannelRetirement :
    armed.admits 0 Addr.BUF_HBM_RETIRE 0x3E = true ∧ armed.armed 0 = true ∧ armed.part.en = false ∧ armed.fab.hbmReloc = none
      ∧ retire30.getF F.BUF_HBM_RETIRE_channel = 30 ∧ retire30.getFBit F.BUF_HBM_RETIRED_retired 30 = false
      ∧ armed.fab.spareWanted = true ∧ retire30.getB F.BUF_HBM_SPARE_MAP_in_use = false
      ∧ retire30.getFBit F.BUF_HBM_RETIRED_retired 31 = false := by decide +kernel

/-- A channel is being relocated; in the second state one cell of it is in use by a frame. -/
def moving : State := { armed with fab := { armed.fab with hbmReloc := some (30, []) } }

/-- See moving. -/
def movingOne : State :=
  let a := 2 ^ 27 + 30 * 4194304
  let s : State := (armed.setCell a (some ⟨0, true, 0, 1, 0, 0, false, 0⟩)).setFrame 3 (some { armed.newFrame 0 [] 0 with cells := [a] })
  { s with fab := { s.fab with hbmReloc := some (30, [a]) } }

theorem wit_ChannelRetirement_end :
    moving.calm = true ∧ armed.key.log.length < 767 ∧ movingOne.calm = true ∧ movingOne.holders (2 ^ 27 + 30 * 4194304) = [3] ∧ movingOne.key.log.length < 766
      ∧ (movingOne.cell (2 ^ 27 + 30 * 4194304)).isSome = true := by decide +kernel

/-- Staging cell 9 of DMA channel 15. -/
def staged : State :=
  (lit.setCell 9 (some ⟨0, false, 0, 1, 0, 0, false, 0⟩)).setCh 15 { lit.ch 15 with cells := [9] }

theorem wit_Scrubbing :
    lit.cell 5 = none ∧ lit.cell (2 ^ 27 - 1) = none ∧ lit.key.log.length < 767 ∧ staged.calm = true ∧ staged.key.log.length < 767
      ∧ (staged.cell 9).isSome = true ∧ (staged.dma.find? fun d => decide (9 ∈ d.2.cells)).map Prod.fst = some 15
      ∧ (staged.ch 15).cells ≠ [] := by decide +kernel

/-- With one HBM stack off leave is to be had: all domains together charge the whole budget of 760 W. -/
def lean : State := armed.setDomain 27 false

theorem wit_Scrubbing_fast :
    let v := bitOf F.BUF_CTRL_scrub_fast
    let t := lean.stored 0 Addr.BUF_CTRL v
    lean.admits 0 Addr.BUF_CTRL v = true ∧ lean.ksBusy = false ∧ lean.key.log.length < 767 ∧ t.getB F.BUF_CTRL_scrub_fast = true
      ∧ lean.holdsGrant 6 0 = false ∧ lean.key.doubleFault = false ∧ t.permanent + t.transient + 60 ≤ t.budget
      ∧ (lean.stored 0 Addr.BUF_CTRL 0).getB F.BUF_CTRL_scrub_fast = false ∧ lean.key.deferred = [] := by decide +kernel

theorem test_charges_fill_the_budget : lit.permanent = 7600 ∧ lit.budget = 7600 := by decide +kernel

/-- An Ashlar image is active whose FRER section has one generation stream that starts at 7, with one recovery function over it:
hist 8, one member, period 100 ms, threshold 2. -/
def withFrer : State :=
  let sec : Blob := Blob.ofList (leBytes 4 1 ++ leBytes 4 1 ++ List.replicate 56 0 ++ leBytes 2 1 ++ leBytes 2 7 ++ leBytes 4 0
    ++ leBytes 2 1 ++ [8, 1] ++ leBytes 4 0 ++ leBytes 4 0 ++ leBytes 2 100 ++ leBytes 2 2)
  { armed with ash := ({ AshBank.empty with valid := true, secs := [(13, sec)] }, .empty) }

/-- The write of go for entry 0, target generation. -/
def frerGo : Word := BitVec.ofNat 32 (2 ^ 15 + 2 ^ (F.PIPE_FRER_RESET_target 0).lo)

theorem wit_FrerResets :
    let s := withFrer
    s.calm = true ∧ s.admits 0 (Addr.PIPE_FRER_RESET 7) frerGo = true ∧ s.ash.1.valid = true
      ∧ (s.stored 0 (Addr.PIPE_FRER_RESET 7) frerGo).getF (F.PIPE_FRER_RESET_target 0) = 1 ∧ (s.ash.1.stream 0).kind = 1
      ∧ (s.ash.1.stream 0).init = 7 ∧ (s.ash.1.recovery 0).valid = true ∧ s.domainOn (17 + (s.ash.1.recovery 0).home) = true
      ∧ (s.ash.1.recovery 0).period = 100 ∧ (s.ash.1.recovery 0).threshold = 2 ∧ (s.ash.1.recovery 0).streams = [0] := by decide +kernel

theorem wit_FrerResets_scan :
    let s := withFrer.setRec 0 { Recovery.init with takeAny := false, timer := some (withFrer.now + 1), dups := 3, heard := [0] }
    s.calm = true ∧ (s.recState 0).timer = some (s.now + 1) ∧ (s.recState 0).heard = [0] ∧ (s.recState 0).dups = 3
      ∧ (s.ash.1.recovery 0).members = 1 ∧ s.key.log.length < 767 ∧ (withFrer.recState 0).timer = none
      ∧ (withFrer.recState 0).resetAsked = false
      ∧ ({ s with now := s.now + 1 } : State).calm = true ∧ (({ s with now := s.now + 1 } : State).recState 0).timer = some (s.now + 1) := by decide +kernel

theorem wit_ShaperEnable :
    let v := bitOf (F.TM_Q_CFG_shaper_en 4175)
    armed.admits 0 (Addr.TM_Q_CFG 4175) v = true ∧ armed.getB (F.TM_Q_CFG_shaper_en 4175) = false
      ∧ (armed.stored 0 (Addr.TM_Q_CFG 4175) v).getB (F.TM_Q_CFG_shaper_en 4175) = true
      ∧ armed.admits 0 (Addr.TM_Q_CFG 4175) 0 = true ∧ (armed.setF (F.TM_Q_CFG_shaper_en 4175) 1).getB (F.TM_Q_CFG_shaper_en 4175) = true
      ∧ (armed.stored 0 (Addr.TM_Q_CFG 4175) 0).getB (F.TM_Q_CFG_shaper_en 4175) = false := by decide +kernel

theorem wit_ShaperEnable_ports :
    let v := bitOf (F.TM_PORT_CFG_pshaper_en 511)
    let w := bitOf F.TM_CPU_CFG_cpu_shaper_en
    let s := armed.setF F.TM_CPU_CFG_cpu_shaper_en 0
    armed.admits 0 (Addr.TM_PORT_CFG 511) v = true ∧ (armed.stored 0 (Addr.TM_PORT_CFG 511) v).getB (F.TM_PORT_CFG_pshaper_en 511) = true
      ∧ armed.getB (F.TM_PORT_CFG_pshaper_en 511) = false ∧ s.admits 0 Addr.TM_CPU_CFG w = true
      ∧ s.getB F.TM_CPU_CFG_cpu_shaper_en = false ∧ (s.stored 0 Addr.TM_CPU_CFG w).getB F.TM_CPU_CFG_cpu_shaper_en = true := by decide +kernel

theorem wit_CounterRegisters :
    lit.admits 0 Addr.CNT_RD_ADDR 0x100000 = true ∧ armed.admits 0 Addr.CNT_CTRL 1 = true ∧ armed.admits 0 Addr.CNT_DUMP_EVERY_N 8 = true
      ∧ armed.admits 0 Addr.CNT_DUMP_INTERVAL 8 = true ∧ armed.admits 0 (Addr.CNT_PC_CFG 2047) 1 = true
      ∧ armed.admits 0 (Addr.CNT_PC_VAL 2047) 5 = true := by decide +kernel

/-- Counter 2 runs in LEVEL mode at its last value. -/
def wrapping : State :=
  ((lit.setF (F.CNT_PC_CFG_enable 2) 1).setF (F.CNT_PC_CFG_mode 2) 1).setCtr (ctrKey 26 2 0) 0xFFFFFFFF

/-- Counter 2046 chained to 2047, which is at `v`. -/
def chainedAt (v : Nat) : State :=
  ((((lit.setF (F.CNT_PC_CFG_enable 2046) 1).setF (F.CNT_PC_CFG_mode 2046) 1).setF (F.CNT_PC_CFG_chain 2046) 1).setCtr
    (ctrKey 26 2046 0) 0xFFFFFFFF).setCtr (ctrKey 26 2047 0) v

theorem wit_CounterRegisters_wraps :
    wrapping.calm = true ∧ wrapping.domainOn 37 = true ∧ wrapping.pcOn = [2] ∧ wrapping.pcLive 2 = true ∧ wrapping.pcWritten 2 = false
      ∧ wrapping.pcField F.CNT_PC_CFG_mode 2 = 1 ∧ wrapping.pcChain 2 = false ∧ wrapping.pcChained 2 = false
      ∧ wrapping.ctr (ctrKey 26 2 0) = 0xFFFFFFFF
      ∧ ∀ v ∈ [0xFFFFFFFE, 0xFFFFFFFF], (chainedAt v).calm = true ∧ (chainedAt v).domainOn 37 = true ∧ (chainedAt v).pcOn = [2046]
        ∧ (chainedAt v).pcLive 2046 = true ∧ (chainedAt v).pcWritten 2046 = false ∧ (chainedAt v).pcWritten 2047 = false
        ∧ (chainedAt v).pcField F.CNT_PC_CFG_mode 2046 = 1 ∧ (chainedAt v).pcChain 2046 = true
        ∧ (chainedAt v).ctr (ctrKey 26 2046 0) = 0xFFFFFFFF ∧ (chainedAt v).ctr (ctrKey 26 2047 0) = v := by decide +kernel

/-- Snapshots are taken at intervals. -/
def pacing : State := (lit.setF F.CNT_CTRL_dump_mode 2)

theorem wit_Snapshots :
    pacing.calm = true ∧ pacing.periodicDue = true ∧ pacing.snap.busy = false ∧ pacing.ringRuns 0x101 = false
      ∧ ({ pacing with snap := { pacing.snap with busy := true }, now := 9 } : State).periodicDue = true
      ∧ pacing.snap.lastLatch ≠ 9 := by decide +kernel

/-! ### Keystones, safety -/

/-- B is in its self-test while A conducts. -/
def testing : State := lit.setUnit .b 1

/-- Boot waits for the self-tests of both units. -/
def booting : State :=
  let s : State := { lit with dev := .boot, pwr := { lit.pwr with phase := .keystones } }
  (s.setUnit .a 1).setUnit .b 1

theorem wit_SelfTests :
    testing.calm = true ∧ testing.unitState .b = 1 ∧ testing.pwr.phase ≠ .keystones ∧ testing.unitState (other .b) = 4
      ∧ testing.key.doubleFault = false ∧ (testing.setF F.KEY_CTRL_auto_resync 0).getB F.KEY_CTRL_auto_resync = false
      ∧ booting.calm = true ∧ booting.unitState .a = 1 ∧ booting.pwr.phase = .keystones ∧ booting.key.bootDoneA = none
      ∧ booting.key.bootDoneB = none ∧ booting.pwr.fails = []
      ∧ (testing.setF F.KEY_CTRL_auto_resync 0).calm = true ∧ (testing.setF F.KEY_CTRL_auto_resync 0).unitState .b = 1 := by
  decide +kernel

/-- A checkpoint of 64 bytes is on its way. -/
def sending : State := { lit with key := { lit.key with inFlight := some ⟨64, 0, lit.key.ks⟩ } }

/-- The full copy of B is under way. -/
def copying : State :=
  let s : State := { lit with key := { lit.key with fullCopy := some .b } }
  s.setUnit .b 2

/-- B has its full copy, and the first checkpoint after it is on its way. -/
def firstOne : State :=
  let s : State := { sending with key := { sending.key with firstCkpt := true } }
  s.setUnit .b 2

theorem wit_Checkpoints :
    lit.activeUnit = some .a ∧ lit.unitState (other .a) = 3 ∧ lit.ksBusy = false ∧ lit.ephOn = false ∧ lit.key.inFlight = none
      ∧ sending.activeUnit = some .a ∧ sending.key.firstCkpt = false ∧ copying.calm = true ∧ copying.unitState .b = 2
      ∧ copying.key.firstCkpt = false ∧ copying.key.fullCopy = some .b ∧ sending.calm = true ∧ firstOne.calm = true
      ∧ firstOne.activeUnit = some .a ∧ firstOne.key.firstCkpt = true ∧ firstOne.unitState (other .a) = 2 := by decide +kernel

theorem wit_KeystoneFaults :
    causeCode .stateEcc < 7 ∧ lit.unitState .a = 4 ∧ lit.unitState (other .a) = 3 ∧ lit.unitState (other .b) = 4
      ∧ (lit.setF F.KEY_CTRL_auto_resync 0).unitState .b = 3 ∧ (lit.setF F.KEY_CTRL_auto_resync 0).getB F.KEY_CTRL_auto_resync = false
      ∧ (lit.setUnit .b 5).unitState (other .a) = 5 ∧ lit.inGap = false ∧ lit.dev = .config
      ∧ (lit.setF F.KEY_CTRL_auto_resync 0).calm = true ∧ (lit.setF F.KEY_CTRL_auto_resync 0).activeUnit = some (other .b)
      ∧ (lit.setF F.KEY_CTRL_auto_resync 0).unitState (other .b) = 4 ∧ ¬ causeCode .mortar < 7 ∧ causeCode .mortar < 9
      ∧ (lit.setUnit .b 5).unitState .a = 4 ∧ (lit.setUnit .b 5).calm = true ∧ lit.ksBusy = false ∧ lit.dev ≠ .safeHold ∧ lit.dev ≠ .off
      ∧ lit.pwr.phase ≠ .held := by decide +kernel

theorem wit_KeystoneCommands :
    armed.admits 0 Addr.KEY_COMMAND 1 = true ∧ armed.activeUnit = some .a ∧ armed.unitState (other .a) = 3
      ∧ (armed.setUnit .b 5).admits 0 Addr.KEY_COMMAND 2 = true ∧ (armed.setUnit .b 5).activeUnit = some .a
      ∧ (armed.setUnit .b 5).unitState (other .a) = 5 ∧ (armed.setUnit .b 5).key.doubleFault = false ∧ armed.ksBusy = false
      ∧ ({ armed.setUnit .a 5 with key := { armed.key with gapEnd := some 96 } } : State).inGap = true
      ∧ ({ armed.setUnit .a 5 with key := { armed.key with gapEnd := some 96 } } : State).calm = true
      ∧ ({ armed.setUnit .a 5 with key := { armed.key with gapEnd := some 96 } } : State).admits 0 Addr.KEY_COMMAND 2 = true
      ∧ fldOf 1 0 1 = 1 ∧ fldOf 1 1 1 = 0 ∧ fldOf 2 0 1 = 0 ∧ fldOf 2 1 1 = 1 ∧ armed.armed 0 = true := by decide +kernel

/-- The gap is over, with one entry to replay. -/
def replaying : State :=
  { lit with key := { lit.key with replay := true, log := [⟨.theta, { lit.key.ks with servo := .locked }⟩] } }

/-- A switchover gap is running. -/
def gapped : State := { lit with key := { lit.key with gapEnd := some 96 } }

theorem wit_ReplayAppliesTheLog :
    replaying.calm = true ∧ replaying.inGap = false ∧ replaying.key.deferred = [] ∧ replaying.key.edgeFifo = []
      ∧ replaying.key.logOn = false ∧ replaying.key.replay = true
      ∧ replaying.key.log = [] ++ [⟨.theta, { lit.key.ks with servo := .locked }⟩] ∧ lit.key.ks.queue = []
      ∧ gapped.calm = true ∧ gapped.inGap = true := by decide +kernel

/-- P508 exists; the alarm of the time offset is enabled, and not. -/
def reporting : State := lit.setMac 127 { MacroRun.init with mode := 1 }

theorem wit_FaultReports :
    State.reset.calm = true ∧ State.reset.pwr.phase = .held ∧ reporting.calm = true ∧ reporting.pwr.phase ≠ .held ∧ reporting.key.log.length < 767
      ∧ (reporting.setF F.SAF_TIME_ALARM_time_alarm_threshold 1).calm = true
      ∧ (reporting.setF F.SAF_TIME_ALARM_time_alarm_threshold 1).getF F.SAF_TIME_ALARM_time_alarm_threshold = 1
      ∧ (reporting.setF F.SAF_TIME_ALARM_time_alarm_threshold 0).getF F.SAF_TIME_ALARM_time_alarm_threshold = 0
      ∧ reporting.portExists 508 = true ∧ reporting.dev ≠ .safeHold ∧ reporting.dev ≠ .off
      ∧ gapped.calm = true ∧ gapped.inGap = true ∧ gapped.dev ≠ .safeHold ∧ gapped.dev ≠ .off ∧ gapped.pwr.phase ≠ .held
      ∧ gapped.key.log.length < 767 := by decide +kernel

theorem wit_AlarmsTemperatureVotes :
    armed.admits 0 Addr.SAF_ALARM_TEST 1 = true ∧ (1 : Word).toNat % 4 = 1 + unitCode .a ∧ (2 : Word).toNat % 4 = 1 + unitCode .b
      ∧ armed.saf.testing = none ∧ armed.saf.safeA = false ∧ armed.saf.safeB = false ∧ (1760#16).toInt ≤ 1760 ∧ 1760 < (1761#16).toInt
      ∧ (lit.setF F.SAF_CTRL_thermal_hold 0).getB F.SAF_CTRL_thermal_hold = false ∧ lit.tmrB = [] ∧ lit.tmrC = []
      ∧ (lit.setF F.SAF_CTRL_thermal_hold 1).getB F.SAF_CTRL_thermal_hold = true ∧ armed.dev ≠ .safeHold
      ∧ ({ lit with saf := { lit.saf with testing := some .a } } : State).calm = true := by decide +kernel

/-- One copy of SAF.TIME_ALARM holds 5 where the two others hold 7. -/
def disturbed : State := { lit.setReg Addr.SAF_TIME_ALARM 7 with tmrB := [(Addr.SAF_TIME_ALARM, 5)] }

theorem wit_AlarmsTemperatureVotes_vote :
    let f : FieldDesc := ⟨0, 32, .rw, true, 1000, []⟩
    disturbed.calm = true ∧ disturbed.tmrC = [] ∧ storesOnly Addr.SAF_TIME_ALARM = true
      ∧ (regDesc Addr.SAF_TIME_ALARM).map (fun d => d.fields.filter FieldDesc.tmr) = some [f]
      ∧ disturbed.copies Addr.SAF_TIME_ALARM f = (7, 5, 7) ∧ disturbed.reg Addr.SAF_TIME_ALARM = 7 := by decide +kernel

theorem wit_SecurityUnit :
    lit.calm = true ∧ lit.domainOn 36 = true ∧ (lit.setDomain 36 false).calm = true ∧ (lit.setDomain 36 false).domainOn 36 = false
      ∧ lit.permitted 0 Addr.SEC_RANDOM 1 = true ∧ lit.regOn Addr.SEC_RANDOM = true := by decide +kernel
/-! ### Rings, DMA -/

/-- Command ring 0 with one entry of a known opcode, its completion ring with four, and the interface of the PF open at 3.1. -/
def ringed : State :=
  ((((runRing (runRing armed 0 1) 0x40 4).setF (F.HIF_FN_VERSION_version 0) 0x301).setF (F.HIF_FN_VERSION_open 0) 1).hostPut 0x100000
    3).hostPut 0x10003F 0x80

/-- A command descriptor of ring 0 with inline arguments and an output or input block. -/
def cmd (addr len : Nat) (inl : List Byte) : CmdDesc :=
  { ring := 0, flags := 0, rsv3 := 0, tag := 7, argAddr := addr, argLen := len, rsv20 := 0,
    inl := inl ++ List.replicate (39 - inl.length) 0, last := 0x80, memErr := false, ringErr := false }

/-- The word of HIF.RING_CFG that enables a ring of 16 entries. -/
def ringWord (r : Nat) : Word := BitVec.ofNat 32 (4 * 2 ^ (F.HIF_RING_CFG_log2_size r).lo + 2 ^ (F.HIF_RING_CFG_enable r).lo)

theorem wit_HostRings :
    armed.calm = true ∧ armed.admits 0 (Addr.HIF_RING_CFG 0x101) (ringWord 0x101) = true
      ∧ armed.getB (F.HIF_RING_CFG_enable 0x101) = false
      ∧ (armed.stored 0 (Addr.HIF_RING_CFG 0x101) (ringWord 0x101)).getB (F.HIF_RING_CFG_enable 0x101) = true
      ∧ ringed.calm = true ∧ ringed.admits 0 (Addr.HIF_RING_CFG 0) 0 = true ∧ ringed.getB (F.HIF_RING_CFG_enable 0) = true
      ∧ (ringed.stored 0 (Addr.HIF_RING_CFG 0) 0).getB (F.HIF_RING_CFG_enable 0) = false := by decide +kernel

theorem wit_HostRings_doorbell :
    ringed.permitted 0 0x100000 2 = true ∧ ringed.permitted 0 0x100004 2 = true ∧ 0 = ringed.ownerFn 0 ∧ ringed.domainOn 34 = true
      ∧ ringed.getF (F.HIF_RING_STATUS_state 0) = 1 ∧ ringed.getB (F.HIF_RING_CFG_polling 0) = false ∧ ringed.ringSize 0 = 16
      ∧ ringed.ringHead 0 = 0 ∧ ringed.ringSpan 0 = 1 := by decide +kernel

/-- RX ring 0 has an entry that has not been signalled. -/
def unsignalled : State := (ringed.setF (F.HIF_RING_CFG2_mod_time 0x80) 5).setRingRun 0x80 { RingRun.init with unsignalled := 1 }

theorem wit_HostRings_moderation :
    unsignalled.calm = true ∧ unsignalled.getF (F.HIF_RING_CFG2_mod_time 0x80) ≠ 0 ∧ (unsignalled.ringRun 0x80).unsignalled ≠ 0 := by
  decide +kernel

/-- Ring 0 polls; its entry is the host's. -/
def polling : State := (ringed.setF (F.HIF_RING_CFG_polling 0) 1).hostPut 0x10003F 0

/-- The host has written a NOP and one free completion entry into the polling rings. -/
def nopWaits : State := (polling.hostPut 0x100000 3).hostPut 0x10003F 0x80

theorem wit_HostRings_poll :
    polling.calm = true ∧ polling.ringRuns 0 = true ∧ polling.getB (F.HIF_RING_CFG_polling 0) = true ∧ polling.ringOwn 0 0 = false
      ∧ (cmdDesc 0 (nopWaits.hostRead (nopWaits.ringAddr 0 0) 64)).1 = 3
      ∧ nopWaits.accepts 3 (cmdDesc 0 (nopWaits.hostRead (nopWaits.ringAddr 0 0) 64)).2 = true ∧ nopWaits.calm = true
      ∧ nopWaits.ringRuns 0 = true ∧ ringed.getB (F.HIF_RING_CFG_polling 0) = false
      ∧ (polling.setF (F.HIF_RING_CFG_polling 0xC0) 1).getB (F.HIF_RING_CFG_polling 0xC0) = true := by decide +kernel

/-- The completion ring of the NOP has no free entry. -/
def noEntry : State := nopWaits.setF (F.HIF_RING_TAIL_tail 0x40) 0

/-- The index of the doorbell's end, and one beyond it, for a ring of 16 entries. -/
theorem wit_HostRings_reads :
    noEntry.calm = true ∧ noEntry.getB (F.HIF_RING_CFG_polling 0) = true ∧ noEntry.ringRuns 0 = true ∧ noEntry.ringOwn 0 0 = true
      ∧ noEntry.entryFree (noEntry.compRing 0) = false ∧ (runRing ringed 0x80 4).calm = true
      ∧ (runRing ringed 0x80 4).devReads 0x80 = true ∧ ringed.devReads 0xC0 = false
      ∧ 16 ≤ ringed.ringSize 0 ∧ ringed.ringSize 0 < 17 ∧ ringed.ringSpan 0 ≤ 16 := by decide +kernel

/-- The dump ring runs with four free entries and buffers of 16 kB; a snapshot waits. -/
def dumping : State :=
  let s := ((runRing armed 0x101 4).setF (F.HIF_RING_CFG2_buf_units 0x101) 256)
  let t := ([0, 1, 2, 3].foldl (fun (u : State) i => u.hostPut (0x100000 + 0x1000 * 0x101 + 32 * i + 31) 0x80) s)
  { t with snap := { t.snap with busy := true } }

theorem wit_Snapshots_delivered :
    dumping.calm = true ∧ dumping.snap.busy = true ∧ dumping.includeEvents.ringRuns 0x101 = true
      ∧ dumping.includeEvents.ringAvail 0x101 1 = 1 := by decide +kernel

theorem wit_FunctionResets : ringed.ownerFn 0 = 0 ∧ 2 * 2 ^ bitsOf lit.part.straps.toNat 9 2 ≤ 8 := by decide +kernel

/-- A TX ring whose one entry has no sop. -/
def badTx : State := ((runRing lit 0xC0 1).hostPut (0x100000 + 0x1000 * 0xC0 + 29) 2).hostPut (0x100000 + 0x1000 * 0xC0 + 31) 0x80

/-- A TX ring with a frame of 64 bytes for port 0, which goes to its queue 0. -/
def goodTx : State := (((badTx.hostPut (0x100000 + 0x1000 * 0xC0 + 29) 3).hostPut (0x100000 + 0x1000 * 0xC0 + 24) 64))

/-- A second TX ring holds a chain while ring 0xC0 is next in turn. -/
def twoTx : State :=
  let s := ((runRing goodTx 0xC1 1).hostPut (0x100000 + 0x1000 * 0xC1 + 29) 3).hostPut (0x100000 + 0x1000 * 0xC1 + 31) 0x80
  { s with hif := { s.hif with txLast := 0xFF } }

theorem wit_CpuPort_tx :
    badTx.calm = true ∧ badTx.ringRuns 0xC0 = true ∧ badTx.ringAvail 0xC0 (badTx.ringSize 0xC0) = 1
      ∧ (badTx.txChain 0xC0 0 (badTx.ownRun 0xC0 0 1)).map (fun l => badChain (l.map Prod.snd)) = some true
      ∧ (goodTx.txChain 0xC0 0 (goodTx.ownRun 0xC0 0 1)).map (fun l => badChain (l.map Prod.snd)) = some false
      ∧ goodTx.calm = true ∧ goodTx.ringRuns 0xC0 = true ∧ goodTx.ringAvail 0xC0 (goodTx.ringSize 0xC0) = 1
      ∧ (goodTx.txChain 0xC0 0 (goodTx.ownRun 0xC0 0 1)).map (fun l => l.map fun e => e.2.forward) = some [false]
      ∧ (runRing lit 0xC0 1).calm = true ∧ (runRing lit 0xC0 1).ringRuns 0xC0 = true
      ∧ (runRing lit 0xC0 1).ringAvail 0xC0 ((runRing lit 0xC0 1).ringSize 0xC0) ≠ 0
      ∧ (runRing lit 0xC0 1).ringOwn 0xC0 0 = false ∧ (runRing lit 0xC0 1).txStalls 0xC0 = true
      ∧ badTx.key.log.length + badTx.hr.length < 740 ∧ badTx.txTurn 0xC0 = true ∧ goodTx.txTurn 0xC0 = true
      ∧ twoTx.calm = true ∧ twoTx.key.log.length + twoTx.hr.length < 740 ∧ twoTx.ringRuns 0xC1 = true ∧ twoTx.txTurn 0xC1 = false
      ∧ (twoTx.txChain 0xC1 0 (twoTx.ownRun 0xC1 0 (twoTx.ringAvail 0xC1 (twoTx.ringSize 0xC1)))).isSome = true := by decide +kernel

/-- The frame of that ring is to be forwarded, and the expansion queue of its pipeline is full. -/
def heldTx : State := (goodTx.hostPut (0x100000 + 0x1000 * 0xC0 + 27) 16).setExpand 0 (List.replicate 64 0)

theorem wit_CpuPort_forward :
    (heldTx.txChain 0xC0 0 (heldTx.ownRun 0xC0 0 1)).map (fun l => (badChain (l.map Prod.snd), l.map fun e => (e.2.forward, e.2.port / 64)))
      = some (false, [(true, 0)]) ∧ heldTx.expandFull 0 = true ∧ heldTx.txTurn 0xC0 = true ∧ heldTx.ringRuns 0xC0 = true ∧ heldTx.calm = true := by decide +kernel

/-- The word of DMA.CH_CFG that enables a channel of 16 descriptors. -/
def chWord (c : Nat) : Word := BitVec.ofNat 32 (4 * 2 ^ (F.DMA_CH_CFG_log2_size c).lo + 2 ^ (F.DMA_CH_CFG_enable c).lo)

/-- Pool 15 holds 64 cells. -/
def pooled : State := armed.setPool 15 { Pool.init false 15 with onchip := 64 }

/-- Channel 31 is IDLE, its ring of 16 descriptors at 0x40000. -/
def idleCh : State :=
  ((((pooled.setF (F.DMA_CH_CFG_log2_size 31) 4).setF (F.DMA_CH_CFG_enable 31) 1).setF (F.DMA_CH_STATUS_state 31) 1).setReg
    (Addr.DMA_CH_BASE_LO 31) 0x40000)

/-- The descriptor, started. -/
def fill : DmaDesc := ⟨0, 5, 0x50000, 256, 2, false, 256, 0, none, none, false⟩

/-- Channel 31 runs it. -/
def stopping : State := (idleCh.setF (F.DMA_CH_STATUS_state 31) 2).setCh 31 { DmaCh.init with active := [fill] }

theorem wit_DmaChannels :
    pooled.calm = true ∧ pooled.admits 0 (Addr.DMA_CH_CFG 31) (chWord 31) = true ∧ pooled.getB (F.DMA_CH_CFG_enable 31) = false
      ∧ (pooled.stored 0 (Addr.DMA_CH_CFG 31) (chWord 31)).getB (F.DMA_CH_CFG_enable 31) = true
      ∧ (pooled.stored 0 (Addr.DMA_CH_CFG 31) (chWord 31)).poolGrants 15 16 = true
      ∧ (armed.stored 0 (Addr.DMA_CH_CFG 31) (chWord 31)).poolGrants 15 16 = false
      ∧ idleCh.admits 0 (Addr.DMA_CH_CFG 31) 0 = true ∧ (idleCh.stored 0 (Addr.DMA_CH_CFG 31) 0).getB (F.DMA_CH_CFG_enable 31) = false
      ∧ idleCh.chState 31 = 1 ∧ (idleCh.ch 31).active = [] ∧ idleCh.permitted 0 (0x101000 + 8 * 31) 2 = true
      ∧ idleCh.chSize 31 = 16 ∧ idleCh.chSpan 31 = 0 ∧ (idleCh.setF (F.DMA_CH_STATUS_state 31) 5).admits 0 (Addr.DMA_CH_CTRL 31) 1 = true
      ∧ (idleCh.setF (F.DMA_CH_STATUS_state 31) 5).chState 31 = 5
      ∧ (pooled.stored 0 (Addr.DMA_CH_CFG 31) (chWord 31)).quotaLeft false 15 16 = true ∧ fldOf 1 0 1 = 1
      ∧ idleCh.getB (F.DMA_CH_CFG_enable 31) = true ∧ (idleCh.ch 31).waiting = none ∧ idleCh.domainOn 34 = true
      ∧ idleCh.calm = true ∧ stopping.calm = true ∧ stopping.admits 0 (Addr.DMA_CH_CFG 31) 0 = true ∧ (stopping.ch 31).active = [fill]
      ∧ (stopping.ch 31).done fill = false ∧ stopping.chState 31 = 2 := by decide +kernel

/-- A descriptor of channel 31: FILL of 128 bytes at 0x50000. -/
def filled1 : State :=
  ((idleCh.setF (F.DMA_CH_TAIL_tail 31) 1).hostWrite 0x40000 (leBytes 8 5 ++ leBytes 8 0x50000 ++ leBytes 4 128 ++ [2])).hostPut 0x4001F
    0x80

/-- A COPY, started. -/
def copy : DmaDesc := ⟨0, 0x60FC0, 0x50000, 256, 1, false, 256, 0, none, none, false⟩

/-- The engine serves channel 31. -/
def serving (d : DmaDesc) : State := { idleCh.setCh 31 { DmaCh.init with active := [d] } with dmaServed := (31, []) }

theorem wit_DmaEngine :
    let r := dmaRaw 0 (filled1.hostRead (filled1.chAddr 31 0) 32)
    filled1.calm = true ∧ filled1.dmaRuns = true ∧ filled1.domainOn 34 = true ∧ filled1.chState 31 = 1 ∧ filled1.chSpan 31 ≠ 0
      ∧ filled1.chIndex 31 0 = 0 ∧ r.own = true ∧ r.check = 0 ∧ r.desc.length < filled1.getF F.DMA_LEAVE_THRESHOLD_leave_threshold
      ∧ (serving fill).dmaPick = some 31 ∧ ((serving fill).ch 31).canWrite fill = true ∧ 64 < fill.count
      ∧ (serving copy).dmaPick = some 31 ∧ ((serving copy).ch 31).canWrite copy = false ∧ ((serving copy).ch 31).canRead copy = true
      ∧ (filled1.ch 31).disabling = false ∧ (filled1.ch 31).haltAfter = none ∧ (filled1.ch 31).waiting = none
      ∧ (filled1.ch 31).active = [] ∧ r.fence = false ∧ (serving fill).calm = true ∧ (serving fill).domainOn 34 = true
      ∧ fill.written + 64 ≠ fill.length ∧ (idleCh.ch 31).done fill = false := by
  decide +kernel

/-- The same descriptor with own 0, and with an operation that does not exist. -/
def bare : State := (filled1.setF (F.DMA_CH_TAIL_tail 31) 1).hostPut 0x4001F 0

/-- See bare. -/
def spoilt : State := filled1.hostPut 0x40014 19

theorem wit_DmaEngine_checks :
    let r := dmaRaw 0 (spoilt.hostRead (spoilt.chAddr 31 0) 32)
    (dmaRaw 0 (bare.hostRead (bare.chAddr 31 0) 32)).own = false ∧ bare.dmaRuns = true ∧ bare.chState 31 = 1 ∧ bare.chSpan 31 = 1
      ∧ bare.calm = true ∧ r.own = true ∧ r.check ≠ 0 ∧ r.fence = false ∧ spoilt.calm = true ∧ spoilt.chSpan 31 = 1
      ∧ spoilt.chState 31 = 1 := by decide +kernel

/-- A read request of the COPY is out. -/
def asked : State := (serving copy).setCh 31 { DmaCh.init with active := [copy], reads := [⟨0, false, 0, 1⟩] }

theorem wit_DmaEngine_answer : asked.calm = true ∧ (asked.ch 31).reads = [⟨0, false, 0, 1⟩] ∧ copy.written ≠ copy.length ∧ (asked.ch 31).active = [copy]
    ∧ copy.err = none ∧ copy.mismatch = none ∧ asked.key.log.length < 767
    ∧ (asked.setCh 31 { DmaCh.init with active := [copy], staged := [(0, 0, [])], cells := [5] }).calm = true
    ∧ ((asked.setCh 31 { DmaCh.init with active := [copy], staged := [(0, 0, [])], cells := [5] }).ch 31).cells ≠ [] ∧ asked.pwr.phase ≠ .held := by decide +kernel

/-! ### Commands -/

theorem wit_HostCommands :
    ringed.accepts 3 (cmd 0 0 []) = true ∧ ringed.accepts 1 (cmd 0 0 [0, 3, 1, 3]) = true ∧ ringed.accepts 2 (cmd 0 0 []) = true
      ∧ ringed.accepts 4 (cmd 0x8000 64 []) = true ∧ ringed.accepts 0x20 (cmd 0x8000 32 [7, 0, 0, 0, 0xFE, 0xFF, 3, 0, 2]) = true
      ∧ ringed.accepts 0x30 (cmd 0x8000 4096 []) = true ∧ ringed.accepts 0x31 (cmd 0x8000 32 [0, 0, 0, 0, 0, 0, 0, 0, 1]) = true
      ∧ ringed.accepts 0x70 (cmd 0 0 []) = true ∧ ringed.snap.busy = false ∧ chosenVersion 0 0x300 0x301 = some 0x301
      ∧ chosenVersion 0 0x400 0x500 = none ∧ ringed.accepts 4 { cmd 0x8000 64 [] with memErr := true } = true
      ∧ ringed.accepts 0x20 { cmd 0x8000 32 [7, 0, 0, 0, 0xFE, 0xFF, 3, 0, 2] with memErr := true } = true
      ∧ ringed.accepts 0x30 { cmd 0x8000 4096 [] with memErr := true } = true
      ∧ ringed.accepts 0x31 { cmd 0x8000 32 [0, 0, 0, 0, 0, 0, 0, 0, 1] with memErr := true } = true := by decide +kernel

theorem wit_HostCommands_reject :
    let d : CmdDesc := { cmd 0 0 [] with rsv20 := 1 }
    ringed.reaches d = true ∧ (ringed.taking d).checkCommand (cmdOf 3) 3 (ringed.ownerFn 0) d = 2 := by decide +kernel

/-- One HBM stack and the security memory are off: there is leave to be had. -/
def roomy : State := ringed.setDomain 27 false

theorem wit_PowerCommands :
    roomy.key.log.length < 766 ∧ roomy.accepts 0x40 (cmd 0 0 [210, 0, 0, 0]) = true ∧ roomy.accepts 0x40 (cmd 0 0 [0x10, 0x27, 0, 0]) = true
      ∧ roomy.ksBusy = false ∧ roomy.key.doubleFault = false ∧ roomy.accepts 0x41 (cmd 0 0 [16, 1]) = true ∧ roomy.domainOn 16 = true
      ∧ roomy.accepts 0x41 (cmd 0 0 [27, 1]) = true ∧ roomy.domainOn 27 = false ∧ (roomy.requires 27).all roomy.domainOn = true
      ∧ roomy.permanent + roomy.transient + chargeOf roomy.part 27 ≤ roomy.budget ∧ roomy.accepts 0x41 (cmd 0 0 [17, 0]) = true
      ∧ (roomy.dependants 17 ++ [17]).all (fun y => decide (roomy.offRefusal y = 0)) = true
      ∧ roomy.accepts 0x42 (cmd 0 0 [1]) = true ∧ roomy.accepts 0x60 (cmd 0 0 [16]) = true
      ∧ roomy.permanent + roomy.transient + 60 ≤ roomy.budget := by decide +kernel

/-- Domain 1 is off and so is the pipeline that it requires. -/
def lacking : State := (ringed.setDomain 1 false).setDomain 17 false

/-- The budget is the least that may be set. -/
def poor : State := roomy.setF F.PWR_BUDGET_budget 210

theorem wit_PowerCommands_refused :
    lacking.accepts 0x41 (cmd 0 0 [1, 1]) = true ∧ lacking.domainOn 1 = false ∧ 1 ∉ lacking.pwr.rising
      ∧ (lacking.requires 1).all lacking.domainOn = false ∧ lacking.ksBusy = false ∧ lacking.key.doubleFault = false
      ∧ lacking.key.log.length < 766 ∧ poor.accepts 0x41 (cmd 0 0 [27, 1]) = true ∧ poor.domainOn 27 = false ∧ 27 ∉ poor.pwr.rising
      ∧ (poor.requires 27).all poor.domainOn = true ∧ poor.budget < poor.permanent + chargeOf poor.part 27 := by decide +kernel

/-- A cell of the HBM stacks is in use. -/
def hbmUsed : State := ringed.setPool 0 { Pool.init false 0 with usedHbm := 1 }

theorem wit_PowerCommands_mayNot :
    hbmUsed.key.log.length < 766 ∧ hbmUsed.accepts 0x41 (cmd 0 0 [28, 0]) = true ∧ hbmUsed.ksBusy = false ∧ hbmUsed.key.doubleFault = false
      ∧ hbmUsed.domainOn 28 = true ∧ (hbmUsed.dependants 28 ++ [28]).map hbmUsed.offRefusal = [2] := by decide +kernel

/-- The same of a part without HBM. -/
def withoutHbm : State := { ringed with part := { ringed.part with en := true } }

/-- Conditions under which a command of power that fails its check of arguments is refused for that alone. -/
def powerOpen (s : State) (d : CmdDesc) : Bool :=
  s.reaches d && descClean d && (s.taking d).fnOpen 0 && decide (0x300 ≤ (s.taking d).fnVersion 0)
    && decide ((s.taking d).accessCode 0 3 0 = 2) && decide (s.dev = .config) && decide (s.ownerFn 0 = 0)

theorem wit_PowerCommands_arguments :
    [cmd 0 0 [209, 0, 0, 0], cmd 0 0 [0x11, 0x27, 0, 0]].all (powerOpen ringed) = true := by decide +kernel

theorem wit_PowerDomainArguments :
    [cmd 0 0 [0, 1], cmd 0 0 [25, 1], cmd 0 0 [26, 1], cmd 0 0 [34, 0]].all (powerOpen ringed) = true
      ∧ [cmd 0 0 [27, 1], cmd 0 0 [28, 0]].all (powerOpen withoutHbm) = true
      ∧ ringed.accepts 0x41 (cmd 0 0 [33, 1]) = true ∧ ringed.domainOn 33 = true ∧ ringed.ksBusy = false ∧ ringed.key.log.length < 767
      ∧ roomy.accepts 0x41 (cmd 0 0 [27, 0]) = true ∧ roomy.domainOn 27 = false := by decide +kernel

/-- Put an object of `len` bytes at 0x200000: its first 16 bytes, a signature block at `p` of type `t` with 1,124 bytes of HSS
signature, and 64 bytes of zeros between. -/
def signed (s : State) (head : List Byte) (p t slot : Nat) : State :=
  let b := leBytes 4 0x42474953 ++ leBytes 2 1 ++ [BitVec.ofNat 8 t, BitVec.ofNat 8 slot] ++ leBytes 4 p ++ [2, 0] ++ leBytes 2 1124
  (s.hostWrite 0x200000 head).hostWrite (0x200000 + p) b

/-- An object whose signature block stands at 64. -/
def object : State := signed roomy [] 64 3 1

/-- The command that gives it. -/
def give : CmdDesc := cmd 0x200000 1408 []

theorem wit_LoadCommands :
    let img := object.hostBlob 0x200000 1408
    object.accepts 0x12 give = true ∧ object.accepts 0x10 give = true ∧ object.ksBusy = false ∧ object.key.log.length < 766
      ∧ (object.begun 0x12 give).2.hostBlob 0x200000 1408 = img ∧ (object.begun 0x10 give).2.hostBlob 0x200000 1408 = img
      ∧ sigBlockAt img = some 64 ∧ object.key.doubleFault = false ∧ object.permanent + object.transient + 200 ≤ object.budget := by
  decide +kernel

/-- A patch object. -/
def patch : State := signed roomy (leBytes 4 0x4C485341 ++ [4, 0, 0, 1]) 64 2 1

theorem wit_LoadCommands_patch :
    let img := patch.hostBlob 0x200000 1408
    patch.accepts 0x11 give = true ∧ (patch.begun 0x11 give).2.hostBlob 0x200000 1408 = img ∧ sigBlockAt img = some 64
      ∧ patchVersion img = 0 := by decide +kernel

theorem wit_LoadCommands_unread :
    object.accepts 0x12 { give with memErr := true } = true ∧ object.accepts 0x10 { give with memErr := true } = true
      ∧ patch.accepts 0x11 { give with memErr := true } = true := by decide +kernel

/-- A bundle of one item. -/
def bundle : State := signed roomy (leBytes 4 0x4C444E42 ++ [1, 0, 0, 0, 1]) 256 4 1

/-- The interface of the PF is open, with ring 0 ready, where the shadow Ephemeris holds a calendar. -/
def switchable : State := { ringed with eph := shadowed.eph }

/-- The random source is healthy; the index is at its end in the second state. -/
def healthy : State := { ringed with sec := { ringed.sec with rngOk := true } }

/-- See healthy. -/
def spent : State := { healthy with sec := { healthy.sec with hssIndex := 2 ^ 30 } }

/-- The same bundle with another word at its head. -/
def notBundle : State := signed roomy [] 256 4 1

/-- A switch is pending, well in the future. -/
def pendingSwitch : State := ringed.setKs fun k => { k with pend := some ⟨1, 0, 0, 10 ^ 10, false⟩ }

theorem wit_ActivationAndSecurityCommands :
    ringed.accepts 0x14 (cmd 0 0 []) = true ∧ ringed.key.ks.pend = none ∧ pendingSwitch.accepts 0x14 (cmd 0 0 []) = true
      ∧ pendingSwitch.nsCeil + 1000 ≤ 10 ^ 10 ∧ ringed.accepts 0x21 (cmd 0 0 []) = true ∧ ringed.activeUnit = some .a
      ∧ ringed.accepts 0x50 (cmd 0x200000 3956 []) = true ∧ ringed.sec.rngOk = false ∧ ringed.sec.credits ≠ 0
      ∧ ringed.sec.hssIndex < 2 ^ 30 ∧ ringed.key.log.length < 767 ∧ ringed.ksBusy = false
      ∧ healthy.accepts 0x50 (cmd 0x200000 3956 []) = true ∧ healthy.sec.rngOk = true ∧ healthy.sec.credits ≠ 0
      ∧ spent.accepts 0x50 (cmd 0x200000 3956 []) = true ∧ 2 ^ 30 ≤ spent.sec.hssIndex := by decide +kernel

/-- ACTIVATE of the banks that `sel` names, as soon as may be. -/
def act (sel : Byte) : CmdDesc := cmd 0 0 (List.replicate 12 0 ++ [sel])

theorem wit_ActivationAndSecurityCommands_activate :
    let t := (switchable.begun 0x13 (act 1)).2
    switchable.accepts 0x13 (act 1) = true ∧ (t.requestSwitch 1 0).2.1.isSome = true ∧ ringed.accepts 0x13 (act 1) = true
      ∧ ((ringed.begun 0x13 (act 1)).2.requestSwitch 1 0).2.1 = none
      ∧ ({ pendingSwitch with trn := { pendingSwitch.trn with time := 10 ^ 10 * 2 ^ 40 } } : State).accepts 0x14 (cmd 0 0 []) = true
      ∧ 10 ^ 10 < ({ pendingSwitch with trn := { pendingSwitch.trn with time := 10 ^ 10 * 2 ^ 40 } } : State).nsCeil + 1000 := by
  decide +kernel

theorem wit_ActivationAndSecurityCommands_objects :
    let b := bundle.hostBlob 0x200000 1600
    let d := cmd 0x200000 1600 []
    object.accepts 0x52 give = true ∧ bundle.accepts 0x51 d = true ∧ (bundle.begun 0x51 d).2.hostBlob 0x200000 1600 = b
      ∧ sigBlockAt b = some 256 ∧ bundleOk b 256 = true ∧ notBundle.accepts 0x51 d = true
      ∧ bundleOk (notBundle.hostBlob 0x200000 1600) 256 = false := by decide +kernel

/-! ### The way of a frame -/

/-- The state after a command. -/
def after (c : Instr) (s : State) : State := match exec c s with
  | .next t => t
  | _ => s

/-- P504 is up too, and a calendar whose slot 0 connects P508 to P504 is active, with the expected types of both. -/
def crossing : State :=
  let s := (((pausing.setMac 126 { MacroRun.init with mode := 1 }).setF (F.PORT_LINK_STATUS_link_up 126 0) 1).setF F.EPH_CTRL_meridian_en 1)
  let b := (calendar 0).write 0x17 [0xFF, 0, 0, 0, 0, 0xF7, 0x88]
  let c := ((b.write (0x100 + 252) [BitVec.ofNat 8 (s.runType 504)]).write (0x100 + 254) [BitVec.ofNat 8 (s.runType 508)]).write 0x204 [1]
  { s with eph := ({ EphBank.empty with valid := true, blob := c.write (0x210 + 4 * 127) (leBytes 4 (1 + 126 * 8 + 1000 * 2 ^ 22)) }, .empty) }

/-- The first bytes of a frame with an EtherType. -/
def opening (n et : Nat) : List Byte := [2, 0, 0, 0, 0, 1, 2, 0, 0, 0, 0, 2] ++ beBytes 2 et ++ List.replicate (n - 14) 0

/-- An express frame crosses from P508 to P504. -/
def inFlight : State := after (.frameReceive 508 (opening 60 0x88F7)) crossing

/-- A frame of 60 bytes so far, and one of 256, have begun to arrive at P508. -/
def begunShort : State := after (.frameReceive 508 (opening 60 0x800)) pausing

/-- See begunShort. -/
def begunLong : State := after (.frameReceive 508 (opening 256 0x800)) pausing

/-- The MAC of P504 sends a packet-plane frame, or has a Meridian frame in its skid buffer. -/
def contended (held : Bool) : State :=
  let t := TxFrame.unbilled (opening 60 0x800) 60
  crossing.setPort 504 (if held then { crossing.port 504 with skid := [t] } else { crossing.port 504 with tx := some t })

/-- P508 as it takes the first bytes of a frame. -/
def heard (s : State) : State :=
  s.setPort 508 { s.port 508 with rxCfg := s.reg (Addr.PORT_MAC_CFG 127 0), rxAddr := s.macAddr 508, activity := true }

/-- The calendar expects another type of P504, or has a window that opens later. -/
def mistyped : State :=
  let b := crossing.eph.1
  { crossing with eph := ({ b with blob := b.blob.write (0x100 + 252) [1] }, .empty) }

/-- See mistyped. -/
def shut : State :=
  let b := crossing.eph.1
  { crossing with eph := ({ b with blob := b.blob.write (0x210 + 4 * 127) (leBytes 4 0) }, .empty) }

/-- Sixteen headers wait in the FIFO of the macro. -/
def overfull : State := pausing.setFifo 127 (List.replicate 16 0)

theorem wit_FrameArrival :
    lit.portUp 508 = false ∧ pausing.portUp 508 = true ∧ (pausing.port 508).arriving = none ∧ be16 pauseFrame 12 = 0x8808
      ∧ crossing.calm = true ∧ crossing.portUp 508 = true ∧ crossing.getB (F.PORT_MAC_CFG_rx_en 127 0) = true
      ∧ (crossing.setPort 508 { crossing.port 508 with rxCfg := crossing.reg (Addr.PORT_MAC_CFG 127 0), activity := true }).expressTest
          508 (opening 60 0x88F7) = .yes 504
      ∧ (crossing.port 504).tx = none ∧ pausing.expressTest 508 (opening 256 0x800) = .no ∧ (pausing.fifo 127).length = 0
      ∧ (crossing.port 504).skid = [] ∧ (heard mistyped).expressTest 508 (opening 60 0x88F7) = .fallback
      ∧ (heard shut).expressTest 508 (opening 60 0x88F7) = .late ∧ (overfull.fifo 127).length = 16
      ∧ (heard overfull).expressTest 508 (opening 256 0x800) = .no ∧ overfull.calm = true ∧ overfull.portUp 508 = true
      ∧ linked.getB (F.PORT_MAC_CFG_rx_en 127 0) = false ∧ linked.portUp 508 = true ∧ mistyped.calm = true ∧ shut.calm = true
      ∧ (overfull.fifo 127).all (fun j => !overfull.enteredAfter 508 j) = true := by decide +kernel

theorem wit_FrameArrival_contended :
    [true, false].all (fun b => (contended b).calm && (contended b).portUp 508 && decide (((contended b).port 508).arriving = none)
        && decide ((heard (contended b)).expressTest 508 (opening 60 0x88F7) = .yes 504)) = true
      ∧ ((contended true).port 504).skid ≠ [] ∧ ((contended false).port 504).skid = []
      ∧ ((contended false).port 504).tx.map TxFrame.meridian = some false := by decide +kernel

theorem wit_FrameArrival_ends :
    begunShort.calm = true ∧ (begunShort.port 508).arriving = some (.packet 0) ∧ (begunShort.frame 0).map Frame.stage = some .fifo
      ∧ (begunShort.frame 0).map (fun f => f.bytes.length) = some 60 ∧ (begunShort.frame 0).map Frame.learn = some .none
      ∧ (begunShort.frame 0).map Frame.meter = some none ∧ 1518 ≤ fldOf (begunShort.port 508).rxCfg 0 14
      ∧ (begunShort.fifo 127).length = 0 ∧ inFlight.calm = true
      ∧ (inFlight.port 508).arriving.any (fun a => match a with
        | .express out lost got _ _ => decide (out = 504) && !lost && decide (got = opening 60 0x88F7)
        | _ => false) = true
      ∧ (inFlight.port 504).tx.map (fun t => (t.meridian, t.len)) = some (true, 0) ∧ (inFlight.port 504).skid = []
      ∧ (inFlight.port 504).tx.any (fun t => t.crossing 508) = true ∧ 1518 ≤ fldOf (inFlight.port 508).rxCfg 0 14
      ∧ begunLong.calm = true ∧ (begunLong.port 508).arriving = some (.packet 0) ∧ (begunLong.frame 0).map Frame.stage = some .fifo
      ∧ (begunLong.frame 0).map (fun f => f.bytes.length) = some 256 ∧ (begunLong.frame 0).map Frame.learn = some .none
      ∧ (begunLong.frame 0).map Frame.meter = some none ∧ 1518 ≤ fldOf (begunLong.port 508).rxCfg 0 14 := by decide +kernel

/-- A frame of 64 bytes from P508 that has arrived whole and has one share. -/
def whole : Frame :=
  { lit.newFrame 508 (opening 64 0x800) 0 with ended := true, len := 64, stage := .live, charge := 1, refs := 1 }

/-- It waits for expansion, still arriving, with one copy to queue 0 of P508. -/
def expanding : State :=
  let f : Frame := { whole with ended := false, stage := .expand, copies := [⟨4064, ⟨0, 0, 0, 0, 0, 0, 0, 0⟩, false⟩] }
  (linked.setFrame 0 (some f)).setExpand 7 [0]

/-- One of 64 frames waits for expansion in pipeline 7. -/
def stalled : State := lit.setExpand 7 (List.replicate 64 0)

/-- A mirror job waits for frame 0. -/
def mirroring (bad : Bool) (n : Nat) (a : AshBank) : State :=
  let s := ((lit.setFrame 0 (some { whole with bad := bad })).setF (F.BUF_QCFG_A_q_limit 4096) 100)
  let t := s.setPool 12 { s.pool 12 with onchip := n }
  { t with fab := { t.fab with mirrorJobs := [⟨0, 0, a.session 0⟩] }, ash := (a, .empty) }

/-- Pipeline 0 forwards under an image of zeros: every frame resolves to record 0, a DROP. -/
def forwards : State :=
  { lit.setF (F.PIPE_CTRL_fwd_en 0) 1 with ash := ({ AshBank.empty with valid := true }, .empty) }

/-- Session 0 sends whole frames to CPU queue 0. -/
def toCpu : AshBank := { AshBank.empty with valid := true, secs := [(12, Blob.ofList ([3] ++ List.replicate 2047 0))] }

/-- Session 0 sends whole frames to a port that is not up. -/
def toPort : AshBank := { AshBank.empty with valid := true, secs := [(12, Blob.ofList ([1] ++ List.replicate 2047 0))] }

/-- The frame that waits for expansion has a share for the mirror engine. -/
def sharing : State :=
  match expanding.frame 0 with
  | some f => expanding.setFrame 0 (some { f with mirrorShare := true, mirror := some (0, toCpu.session 0) })
  | none => expanding

/-- The image is loaded, so that what is missing is that pipeline 7 forwards; then that the image reaches it. -/
def unreached : State :=
  { begunLong.setF (F.PIPE_CTRL_fwd_en 7) 1 with ash := ({ AshBank.empty with valid := true, secs := [(0, Blob.ofList [3])] }, .empty) }

theorem wit_HeaderResolution :
    begunLong.calm = true ∧ begunLong.domainOn 24 = true ∧ begunLong.expandFull 7 = false ∧ begunLong.nextHeader 7 = some (127, 0)
      ∧ (begunLong.frame 0).isSome = true ∧ begunLong.ash.1.valid = false ∧ lit.nextHeader 7 = none ∧ stalled.calm = true
      ∧ stalled.expandFull 7 = true ∧ (lit.setDomain 24 false).domainOn 24 = false ∧ (lit.setDomain 24 false).calm = true
      ∧ begunLong.getB (F.PIPE_CTRL_fwd_en 7) = false ∧ (linked.setFifo 127 [0]).nextHeader 7 = some (127, 0)
      ∧ (linked.setFifo 127 [0]).frame 0 = none ∧ (linked.setFifo 127 [0]).calm = true := by decide +kernel

/-- An action record: type, destination, policer, FRER role and whether it mirrors to session 0. -/
def actRecord (dtype dest policer role : Nat) (mirror : Bool) : Blob :=
  Blob.ofList (leBytes 4 (dtype + 4 * dest + b2n mirror * 2 ^ 28) ++ leBytes 4 policer ++ leBytes 4 (role * 2 ^ 14) ++ leBytes 4 0
    ++ List.replicate 16 0)

/-- Frame `head` of 64 bytes waits, whole, in the FIFO of macro 127; pipeline 7 forwards under an image of zeros with one action
record and some sections. -/
def through (head : List Byte) (rec : Blob) (secs : List (Nat × Blob)) : State :=
  let s := ((pausing.setF (F.PIPE_CTRL_fwd_en 7) 1).setF (F.BUF_QCFG_A_q_limit 4064) 100).setF (F.BUF_ING_LIMIT_ing_limit (8 * 508)) 100
  let t := (s.setPool (s.classPool 0) { s.pool (s.classPool 0) with onchip := 64 }).setPool 12 { s.pool 12 with onchip := 64 }
  let f : Frame := { lit.newFrame 508 head 0 with ended := true, len := 64 }
  { (t.setFrame 0 (some f)).setFifo 127 [0] with ash := ({ AshBank.empty with valid := true, secs := (6, rec) :: secs }, .empty) }

/-- The frame that waits there. -/
def atFront (s : State) : Frame := (s.frame 0).getD whole

/-- It is taken, and reaches step 4. -/
def resolves (s : State) : Bool := s.takesHeader 7 127 0 (atFront s) && s.findsRecord 7 127 (atFront s)

/-- The record found. -/
def act4 (s : State) : Act := s.foundAct 7 127 (atFront s)

/-- The state before step 4. -/
def pre4 (s : State) : State := s.beforeStepFour 7 127 (atFront s)

/-- The frame at step 4. -/
def frame4 (s : State) : Frame := s.atStepFour 7 127 (atFront s)

/-- A DROP record; it is poisoned; the lookups give no reference. -/
def dropped : State := through (opening 64 0x800) (actRecord 0 0 0 0 false) []

/-- See dropped. -/
def poisoned : State := { dropped with ash := ({ dropped.ash.1 with poison := [(6, 0)] }, .empty) }

/-- See dropped. -/
def unreferenced : State := through (opening 64 0x800) (actRecord 0 0 0 0 false) [(5, Blob.ofList (leBytes 4 (2 ^ 20)))]

theorem wit_HeaderResolution_records :
    resolves dropped = true ∧ (act4 dropped).dtype = 0 ∧ (act4 dropped).role = 0 ∧ (act4 dropped).policer = 0
      ∧ poisoned.takesHeader 7 127 0 (atFront poisoned) = true
      ∧ (poisoned.ash.1.entriesRead 508 (poisoned.parsed (atFront poisoned)) (poisoned.lookedUp 7 127 (atFront poisoned))
          (act4 poisoned)).any (fun e => decide (e ∈ poisoned.ash.1.poison)) = true
      ∧ unreferenced.takesHeader 7 127 0 (atFront unreferenced) = true ∧ unreferenced.ash.1.poison = []
      ∧ (unreferenced.lookedUp 7 127 (atFront unreferenced)).record = none := by decide +kernel

/-- A frame with an R-TAG of number 0. -/
def tagged : List Byte := opening 64 0xF1C1

/-- A FRER section of one stream of a kind and port, homed at a pipeline, with one function (flags as given, hist 8) over it. -/
def frerSection (kind home port flags : Nat) : List (Nat × Blob) :=
  [(13, Blob.ofList (leBytes 4 1 ++ leBytes 4 1 ++ List.replicate 56 0 ++ leBytes 2 (kind + 4 * home) ++ leBytes 2 7 ++ leBytes 4 port
    ++ leBytes 2 (flags + 4 * home) ++ [8, 1] ++ leBytes 4 0 ++ leBytes 4 0 ++ leBytes 2 0 ++ leBytes 2 2))]

/-- A frame of a generated stream, whose home is on, or off. -/
def generated (off : Bool) : State := (through (opening 64 0x800) (actRecord 0 0 0 1 false) (frerSection 1 0 0 1)).setDomain 17 (!off)

/-- A frame of a recovered stream, by vector or match, from a member's port or another, with a recovery state. -/
def recovered (isMatch : Bool) (port : Nat) (head : List Byte) (r : Recovery) : State :=
  (through head (actRecord 0 0 0 2 false) (frerSection 2 0 port (1 + 2 * b2n isMatch))).setRec 0 r

/-- A state that has accepted number `n` with a history. -/
def accepted (n h : Nat) : Recovery := { Recovery.init with takeAny := false, recov := n, history := h }

/-- Distance of number 0 from the recovery state. -/
def distance (s : State) : Int := Machine.signed 16 (0 + 65536 - ((pre4 s).recState 0).recov)

theorem wit_StepFour_frer :
    resolves (generated false) = true ∧ (act4 (generated false)).role = 1 ∧ (pre4 (generated false)).domainOn 17 = true
      ∧ resolves (generated true) = true ∧ (pre4 (generated true)).domainOn 17 = false ∧ ((generated true).ash.1.stream 0).home = 0
      ∧ (let s := (recovered false 508 tagged .init).setDomain 17 false
         resolves s = true ∧ (act4 s).role = 2 ∧ (pre4 s).domainOn 17 = false)
      ∧ (let s := recovered false 507 tagged .init
         resolves s = true ∧ (pre4 s).domainOn 17 = true ∧ s.ash.1.memberOf (s.ash.1.recovery 0) (frame4 s).port = none)
      ∧ (let s := recovered false 508 (opening 64 0x800) .init
         resolves s = true ∧ s.ash.1.memberOf (s.ash.1.recovery 0) (frame4 s).port = some 0 ∧ (frame4 s).hdr.rtag = none) := by decide +kernel

/-- The cases of a number, each at a boundary: a match; beyond the history on either side; seen; first; ahead; behind and not seen. -/
theorem wit_StepFour_recovery :
    ([accepted 0 1].all fun r =>
        let s := recovered true 508 tagged r
        resolves s && decide ((frame4 s).hdr.rtag = some 0) && (s.ash.1.recovery 0).isMatch && !((pre4 s).recState 0).takeAny) = true
      ∧ ([Recovery.init, accepted 1 1].all fun r =>
        let s := recovered true 508 tagged r
        resolves s && (((pre4 s).recState 0).takeAny || decide (((pre4 s).recState 0).recov ≠ 0))) = true
      ∧ ([(accepted 65528 1, (8 : Int)), (accepted 8 1, -8), (accepted 0 1, 0), (accepted 7 128, -7), (accepted 65529 1, 7),
          (accepted 65535 1, 1), (accepted 7 1, -7)].all fun x =>
        let s := recovered false 508 tagged x.1
        resolves s && decide ((frame4 s).hdr.rtag = some 0) && !(s.ash.1.recovery 0).isMatch && !((pre4 s).recState 0).takeAny
          && decide (distance s = x.2) && decide ((s.ash.1.recovery 0).hist = 8)) = true
      ∧ bitAt 1 0 = true ∧ bitAt 128 7 = true ∧ bitAt 1 7 = false
      ∧ ((pre4 (recovered false 508 tagged .init)).recState 0).takeAny = true := by decide +kernel

/-- A policer of a mode and actions with bursts of `c` and `e` bytes. -/
def policed (mode yellow red c e : Nat) (dtype : Nat) : State :=
  through (opening 64 0x800) (actRecord dtype 508 1 0 false)
    [(14, Blob.ofList (leBytes 4 1 ++ List.replicate 12 0 ++ leBytes 4 (mode + yellow * 2 ^ 7 + red * 2 ^ 9) ++ leBytes 4 0 ++ leBytes 4 c
      ++ leBytes 4 0 ++ leBytes 4 e ++ List.replicate 12 0))]

/-- The cost of the frame and the buckets, in bytes. -/
def meterOf (s : State) : Nat × Nat × Nat :=
  (((pre4 s).counted (s.ash.1.policer 1).prof 64).toNat, ((pre4 s).policerNow 1).c / 13200000, ((pre4 s).policerNow 1).e / 13200000)

theorem wit_StepFour_policing :
    [policed 1 0 0 0 0 0, policed 1 0 1 0 0 0, policed 1 2 0 83 84 0, policed 1 1 0 83 84 0, policed 1 0 0 84 0 0, policed 2 0 0 84 84 0,
        policed 2 0 0 84 83 0, policed 0 0 0 0 0 0].all resolves = true
      ∧ [policed 1 0 0 0 0 0, policed 1 2 0 83 84 0, policed 1 0 0 84 0 0, policed 2 0 0 84 83 0].map meterOf
        = [(84, 0, 0), (84, 83, 84), (84, 84, 0), (84, 84, 83)]
      ∧ [policed 1 0 0 0 0 0, policed 1 1 0 83 84 0, policed 1 2 1 83 84 0, policed 0 0 0 0 0 0].map (fun s =>
          ((act4 s).policer, (s.ash.1.policer 1).mode, (s.ash.1.policer 1).yellow, (s.ash.1.policer 1).red))
        = [(1, 1, 0, 0), (1, 1, 1, 0), (1, 1, 2, 1), (1, 0, 0, 0)] := by decide +kernel

/-- A frame for P508 itself, which may be mirrored to a session. -/
def forwarded (mirror : Bool) (session : Blob) : State := through (opening 64 0x800) (actRecord 1 508 0 0 mirror) [(12, session)]

/-- What admission makes of its copies: those kept, whether the mirror takes it, the pool, whether it is over its class's limit, whether
the pool grants, and whether it has room on chip. -/
def admits4 (s : State) : List Nat :=
  let b := s.ash.1
  let a := act4 s
  let h : Frame := frame4 s
  let r := (pre4 s).acceptAll 1 (b.copiesOf h a)
  let t := if a.mirrorEn && (b.session a.session).valid then (r.2.mirrorTake a.session (b.session a.session)).1 else false
  let k := r.2.chargePool h r.1
  [r.1.length, b2n t, k, b2n (decide (16 * r.2.limitF (F.BUF_ING_LIMIT_ing_limit (8 * h.port + h.cls)) < r.2.charged h.port h.cls + 1)),
    b2n (r.2.poolGrants k 1), b2n (r.2.place k 1 r.1 false false = some (false, false))]

/-- Without a mirror; mirrored whole; mirrored cut to 64 bytes. -/
def mirrorings : List State :=
  [forwarded false (Blob.ofList []), forwarded true (Blob.ofList ([3] ++ List.replicate 2047 0)),
    forwarded true (Blob.ofList ([3, 0, 0, 0, 64, 0] ++ List.replicate 2042 0))]

/-- The first, with its class at its limit, its queue full, its pool empty. -/
def refusals : List State :=
  let s := forwarded false (Blob.ofList [])
  [s.setF (F.BUF_ING_LIMIT_ing_limit (8 * 508)) 0, s.setF (F.BUF_QCFG_A_q_limit 4064) 0,
    s.setPool (s.classPool 0) { s.pool (s.classPool 0) with onchip := 0 }]

theorem wit_StepFour_admission :
    (mirrorings ++ refusals).all (fun x => resolves x && decide ((act4 x).dtype = 1) && !(frame4 x).bad && !(frame4 x).direct) = true
      ∧ mirrorings.map admits4
        = [[1, 0, 0, 0, 1, 1], [1, 1, 0, 0, 1, 1], [1, 1, 0, 0, 1, 1]]
      ∧ refusals.map admits4
        = [[1, 0, 0, 1, 1, 1], [0, 0, 13, 0, 0, 0], [1, 0, 0, 0, 0, 0]] := by
  decide +kernel

theorem wit_StepFour_admission_kinds :
    (mirrorings.drop 1).map (fun x => decide ((x.ash.1.session 0).trunc = 0 ∧ (x.ash.1.session 0).encapLen = 0)) = [true, false]
      ∧ mirrorings.all (fun s => decide (s.openAsks 0 = []) && resolves (s.setFrame 0 (some { atFront s with bad := true }))) = true := by
  decide +kernel

theorem wit_ExpansionAndMirrorBuild :
    lit.calm = true ∧ lit.expandQ 7 = [] ∧ expanding.calm = true ∧ expanding.expandQ 7 = [0] ∧ (linked.setExpand 7 [0]).calm = true
      ∧ (linked.setExpand 7 [0]).expandQ 7 = [0] ∧ (linked.setExpand 7 [0]).frame 0 = none
      ∧ (expanding.frame 0).map (fun f => (f.mirrorShare, f.mirror, f.copies.map CopyReq.queue)) = some (false, none, [4064])
      ∧ (sharing.frame 0).map (fun f => (f.mirrorShare, f.mirror.map Prod.fst)) = some (true, some 0) ∧ sharing.calm = true
      ∧ sharing.expandQ 7 = [0] ∧ (expanding.queue 4064).copies = [] ∧ expanding.queueOpen 4064 = true ∧ expanding.safetyShut 4064 = false
      ∧ (expanding.setF (F.PORT_LINK_STATUS_link_up 127 0) 0).queueOpen 4064 = false
      ∧ ({ linked.setF F.SAF_SAFETY_QMAP_safety_q 255 with dev := .safeHold } : State).safetyShut 4064 = true
      ∧ ({ (mirroring false 100 toCpu).setF F.SAF_SAFETY_CPUQ_LO_cpuq_lo 1 with dev := .safeHold } : State).safetyShut 4096 = true := by
  decide +kernel

theorem wit_ExpansionAndMirrorBuild_jobs :
    lit.mirrorJob = none ∧ (mirroring true 0 .empty).calm = true ∧ (mirroring true 0 .empty).mirrorJob.map (fun j => (j.frame, j.session)) = some (0, 0)
      ∧ ((mirroring false 0 toCpu).ashPhys 0).session 0 = ⟨true, true, 0, 0, 0, 0, false, 0, []⟩
      ∧ ((mirroring false 0 toCpu).frame 0).map (fun f => (f.bank, f.bad, f.len)) = some (0, false, 64)
      ∧ (mirroring false 0 toCpu).poolGrants 12 1 = false ∧ (mirroring false 100 toCpu).poolGrants 12 1 = true
      ∧ ((mirroring false 100 toCpu).pool 12).used + 1 ≤ ((mirroring false 100 toCpu).pool 12).onchip
      ∧ (mirroring false 100 toCpu).queueOpen 4096 = true
      ∧ (mirroring false 100 toCpu).depthOf 4096 + 1 ≤ 16 * (mirroring false 100 toCpu).getF (F.BUF_QCFG_A_q_limit 4096)
      ∧ (mirroring false 100 toCpu).calm = true ∧ (mirroring false 100 toCpu).mirrorJob.map (fun j => j.entry.valid) = some true
      ∧ (mirroring false 100 toCpu).quotaLeft false 12 1 = true ∧ (mirroring false 100 toCpu).safetyShut 4096 = false
      ∧ 16 * ((mirroring false 100 toCpu).setF (F.BUF_QCFG_A_q_limit 4096) 0).getF (F.BUF_QCFG_A_q_limit 4096)
        < ((mirroring false 100 toCpu).setF (F.BUF_QCFG_A_q_limit 4096) 0).depthOf 4096 + 1
      ∧ (mirroring false 100 toPort).queueOpen 4160 = false ∧ (mirroring false 100 toPort).mirrorJob.map (fun j => j.entry.toCpu) = some false
      ∧ ((mirroring false 0 .empty).setFrame 0 none).mirrorJob.isSome = true := by decide +kernel

/-- A copy of frame 0 waits in queue 0 of P508. -/
def queued : State := ((linked.setF (F.PORT_MAC_CFG_tx_en 127 0) 1).setFrame 0 (some whole)).setQueue 4064 { Queue.init with copies := [copyOf0] }

/-- Its max_frame is 40: no copy of 64 bytes may go. -/
def tooLong : State := queued.setF (F.PORT_MAC_CFG_max_frame 127 0) 40

/-- The scheduler has selected the queue. -/
def selected : State := after (.selection 508) queued

/-- The copy is being sent. -/
def leaving : State := after (.frameStart 508) selected

/-- A Meridian frame is being sent; another waits in the skid buffer. -/
def meridian (tx skid : Bool) : State :=
  let t : TxFrame := { lit.meridianTx 504 (opening 60 0x88F7) with len := 60 }
  linked.setPort 508 { linked.port 508 with tx := if tx then some t else none, skid := if skid then [t] else [] }

theorem wit_Egress :
    queued.calm = true ∧ (queued.port 508).tx = none ∧ (queued.port 508).held = none ∧ (queued.port 508).sel = none
      ∧ (queued.wakePort 508).selectQueue 508 false = some 4064 ∧ ((queued.wakePort 508).queue 4064).copies = [copyOf0]
      ∧ (queued.wakePort 508).lossOf 508 4064 copyOf0 = none ∧ (tooLong.wakePort 508).lossOf 508 4064 copyOf0 = some (0, 508, 23)
      ∧ (linked.wakePort 508).selectQueue 508 false = none ∧ selected.calm = true ∧ (selected.port 508).sel = some 4064
      ∧ selected.stillEligible 508 4064 = true
      ∧ (selected.setF (F.PORT_LINK_STATUS_link_up 127 0) 0).stillEligible 508 4064 = false := by decide +kernel

theorem wit_Egress_ends :
    (meridian true false).calm = true ∧ ((meridian true false).port 508).tx.map (fun t => (t.meridian, t.len, t.stomp)) = some (true, 60, none)
      ∧ ((meridian false true).port 508).skid.length = 1 ∧ ((meridian true true).port 508).tx.isSome = true ∧ leaving.calm = true
      ∧ (leaving.port 508).tx.map (fun t => (t.meridian, t.flow, t.stomp, t.cut, t.frame)) = some (false, none, none, false, 0)
      ∧ (leaving.frame 0).map (fun f => (f.ended, f.bad, f.cellBad)) = some (true, false, false) := by decide +kernel

/-- A preemptable frame is being sent while a copy waits in an express queue of the same port. -/
def beside : State :=
  queued.setPort 508 { queued.port 508 with tx := some { TxFrame.unbilled [] 1000 with pre := true, frag := 64 } }

/-- A preemptable frame is held, and nothing else waits. -/
def resuming : State := linked.setPort 508 { linked.port 508 with held := some { TxFrame.unbilled [] 1000 with pre := true, frag := 64 } }

/-- The Meridian frame being sent has been stomped, or has not arrived whole. -/
def endingBadly (stomp : Bool) : State :=
  let t : TxFrame := { lit.meridianTx 504 (opening 60 0x88F7) with len := if stomp then 60 else 0, stomp := if stomp then some .collision else none }
  linked.setPort 508 { linked.port 508 with tx := some t }

theorem wit_Egress_more :
    beside.calm = true ∧ (beside.port 508).tx.any TxFrame.pre = true ∧ (beside.port 508).selExpress = none
      ∧ (beside.wakePort 508).selectQueue 508 true = some 4064 ∧ beside.lossOf 508 4064 copyOf0 = none
      ∧ ((meridian false true).port 508).skid ≠ [] ∧ (meridian false true).calm = true ∧ pressed.fcWaits 508 = true
      ∧ ((meridian false true).skidCheck 508).calm = true ∧ (((meridian false true).skidCheck 508).port 508).tx = none
      ∧ (((meridian false true).skidCheck 508).port 508).skid ≠ [] ∧ (selected.port 508).skid = [] ∧ selected.fcWaits 508 = false
      ∧ (selected.port 508).selExpress = none ∧ (selected.port 508).tx = none ∧ (selected.port 508).held = none
      ∧ (selected.queue 4064).copies = [copyOf0] ∧ selected.lossOf 508 4064 copyOf0 = none
      ∧ (selected.setF (F.PORT_MAC_CFG_max_frame 127 0) 40).lossOf 508 4064 copyOf0 = some (0, 508, 23)
      ∧ ((selected.setQueue 4064 Queue.init).queue 4064).copies = [] := by decide +kernel

theorem wit_Egress_held :
    resuming.calm = true ∧ (resuming.port 508).tx = none ∧ (resuming.port 508).held.isSome = true ∧ (resuming.port 508).skid = []
      ∧ resuming.fcWaits 508 = false ∧ (resuming.port 508).selExpress = none ∧ (resuming.port 508).sel = none
      ∧ resuming.holdOn 508 = false ∧ resuming.selectQueue 508 true = none
      ∧ [true, false].all (fun b => (endingBadly b).calm && (((endingBadly b).port 508).tx.any TxFrame.meridian)) = true
      ∧ ((endingBadly true).port 508).tx.map (fun t => (t.len, t.stomp)) = some (60, some .collision)
      ∧ ((endingBadly false).port 508).tx.map TxFrame.len = some 0 ∧ (queued.queue 4064).copies = [copyOf0]
      ∧ (linked.queue 4064).copies = [] := by decide +kernel

/-- The copy in queue 4064 has passed the age limit of 1 us. -/
def old : State := { queued.setF (F.BUF_QCFG_B_age_limit 4064) 1 with now := 2000 }

/-- Its frame lies in HBM, alone, behind 100 cells on chip with no window, or aged. -/
def remote : State := queued.setFrame 0 (some { whole with inHbm := true })

/-- See remote. -/
def distant : State :=
  (remote.setF F.BUF_PREFETCH_CFG_prefetch_window 0).setQueue 4064
    { Queue.init with copies := [{ copyOf0 with frame := 1, charge := 100 }, copyOf0] }

/-- See remote. -/
def stale : State := { remote.setF (F.BUF_QCFG_B_age_limit 4064) 1 with now := 2000 }

theorem wit_Egress_buffer :
    queued.aged 4064 copyOf0 = false ∧ old.calm = true ∧ old.aged 4064 copyOf0 = true ∧ remote.calm = true
      ∧ remote.copyInHbm copyOf0 = true ∧ remote.prefetched + copyOf0.charge ≤ 32768
      ∧ (remote.frame 0).map (fun f => (f.ended, f.cells)) = some (true, []) ∧ (remote.queue 4064).flush = []
      ∧ ((remote.flushQueue 4064).queue 4064).flush.any (remote.flushQueue 4064).copyInHbm = true
      ∧ (remote.flushQueue 4064).calm = true ∧ (remote.queue 4064).flush.any remote.copyInHbm = false
      ∧ remote.nextHbm 0 (remote.queue 4064).copies = some (0, copyOf0) ∧ remote.aged 4064 copyOf0 = false
      ∧ linked.nextHbm 0 (linked.queue 4064).copies = none ∧ distant.calm = true
      ∧ distant.nextHbm 0 (distant.queue 4064).copies = some (100, copyOf0)
      ∧ distant.getF F.BUF_PREFETCH_CFG_prefetch_window = 0 ∧ stale.calm = true ∧ stale.aged 4064 copyOf0 = true
      ∧ stale.nextHbm 0 (stale.queue 4064).copies = some (0, copyOf0)
      ∧ (expanding.frame 0).map (fun f => ({ f with inHbm := true } : Frame).ended) = some false := by decide +kernel

/-- R211: a flushed copy counts in q_flush at once, reads as flushing, and is released in the next core cycle. -/
theorem test_flush_takes_a_cycle :
    let s := queued.flushQueue 4064
    (s.queue 4064).copies = [] ∧ s.ctrShown 6 4064 4 = 1 ∧ (s.queue 4064).depth = copyOf0.charge
      ∧ (s.flushCycle.queue 4064).depth = 0 ∧ s.flushCycle.frame 0 = none := by decide +kernel


/-- RX ring 0 runs, CPU queue 0 is mapped to it, and a copy of frame 0 waits there. -/
def forCpu : State :=
  (((runRing armed 0x80 4).setF (F.HIF_CPUQ_MAP_enable 0) 1).setFrame 0 (some whole)).setQueue 4096 { Queue.init with copies := [copyOf0] }

theorem wit_CpuPort_rx :
    forCpu.calm = true ∧ forCpu.wakeCpu.pickCpu = some 0 ∧ (forCpu.wakeCpu.queue 4096).copies = [copyOf0]
      ∧ copyOf0.frame = 0 ∧ forCpu.wakeCpu.frame 0 = some whole ∧ forCpu.wakeCpu.cpuLoss 4096 copyOf0 whole = none
      ∧ forCpu.wakeCpu.getB (F.HIF_CPUQ_MAP_enable 0) = true ∧ forCpu.wakeCpu.ringRuns 0x80 = true
      ∧ forCpu.wakeCpu.getF (F.HIF_CPUQ_MAP_rx_ring 0) = 0 := by decide +kernel
/-! ### Learning -/

/-- Pipeline 7 has an event at the head of its apply FIFO, and a way. -/
def hearing (e : BusEvent) (ways : List (Nat × Option MacEntry)) : State :=
  armed.setTab 7 { PipeTab.init with fifo := [e], ways := ways }

/-- A learned entry of VLAN 1, MAC 5 on port 3. -/
def known : MacEntry := (lit.tab 7).fresh 1 5 3

/-- The first candidate way of that key. -/
def way0 : Nat := ((lit.tab 7).cands 1 5).headD 0

/-- A static entry of the same key. -/
def fixed : MacEntry := staticWay 1 5 0 9 1

theorem wit_LearnBus :
    let s := armed.setTab 7 { PipeTab.init with queue := [.learn 1 5 3 7] }
    s.calm = true ∧ s.ksBusy = false ∧ s.activeUnit = some .a ∧ s.pipesOn = [0, 1, 2, 3, 4, 5, 6, 7]
      ∧ s.pipesOn.all (fun n => decide ((s.tab n).fifo.length ≤ 61)) = true ∧ s.key.ks.ctl = [] ∧ s.nextLearner = some 7
      ∧ (s.tab 7).queue = [.learn 1 5 3 7] ∧ (armed.setUnit .a 0).calm = true ∧ (armed.setUnit .a 0).activeUnit = none
      ∧ armed.getF (F.PIPE_LRN_GLOBAL_age_time 0) ≠ 0 ∧ (armed.setF (F.PIPE_LRN_GLOBAL_age_time 0) 0).getF (F.PIPE_LRN_GLOBAL_age_time 0) = 0 := by
  decide +kernel

theorem wit_LearnBus_apply :
    let s := hearing (.learn 1 5 3 0) []
    let t := hearing (.learn 1 5 3 0) [(way0, some known)]
    s.calm = true ∧ s.domainOn 24 = true ∧ (s.tab 7).flushing = none ∧ (s.tab 7).fifo = [.learn 1 5 3 0]
      ∧ (s.tab 7).find 1 5 (fun e => e.static) = none ∧ (s.tab 7).find 1 5 (fun e => !e.static) = none
      ∧ ((s.tab 7).insert known).isSome = true ∧ (t.tab 7).find 1 5 (fun e => !e.static) = some (way0, known) ∧ known.port = 3
      ∧ known.frozen = false ∧ (t.setF (F.PIPE_LRN_GLOBAL_move_limit 0) 0).getF (F.PIPE_LRN_GLOBAL_move_limit 0) = 0
      ∧ (hearing (.learn 1 5 3 0) [(way0, some { known with frozen := true })]).calm = true
      ∧ (hearing (.refresh 1 5 3 0) [(way0, some known)]).calm = true ∧ (hearing .sweep []).calm = true ∧ (hearing .epoch []).calm = true
      ∧ (hearing (.flush 0 0 0 0 0) []).calm = true := by decide +kernel

/-- Every candidate way of the key holds an entry. -/
def fullOf (e : MacEntry) : PipeTab := ((lit.tab 7).cands 1 5).foldl (fun t w => t.setWay w (some e)) PipeTab.init

/-- Pipeline 7 has a LEARN of that key at the head of its apply FIFO and no way free for it. -/
def packed (e : MacEntry) : State := armed.setTab 7 { fullOf e with fifo := [.learn 1 5 3 0] }

/-- Its entries have bad parity, or are frozen and of another address. -/
def evictable : State := packed { known with parityGood := false }

/-- See evictable. -/
def unmovable : State := packed { known with mac := 6, frozen := true }

theorem wit_LearnBus_eviction :
    [evictable, unmovable].all (fun s => s.calm && s.domainOn 24 && (s.tab 7).flushing.isNone && ((s.tab 7).find 1 5 fun _ => true).isNone
        && ((s.tab 7).insert known).isNone) = true
      ∧ (evictable.tab 7).victims 1 5 ≠ [] ∧ ((evictable.tab 7).oldest ((evictable.tab 7).victims 1 5)).isSome = true
      ∧ (unmovable.tab 7).victims 1 5 = [] ∧ (evictable.setF (F.PIPE_LRN_CTRL_evict_mode 7) 1).getB (F.PIPE_LRN_CTRL_evict_mode 7) = true
      ∧ (evictable.setF (F.PIPE_LRN_CTRL_evict_mode 7) 0).getB (F.PIPE_LRN_CTRL_evict_mode 7) = false := by decide +kernel

theorem wit_LearnBus_moves :
    let s := hearing (.learn 1 5 4 7) [(way0, some { known with moveCount := 2 })]
    let t := hearing (.learn 1 5 3 0) [(way0, some fixed)]
    (s.tab 7).find 1 5 (fun e => !e.static) = some (way0, { known with moveCount := 2 }) ∧ known.port ≠ 4 ∧ s.calm = true
      ∧ (s.setF (F.PIPE_LRN_GLOBAL_move_limit 0) 3).getF (F.PIPE_LRN_GLOBAL_move_limit 0) = 3
      ∧ (s.setF (F.PIPE_LRN_GLOBAL_move_limit 0) 2).getF (F.PIPE_LRN_GLOBAL_move_limit 0) = 2
      ∧ (t.tab 7).find 1 5 (fun e => e.static) = some (way0, fixed) ∧ t.calm = true
      ∧ ((hearing (.refresh 1 5 3 0) []).tab 7).find 1 5 (fun e => !e.static) = none := by decide +kernel

/-- A control event waits, in a gap in the second state, behind a FIFO that is nearly full in the third. -/
def issued : State := armed.setKs fun k => { k with ctl := [.sweep] }

/-- See issued. -/
def issuedInGap : State := { issued with key := { issued.key with gapEnd := some 96 } }

/-- See issued. -/
def jammed : State := issued.setTab 7 { PipeTab.init with fifo := List.replicate 62 .sweep }

theorem wit_LearnBus_grants :
    issued.calm = true ∧ issued.inGap = false ∧ issued.activeUnit.isSome = true ∧ issued.key.ks.ctl = [.sweep]
      ∧ issued.pipesOn.all (fun n => decide ((issued.tab n).fifo.length ≤ 61)) = true ∧ issuedInGap.calm = true ∧ issuedInGap.inGap = true
      ∧ issuedInGap.ksBusy = true ∧ jammed.calm = true ∧ jammed.pipesOn.all (fun n => decide ((jammed.tab n).fifo.length ≤ 61)) = false
      ∧ armed.key.ks.ctl = [] ∧ armed.nextLearner = none ∧ (armed.setDomain 24 false).domainOn 24 = false
      ∧ ((armed.setTab 7 { PipeTab.init with flushing := some 0 }).tab 7).flushing.isSome = true := by decide +kernel

/-- A pass of pipeline 7 stands at its last bucket, or in the middle, with one entry to visit. -/
def sweeping (b : Nat) (e : MacEntry) : State :=
  armed.setTab 7 { PipeTab.init with pass := 3, sweep := some b, ways := [(2 * b, some e)] }

theorem wit_LearnBus_sweep :
    [(0, fixed), (65535, { known with seen := 3 }), (65534, { known with seen := 2, frozen := true }),
        (65535, { known with seen := 2, frozen := false, hit := true }), (0, { known with seen := 2, hit := false, stale := true }),
        (7, { known with seen := 2, hit := false, stale := false })].all (fun x =>
      decide (((sweeping x.1 x.2).tab 7).sweep = some x.1) && ((sweeping x.1 x.2).tab 7).flushing.isNone
        && decide (((sweeping x.1 x.2).tab 7).way (2 * x.1) = some x.2) && decide (((sweeping x.1 x.2).tab 7).pass = 3)) = true
      ∧ fixed.static = true ∧ known.static = false ∧ known.frozen = false
      ∧ ({ issued with key := { issued.key with replay := true } } : State).calm = true
      ∧ ({ issued with key := { issued.key with replay := true } } : State).inGap = false := by decide +kernel

theorem wit_StaticEntriesAndChecks :
    ((hearing (.staticAdd 1 5 0 9 2) []).tab 7).findStatic 1 5 0 9 = none
      ∧ ((hearing (.staticAdd 1 5 0 9 2) [(way0, some fixed)]).tab 7).findStatic 1 5 0 9 = some (way0, fixed)
      ∧ (hearing (.staticAdd 1 5 0 9 2) [(way0, some fixed)]).calm = true
      ∧ ((lit.tab 7).insert (staticWay 1 5 0 9 2)).isSome = true
      ∧ ((hearing .sweep [(2, some { known with parityGood := false })]).tab 7).way 2 = some { known with parityGood := false }
      ∧ [3, 131074, 131075].all (fun w => ((hearing .sweep [(2, some { known with parityGood := false })]).tab 7).way w |>.all
          MacEntry.parityGood) = true
      ∧ ((hearing (.staticMask 1 5 0 9 2) [(way0, some fixed)]).tab 7).findStatic 1 5 0 9 = some (way0, fixed)
      ∧ (hearing (.staticDel 1 5 0 9) []).calm = true ∧ ((hearing (.staticDel 1 5 0 9) []).tab 7).findStatic 1 5 0 9 = none
      ∧ [0, 1, 131072, 131073].all (fun w => ((lit.tab 7).way w).all MacEntry.parityGood) = true := by decide +kernel

/-- One host route with bad parity; one TCAM entry that differs from the store; a bank that drains. -/
def worn : State :=
  { armed with hr := [⟨9, 0, false, 1, 0, 0, 1, false⟩], tcam := [(5, some ⟨false, 0, 0, false, 0, 0, 0, 0, 1, false⟩)], draining := true }

theorem wit_StaticEntriesAndChecks_others :
    worn.calm = true ∧ (worn.hr.map fun e => (e.unit, e.parityGood)) = [(9, false)]
      ∧ (SMap.get (fun _ => none) 5 worn.tcam).map TcamEntry.good = some false ∧ worn.draining = true ∧ worn.drainingFrames = false
      ∧ worn.loads = [] ∧ armed.draining = false ∧ worn.domainOn 37 = true ∧ (worn.setDomain 37 false).domainOn 37 = false
      ∧ (worn.setDomain 37 false).calm = true ∧ worn.key.log.length < 767 ∧ SMap.get (fun _ => none) 6 worn.tcam = none
      ∧ ({ worn with loads := [⟨0, false, true, .empty, 0, [], false⟩] } : State).draining = true
      ∧ ({ worn with loads := [⟨0, false, true, .empty, 0, [], false⟩] } : State).drainingFrames = false
      ∧ ({ worn with loads := [⟨0, false, true, .empty, 0, [], false⟩] } : State).stopped = false := by decide +kernel

/-! ### Power and Plumb -/

/-- A request for 760 W waits. -/
def waiting : State := lean.setKs fun k => { k with queue := [⟨6, 0, 7600⟩] }

/-- Domain `d` is off and rising. -/
def rising (d : Nat) : State :=
  let s := lit.setDomain d false
  { s with pwr := { s.pwr with rising := [d] } }

/-- Stack 0 is being trained, stack 1 has been. -/
def trained : State :=
  let s := lit.setKs fun k => { k with grants := [⟨2, 0, 150⟩] }
  { s with pwr := { s.pwr with trained := [1] } }

theorem wit_PowerAndPlumb :
    waiting.key.ks.queue = [⟨6, 0, 7600⟩] ∧ (waiting.setKs fun k => { k with queue := [] }).calm = true ∧ waiting.ksBusy = false
      ∧ waiting.key.log.length < 767 ∧ lit.calm = true ∧ lit.switchable 16 = true ∧ lit.domainOn 16 = true
      ∧ (lit.dependants 16 ++ [16]).all (fun y => decide (lit.offRefusal y = 0)) = true ∧ lit.pwr.rising = []
      ∧ (rising 16).calm = true ∧ (rising 16).domainOn 16 = false ∧ (rising 24).calm = true ∧ (rising 28).calm = true
      ∧ (rising 33).calm = true ∧ lit.pwr.phase = .none ∧ lit.holdsGrant 2 1 = false ∧ trained.calm = true
      ∧ ((rising 1).setDomain 17 false).calm = true ∧ (((rising 1).setDomain 17 false).requires 1).all ((rising 1).setDomain 17 false).domainOn = false
      ∧ ((rising 1).requires 1).all (rising 1).domainOn = true ∧ 1 ∈ (rising 1).pwr.rising ∧ (rising 1).pwr.fails = []
      ∧ ((rising 24).requires 24).all (rising 24).domainOn = true ∧ ((rising 28).requires 28).all (rising 28).domainOn = true
      ∧ ((rising 33).requires 33).all (rising 33).domainOn = true ∧ (rising 33).key.log.length < 767
      ∧ trained.holdsGrant 2 0 = true ∧ trained.domainOn 27 = true ∧ trained.domainOn 28 = true ∧ trained.pwr.trained = [1] := by
  decide +kernel

/-- A phase of the way to OFF or of a Plumb operation. -/
def phased (p : Phase) : State := { lean with pwr := { lean.pwr with phase := p } }

theorem wit_PowerAndPlumb_phases :
    (phased (.draining true)).calm = true ∧ (phased (.draining false)).calm = true ∧ (phased (.plumb 1 false [])).calm = true
      ∧ (phased (.plumb 1 false [])).permanent + (phased (.plumb 1 false [])).transient + 60 ≤ (phased (.plumb 1 false [])).budget
      ∧ (phased (.plumb 4 true [])).calm = true ∧ (phased (.bootTest 4)).calm = true ∧ (phased (.plumb 1 false [])).ksBusy = false
      ∧ (phased (.plumb 1 false [])).key.deferred = [] ∧ (phased (.plumb 1 false [])).key.doubleFault = false
      ∧ 4 < (phased (.plumb 4 true [])).lastStep ∧ (phased (.plumb 6 true [])).lastStep ≤ 6 ∧ (phased (.plumb 6 true [])).calm = true
      ∧ (lean.setF F.PLB_STATUS_plb_state 2).pwr.phase = .none ∧ (lean.setF F.PLB_STATUS_plb_state 2).getF F.PLB_STATUS_plb_state = 2
      ∧ (phased (.bootTest 5)).stopped = false ∧ lean.stopped = false
      ∧ (List.range 16).all (fun k => decide ((((phased (.draining true)).setF F.BUF_CTRL_hbm_en 0).pool k).usedHbm = 0)) = true
      ∧ ((((phased (.draining true)).setPool 3 { lit.pool 3 with usedHbm := 5 }).setF F.BUF_CTRL_hbm_en 0).pool 3).usedHbm = 5 := by
  decide +kernel

/-- A power-up ends in a gap; a budget that just holds a training of stack 0, and one that does not. -/
def risingInGap : State := { rising 16 with key := { (rising 16).key with gapEnd := some 96 } }

/-- See risingInGap. -/
def budgeted (x : Nat) : State := lit.setF F.PWR_BUDGET_budget (lit.permanent + x)

theorem wit_PowerAndPlumb_gap :
    risingInGap.calm = true ∧ risingInGap.inGap = true ∧ risingInGap.ksBusy = true ∧ lit.inGap = false ∧ 16 ∉ lit.pwr.rising
      ∧ (budgeted 150).calm = true ∧ (budgeted 150).ksBusy = false ∧ (budgeted 150).key.doubleFault = false
      ∧ (budgeted 150).dev ≠ .parking ∧ (budgeted 150).dev ≠ .off ∧ (budgeted 150).domainOn 27 = true ∧ (budgeted 150).domainOn 28 = true
      ∧ (budgeted 150).holdsGrant 2 1 = false ∧ (budgeted 150).key.log.length < 767
      ∧ (budgeted 150).permanent + (budgeted 150).transient + 150 = (budgeted 150).budget
      ∧ (budgeted 149).budget < (budgeted 149).permanent + 150 ∧ (rising 24).key.logOn = false
      ∧ ((rising 1).setDomain 17 false).inGap = false ∧ 1 ∈ ((rising 1).setDomain 17 false).pwr.rising
      ∧ (phased (.plumb 4 true [])).pwr.phase = .plumb 4 true [] ∧ (phased (.bootTest 5)).calm = true := by decide +kernel
/-! ### Ill-formed operands: one term for each check -/

theorem smoke_descriptors :
    (Instr.nop { cmd 0 0 [] with ring := 64 }).wf = false ∧ (Instr.nop { cmd 0 0 [] with tag := 2 ^ 32 }).wf = false
      ∧ (Instr.nop (cmd (2 ^ 64) 0 [])).wf = false ∧ (Instr.nop (cmd 0 (2 ^ 32) [])).wf = false
      ∧ (Instr.nop { cmd 0 0 [] with rsv20 := 2 ^ 32 }).wf = false ∧ (Instr.nop { cmd 0 0 [] with inl := [] }).wf = false
      ∧ (Instr.nop (cmd 0 0 [])).wf = true := by decide +kernel

theorem smoke_accesses :
    (Instr.registerRead 32 0 4).wf = false ∧ (Instr.registerRead 0 (2 ^ 25) 4).wf = false ∧ (Instr.registerRead 0 0 3).wf = false
      ∧ (Instr.registerWrite 0 0 8 0).wf = true ∧ (Instr.apply 0 128 1).wf = false ∧ (Instr.accTableWrite 0 152 0 0).wf = false
      ∧ (Instr.accTableWrite 0 0 32 0).wf = false ∧ (Instr.shaperEnable 0 (.queue 4176) 0).wf = false
      ∧ (Instr.shaperEnable 0 (.port 512) 0).wf = false ∧ (Instr.frerReset 0 8 0).wf = false ∧ (Instr.ringEnable 0 0x102 0).wf = false
      ∧ (Instr.channelEnable 0 32 0).wf = false ∧ (Instr.pcCfgWrite 0 2048 0).wf = false := by decide +kernel

theorem smoke_rest :
    (Instr.linkUp 512).wf = false ∧ (Instr.pauseTimerExpiry 0 8).wf = false ∧ (Instr.wakeDetect 0 4).wf = false
      ∧ (Instr.refClockLoss 4).wf = false ∧ (Instr.flitError (.port 16 none)).wf = false ∧ (Instr.headerResolve ⟨8, false⟩).wf = false
      ∧ (Instr.cpuTx 0xBF false).wf = false ∧ (Instr.ageHeadScan 4176).wf = false ∧ (Instr.scrub (.cell (2 ^ 28))).wf = false
      ∧ (Instr.tableCheck (.learned 0 131072)).wf = false ∧ (Instr.tableCheck (.hostRoute 65536)).wf = false
      ∧ (Instr.tcamCheck 131072).wf = false ∧ (Instr.latentTest 8192).wf = false
      ∧ (Instr.faultReport ⟨256, 0, 0⟩).wf = false ∧ (Instr.leaveReturn (.domainOff 38)).wf = false
      ∧ (Instr.leaveReturn (.grant 8 0)).wf = false ∧ (Instr.domainPowerUpDone 38 true).wf = false
      ∧ (Instr.hbmTrainingDone 2).wf = false ∧ (Instr.leaveReturn (.retrain 2)).wf = false
      ∧ (Instr.leaveReturn (.firmware 0 65536)).wf = false ∧ (Instr.plumbStepEnd [] 0).wf = false ∧ (Instr.plumbStepEnd [] 7).wf = false ∧ (Instr.flr 16).wf = false ∧ (Instr.hostLinkUp 8 1).wf = false
      ∧ (Instr.anDone 512 0 ⟨false, false, false, false⟩ false).wf = false
      ∧ (Instr.anDone 0 2048 ⟨false, false, false, false⟩ false).wf = false ∧ (Instr.frameRxEnd 512 [] true ⟨false, 0, false⟩).wf = false
      ∧ (Instr.prefetchRead ⟨4176, []⟩).wf = false := by decide +kernel

/-- R422, R436: a failing net at the last instance and net of each class, one beyond each, and without a kind. -/
theorem smoke_nets :
    [⟨1, 0, 148, 1⟩, ⟨2, 511, 3, 2⟩, ⟨3, 8, 3, 3⟩, ⟨4, 3, 2047, 1⟩, ⟨5, 2, 79, 1⟩, ⟨6, 31, 95, 1⟩].all netOk = true
      ∧ [⟨0, 0, 1, 1⟩, ⟨1, 1, 148, 1⟩, ⟨1, 0, 149, 1⟩, ⟨2, 512, 3, 2⟩, ⟨3, 8, 4, 3⟩, ⟨4, 4, 2047, 1⟩, ⟨5, 2, 80, 1⟩, ⟨6, 32, 95, 1⟩,
        ⟨7, 0, 0, 1⟩, ⟨1, 0, 148, 0⟩, ⟨1, 0, 148, 4⟩].all (fun n => !netOk n) = true := by decide +kernel

/-! ### Values that the manual gives -/

/-- The published check value of CRC-32C: the nine ASCII digits from 1 to 9. -/
theorem test_crc32c : crc32c ((List.range 9).map fun i => BitVec.ofNat 8 (0x31 + i)) = 0xE3069283 := by decide +kernel

/-- R70: the nominal increment is 666,370,683,501 units of 2^-40 ns, and while the servo is DISABLED the current one equals it. -/
theorem test_rate : State.reset.rateNow = 666370683501 := by decide +kernel

/-- The table gives its rows no bits, so no word spells a command. -/
theorem test_words_spell_nothing (n w : Nat) : decodeTableWord n w = none := rfl

end Sys2Proof.Tests
end

/-! ### The cells that ONCHIP_AVAIL and HBM_AVAIL report (R197, R217) -/

section
namespace Sys2Proof.Machine

/-- A retired logical channel that the spare does not replace (R197). -/
def State.hbmGone (s : State) (c : Nat) : Bool :=
  s.getFBit F.BUF_HBM_RETIRED_retired c
    && !(s.getB F.BUF_HBM_SPARE_MAP_in_use && decide (s.getF F.BUF_HBM_SPARE_MAP_replaced = c))

theorem hbmGone_eq_decide (s : State) (c : Nat) :
    s.hbmGone c = decide (s.getFBit F.BUF_HBM_RETIRED_retired c = true
      ∧ ¬ (s.getB F.BUF_HBM_SPARE_MAP_in_use = true ∧ s.getF F.BUF_HBM_SPARE_MAP_replaced = c)) := by
  simp [State.hbmGone]

theorem hbmAvail_of_disabled {s : State} (h : s.getB F.BUF_CTRL_hbm_en = false) : s.hbmAvail = 0 := by
  simp [State.hbmAvail, h]

theorem hbmAvail_of_enabled {s : State} (h : s.getB F.BUF_CTRL_hbm_en = true) (hpart : s.part.en = false) :
    s.hbmAvail = 4194304 * s.hbmLive.length := by
  simp [State.hbmAvail, h, hpart]

/-- R217 keeps a channel in use while it is relocated; with no relocation the usable channels are those not gone. -/
theorem hbmLive_of_not_relocating {s : State} (h : s.fab.hbmReloc = none) :
    s.hbmLive = (List.range (if s.fab.spareWanted then 31 else 32)).filter (!s.hbmGone ·) := by
  simp [State.hbmLive, State.hbmGone, h]

/-- The elements that fail a test are the ones left over by those that pass it. -/
theorem length_filter_not {α : Type} (p : α → Bool) (l : List α) :
    (l.filter (!p ·)).length = l.length - (l.filter p).length := by
  have split := l.length_eq_countP_add_countP p
  simp only [List.countP_eq_length_filter, Bool.not_eq_true, Bool.decide_eq_false] at split
  omega

theorem hbmLive_length_of_not_relocating {s : State} (h : s.fab.hbmReloc = none) :
    s.hbmLive.length = (if s.fab.spareWanted then 31 else 32)
      - ((List.range (if s.fab.spareWanted then 31 else 32)).filter s.hbmGone).length := by
  rw [hbmLive_of_not_relocating h, length_filter_not, List.length_range]

/-- Settles O27: the usable and the gone channels partition the 31 or 32 logical ones. -/
theorem cellsAvailable : Obligations.CellsAvailable := by
  intro s hspare hreloc
  refine ⟨rfl, hbmAvail_of_disabled, fun hen hpart => ?_⟩
  simp only [← hbmGone_eq_decide]
  rw [hbmAvail_of_enabled hen hpart, hbmLive_length_of_not_relocating hreloc, hspare]

end Sys2Proof.Machine
end

/-! ### What the writing of a completion keeps (R325, R326) -/

section
namespace Sys2Proof.Machine

/-- A sparse map reads as one of its entries, or as its default. -/
theorem SMap.get_eq_default_or_mem {α : Type} (d : Nat → α) (k : Nat) (m : SMap α) :
    SMap.get d k m = d k ∨ (k, SMap.get d k m) ∈ m := by
  induction m with
  | nil => exact .inl rfl
  | cons x r ih =>
    obtain ⟨j, v⟩ := x
    simp only [SMap.get]
    split
    next hkey => subst hkey; exact .inr (List.mem_cons_self ..)
    next => exact ih.imp id (List.mem_cons_of_mem _)

/-- Where no listed ring is being stopped, no ring is. -/
theorem ringRun_stopping_eq_false {s : State} (h : (s.hif.rings.all fun e => !e.2.stopping) = true) (r : Nat) :
    (s.ringRun r).stopping = false := by
  rcases SMap.get_eq_default_or_mem (fun _ => RingRun.init) r s.hif.rings with hget | hmem
  · exact congrArg RingRun.stopping hget
  · exact (Bool.not_eq_true' _).mp (List.all_eq_true.mp h _ hmem)

/-- The head of a ring stands in a register of its own: every other register of the block ends otherwise. -/
theorem ne_ringHead {a r : Nat} (h : a % 0x20 ≠ 0x10) : a ≠ Addr.HIF_RING_HEAD r := by
  unfold Addr.HIF_RING_HEAD; omega

namespace Keep

/-- A ring's run-time state changes, but not whether the ring is being stopped. -/
theorem setRingRun {s t : State} (k : Keep s t) (r : Nat) (x : RingRun) (h : x.stopping = (t.ringRun r).stopping) :
    Keep s (t.setRingRun r x) := by
  refine k.trans ⟨rfl, rfl, fun hrings => ?_, rfl, fun _ m => .inl m, rfl, rfl⟩
  refine List.all_eq_true.mpr fun e he => ?_
  rcases mem_set (fun _ => RingRun.init) r x t.hif.rings e he with rfl | hmem
  · rw [h, ringRun_stopping_eq_false hrings]; rfl
  · exact List.all_eq_true.mp hrings e hmem

theorem reserve {s t : State} (k : Keep s t) (q : Nat) (n : Int) : Keep s (t.reserve q n) := k.setRingRun q _ rfl

theorem ringAdvance {s t : State} (k : Keep s t) (r n : Nat) : Keep s (t.ringAdvance r n) :=
  k.setF _ _ (ne_ringHead (by decide)).symm

theorem entryPass {s t : State} (k : Keep s t) (r : Nat) : Keep s (t.entryPass r) := by
  unfold State.entryPass
  dsimp only
  split
  · have hmsix (fn vec : Nat) : Keep s (t.msix fn vec) := k.upd rfl rfl rfl rfl rfl rfl rfl rfl rfl rfl
    exact (hmsix _ _).setRingRun r _ rfl
  · exact k.setRingRun r _ rfl

theorem ringPass {s : State} (r n : Nat) : ∀ {t : State}, Keep s t → Keep s (t.ringPass r n) := by
  induction n with
  | zero => intro t k; exact k
  | succ n ih => intro t k; exact ih (k.entryPass r)

theorem putEntry {s t : State} (k : Keep s t) (q : Nat) (l : List Byte) : Keep s (t.putEntry q l) :=
  ringPass q 1 ((k.hostWrite l _).ringAdvance q 1)

theorem noteEntry {s t : State} (k : Keep s t) (q : Nat) (taken : Option Nat) (l : List Byte) : Keep s (t.noteEntry q taken l) :=
  k.upd rfl rfl rfl rfl rfl rfl rfl rfl rfl rfl

theorem writeCompletion {s t : State} (k : Keep s t) (ring op status tag seq r0 r1 : Nat) :
    Keep s (t.writeCompletion ring op status tag seq r0 r1) := by
  unfold State.writeCompletion
  dsimp only
  split
  · exact ((k.reserve _ _).noteEntry _ _ _).putEntry _ _
  · exact k.reserve _ _

theorem violation {s t : State} (k : Keep s t) (m kind target addr opcode : Nat) : Keep s (t.violation m kind target addr opcode) := by
  have hrecord (c : Bool) (v w : Word) : Keep s (t.doIf c fun u => (u.setReg Addr.ACC_VIOL_ADDR v).setReg Addr.ACC_VIOL_INFO w) :=
    k.doIf _ _ fun u => ((refl u).setReg _ _ (by decide)).setReg _ _ (by decide)
  refine raise (count ?_ 24 m 0) _ ?_
  · exact (hrecord _ _ _).upd rfl rfl rfl rfl rfl rfl rfl rfl rfl rfl
  · split
    · decide
    · split <;> decide

/-- A rejected command leaves its completion, its count and, where it was denied, the record of the violation (R327, R366). -/
theorem reject {s t : State} (k : Keep s t) (op fn : Nat) (d : CmdDesc) (code : Nat) : Keep s (t.reject op fn d code) := by
  refine writeCompletion (count ?_ _ _ _) _ _ _ _ _ _ _
  split
  · exact k.violation _ _ _ _ _
  · exact k

/-- The conductor log asks for something at its 768th and its 1,024th entry alone (R282). -/
theorem ksLog {s t : State} (k : Keep s t) (kind : LogKind) (h : t.key.log.length < 767) : Keep s (t.ksLog kind) := by
  unfold State.ksLog
  split
  · exact k
  · have h768 : t.key.log.length + 1 ≠ 768 := by omega
    have h1024 : t.key.log.length + 1 ≠ 1024 := by omega
    simp only [List.length_append, List.length_singleton, h768, h1024, decide_false, Bool.or_false]
    split
    · refine setF ?_ F.KEY_LOG_STATUS_log_peak _ (by decide)
      exact k.upd rfl rfl rfl rfl rfl rfl rfl rfl rfl rfl
    · exact k.upd rfl rfl rfl rfl rfl rfl rfl rfl rfl rfl

end Keep

/-! ### The end of an accepted command (R325, R331) -/

/-- The commands in flight without command `e`. -/
def State.retire (s : State) (e : InFlight) : State :=
  { s with hif := { s.hif with inflight := s.hif.inflight.filter fun f => decide (f.seq ≠ e.seq) } }

/-- A command of a ring ends: it is no longer in flight, the epoch and the log follow, and its completion is written where no reset has
taken it away. -/
theorem complete_of_ring (s : State) {e : InFlight} (h : e.parent = 0) (status r0 r1 : Nat) :
    let ep := match cmdInfo e.opcode with | some i => i.epoch | none => false
    let t := ((s.retire e).doIf ep State.bumpEpoch).logResult e.seq status
    s.complete e status r0 r1 =
      if (s.hif.inflight.find? fun f => decide (f.seq = e.seq)).elim e.noComp InFlight.noComp then t
      else t.writeCompletion e.ring e.opcode status e.tag e.seq r0 r1 := by
  unfold State.complete
  rw [if_neg (by simp [h])]
  rfl

/-- What keeps a state keeps it without a command. -/
theorem Keep.retire {s t : State} (k : Keep s t) (e : InFlight) : Keep (s.retire e) (t.retire e) :=
  ⟨k.queue, by unfold State.retire; rw [k.flight], k.rings, k.group, k.raised, k.log, k.fenced⟩

/-- The end of a command keeps what the state without it keeps. -/
theorem Keep.complete {s t : State} {e : InFlight} (k : Keep s (t.retire e)) (h : e.parent = 0) (status r0 r1 : Nat) :
    Keep s (t.complete e status r0 r1) := by
  rw [complete_of_ring t h]
  have hlog : ∀ ep : Bool, Keep s (((t.retire e).doIf ep State.bumpEpoch).logResult e.seq status) := fun ep =>
    (k.doIf ep _ fun u => (Keep.refl u).setF _ _ (by decide)).upd rfl rfl rfl rfl rfl rfl rfl rfl rfl rfl
  split
  · exact hlog _
  · exact (hlog _).writeCompletion _ _ _ _ _ _ _

theorem core_key (s : State) : s.core.key = s.key := rfl

@[simp] theorem writeCompletion_key (s : State) (ring op status tag seq r0 r1 : Nat) :
    (s.writeCompletion ring op status tag seq r0 r1).key = s.key := by
  have hput (t : State) (q : Nat) (l : List Byte) : (t.putEntry q l).key = t.key := by
    rw [← core_key, State.putEntry, ringPass_core, ringAdvance_core, hostWrite_core, core_key]
  unfold State.writeCompletion
  dsimp only
  split
  · exact hput _ _ _
  · rfl

/-- The end of a command leaves the Keystone pair. -/
theorem complete_key (s : State) {e : InFlight} (h : e.parent = 0) (status r0 r1 : Nat) :
    (s.complete e status r0 r1).key = s.key := by
  have hlog (ep : Bool) : (((s.retire e).doIf ep State.bumpEpoch).logResult e.seq status).key = s.key := by
    cases ep <;> rfl
  rw [complete_of_ring s h]
  split <;> simp only [writeCompletion_key, hlog]

/-! ### The taking of a command (R324, R327) -/

theorem keep_taking (s : State) (d : CmdDesc) : Keep s (s.taking d) :=
  (((Keep.refl s).hostPut _ _).ringAdvance _ _).reserve _ _

theorem ringAdvance_reg (s : State) (r n : Nat) {a : Nat} (h : a % 0x20 ≠ 0x10) : (s.ringAdvance r n).reg a = s.reg a :=
  reg_setF_other s (F.HIF_RING_HEAD_head r) (ne_ringHead h) _

/-- The taking of a command changes the head of its ring and no other register. -/
theorem taking_reg (s : State) (d : CmdDesc) {a : Nat} (h : a % 0x20 ≠ 0x10) : (s.taking d).reg a = s.reg a :=
  ringAdvance_reg (s.hostPut _ _) d.ring 1 h

theorem taking_ownerFn (s : State) (d : CmdDesc) (r : Nat) : (s.taking d).ownerFn r = s.ownerFn r := by
  unfold State.ownerFn State.getF
  rw [taking_reg s d (by simp only [F.HIF_RING_CFG_owner_fn, Addr.HIF_RING_CFG]; omega)]

/-- What holds where the entry at the head of a ring can be taken (R318, R319, R324). -/
theorem reaches_parts {s : State} {d : CmdDesc} (h : s.reaches d = true) : s.calm = true ∧ d.ring < 64 ∧ s.ringRuns d.ring = true
    ∧ (s.getB (F.HIF_RING_CFG_polling d.ring) = true ∨ s.ringSpan d.ring ≠ 0) ∧ d.ringErr = false ∧ s.ringOwn d.ring 0 = true
    ∧ (cmdInfo (s.headDesc d.ring).1).isSome = true ∧ s.entryFree (s.compRing d.ring) = true := by
  simpa only [State.reaches, Bool.and_eq_true, Bool.or_eq_true, decide_eq_true_eq, Bool.not_eq_true', and_assoc] using h

theorem calm_of_reaches {s : State} {d : CmdDesc} (h : s.reaches d = true) : s.calm = true := (reaches_parts h).1

/-- In a calm state a fence holds no command back. -/
theorem takeEntry_of_calm {s : State} (h : s.calm = true) (c : CmdDef) (op : Nat) (d : CmdDesc) :
    s.takeEntry c op d = (s.taking d).admitCommand c op d := by
  obtain ⟨-, hflight, -⟩ := calm_parts h
  have hfree (fn : Nat) : (s.taking d).fnBusy fn = false := by
    unfold State.fnBusy
    rw [(keep_taking s d).flight, hflight]; rfl
  refine if_neg fun hfence => ?_
  obtain ⟨-, hbusy⟩ := (Bool.and_eq_true _ _).mp hfence
  exact absurd hbusy (Bool.eq_false_iff.mp (hfree _))

/-- An entry that its command reaches is taken and checked, in polling mode and in doorbell mode. -/
theorem takeCommand_of_reaches {s : State} {d : CmdDesc} (h : s.reaches d = true) (c : CmdDef) (op : Nat) :
    s.takeCommand c op d = (s.taking d).admitCommand c op d := by
  obtain ⟨hcalm, hring, hruns, hspan, herr, hown, hknown, hentry⟩ := reaches_parts h
  obtain ⟨-, hflight, -, -, -, -, hfenced⟩ := calm_parts hcalm
  have hidle : s.ringBusy d.ring = false := by simp [State.ringBusy, hflight, hfenced]
  rw [← takeEntry_of_calm hcalm]
  unfold State.takeCommand
  dsimp only
  rw [if_neg (by simp [hring, hruns, hidle])]
  cases hpoll : s.getB (F.HIF_RING_CFG_polling d.ring) with
  | true => simp [herr, hown, hentry]
  | false =>
    have hpass (n : Nat) : s.passUnknown d.ring n = s := by
      cases n with
      | zero => rfl
      | succ n => simp [State.passUnknown, Option.isNone_eq_false_iff.mpr hknown]
    have hreads : s.readsHead d.ring = true := by
      simpa [State.readsHead, hring, hruns, hpoll, hidle] using hspan
    have hhead : s.headStop d.ring d.ringErr = none := by simp [State.headStop, hentry, herr, hown]
    simp [hpass, hreads, hhead]

/-- A command that fails a check of R327 is rejected with that check's code, and does nothing else. -/
theorem takes_reject {i : Instr} {s : State} {c : CmdDef} {op code : Nat} {d : CmdDesc}
    (hi : exec i s = run (fun t => t.takeCommand c op d) s) (h : s.reaches d = true)
    (hcode : (s.taking d).checkCommand c op (s.ownerFn d.ring) d = code) (hne : code ≠ 0) :
    Takes i s ((s.taking d).reject op (s.ownerFn d.ring) d code) := by
  have hcalm := calm_of_reaches h
  refine takes_keep hcalm ?_ ((keep_taking s d).reject _ _ _ _)
  rw [hi, run_calm hcalm, takeCommand_of_reaches h]
  unfold State.admitCommand
  dsimp only
  rw [taking_ownerFn, hcode]
  split
  · contradiction
  · rfl

/-! ### The course of an accepted command (R327, R341) -/

theorem reaches_of_accepts {s : State} {op : Nat} {d : CmdDesc} (h : s.accepts op d = true) : s.reaches d = true :=
  ((Bool.and_eq_true _ _).mp h).1

/-- An accepted command runs its body in the state that has accepted it. -/
theorem takeCommand_of_accepts {s : State} {op : Nat} {d : CmdDesc} (h : s.accepts op d = true) :
    s.takeCommand (cmdOf op) op d = (s.begun op d).2.runBody (cmdOf op) (s.begun op d).1 := by
  obtain ⟨hreach, hcheck⟩ := (Bool.and_eq_true _ _).mp h
  rw [takeCommand_of_reaches hreach]
  unfold State.admitCommand
  dsimp only
  rw [taking_ownerFn, of_decide_eq_true hcheck]
  rfl

theorem begun_ksBusy (s : State) (op : Nat) (d : CmdDesc) : (s.begun op d).2.ksBusy = s.ksBusy := rfl

theorem begun_domainOn (s : State) (op : Nat) (d : CmdDesc) (x : Nat) : (s.begun op d).2.domainOn x = s.domainOn x := by
  have hreg (a : Nat) (h : a % 0x20 ≠ 0x10) : (s.begun op d).2.reg a = s.reg a := taking_reg s d h
  unfold State.domainOn
  rw [hreg Addr.PWR_DOMAIN_ON_LO (by decide), hreg Addr.PWR_DOMAIN_ON_HI (by decide)]

/-- In a calm state the accepted command is the only one in flight. -/
theorem keep_begun_retire {s : State} (h : s.calm = true) (op : Nat) (d : CmdDesc) :
    Keep s ((s.begun op d).2.retire (s.begun op d).1) := by
  have k := keep_taking s d
  obtain ⟨-, hflight, -⟩ := calm_parts h
  refine ⟨k.queue, ?_, k.rings, k.group, k.raised, k.log, k.fenced⟩
  have hflown : (s.begun op d).2.hif.inflight = (s.taking d).hif.inflight ++ [(s.begun op d).1] := rfl
  unfold State.retire
  rw [hflown, k.flight, hflight]
  simp

/-- The Keystone pair is left by an accepted command as its effect leaves it. -/
theorem ended_key (s : State) (op : Nat) (d : CmdDesc) (f : State → State) (status r0 r1 : Nat) :
    (s.ended op d f status r0 r1).key = (f (s.begun op d).2).key := complete_key _ rfl status r0 r1

/-- An accepted command whose effect keeps ends with nothing left to do. -/
theorem keep_ended {s : State} {op : Nat} {d : CmdDesc} {f : State → State} (h : s.calm = true)
    (k : Keep (s.begun op d).2 (f (s.begun op d).2)) (status r0 r1 : Nat) : Keep s (s.ended op d f status r0 r1) :=
  ((keep_begun_retire h op d).trans (k.retire _)).complete rfl status r0 r1

/-- A body that ends at once completes the command; as a Keystone input outside gap and replay it is logged (R282, R286). -/
theorem runBody_of_done {s t : State} {c : CmdDef} {e : InFlight} {status r0 r1 : Nat} (hbusy : s.ksBusy = false)
    (hinput : keystoneInput e.opcode = true) (hbody : c.body e s = (.done status r0 r1, t)) :
    s.runBody c e = (t.complete e status r0 r1).ksLog .command := by
  simp [State.runBody, hbusy, hinput, hbody, State.answer, State.doIf]

end Sys2Proof.Machine
end

/-! ### POWER_DOMAIN (R389) -/

section
namespace Sys2Proof.Machine

/-- The domains that POWER_DOMAIN switches, without those that the part lacks. -/
theorem switchable_iff (s : State) (x : Nat) :
    s.switchable x = true ↔
      ((1 ≤ x ∧ x ≤ 24) ∨ (27 ≤ x ∧ x ≤ 33)) ∧ ¬ (s.part.en = true ∧ (x = 27 ∨ x = 28)) := by
  have hlt : (1 ≤ x ∧ x ≤ 24) ∨ (27 ≤ x ∧ x ≤ 33) → x < 38 := by omega
  simp only [State.switchable, State.hasDomain, Bool.and_eq_true, Bool.or_eq_true, Bool.not_eq_true', decide_eq_true_eq,
    ← Bool.not_eq_true]
  exact ⟨fun ⟨hx, _, hen⟩ => ⟨hx, hen⟩, fun ⟨hx, hen⟩ => ⟨hx, hlt hx, hen⟩⟩

theorem powerArgs_eq_zero_iff (s : State) (d : CmdDesc) :
    s.powerArgs d = 0 ↔ s.switchable (argLe d 24 1) = true ∧ argLe d 25 1 ≤ 1 := by
  unfold State.powerArgs
  split <;> simp_all

theorem powerArgs_of_not_switchable {s : State} {d : CmdDesc} (h : ¬ s.switchable (argLe d 24 1) = true) :
    s.powerArgs d = 2 := if_neg fun hargs => h hargs.1

/-- A request for the state that the domain already holds ends at once and changes nothing. -/
theorem powerBody_of_held {s : State} {x op : Nat} (h : op = 1 ↔ s.domainOn x = true) : s.powerBody x op = (.ok, s) := by
  unfold State.powerBody
  by_cases hop : op = 1
  · rw [if_pos hop, if_pos (h.mp hop)]
  · have hoff : s.domainOn x = false := Bool.eq_false_iff.mpr (mt h.mpr hop)
    rw [if_neg hop, if_pos (by rw [hoff]; rfl)]

/-- A POWER_DOMAIN that passes the checks before that of its arguments is checked for them (R327 step 6). -/
theorem checkCommand_power_of_args {s : State} {fn : Nat} {d : CmdDesc} (hclean : descClean d = true) (hopen : s.fnOpen fn = true)
    (hver : 0x300 ≤ s.fnVersion fn) (hacc : s.accessCode fn 3 0 = 2) (hdev : s.dev = .config ∨ s.dev = .ready ∨ s.dev = .degraded)
    (hargs : s.powerArgs d ≠ 0) : s.checkCommand (cmdOf 0x41) 0x41 fn d = s.powerArgs d := by
  have hinfo : cmdInfo 0x41 = some ⟨0x41, 0x300, 3, 2, [1, 2, 3], true, false⟩ := by decide
  have hpermitted : s.cmdPermitted ⟨0x41, 0x300, 3, 2, [1, 2, 3], true, false⟩ fn d = true := by
    simp [State.cmdPermitted, cmdTarget, hacc]
  have hlegal : s.dev.code ∈ [1, 2, 3] := by
    rcases hdev with hdev | hdev | hdev <;> rw [hdev] <;> decide
  have hdef : (cmdOf 0x41).args d s = s.powerArgs d := rfl
  unfold State.checkCommand
  rw [hinfo]
  dsimp only
  rw [if_neg (by simp [hclean]), if_neg (by simp [hopen, hver]), if_neg (by simp [hpermitted]), if_neg fun hillegal => hillegal hlegal,
    hdef, if_pos hargs]

/-- Settles O49: the check of the arguments names the domains, a failed check does nothing but reject, and the body answers a request for
the state that is held with the state it was given. -/
theorem powerDomainArguments : Obligations.PowerDomainArguments := by
  intro s d x named f
  have hnamed : s.switchable x = true ↔ named := switchable_iff s x
  have hexec : exec (.powerDomain d) s = run (fun t => t.takeCommand (cmdOf 0x41) 0x41 d) s := rfl
  refine ⟨?_, ?_, ?_⟩
  · exact (powerArgs_eq_zero_iff s d).trans (and_congr_left' hnamed)
  · intro hreach hclean hopen hver hacc hdev hnot
    have hargs : (s.taking d).powerArgs d = 2 := powerArgs_of_not_switchable (s := s.taking d) (mt hnamed.mp hnot)
    refine takes_reject hexec hreach ?_ (by decide)
    rw [checkCommand_power_of_args hclean hopen hver hacc hdev (by rw [hargs]; decide), hargs]
  · intro haccepts hbusy hlog hheld
    have hcalm := calm_of_reaches (reaches_of_accepts haccepts)
    have hbody : (cmdOf 0x41).body (s.begun 0x41 d).1 (s.begun 0x41 d).2 = (.done 0 0 0, (s.begun 0x41 d).2) :=
      powerBody_of_held (by rw [begun_domainOn]; exact hheld)
    have hended : Keep s (s.ended 0x41 d (fun t => t) 0 0 0) := keep_ended hcalm (.refl _) 0 0 0
    refine takes_keep hcalm ?_ (hended.ksLog .command ?_)
    · rw [hexec, run_calm hcalm, takeCommand_of_accepts haccepts, runBody_of_done ((begun_ksBusy s _ d).trans hbusy) rfl hbody]
      rfl
    · rw [ended_key]
      exact hlog

end Sys2Proof.Machine
end

/-! ### What every step keeps (R368, R400), and that every command answers -/

section
namespace Sys2Proof.Machine

/-- The states that `State.Inv` allows a device to be in, apart from the events raised. -/
def State.DevSound (s : State) : Prop :=
  (s.dev = .ready → s.saf.causes = []) ∧ (s.dev = .config → ¬ (s.eph.1.valid ∧ s.ash.1.valid))

/-- One evaluation of the conditions of R400 leaves no device in a state that they rule out. -/
theorem devStep_devSound (s : State) : s.devStep.DevSound := by
  unfold State.devStep State.DevSound
  split
  next h =>
    cases hc : s.saf.causes with
    | nil => exact ⟨fun _ => rfl, nofun⟩
    | cons c l => exact ⟨nofun, nofun⟩
  next hconfig =>
    split
    · exact ⟨nofun, nofun⟩
    next hready =>
      split
      next h => exact ⟨fun _ => List.isEmpty_iff.mp h.2.1, nofun⟩
      next =>
        refine ⟨fun hd => ?_, fun hd hv => hconfig ⟨hd, hv⟩⟩
        have hnone : ¬ (!s.saf.causes.isEmpty) = true := fun hc => hready ⟨hd, .inl hc⟩
        simpa using hnone

/-- Settling the events leaves what the state of the device depends on. -/
theorem devSound_of_core {s t : State} (h : s.core = t.core) (ht : t.DevSound) : s.DevSound := by
  have hdev : s.dev = t.dev := (congrArg State.dev h :)
  have hsaf : s.saf = t.saf := (congrArg State.saf h :)
  have heph : s.eph = t.eph := (congrArg State.eph h :)
  have hash : s.ash = t.ash := (congrArg State.ash h :)
  unfold State.DevSound
  rw [hdev, hsaf, heph, hash]
  exact ht

/-- Whatever a command has done, what follows from it ends in a state that meets the invariant. -/
theorem conclude_inv (old s : State) : (State.conclude old s).Inv :=
  ⟨settleN_raised 6 _ _, devSound_of_core (settle_core old _) (devStep_devSound _)⟩

theorem run_inv {f : State → State} {s t : State} (hs : s.Inv) (h : run f s = .next t) : t.Inv := by
  unfold run at h
  split at h
  · exact Host.Outcome.next.inj h ▸ hs
  · exact Host.Outcome.next.inj h ▸ conclude_inv s (f s)

theorem exec_inv {c : Instr} {s t : State} (hs : s.Inv) (h : exec c s = .next t) : t.Inv := by
  by_cases hc : c = .pwronRstN
  · have hreset : exec c s = .next (State.conclude s s.powerOnReset) := hc ▸ rfl
    exact Host.Outcome.next.inj (hreset.symm.trans h) ▸ conclude_inv s _
  · obtain ⟨f, hf⟩ := exec_runs c s hc
    exact run_inv hs (hf ▸ h)

/-- Settles O19: a step is a command's exec or a core cycle, and both end with the evaluation of the device state and the settling of
the events, or leave the state of a core die that has stopped. -/
theorem everyStepKeepsTheInvariant : Obligations.EveryStepKeepsTheInvariant := by
  intro s t hs h
  unfold step at h
  split at h
  · exact run_inv hs h
  next c rest _ =>
    have hrest : ({ s with pending := rest } : State).Inv := hs
    exact exec_inv hrest h

/-- Settles O15: by the definition of a step. -/
theorem stepRunsTheFront : Obligations.StepRunsTheFront := fun _ _ => rfl

theorem run_answers (f : State → State) (s : State) : ∃ t, run f s = .next t := by
  unfold run
  split <;> exact ⟨_, rfl⟩

/-- Settles O16: every command but PWRON_RST_N is a run, and PWRON_RST_N answers with the block that it has reset. -/
theorem everyCommandAnswers : Obligations.EveryCommandAnswers := by
  intro c s
  by_cases hc : c = .pwronRstN
  · exact hc ▸ ⟨_, rfl⟩
  · obtain ⟨f, hf⟩ := exec_runs c s hc
    exact hf ▸ run_answers f s

/-- Refutes O18: the statement asks for unit state 0, which is OFF, but after reset both units read INIT, which is 1 (R278). -/
theorem not_resetState : ¬ Obligations.ResetState := by
  rintro ⟨⟨-, -, -, -, hunit, -⟩, -⟩
  have hinit : State.reset.unitState .a = 1 := by decide
  omega

end Sys2Proof.Machine
end

/-! ### The agenda of a state: what the end of a command depends on -/

section
namespace Sys2Proof.Machine

/-- What `State.tailDue` and the guarded events depend on: the requests for leave, whether the conductor log asks for something and how
long it is, the commands in flight and behind a fence, whether a ring is being stopped, PLB.STATUS, the events raised in guarded
registers, the device's state, and the
moment. -/
def State.agenda (s : State) :
    List Grant × Bool × Nat × List InFlight × List (Nat × CmdDesc) × Bool × Word × List (Nat × Nat) × DevState × Nat :=
  (s.key.ks.queue, s.key.logDue, s.key.log.length, s.hif.inflight, s.hif.fenced, s.hif.rings.all (fun e => !e.2.stopping),
    s.reg Addr.PLB_STATUS, s.raised.filter (fun e => guardReg e.1), s.dev, s.now)

/-- Equal agendas keep what a calm state is made of. -/
theorem Keep.of_agenda {s t : State} (h : t.agenda = s.agenda) : Keep s t := by
  simp only [State.agenda, Prod.mk.injEq] at h
  obtain ⟨hqueue, hdue, -, hflight, hfenced, hrings, hgroup, hraised, -⟩ := h
  refine ⟨hqueue, hflight, fun hs => hrings.trans hs, hgroup, fun e he => ?_, hdue, hfenced⟩
  cases hguard : guardReg e.1 with
  | false => exact .inr rfl
  | true =>
    have hmem : e ∈ t.raised.filter fun e => guardReg e.1 := List.mem_filter.mpr ⟨he, hguard⟩
    rw [hraised] at hmem
    exact .inl (List.mem_filter.mp hmem).1

theorem dev_of_agenda {s t : State} (h : t.agenda = s.agenda) : t.dev = s.dev := congrArg (fun x => x.2.2.2.2.2.2.2.2.1) h

theorem now_of_agenda {s t : State} (h : t.agenda = s.agenda) : t.now = s.now := congrArg (fun x => x.2.2.2.2.2.2.2.2.2) h

theorem logLength_of_agenda {s t : State} (h : t.agenda = s.agenda) : t.key.log.length = s.key.log.length :=
  congrArg (fun x => x.2.2.1) h

/-- An entry in the conductor log keeps while the log is short (R282). -/
theorem Keep.ksLog_of_agenda {s t : State} (h : t.agenda = s.agenda) (kind : LogKind) (hlog : s.key.log.length < 767) :
    Keep s (t.ksLog kind) := (Keep.of_agenda h).ksLog kind (logLength_of_agenda h ▸ hlog)

/-- A command of a calm state whose effect is `u`, with the agenda as it was. -/
theorem takes_of_agenda {c : Instr} {s u : State} {f : State → State} (hexec : exec c s = run f s) (hcalm : s.calm = true)
    (heffect : f s = u) (hagenda : u.agenda = s.agenda) : Takes c s u :=
  takes_keep hcalm (by rw [hexec, run_calm hcalm, heffect]) (.of_agenda hagenda)

/-- The same for an effect that ends with an entry in the conductor log. -/
theorem takes_ksLog_of_agenda {c : Instr} {s u : State} {kind : LogKind} {f : State → State} (hexec : exec c s = run f s)
    (hcalm : s.calm = true) (hlog : s.key.log.length < 767) (heffect : f s = u.ksLog kind) (hagenda : u.agenda = s.agenda) :
    Takes c s (u.ksLog kind) :=
  takes_keep hcalm (by rw [hexec, run_calm hcalm, heffect]) (.ksLog_of_agenda hagenda kind hlog)

/-- A command that changes nothing. -/
theorem idles_of {c : Instr} {s : State} {f : State → State} (hexec : exec c s = run f s) (hcalm : s.calm = true) (heffect : f s = s) :
    Idles c s := takes_of_agenda hexec hcalm heffect rfl

/-! Updates of the state -/

theorem agenda_congr {s t : State} (hqueue : t.key.ks.queue = s.key.ks.queue) (hdue : t.key.logDue = s.key.logDue)
    (hlog : t.key.log.length = s.key.log.length) (hflight : t.hif.inflight = s.hif.inflight) (hfenced : t.hif.fenced = s.hif.fenced)
    (hrings : t.hif.rings = s.hif.rings) (hregs : t.regs = s.regs) (hB : t.tmrB = s.tmrB) (hC : t.tmrC = s.tmrC)
    (hpart : t.part = s.part) (hraised : t.raised = s.raised) (hdev : t.dev = s.dev)
    (hnow : t.now = s.now) : t.agenda = s.agenda := by
  unfold State.agenda
  rw [hqueue, hdue, hlog, hflight, hfenced, hrings, hraised, hdev, hnow, reg_same hregs hB hC hpart]

@[simp] theorem agenda_setReg {a : Nat} (s : State) (w : Word) (h : a ≠ Addr.PLB_STATUS) : (s.setReg a w).agenda = s.agenda := by
  unfold State.agenda
  rw [reg_setReg_other s h.symm]
  rfl

@[simp] theorem agenda_setF {f : Fld} (s : State) (v : Nat) (h : f.addr ≠ Addr.PLB_STATUS) : (s.setF f v).agenda = s.agenda :=
  agenda_setReg s _ h

@[simp] theorem agenda_setFBit {f : Fld} (s : State) (i : Nat) (b : Bool) (h : f.addr ≠ Addr.PLB_STATUS) :
    (s.setFBit f i b).agenda = s.agenda := agenda_setReg s _ h

@[simp] theorem agenda_setRegBits {a : Nat} (s : State) (k w : Word) (h : a ≠ Addr.PLB_STATUS) :
    (s.setRegBits a k w).agenda = s.agenda := by
  unfold State.agenda
  rw [reg_setRegBits_other s h.symm]
  rfl

@[simp] theorem agenda_setTmr {f : Fld} (s : State) (v : Nat) (h : f.addr ≠ Addr.PLB_STATUS) : (s.setTmr f v).agenda = s.agenda :=
  agenda_setRegBits s _ _ h

@[simp] theorem agenda_raiseBit {f : Fld} (s : State) (i : Nat) (h : guardReg f.addr = false) : (s.raiseBit f i).agenda = s.agenda := by
  unfold State.agenda State.raiseBit
  rw [filter_set]
  · rfl
  · exact fun _ => h

@[simp] theorem agenda_raise {f : Fld} (s : State) (h : guardReg f.addr = false) : (s.raise f).agenda = s.agenda := agenda_raiseBit s 0 h

@[simp] theorem agenda_raiseIf {f : Fld} (s : State) (c : Bool) (h : guardReg f.addr = false) : (s.raiseIf c f).agenda = s.agenda := by
  cases c
  · rfl
  · exact agenda_raise s h

@[simp] theorem agenda_doIf (s : State) (c : Bool) (f : State → State) (h : ∀ t, (f t).agenda = t.agenda) : (s.doIf c f).agenda = s.agenda := by
  cases c
  · rfl
  · exact h s

@[simp] theorem agenda_each {α : Type} (s : State) (l : List α) (f : State → α → State)
    (h : ∀ t, ∀ x ∈ l, (f t x).agenda = t.agenda) : (s.each l f).agenda = s.agenda :=
  each_keeps (fun t => t.agenda = s.agenda) f l (fun t x m c => (h t x m).trans c) s rfl

@[simp] theorem agenda_count (s : State) (g i c : Nat) : (s.count g i c).agenda = s.agenda := (rfl)
@[simp] theorem agenda_countN (s : State) (g i c n : Nat) : (s.countN g i c n).agenda = s.agenda := (rfl)
@[simp] theorem agenda_setPort (s : State) (p : Nat) (r : PortRun) : (s.setPort p r).agenda = s.agenda := (rfl)
@[simp] theorem agenda_setQueue (s : State) (x : Nat) (q : Queue) : (s.setQueue x q).agenda = s.agenda := (rfl)
@[simp] theorem agenda_setFrame (s : State) (i : Nat) (f : Option Frame) : (s.setFrame i f).agenda = s.agenda := (rfl)
@[simp] theorem agenda_setPool (s : State) (k : Nat) (p : Pool) : (s.setPool k p).agenda = s.agenda := (rfl)
@[simp] theorem agenda_setCell (s : State) (a : Nat) (c : Option Cell) : (s.setCell a c).agenda = s.agenda := (rfl)
@[simp] theorem agenda_setTab (s : State) (n : Nat) (p : PipeTab) : (s.setTab n p).agenda = s.agenda := (rfl)
@[simp] theorem agenda_setMac (s : State) (m : Nat) (r : MacroRun) : (s.setMac m r).agenda = s.agenda := (rfl)
@[simp] theorem agenda_setCh (s : State) (c : Nat) (x : DmaCh) : (s.setCh c x).agenda = s.agenda := (rfl)
@[simp] theorem agenda_setSched (s : State) (p : Nat) (x : PortSched) : (s.setSched p x).agenda = s.agenda := (rfl)
@[simp] theorem agenda_setSqc (s : State) (a : Nat) (x : Sqc) : (s.setSqc a x).agenda = s.agenda := (rfl)
@[simp] theorem agenda_setCtr (s : State) (k v : Nat) : (s.setCtr k v).agenda = s.agenda := (rfl)
@[simp] theorem agenda_chargeMove (s : State) (p k : Nat) (d : Int) : (s.chargeMove p k d).agenda = s.agenda := (rfl)
@[simp] theorem agenda_dropCause (s : State) (f : Cause → Bool) : (s.dropCause f).agenda = s.agenda := (rfl)
@[simp] theorem agenda_hostPut (s : State) (a : Nat) (b : Byte) : (s.hostPut a b).agenda = s.agenda := (rfl)

@[simp] theorem agenda_hostWrite (l : List Byte) : ∀ (s : State) (a : Nat), (s.hostWrite a l).agenda = s.agenda := by
  induction l with
  | nil => intro s a; rfl
  | cons b r ih => intro s a; exact (ih (s.hostPut a b) (a + 1)).trans (agenda_hostPut s a b)

@[simp] theorem agenda_addCause (s : State) (c : Cause) : (s.addCause c).agenda = s.agenda := by
  unfold State.addCause
  split <;> rfl

/-- Changes of the conducted state that keep the requests. -/
@[simp] theorem agenda_setKs (s : State) (f : KsState → KsState) (h : (f s.key.ks).queue = s.key.ks.queue) :
    (s.setKs f).agenda = s.agenda := agenda_congr h rfl rfl rfl rfl rfl rfl rfl rfl rfl rfl rfl rfl

@[simp] theorem agenda_allKs (s : State) (f : KsState → KsState) (h : (f s.key.ks).queue = s.key.ks.queue) :
    (s.allKs f).agenda = s.agenda := agenda_congr h rfl (List.length_map ..) rfl rfl rfl rfl rfl rfl rfl rfl rfl rfl

theorem stored_dev (s : State) (m a : Nat) (v : Word) : (s.stored m a v).dev = s.dev := (congrArg State.dev (stored_core s m a v) :)

theorem stored_now (s : State) (m a : Nat) (v : Word) : (s.stored m a v).now = s.now := (congrArg State.now (stored_core s m a v) :)

@[simp] theorem agenda_stored {a : Nat} (s : State) (m : Nat) (v : Word) (h : canonAddr a ≠ Addr.PLB_STATUS) :
    (s.stored m a v).agenda = s.agenda := by
  unfold State.agenda
  rw [stored_reg s m a v _ h.symm (by decide), stored_key, stored_hif, stored_raised, stored_dev, stored_now]

/-! Addresses -/

theorem high_add {b x : Nat} (h : 0x100000 ≤ b) : 0x100000 ≤ b + x := Nat.le_add_right_of_le h

theorem high_add₂ {b x y : Nat} (h : 0x100000 ≤ b) : 0x100000 ≤ b + x + y := high_add (high_add h)

/-- No event is raised in a guarded register. -/
@[simp] theorem guard_events :
    guardReg F.ACC_EVENT_table_refused.addr = false ∧ guardReg F.BUF_EVENT_cell_crc_error.addr = false ∧
    guardReg F.BUF_EVENT_channel_fault.addr = false ∧ guardReg F.BUF_EVENT_ecc_uncorrectable.addr = false ∧
    guardReg F.BUF_EVENT_free_refused.addr = false ∧ guardReg F.BUF_EVENT_pool_apply_done.addr = false ∧
    guardReg F.BUF_EVENT_pool_exhausted.addr = false ∧ guardReg F.BUF_EVENT_pool_full.addr = false ∧
    guardReg F.BUF_EVENT_pool_warn.addr = false ∧ guardReg F.BUF_EVENT_quarantine.addr = false ∧
    guardReg F.BUF_EVENT_relocation_done.addr = false ∧ guardReg F.BUF_POOL_EVENT_pool_level_event.addr = false ∧
    guardReg F.CNT_EVENT_dump_overrun.addr = false ∧ guardReg F.CNT_EVENT_dump_skipped.addr = false ∧
    guardReg F.CNT_EVENT_dump_written.addr = false ∧ guardReg F.CNT_EVENT_pc_overflow.addr = false ∧
    guardReg F.DMA_EVENT_cells_refused.addr = false ∧ guardReg F.DMA_EVENT_ch_halted.addr = false ∧
    guardReg F.DMA_EVENT_last_beat_error.addr = false ∧ guardReg F.DMA_EVENT_leave_refused.addr = false ∧
    guardReg F.DMA_EVENT_own_stall.addr = false ∧ guardReg F.DMA_EVENT_staging_ecc.addr = false ∧
    guardReg F.EPH_EVENT_act_done.addr = false ∧ guardReg F.EPH_EVENT_early_ref.addr = false ∧
    guardReg F.EPH_EVENT_overrun.addr = false ∧ guardReg F.EPH_EVENT_rate_mismatch.addr = false ∧
    guardReg F.EPH_EVENT_ref_missing.addr = false ∧ guardReg F.EPH_EVENT_ref_relock.addr = false ∧
    guardReg F.EPH_EVENT_step_resync.addr = false ∧ guardReg F.HIF_EVENT_cq_stall.addr = false ∧
    guardReg F.HIF_EVENT_event_lost.addr = false ∧ guardReg F.HIF_EVENT_flr.addr = false ∧
    guardReg F.HIF_EVENT_link_down.addr = false ∧ guardReg F.HIF_EVENT_own_stall.addr = false ∧
    guardReg F.HIF_EVENT_ring_fault.addr = false ∧ guardReg F.KEY_EVENT_copy_overlong.addr = false ∧
    guardReg F.KEY_EVENT_double_fault.addr = false ∧ guardReg F.KEY_EVENT_force_refused.addr = false ∧
    guardReg F.KEY_EVENT_log_checkpoint.addr = false ∧ guardReg F.KEY_EVENT_resync_done.addr = false ∧
    guardReg F.KEY_EVENT_resync_fail.addr = false ∧ guardReg F.KEY_EVENT_standby_fault.addr = false ∧
    guardReg F.KEY_EVENT_switchover.addr = false ∧ guardReg F.PLB_EVENT_group_done.addr = false ∧
    guardReg F.PLB_EVENT_net_fail.addr = false ∧ guardReg F.PLB_EVENT_plumb_done.addr = false ∧
    guardReg F.PLB_EVENT_record_invalid.addr = false ∧ guardReg F.PLB_EVENT_step_skipped.addr = false ∧
    guardReg F.PWR_EVENT_domain_change.addr = false ∧ guardReg F.PWR_EVENT_leave_refused.addr = false ∧
    guardReg F.PWR_EVENT_off_access.addr = false ∧ guardReg F.PWR_EVENT_over_budget.addr = false ∧
    guardReg F.SAF_EVENT_alarm_test_done.addr = false ∧ guardReg F.SAF_EVENT_channel_disagree.addr = false ∧
    guardReg F.SAF_EVENT_fault_degraded.addr = false ∧ guardReg F.SAF_EVENT_fault_masked.addr = false ∧
    guardReg F.SAF_EVENT_over_temp.addr = false ∧ guardReg F.SAF_EVENT_safe_hold.addr = false ∧
    guardReg F.SAF_EVENT_time_alarm.addr = false ∧ guardReg F.SAF_EVENT_tmr_corrected.addr = false ∧
    guardReg F.SEC_EVENT_debug_authorised.addr = false ∧ guardReg F.SEC_EVENT_fw_update_done.addr = false ∧
    guardReg F.SEC_EVENT_hss_low.addr = false ∧ guardReg F.SEC_EVENT_manifest_written.addr = false ∧
    guardReg F.SEC_EVENT_rng_fail.addr = false ∧ guardReg F.SEC_EVENT_rollback_refused.addr = false ∧
    guardReg F.SYS_EVENT_bad_width.addr = false ∧ guardReg F.SYS_EVENT_key_refused.addr = false ∧
    guardReg F.TM_EVENT_policer_state_error.addr = false ∧ guardReg F.TRN_EVENT_holdover_enter.addr = false ∧
    guardReg F.TRN_EVENT_holdover_exit.addr = false ∧ guardReg F.TRN_EVENT_limit_reached.addr = false ∧
    guardReg F.TRN_EVENT_locked.addr = false ∧ guardReg F.TRN_EVENT_offset_discarded.addr = false ∧
    guardReg F.TRN_EVENT_pps_in_missing.addr = false ∧ guardReg F.TRN_EVENT_stepped.addr = false ∧
    guardReg F.TRN_EVENT_unlocked.addr = false := by
  and_intros <;> decide

@[simp] theorem guard_pipe_events (m : Nat) :
    guardReg (F.PIPE_EVENT_edit_error m).addr = false ∧ guardReg (F.PIPE_EVENT_image_limit_drop m).addr = false ∧
    guardReg (F.PIPE_EVENT_patch_done m).addr = false ∧ guardReg (F.PIPE_EVENT_res_range_error m).addr = false ∧
    guardReg (F.PIPE_LRN_EVENT_freeze m).addr = false ∧ guardReg (F.PIPE_LRN_EVENT_hr_error m).addr = false ∧
    guardReg (F.PIPE_LRN_EVENT_move m).addr = false ∧ guardReg (F.PIPE_LRN_EVENT_queue_full m).addr = false ∧
    guardReg (F.PIPE_LRN_EVENT_table_error m).addr = false ∧ guardReg (F.PIPE_LRN_EVENT_tcam_repair m).addr = false ∧
    guardReg (F.PIPE_REP_EVENT_expand_stall m).addr = false ∧ guardReg (F.PIPE_REP_EVENT_home_down m).addr = false ∧
    guardReg (F.PIPE_REP_EVENT_latent_error m).addr = false ∧ guardReg (F.PIPE_REP_EVENT_member_silent m).addr = false ∧
    guardReg (F.PIPE_REP_EVENT_mirror_drop m).addr = false :=
  ⟨guard_high (high_add (by decide)), guard_high (high_add (by decide)), guard_high (high_add (by decide)),
   guard_high (high_add (by decide)), guard_high (high_add (by decide)), guard_high (high_add (by decide)),
   guard_high (high_add (by decide)), guard_high (high_add (by decide)), guard_high (high_add (by decide)),
   guard_high (high_add (by decide)), guard_high (high_add (by decide)), guard_high (high_add (by decide)),
   guard_high (high_add (by decide)), guard_high (high_add (by decide)), guard_high (high_add (by decide))⟩

@[simp] theorem guard_macro_events (m : Nat) :
    guardReg (F.PORT_EVENT_an_fail m).addr = false ∧ guardReg (F.PORT_EVENT_apply_done m).addr = false ∧
    guardReg (F.PORT_EVENT_link_change m).addr = false ∧ guardReg (F.PORT_EVENT_ref_clock_loss m).addr = false ∧
    guardReg (F.PORT_WAKE_STATUS_wake_refused m).addr = false ∧ guardReg (F.PORT_WAKE_STATUS_woke m).addr = false :=
  ⟨guard_high (high_add (by decide)), guard_high (high_add (by decide)), guard_high (high_add (by decide)),
   guard_high (high_add (by decide)), guard_high (high_add (by decide)), guard_high (high_add (by decide))⟩

@[simp] theorem guard_port_events (m i : Nat) :
    guardReg (F.PORT_MAC_EVENT_eee_refused m i).addr = false ∧ guardReg (F.PORT_MAC_EVENT_meridian_collision m i).addr = false ∧
    guardReg (F.PORT_MAC_EVENT_pause_storm m i).addr = false ∧ guardReg (F.PORT_MAC_EVENT_verify_fail m i).addr = false :=
  ⟨guard_high (high_add₂ (by decide)), guard_high (high_add₂ (by decide)), guard_high (high_add₂ (by decide)),
   guard_high (high_add₂ (by decide))⟩

/-- The status fields that commands set lie outside PLB.STATUS. -/
@[simp] theorem status_ne_plb :
    F.BUF_CELL_ERR_kind.addr ≠ Addr.PLB_STATUS ∧ F.BUF_CELL_ERR_pointer.addr ≠ Addr.PLB_STATUS ∧
    F.BUF_CTRL_hbm_en.addr ≠ Addr.PLB_STATUS ∧ F.BUF_FREE_ERR_INFO_master_id.addr ≠ Addr.PLB_STATUS ∧
    F.BUF_FREE_ERR_INFO_owner.addr ≠ Addr.PLB_STATUS ∧ F.BUF_FREE_ERR_INFO_reason.addr ≠ Addr.PLB_STATUS ∧
    F.BUF_FREE_ERR_pointer.addr ≠ Addr.PLB_STATUS ∧ F.BUF_FREE_ERR_requester.addr ≠ Addr.PLB_STATUS ∧
    F.BUF_HBM_RELOC_relocated.addr ≠ Addr.PLB_STATUS ∧ F.BUF_HBM_RETIRED_retired.addr ≠ Addr.PLB_STATUS ∧
    F.BUF_HBM_SPARE_MAP_in_use.addr ≠ Addr.PLB_STATUS ∧ F.BUF_HBM_SPARE_MAP_replaced.addr ≠ Addr.PLB_STATUS ∧
    F.BUF_POOL_APPLY_STATUS_pool_apply_status.addr ≠ Addr.PLB_STATUS ∧ F.BUF_STATUS_hbm_ready.addr ≠ Addr.PLB_STATUS ∧
    F.CNT_LAST_SEQ_snap_seq.addr ≠ Addr.PLB_STATUS ∧ F.CNT_RD_STATUS_bad_addr.addr ≠ Addr.PLB_STATUS ∧
    F.CNT_RD_STATUS_valid.addr ≠ Addr.PLB_STATUS ∧ F.DMA_HALT_INFO_cause.addr ≠ Addr.PLB_STATUS ∧
    F.DMA_HALT_INFO_channel.addr ≠ Addr.PLB_STATUS ∧ F.EPH_ACT_STATUS_act_state.addr ≠ Addr.PLB_STATUS ∧
    F.EPH_ACT_STATUS_adjusted.addr ≠ Addr.PLB_STATUS ∧ F.EPH_ACT_STATUS_busy_refused.addr ≠ Addr.PLB_STATUS ∧
    F.EPH_ACT_STATUS_last_select.addr ≠ Addr.PLB_STATUS ∧ F.EPH_ACT_STATUS_result.addr ≠ Addr.PLB_STATUS ∧
    F.EPH_CTRL_meridian_en.addr ≠ Addr.PLB_STATUS ∧ F.EPH_CYCLE_COUNT_cycles.addr ≠ Addr.PLB_STATUS ∧
    F.EPH_MISMATCH_port.addr ≠ Addr.PLB_STATUS ∧ F.EPH_MISMATCH_running_type.addr ≠ Addr.PLB_STATUS ∧
    F.EPH_STATUS_active_bank.addr ≠ Addr.PLB_STATUS ∧ F.HIF_EPOCH_config_epoch.addr ≠ Addr.PLB_STATUS ∧
    F.HIF_RING_FAULT_INFO_cause.addr ≠ Addr.PLB_STATUS ∧ F.HIF_RING_FAULT_INFO_ring.addr ≠ Addr.PLB_STATUS ∧
    F.HIF_STATUS_event_overflow.addr ≠ Addr.PLB_STATUS ∧ F.HIF_STATUS_link_speed.addr ≠ Addr.PLB_STATUS ∧
    F.HIF_STATUS_link_up.addr ≠ Addr.PLB_STATUS ∧ F.HIF_STATUS_link_width.addr ≠ Addr.PLB_STATUS ∧
    F.KEY_COPY_STATUS_last_ckpt_bytes.addr ≠ Addr.PLB_STATUS ∧ F.KEY_FAULT_INFO_cause.addr ≠ Addr.PLB_STATUS ∧
    F.KEY_FAULT_INFO_cause_2.addr ≠ Addr.PLB_STATUS ∧ F.KEY_FAULT_INFO_unit_2.addr ≠ Addr.PLB_STATUS ∧
    F.KEY_LOG_STATUS_log_peak.addr ≠ Addr.PLB_STATUS ∧ F.KEY_STATUS_active_unit.addr ≠ Addr.PLB_STATUS ∧
    F.KEY_STATUS_state_a.addr ≠ Addr.PLB_STATUS ∧ F.KEY_STATUS_state_b.addr ≠ Addr.PLB_STATUS ∧
    F.PLB_DURATION_duration.addr ≠ Addr.PLB_STATUS ∧ F.PLB_GROUP_RESULT_group_failed.addr ≠ Addr.PLB_STATUS ∧
    F.PLB_GROUP_RESULT_valid.addr ≠ Addr.PLB_STATUS ∧ F.PLB_NETS_nets_tested.addr ≠ Addr.PLB_STATUS ∧
    F.PLB_NETS_nets_total.addr ≠ Addr.PLB_STATUS ∧ F.PLB_RESULT_coverage.addr ≠ Addr.PLB_STATUS ∧
    F.PLB_RESULT_nets_failed.addr ≠ Addr.PLB_STATUS ∧ F.PLB_STEPS_steps_run.addr ≠ Addr.PLB_STATUS ∧
    F.PLB_STEPS_steps_skipped.addr ≠ Addr.PLB_STATUS ∧ F.PWR_BUDGET_budget.addr ≠ Addr.PLB_STATUS ∧
    F.PWR_DOMAIN_ON_HI_on_hi.addr ≠ Addr.PLB_STATUS ∧ F.PWR_DOMAIN_ON_LO_on_lo.addr ≠ Addr.PLB_STATUS ∧
    F.PWR_RESET_CAUSE_cause.addr ≠ Addr.PLB_STATUS ∧ F.PWR_STATUS_boot_status.addr ≠ Addr.PLB_STATUS ∧
    F.SAF_STATUS_backstop_fired.addr ≠ Addr.PLB_STATUS ∧ F.SAF_STATUS_channels_agree.addr ≠ Addr.PLB_STATUS ∧
    F.SAF_TEMP_junction_temp.addr ≠ Addr.PLB_STATUS ∧ F.SEC_VERIFY_INFO_object_type.addr ≠ Addr.PLB_STATUS ∧
    F.SEC_VERIFY_INFO_reason.addr ≠ Addr.PLB_STATUS ∧ F.SEC_VERIFY_INFO_rollback_class.addr ≠ Addr.PLB_STATUS ∧
    F.SYS_ARMED_armed.addr ≠ Addr.PLB_STATUS ∧ F.TM_ERR_INFO_index.addr ≠ Addr.PLB_STATUS ∧
    F.TM_ERR_INFO_kind.addr ≠ Addr.PLB_STATUS ∧ F.TRN_FREQ_IN_MEAS_freq_in.addr ≠ Addr.PLB_STATUS ∧
    F.TRN_RATE_NOW_HI_now_hi.addr ≠ Addr.PLB_STATUS ∧ F.TRN_RATE_NOW_LO_now_lo.addr ≠ Addr.PLB_STATUS ∧
    F.TRN_SERVO_F_f_term.addr ≠ Addr.PLB_STATUS ∧ F.TRN_SERVO_I_i_term.addr ≠ Addr.PLB_STATUS ∧
    F.TRN_STATUS_clk10m_in_present.addr ≠ Addr.PLB_STATUS ∧ F.TRN_STATUS_pps_in_present.addr ≠ Addr.PLB_STATUS ∧
    F.TRN_TIME_SET_set.addr ≠ Addr.PLB_STATUS := by
  and_intros <;> decide

@[simp] theorem pipe_status_ne_plb (m : Nat) :
    (F.PIPE_CTRL_fwd_en m).addr ≠ Addr.PLB_STATUS ∧ (F.PIPE_FRER_LAST_index m).addr ≠ Addr.PLB_STATUS ∧
    (F.PIPE_FRER_LAST_is_stream m).addr ≠ Addr.PLB_STATUS ∧ (F.PIPE_LRN_BUS_SEQ_bus_seq m).addr ≠ Addr.PLB_STATUS ∧
    (F.PIPE_MOVE_MAC_HI_frozen m).addr ≠ Addr.PLB_STATUS ∧ (F.PIPE_MOVE_MAC_HI_mac_hi m).addr ≠ Addr.PLB_STATUS ∧
    (F.PIPE_MOVE_MAC_HI_vlan m).addr ≠ Addr.PLB_STATUS ∧ (F.PIPE_MOVE_MAC_LO_mac_lo m).addr ≠ Addr.PLB_STATUS ∧
    (F.PIPE_MOVE_PORTS_new_port m).addr ≠ Addr.PLB_STATUS ∧ (F.PIPE_MOVE_PORTS_old_port m).addr ≠ Addr.PLB_STATUS ∧
    (F.PIPE_PATCH_STATUS_items_applied m).addr ≠ Addr.PLB_STATUS ∧ (F.PIPE_PATCH_STATUS_patch_state m).addr ≠ Addr.PLB_STATUS ∧
    (F.PIPE_RES_ERR_REF_ref m).addr ≠ Addr.PLB_STATUS ∧ (F.PIPE_TBL_ERR_index m).addr ≠ Addr.PLB_STATUS ∧
    (F.PIPE_TBL_ERR_table m).addr ≠ Addr.PLB_STATUS :=
  ⟨plb_high (high_add (by decide)), plb_high (high_add (by decide)), plb_high (high_add (by decide)), plb_high (high_add (by decide)),
   plb_high (high_add (by decide)), plb_high (high_add (by decide)), plb_high (high_add (by decide)), plb_high (high_add (by decide)),
   plb_high (high_add (by decide)), plb_high (high_add (by decide)), plb_high (high_add (by decide)), plb_high (high_add (by decide)),
   plb_high (high_add (by decide)), plb_high (high_add (by decide)), plb_high (high_add (by decide))⟩

@[simp] theorem macro_status_ne_plb (m : Nat) :
    (F.PORT_APPLY_STATUS_apply_ignored m).addr ≠ Addr.PLB_STATUS ∧ (F.PORT_APPLY_STATUS_apply_status m).addr ≠ Addr.PLB_STATUS :=
  ⟨plb_high (high_add (by decide)), plb_high (high_add (by decide))⟩

@[simp] theorem port_status_ne_plb (m i : Nat) :
    (F.PORT_LINK_STATUS_an_done m i).addr ≠ Addr.PLB_STATUS ∧ (F.PORT_LINK_STATUS_fec_active m i).addr ≠ Addr.PLB_STATUS ∧
    (F.PORT_LINK_STATUS_link_up m i).addr ≠ Addr.PLB_STATUS ∧ (F.PORT_LINK_STATUS_lt_done m i).addr ≠ Addr.PLB_STATUS ∧
    (F.PORT_LINK_STATUS_resolved_tech m i).addr ≠ Addr.PLB_STATUS ∧ (F.PORT_MAC_STATUS_preempt_active m i).addr ≠ Addr.PLB_STATUS ∧
    (F.PORT_MAC_STATUS_rx_lpi m i).addr ≠ Addr.PLB_STATUS ∧ (F.PORT_MAC_STATUS_rx_paused m i).addr ≠ Addr.PLB_STATUS ∧
    (F.PORT_MAC_STATUS_tx_lpi m i).addr ≠ Addr.PLB_STATUS ∧ (F.PORT_MAC_STATUS_verify_status m i).addr ≠ Addr.PLB_STATUS ∧
    (F.PORT_MAC_STATUS_wd_recovering m i).addr ≠ Addr.PLB_STATUS :=
  ⟨plb_high (high_add₂ (by decide)), plb_high (high_add₂ (by decide)), plb_high (high_add₂ (by decide)),
   plb_high (high_add₂ (by decide)), plb_high (high_add₂ (by decide)), plb_high (high_add₂ (by decide)),
   plb_high (high_add₂ (by decide)), plb_high (high_add₂ (by decide)), plb_high (high_add₂ (by decide)),
   plb_high (high_add₂ (by decide)), plb_high (high_add₂ (by decide))⟩

@[simp] theorem ring_status_ne_plb (m : Nat) :
    (F.DMA_CH_CFG_enable m).addr ≠ Addr.PLB_STATUS ∧ (F.DMA_CH_HEAD_head m).addr ≠ Addr.PLB_STATUS ∧
    (F.DMA_CH_STATUS_cause m).addr ≠ Addr.PLB_STATUS ∧ (F.DMA_CH_STATUS_state m).addr ≠ Addr.PLB_STATUS ∧
    (F.DMA_CH_TAIL_tail m).addr ≠ Addr.PLB_STATUS ∧ (F.HIF_RING_CFG_enable m).addr ≠ Addr.PLB_STATUS ∧
    (F.HIF_RING_HEAD_head m).addr ≠ Addr.PLB_STATUS ∧ (F.HIF_RING_STATUS_cause m).addr ≠ Addr.PLB_STATUS ∧
    (F.HIF_RING_STATUS_state m).addr ≠ Addr.PLB_STATUS ∧ (F.HIF_RING_TAIL_tail m).addr ≠ Addr.PLB_STATUS := by
  simp only [Addr.PLB_STATUS, F.DMA_CH_CFG_enable, F.DMA_CH_HEAD_head, F.DMA_CH_STATUS_cause, F.DMA_CH_STATUS_state, F.DMA_CH_TAIL_tail, F.HIF_RING_CFG_enable,
    F.HIF_RING_HEAD_head, F.HIF_RING_STATUS_cause, F.HIF_RING_STATUS_state, F.HIF_RING_TAIL_tail, Addr.DMA_CH_CFG, Addr.DMA_CH_HEAD,
    Addr.DMA_CH_STATUS, Addr.DMA_CH_TAIL, Addr.HIF_RING_CFG, Addr.HIF_RING_HEAD, Addr.HIF_RING_STATUS, Addr.HIF_RING_TAIL]
  omega

end Sys2Proof.Machine
end

/-! ### The shared operations leave the agenda -/

section
namespace Sys2Proof.Machine

/-! Pools, cells and frames -/

@[simp] theorem agenda_poolMove (s : State) (k : Nat) (d e : Int) : (s.poolMove k d e).agenda = s.agenda := by
  unfold State.poolMove
  dsimp only
  split <;> simp

@[simp] theorem agenda_poolFail (s : State) (k : Nat) : (s.poolFail k).agenda = s.agenda := (rfl)

@[simp] theorem agenda_free (s : State) (n : Nat) : (s.free n).2.agenda = s.agenda := (rfl)

@[simp] theorem agenda_freeCell (s : State) (req a : Nat) : (s.freeCell req a).agenda = s.agenda := by
  unfold State.freeCell
  split
  · rfl
  · dsimp only
    split
    · split
      · exact agenda_raise (f := F.BUF_EVENT_quarantine) _ (by decide)
      · rfl
    · rfl

@[simp] theorem agenda_freeRefused (s : State) (a req reason master : Nat) : (s.freeRefused a req reason master).agenda = s.agenda := by
  unfold State.freeRefused
  simp

@[simp] theorem agenda_releaseCell (s : State) (req master a : Nat) : (s.releaseCell req master a).agenda = s.agenda := by
  unfold State.releaseCell
  split
  · simp
  · split
    · simp
    · split <;> simp

theorem agenda_drawCells (hbm : Bool) (c : Cell) (n : Nat) : ∀ s : State, (s.drawCells hbm c n).2.agenda = s.agenda := by
  induction n with
  | zero => intro s; rfl
  | succ n ih => intro s; exact ih _

theorem agenda_linkCells (ended : Bool) (len : Nat) (l : List Nat) : ∀ (s : State) (data : List Byte),
    (s.linkCells ended len data l).agenda = s.agenda := by
  induction l with
  | nil => intro s data; rfl
  | cons a r ih =>
    intro s data
    unfold State.linkCells
    dsimp only
    rw [ih]
    split <;> simp

@[simp] theorem agenda_unchargeFrame (s : State) (f : Frame) (n : Nat) : (s.unchargeFrame f n).agenda = s.agenda := by
  unfold State.unchargeFrame
  dsimp only
  split <;> split <;> simp

@[simp] theorem agenda_dropFrame (s : State) (i : Nat) (f : Frame) : (s.dropFrame i f).agenda = s.agenda := by
  unfold State.dropFrame
  split <;> simp

@[simp] theorem agenda_endFrame (s : State) (i : Nat) (f : Frame) : (s.endFrame i f).agenda = s.agenda := by
  unfold State.endFrame
  simp

@[simp] theorem agenda_release (s : State) (i : Nat) : (s.release i).agenda = s.agenda := by
  unfold State.release
  split
  · rfl
  · dsimp only
    split <;> simp

@[simp] theorem agenda_txReport (s : State) (i status : Nat) (ts : List Byte) : (s.txReport i status ts).agenda = s.agenda := by
  unfold State.txReport
  split
  · rfl
  · split
    · rfl
    · dsimp only
      split <;> simp

@[simp] theorem agenda_loseShare (s : State) (i : Nat) : (s.loseShare i).agenda = s.agenda := by
  unfold State.loseShare
  split <;> simp

@[simp] theorem agenda_loseCopy (s : State) (c : Copy) : (s.loseCopy c).agenda = s.agenda := agenda_loseShare s _

/-! Queues -/

@[simp] theorem agenda_fixSpill (s : State) (x : Nat) : (s.fixSpill x).agenda = s.agenda := by
  unfold State.fixSpill
  split <;> simp

@[simp] theorem agenda_fixSpills (s : State) (l : List CopyReq) : (s.fixSpills l).agenda = s.agenda := by
  unfold State.fixSpills
  simp

@[simp] theorem agenda_popCopy (s : State) (x : Nat) : (s.popCopy x).agenda = s.agenda := by
  unfold State.popCopy
  simp

@[simp] theorem agenda_flushQueue (s : State) (x : Nat) : (s.flushQueue x).agenda = s.agenda := by
  unfold State.flushQueue
  simp

@[simp] theorem agenda_flushOne (s : State) (hbm : Bool) (x : Nat) : (s.flushOne hbm x).agenda = s.agenda := by
  unfold State.flushOne
  dsimp only
  split
  · rfl
  · split <;> simp

@[simp] theorem agenda_flushCycle (s : State) : s.flushCycle.agenda = s.agenda := by
  unfold State.flushCycle
  dsimp only
  split
  · rfl
  · refine agenda_each _ _ _ fun t x _ => ?_
    split <;> simp

@[simp] theorem agenda_flushPort (s : State) (p : Nat) : (s.flushPort p).agenda = s.agenda := by
  unfold State.flushPort
  simp

@[simp] theorem agenda_syncQ (s : State) (x : Nat) : (s.syncQ x).agenda = s.agenda := (rfl)
@[simp] theorem agenda_syncP (s : State) (p : Nat) : (s.syncP p).agenda = s.agenda := (rfl)
@[simp] theorem agenda_syncCpu (s : State) : s.syncCpu.agenda = s.agenda := (rfl)

/-! The egress MAC -/

@[simp] theorem agenda_interrupt (s : State) (p : Nat) (t : TxFrame) : (s.interrupt p t).agenda = s.agenda := by
  unfold State.interrupt
  simp

@[simp] theorem agenda_startTx (s : State) (p : Nat) (t : TxFrame) : (s.startTx p t).agenda = s.agenda := by
  unfold State.startTx
  simp

@[simp] theorem agenda_restartVerify (s : State) (p : Nat) : (s.restartVerify p).agenda = s.agenda := by
  unfold State.restartVerify
  simp

@[simp] theorem agenda_verifyDue (s : State) (p : Nat) : (s.verifyDue p).agenda = s.agenda := by
  unfold State.verifyDue
  dsimp only
  split <;> simp

@[simp] theorem agenda_holdCut (s : State) (p : Nat) : (s.holdCut p).agenda = s.agenda := by
  unfold State.holdCut
  split
  · split <;> simp
  · rfl

@[simp] theorem agenda_subCycle (s : State) : s.subCycle.2.agenda = s.agenda := (rfl)

@[simp] theorem agenda_markerTerm (s : State) (m : Nat) : (s.markerTerm m).2.agenda = s.agenda := (rfl)

@[simp] theorem agenda_deskew (s : State) (p : Nat) : (s.deskew p).2.agenda = s.agenda := by
  unfold State.deskew
  split <;> rfl

@[simp] theorem agenda_txStamp (s : State) (p : Nat) : (s.txStamp p).2.agenda = s.agenda := by
  unfold State.txStamp State.deskew
  dsimp only
  split <;> rfl

@[simp] theorem agenda_rxStamp (s : State) (p : Nat) : (s.rxStamp p).2.agenda = s.agenda := by
  unfold State.rxStamp
  split; next rx tx per am hterms =>
  split; next sub s1 hsub =>
  split; next cw s2 hword =>
  split; next m s3 hmark =>
  split; next d s4 hskew =>
  have h1 : s1.agenda = s.agenda := by rw [← agenda_subCycle s, hsub]
  have h2 : s2.agenda = s1.agenda := by
    split at hword <;> exact (congrArg (fun x => x.2.agenda) hword).symm
  have h3 : s3.agenda = s2.agenda := by rw [← agenda_markerTerm s2 am, hmark]
  have h4 : s4.agenda = s3.agenda := by rw [← agenda_deskew s3 p, hskew]
  exact h4.trans (h3.trans (h2.trans h1))

@[simp] theorem agenda_stampTx (s : State) (p : Nat) (t : TxFrame) : (s.stampTx p t).2.agenda = s.agenda := by
  unfold State.stampTx
  exact agenda_txStamp s p

@[simp] theorem agenda_wakeQueue (s : State) (p q : Nat) : (s.wakeQueue p q).agenda = s.agenda := by
  unfold State.wakeQueue
  dsimp only
  split
  · simp
  · split <;> simp

@[simp] theorem agenda_wakeGroup (s : State) (p g : Nat) : (s.wakeGroup p g).agenda = s.agenda := by
  unfold State.wakeGroup
  dsimp only
  split
  · simp
  · split <;> simp

@[simp] theorem agenda_wakeChild (s : State) (p q : Nat) : (s.wakeChild p q).agenda = s.agenda := by
  unfold State.wakeChild
  simp

@[simp] theorem agenda_wakePort (s : State) (p : Nat) : (s.wakePort p).agenda = s.agenda := by
  unfold State.wakePort
  simp

@[simp] theorem agenda_wakePorts (s : State) : s.wakePorts.agenda = s.agenda := by
  unfold State.wakePorts
  simp

@[simp] theorem agenda_chargeQ (s : State) (x : Nat) (b : Int) : (s.chargeQ x b).agenda = s.agenda := by
  unfold State.chargeQ
  split <;> simp

@[simp] theorem agenda_chargeP (s : State) (p : Nat) (b : Int) : (s.chargeP p b).agenda = s.agenda := by
  unfold State.chargeP
  split <;> simp

@[simp] theorem agenda_chargeTags (s : State) (p x : Nat) (b : Bill) : (s.chargeTags p x b).agenda = s.agenda := by
  unfold State.chargeTags
  dsimp only
  split <;> split <;> simp

@[simp] theorem agenda_correctTags (s : State) (p x : Nat) (b : Bill) (n : Nat) : (s.correctTags p x b n).agenda = s.agenda := by
  unfold State.correctTags
  dsimp only
  split <;> split <;> simp

@[simp] theorem agenda_settleBill (s : State) (p x : Nat) (b : Bill) (n : Nat) : (s.settleBill p x b n).agenda = s.agenda := by
  unfold State.settleBill
  simp

@[simp] theorem agenda_settleTx (s : State) (p : Nat) (t : TxFrame) (n : Nat) : (s.settleTx p t n).agenda = s.agenda := by
  unfold State.settleTx
  simp

@[simp] theorem agenda_endTx (s : State) (p : Nat) (t : TxFrame) (c : Option Stomp) (l : List Byte) (n : Nat) :
    (s.endTx p t c l n).agenda = s.agenda := by
  unfold State.endTx
  cases c with
  | none =>
    dsimp only
    split
    · simp
    · split
      · split <;> simp
      · simp
  | some c =>
    dsimp only
    split
    · simp
    · split
      · simp
      · simp

@[simp] theorem agenda_stompAt (s : State) (p : Nat) (t : TxFrame) (c : Stomp) (pcs : Bool) (n : Nat) :
    (s.stompAt p t c pcs n).agenda = s.agenda := by
  unfold State.stompAt
  dsimp only
  split <;> simp

@[simp] theorem agenda_stompNow (s : State) (p : Nat) (c : Stomp) (pcs : Bool) : (s.stompNow p c pcs).agenda = s.agenda := by
  unfold State.stompNow
  split <;> simp

@[simp] theorem agenda_stompHeld (s : State) (p : Nat) (c : Stomp) (pcs : Bool) : (s.stompHeld p c pcs).agenda = s.agenda := by
  unfold State.stompHeld
  dsimp only
  split <;> simp

@[simp] theorem agenda_abortPort (s : State) (p : Nat) (pcs : Bool) : (s.abortPort p pcs).agenda = s.agenda := by
  unfold State.abortPort
  simp

@[simp] theorem agenda_abortQueues (s : State) (p : Nat) (l : List Nat) : (s.abortQueues p l).agenda = s.agenda := by
  unfold State.abortQueues
  dsimp only
  split <;> split <;> simp

@[simp] theorem agenda_skidOverflow (s : State) (p : Nat) (t : TxFrame) : (s.skidOverflow p t).agenda = s.agenda := by
  unfold State.skidOverflow
  dsimp only
  split
  · split <;> simp
  · simp

@[simp] theorem agenda_skidCheck (s : State) (p : Nat) : (s.skidCheck p).agenda = s.agenda := by
  unfold State.skidCheck
  dsimp only
  split <;> simp

@[simp] theorem agenda_expressArrive (s : State) (i p : Nat) (l : List Byte) : (s.expressArrive i p l).agenda = s.agenda := by
  unfold State.expressArrive
  dsimp only
  split
  · simp
  · split
    · simp
    · split
      · simp
      · split <;> simp

@[simp] theorem agenda_onCrossing (s : State) (p i : Nat) (f : TxFrame → TxFrame) : (s.onCrossing p i f).agenda = s.agenda := by
  unfold State.onCrossing
  dsimp only
  split
  · split <;> simp
  · simp

@[simp] theorem agenda_overrunAt (s : State) (p i n : Nat) : (s.overrunAt p i n).agenda = s.agenda := by
  unfold State.overrunAt
  dsimp only
  split
  · split <;> simp
  · simp

@[simp] theorem agenda_hardEnd (s : State) (i : Nat) : (s.hardEnd i).agenda = s.agenda := by
  unfold State.hardEnd
  split
  · dsimp only
    split <;> simp
  · rfl

@[simp] theorem agenda_dropSelected (s : State) (x : Nat) (k : Nat × Nat × Nat) : (s.dropSelected x k).agenda = s.agenda := by
  unfold State.dropSelected
  split
  · rfl
  · dsimp only
    split <;> simp

@[simp] theorem agenda_selectHead (s : State) (p x : Nat) (note : PortRun → PortRun) : (s.selectHead p x note).agenda = s.agenda := by
  unfold State.selectHead
  split
  · rfl
  · split <;> simp

@[simp] theorem agenda_startCopy (s : State) (p x : Nat) : (s.startCopy p x).agenda = s.agenda := by
  unfold State.startCopy
  split
  · rfl
  · dsimp only
    split <;> simp

@[simp] theorem agenda_startTest (s : State) (p x : Nat) (clear : PortRun → PortRun) : (s.startTest p x clear).agenda = s.agenda := by
  unfold State.startTest
  dsimp only
  split
  · simp
  · split
    · simp
    · split <;> simp

/-! Arrival -/

@[simp] theorem agenda_addFrame (s : State) (f : Frame) : (s.addFrame f).2.agenda = s.agenda := (rfl)

@[simp] theorem agenda_setFifo (s : State) (m : Nat) (l : List Nat) : (s.setFifo m l).agenda = s.agenda := (rfl)

@[simp] theorem agenda_turnAway (s : State) (j : Nat) : (s.turnAway j).agenda = s.agenda := by
  unfold State.turnAway
  split
  · rfl
  · dsimp only
    split
    · simp
    · split <;> simp

theorem agenda_enterFifo {s t : State} {p i : Nat} (h : s.enterFifo p i = some t) : t.agenda = s.agenda := by
  unfold State.enterFifo at h
  dsimp only at h
  split at h
  · simp at h
  · split at h <;> cases h <;> simp

@[simp] theorem agenda_packetStart (s : State) (p : Nat) (head : List Byte) (t : Nat) : (s.packetStart p head t).agenda = s.agenda := by
  unfold State.packetStart
  dsimp only
  split
  · simp
  · split
    · next h => rw [agenda_enterFifo h]; simp
    · simp

@[simp] theorem agenda_packetArrive (s : State) (p : Nat) (head : List Byte) : (s.packetArrive p head).agenda = s.agenda := by
  unfold State.packetArrive
  split; next t s1 hstamp =>
  rw [agenda_packetStart, ← agenda_rxStamp s p, hstamp]

@[simp] theorem agenda_uncross (s : State) (out i : Nat) : (s.uncross out i).agenda = s.agenda := by
  unfold State.uncross
  simp

@[simp] theorem agenda_fallBack (s : State) (p i : Nat) : (s.fallBack p i).agenda = s.agenda := by
  unfold State.fallBack
  split
  · split <;> simp
  · rfl

@[simp] theorem agenda_suspend (s : State) (p : Nat) : (s.suspend p).agenda = s.agenda := by
  unfold State.suspend
  simp

@[simp] theorem agenda_rematch (s old : State) (p : Nat) : (s.rematch old p).agenda = s.agenda := by
  unfold State.rematch
  split
  · simp
  · split <;> simp

/-! Ports that go down -/

@[simp] theorem agenda_unqueue (s : State) (i : Nat) : (s.unqueue i).agenda = s.agenda := by
  unfold State.unqueue
  refine agenda_each _ _ _ fun t e _ => ?_
  dsimp only
  split <;> simp

@[simp] theorem agenda_leaveFifo (s : State) (i : Nat) : (s.leaveFifo i).agenda = s.agenda := (rfl)

@[simp] theorem agenda_leaveExpand (s : State) (i : Nat) : (s.leaveExpand i).agenda = s.agenda := by
  unfold State.leaveExpand
  rw [agenda_fixSpills]
  rfl

@[simp] theorem agenda_dropJobs (s : State) (i : Nat) : (s.dropJobs i).agenda = s.agenda := by
  unfold State.dropJobs
  exact agenda_each _ _ _ fun t e _ => agenda_release t _

@[simp] theorem agenda_endBad (s : State) (i : Nat) (l : List Byte) (n : Nat) : (s.endBad i l n).agenda = s.agenda := by
  unfold State.endBad
  split
  · rfl
  · dsimp only
    split
    · simp
    · simp
    · simp
    · split <;> simp

@[simp] theorem agenda_abandonRx (s : State) (p : Nat) : (s.abandonRx p).agenda = s.agenda := by
  unfold State.abandonRx
  dsimp only
  split
  · split
    · simp
    · split <;> simp
  · split <;> simp
  · simp

@[simp] theorem agenda_checkType (s : State) (p : Nat) : (s.checkType p).agenda = s.agenda := by
  unfold State.checkType
  split <;> simp

@[simp] theorem agenda_issueCtl (s : State) (e : BusEvent) : (s.issueCtl e).agenda = s.agenda := by
  unfold State.issueCtl
  split
  · rfl
  · split
    · rfl
    · split
      · simp
      · rfl

@[simp] theorem agenda_portDown (s : State) (p : Nat) (pcs : Bool) : (s.portDown p pcs).agenda = s.agenda := by
  unfold State.portDown
  extract_lets m i was s1 s2 s3 s4 r s5
  have h1 : s1.agenda = s.agenda := by simp [s1]
  have h2 : s2.agenda = s1.agenda := by simp [s2]
  have h3 : s3.agenda = s2.agenda := by simp [s3]
  have h4 : s4.agenda = s3.agenda := by simp [s4]
  have h5 : s5.agenda = s4.agenda := by simp [s5]
  rw [← h1, ← h2, ← h3, ← h4, ← h5]
  split <;> simp

/-! Faults -/

@[simp] theorem agenda_persist (s : State) (diag cls inst : Nat) : (s.persist diag cls inst).agenda = s.agenda := by
  unfold State.persist
  refine (apply_ite State.agenda _ _ _).trans ?_
  exact ite_self _

@[simp] theorem fault_regs_ne_plb : F.SAF_FAULT_INFO_diag.addr ≠ Addr.PLB_STATUS ∧ Addr.SAF_FAULT_SEC_LO ≠ Addr.PLB_STATUS ∧
    Addr.SAF_FAULT_SEC_HI ≠ Addr.PLB_STATUS ∧ Addr.SAF_FAULT_NS ≠ Addr.PLB_STATUS ∧ Addr.KEY_FAULT_INFO ≠ Addr.PLB_STATUS ∧
    Addr.KEY_SWITCH_SEC_LO ≠ Addr.PLB_STATUS ∧ Addr.KEY_SWITCH_SEC_HI ≠ Addr.PLB_STATUS ∧ Addr.KEY_SWITCH_NS ≠ Addr.PLB_STATUS := by
  and_intros <;> decide

@[simp] theorem agenda_faultInfo (s : State) (diag cls inst : Nat) : (s.faultInfo diag cls inst).agenda = s.agenda := by
  unfold State.faultInfo
  dsimp only
  split <;> simp

@[simp] theorem agenda_endTest (s : State) : s.endTest.agenda = s.agenda := by
  unfold State.endTest
  split
  · exact agenda_raise (f := F.SAF_EVENT_alarm_test_done) _ (by decide)
  · rfl

@[simp] theorem agenda_holdDown (s : State) (p : Nat) : (s.holdDown p).agenda = s.agenda := (rfl)

@[simp] theorem agenda_faultNoted (s : State) (diag cls inst : Nat) : (s.faultNoted diag cls inst).agenda = s.agenda := by
  unfold State.faultNoted
  simp

/-- The reaction to a MASKED fault. -/
@[simp] theorem agenda_reaction_masked (s : State) (diag inst at_ : Nat) : (s.reaction diag 0 inst at_).agenda = s.agenda := by
  unfold State.reaction
  simp

/-- The reaction to a REDUNDANCY fault. -/
@[simp] theorem agenda_reaction_redundancy (s : State) (diag inst at_ : Nat) : (s.reaction diag 1 inst at_).agenda = s.agenda := by
  unfold State.reaction
  simp

/-- The reaction to a PORT fault of one port. -/
theorem agenda_reaction_port (s : State) {diag : Nat} (inst at_ : Nat) (h : diag ≠ 0x16) :
    (s.reaction diag 2 inst at_).agenda = s.agenda := by
  unfold State.reaction
  simp [h]

/-! The Keystones -/

@[simp] theorem agenda_setUnit (s : State) (u : Unit2) (v : Nat) : (s.setUnit u v).agenda = s.agenda := by
  cases u <;> simp [State.setUnit]

@[simp] theorem agenda_keyFaultInfo (s : State) (cause : Nat) (u : Unit2) : (s.keyFaultInfo cause u).agenda = s.agenda := by
  unfold State.keyFaultInfo
  simp only [agenda_setReg, fault_regs_ne_plb, ne_eq, not_false_eq_true]
  rfl

@[simp] theorem agenda_setRate (s : State) (f : Int) : (s.setRate f).agenda = s.agenda := by
  unfold State.setRate
  simp

@[simp] theorem agenda_showServo (s : State) : s.showServo.agenda = s.agenda := by
  unfold State.showServo
  simp

end Sys2Proof.Machine
end

/-! ### What follows from a register write: the rules of the blocks (R372 step 6) -/

section
namespace Sys2Proof.Machine

theorem after_hif {a : Nat} (h : 0x10000 ≤ a ∧ a < 0x20000) (s : State) (m : Nat) (armed : Bool) (v : Word) (old : State) :
    s.after m a armed v old = s.hifAfter a old := by
  unfold State.after
  rw [if_neg (by unfold Addr.SYS_UNLOCK; omega), if_pos h]

theorem after_dma {a : Nat} (h : 0x30000 ≤ a ∧ a < 0x40000) (s : State) (m : Nat) (armed : Bool) (v : Word) (old : State) :
    s.after m a armed v old = s.dmaAfter a v old := by
  unfold State.after
  rw [if_neg (by unfold Addr.SYS_UNLOCK; omega), if_neg (by omega), if_pos h]

theorem after_softwareReset (s : State) (m : Nat) (armed : Bool) (v : Word) (old : State) :
    s.after m Addr.PWR_SW_RESET armed v old = if armed && decide (fldOf v 0 1 = 1) then s.askReset 2 else s := rfl

theorem after_key {a : Nat} (h : 0x60000 ≤ a ∧ a < 0x70000) (s : State) (m : Nat) (armed : Bool) (v : Word) (old : State) :
    s.after m a armed v old = s.keyAfter a armed v := by
  unfold State.after
  rw [if_neg (by unfold Addr.SYS_UNLOCK; omega), if_neg (by omega), if_neg (by omega), if_neg (by unfold Addr.PWR_SW_RESET; omega),
    if_pos h]

theorem after_trn {a : Nat} (h : 0x70000 ≤ a ∧ a < 0x80000) (s : State) (m : Nat) (armed : Bool) (v : Word) (old : State) :
    s.after m a armed v old = s.trnAfter a armed v := by
  unfold State.after
  rw [if_neg (by unfold Addr.SYS_UNLOCK; omega), if_neg (by omega), if_neg (by omega), if_neg (by unfold Addr.PWR_SW_RESET; omega),
    if_neg (by omega), if_pos h]

theorem after_eph {a : Nat} (h : 0x80000 ≤ a ∧ a < 0x90000) (s : State) (m : Nat) (armed : Bool) (v : Word) (old : State) :
    s.after m a armed v old = s.ephAfter a armed v old := by
  unfold State.after
  rw [if_neg (by unfold Addr.SYS_UNLOCK; omega), if_neg (by omega), if_neg (by omega), if_neg (by unfold Addr.PWR_SW_RESET; omega),
    if_neg (by omega), if_neg (by omega), if_pos h]

theorem after_cnt {a : Nat} (h : 0x90000 ≤ a ∧ a < 0xA0000) (s : State) (m : Nat) (armed : Bool) (v : Word) (old : State) :
    s.after m a armed v old = s.cntAfter a v old := by
  unfold State.after
  rw [if_neg (by unfold Addr.SYS_UNLOCK; omega), if_neg (by omega), if_neg (by omega), if_neg (by unfold Addr.PWR_SW_RESET; omega),
    if_neg (by omega), if_neg (by omega), if_neg (by omega), if_pos h]

theorem after_alarmTest (s : State) (m : Nat) (armed : Bool) (v : Word) (old : State) :
    s.after m Addr.SAF_ALARM_TEST armed v old = if armed then s.alarmTestWrite v.toNat else s := rfl

theorem after_acc {a : Nat} (h : 0xC0000 ≤ a ∧ a < 0xD0000) (s : State) (m : Nat) (armed : Bool) (v : Word) (old : State) :
    s.after m a armed v old = match tableEntry a with
      | some (t, k) => s.tableAfter t k armed v old
      | none => s := by
  unfold State.after
  rewrite [if_neg (by unfold Addr.SYS_UNLOCK; omega), if_neg (by omega), if_neg (by omega), if_neg (by unfold Addr.PWR_SW_RESET; omega),
    if_neg (by omega), if_neg (by omega), if_neg (by omega), if_neg (by omega), if_neg (by unfold Addr.SAF_ALARM_TEST; omega), if_pos h]
  rfl

theorem after_frerReset (s : State) (m : Nat) (armed : Bool) (v : Word) (old : State) :
    s.after m (Addr.PIPE_FRER_RESET 0) armed v old = if armed && decide (fldOf v 15 1 = 1) then
      s.frerReset (s.getF (F.PIPE_FRER_RESET_index 0)) (s.getF (F.PIPE_FRER_RESET_target 0)) else s := rfl

/-- No rule follows a write in the block that a write of these addresses falls to. -/
theorem after_high {a : Nat} (h : 0x400000 ≤ a) (s : State) (m : Nat) (armed : Bool) (v : Word) (old : State) :
    s.after m a armed v old = if 0x400000 ≤ a ∧ a < 0x500000 then s.bufAfter a armed v old
      else if 0x500000 ≤ a ∧ a < 0x600000 then s.tmAfter a old else if 0x1000000 ≤ a then s.portAfter a v old else s := by
  unfold State.after
  rw [if_neg (by unfold Addr.SYS_UNLOCK; omega), if_neg (by omega), if_neg (by omega), if_neg (by unfold Addr.PWR_SW_RESET; omega),
    if_neg (by omega), if_neg (by omega), if_neg (by omega), if_neg (by omega), if_neg (by unfold Addr.SAF_ALARM_TEST; omega),
    if_neg (by omega), if_neg (by unfold Addr.PIPE_FRER_RESET; omega)]

theorem after_buf {a : Nat} (h : 0x400000 ≤ a ∧ a < 0x500000) (s : State) (m : Nat) (armed : Bool) (v : Word) (old : State) :
    s.after m a armed v old = s.bufAfter a armed v old := by
  rw [after_high h.1, if_pos h]

theorem after_tm {a : Nat} (h : 0x500000 ≤ a ∧ a < 0x600000) (s : State) (m : Nat) (armed : Bool) (v : Word) (old : State) :
    s.after m a armed v old = s.tmAfter a old := by
  rw [after_high (by omega), if_neg (by omega), if_pos h]

theorem after_port {a : Nat} (h : 0x1000000 ≤ a) (s : State) (m : Nat) (armed : Bool) (v : Word) (old : State) :
    s.after m a armed v old = s.portAfter a v old := by
  rw [after_high (by omega), if_neg (by omega), if_neg (by omega), if_pos h]

/-- An address outside the registers that the pipelines share is its own. -/
theorem canonAddr_self {a : Nat} (h : a < 0x200000 ∨ 0x300000 ≤ a) : canonAddr a = a := by
  unfold canonAddr sharedPipe
  rw [if_neg]
  simp only [Bool.and_eq_true, decide_eq_true_eq]
  omega

/-- A register write that is admitted, in a calm state, with what follows from it. -/
theorem takes_write {c : Instr} {s u : State} {m a : Nat} {v : Word} (hexec : exec c s = run (fun s => s.regWord m a v) s)
    (hcalm : s.calm = true) (hadmits : s.admits m a v = true) (hown : canonAddr a = a) (hplb : a ≠ Addr.PLB_STATUS)
    (heffect : (s.stored m a v).after m a (s.armed m) v (s.setArmed m false) = u)
    (hagenda : u.agenda = (s.stored m a v).agenda) : Takes c s u := by
  refine takes_of_agenda hexec hcalm ?_ (hagenda.trans (agenda_stored s m v (hown.symm ▸ hplb)))
  rw [regWord_admits s m a v hadmits, hown, heffect]

/-- The same for a write that ends with an entry in the conductor log. -/
theorem takes_write_ksLog {c : Instr} {s u : State} {kind : LogKind} {m a : Nat} {v : Word}
    (hexec : exec c s = run (fun s => s.regWord m a v) s)
    (hcalm : s.calm = true) (hlog : s.key.log.length < 767) (hadmits : s.admits m a v = true) (hown : canonAddr a = a)
    (hplb : a ≠ Addr.PLB_STATUS)
    (heffect : (s.stored m a v).after m a (s.armed m) v (s.setArmed m false) = u.ksLog kind)
    (hagenda : u.agenda = (s.stored m a v).agenda) : Takes c s (u.ksLog kind) := by
  refine takes_ksLog_of_agenda hexec hcalm hlog ?_ (hagenda.trans (agenda_stored s m v (hown.symm ▸ hplb)))
  rw [regWord_admits s m a v hadmits, hown, heffect]

/-- A register other than the one written and SYS.ARMED keeps its fields. -/
theorem stored_getF {s : State} {m a : Nat} {v : Word} {f : Fld} (hown : canonAddr a = a) (h : f.addr ≠ a)
    (harmed : f.addr ≠ Addr.SYS_ARMED) : (s.stored m a v).getF f = s.getF f := by
  unfold State.getF
  rw [stored_reg s m a v f.addr (hown.symm ▸ h) harmed]

@[simp] theorem port_setReg (s : State) (a : Nat) (w : Word) (p : Nat) : (s.setReg a w).port p = s.port p := rfl
@[simp] theorem port_setF (s : State) (f : Fld) (v p : Nat) : (s.setF f v).port p = s.port p := rfl
@[simp] theorem port_setFBit (s : State) (f : Fld) (i : Nat) (b : Bool) (p : Nat) : (s.setFBit f i b).port p = s.port p := rfl
@[simp] theorem port_raiseBit (s : State) (f : Fld) (i p : Nat) : (s.raiseBit f i).port p = s.port p := rfl
@[simp] theorem port_raise (s : State) (f : Fld) (p : Nat) : (s.raise f).port p = s.port p := rfl
@[simp] theorem port_count (s : State) (g i c p : Nat) : (s.count g i c).port p = s.port p := rfl
@[simp] theorem reg_setPort (s : State) (p : Nat) (r : PortRun) (a : Nat) : (s.setPort p r).reg a = s.reg a := rfl
@[simp] theorem getF_setPort (s : State) (p : Nat) (r : PortRun) (f : Fld) : (s.setPort p r).getF f = s.getF f := rfl
@[simp] theorem reg_raiseBit (s : State) (f : Fld) (i a : Nat) : (s.raiseBit f i).reg a = s.reg a := rfl
@[simp] theorem reg_count (s : State) (g i c a : Nat) : (s.count g i c).reg a = s.reg a := rfl

@[simp] theorem ephOn_setReg (s : State) (a : Nat) (w : Word) : (s.setReg a w).ephOn = s.ephOn := rfl
@[simp] theorem ephOn_setF (s : State) (f : Fld) (v : Nat) : (s.setF f v).ephOn = s.ephOn := rfl
@[simp] theorem ephOn_setPort (s : State) (p : Nat) (r : PortRun) : (s.setPort p r).ephOn = s.ephOn := rfl
@[simp] theorem ephOn_raiseBit (s : State) (f : Fld) (i : Nat) : (s.raiseBit f i).ephOn = s.ephOn := rfl
@[simp] theorem ephOn_dropCause (s : State) (f : Cause → Bool) : (s.dropCause f).ephOn = s.ephOn := rfl

theorem each_id {α : Type} {s : State} {f : State → α → State} {l : List α} (h : ∀ x ∈ l, f s x = s) : s.each l f = s :=
  each_keeps (fun t => t = s) f l (fun _ x hx ht => ht ▸ h x hx) s rfl

end Sys2Proof.Machine
end

/-! ### Port macros and links (R41 to R47, R55 to R64) -/

section
namespace Sys2Proof.Machine

theorem getF_setF_reg (s : State) {f g : Fld} (v : Nat) (h : g.addr ≠ f.addr) : (s.setF f v).getF g = s.getF g := by
  unfold State.getF
  rw [reg_setF_other s f h]

/-! Effects of the commands -/

@[simp] theorem agenda_setPaused (s : State) (p i q : Nat) : (s.setPaused p i q).agenda = s.agenda := by
  unfold State.setPaused
  simp

@[simp] theorem agenda_fcDue (s : State) (p i : Nat) : (s.fcDue p i).agenda = s.agenda := by
  unfold State.fcDue
  split <;> simp

/-! Verification and Low Power Idle -/

theorem verifyTick_retry {s : State} {p : Nat} (hup : s.portUp p = true)
    (hst : s.getF (F.PORT_MAC_STATUS_verify_status (p / 4) (p % 4)) = 1 ∨ s.getF (F.PORT_MAC_STATUS_verify_status (p / 4) (p % 4)) = 2) :
    s.verifyTick p = if (s.port p).verifyTries < 3 then
        (s.setF (F.PORT_MAC_STATUS_verify_status (p / 4) (p % 4)) 2).setPort p { s.port p with verifyTries := (s.port p).verifyTries + 1 }
      else (s.setF (F.PORT_MAC_STATUS_verify_status (p / 4) (p % 4)) 4).raise (F.PORT_MAC_EVENT_verify_fail (p / 4) (p % 4)) := by
  rcases hst with hst | hst <;> simp [State.verifyTick, hup, hst]

theorem mpacketRx_of_enabled {s : State} {p : Nat} (hup : s.portUp p = true)
    (hen : s.getB (F.PORT_MAC_CFG_preempt_enable (p / 4) (p % 4)) = true) (k : MPacket) :
    s.mpacketRx p k = match k with
      | .respond =>
        if s.getF (F.PORT_MAC_STATUS_verify_status (p / 4) (p % 4)) = 2 then
          (s.setF (F.PORT_MAC_STATUS_verify_status (p / 4) (p % 4)) 3).setF (F.PORT_MAC_STATUS_preempt_active (p / 4) (p % 4)) 1
        else s
      | .verify => s.setPort p { s.port p with responds := (s.port p).responds + 1 }
      | .badSmd => s.count 0 p 28 := by
  cases k <;> simp only [State.mpacketRx, hup, hen, Bool.not_true, Bool.or_self, Bool.false_eq_true, if_false]

/-- Settles O6: each row's condition holds by hypothesis. -/
theorem portVerificationAndLpi : Obligations.PortVerificationAndLpi := by
  unfold Obligations.PortVerificationAndLpi
  refine ⟨⟨fun s p hcalm _ hup hst => ?_, fun s p hcalm _ hup hen => ⟨fun hst => ?_, ?_, ?_⟩⟩,
    fun s p hcalm _ hup heee hlpi hidle htx => ?_, fun s p enter hcalm _ hup heee hrx => ?_⟩
  · refine takes_of_agenda (f := fun s => s.verifyTick p) rfl hcalm (verifyTick_retry hup hst) ?_
    split <;> simp
  · exact takes_of_agenda (f := fun s => s.mpacketRx p .respond) rfl hcalm
      ((mpacketRx_of_enabled hup hen .respond).trans (if_pos hst)) (by simp)
  · exact takes_of_agenda (f := fun s => s.mpacketRx p .verify) rfl hcalm (mpacketRx_of_enabled hup hen .verify) (by simp)
  · exact takes_of_agenda (f := fun s => s.mpacketRx p .badSmd) rfl hcalm (mpacketRx_of_enabled hup hen .badSmd) (by simp)
  · refine takes_of_agenda (f := fun s => s.lpiEnter p) rfl hcalm ?_ (by simp)
    simp [State.lpiEnter, hup, heee, hlpi, hidle, htx]
  · refine takes_of_agenda (f := fun s => s.rxLpiAt p enter) rfl hcalm ?_ (by split <;> simp)
    cases enter <;> simp_all [State.rxLpiAt, State.doIf, b2n]

/-! The apply -/

@[simp] theorem agenda_freshLink (s : State) (m i : Nat) : (s.freshLink m i).agenda = s.agenda := by
  unfold State.freshLink
  dsimp only
  rw [agenda_restartVerify]
  exact agenda_setReg _ _ (port_status_ne_plb m i).1

/-- A write of 1 to PORT.APPLY, once its field has been changed. -/
theorem after_apply {mac : Nat} {v : Word} (s : State) (m : Nat) (armed : Bool) (old : State) (hv : fldOf v 0 1 = 1) :
    s.after m (Addr.PORT_APPLY mac) armed v old = s.applyMacro mac := by
  rw [after_port (by unfold Addr.PORT_APPLY; omega)]
  unfold State.portAfter
  have hoffset : Addr.PORT_APPLY mac % 0x10000 = 4 := by unfold Addr.PORT_APPLY; omega
  have hmacro : (Addr.PORT_APPLY mac - 0x1000000) / 0x10000 = mac := by unfold Addr.PORT_APPLY; omega
  simp [hoffset, hmacro, hv]

theorem applyMacro_busy {s : State} {m : Nat} (hon : s.domainOn (1 + m / 8) = true)
    (hst : s.getF (F.PORT_APPLY_STATUS_apply_status m) = 1) : s.applyMacro m = s.setF (F.PORT_APPLY_STATUS_apply_ignored m) 1 := by
  simp [State.applyMacro, hon, hst]

theorem applyMacro_refused {s : State} {m : Nat} (hst : s.getF (F.PORT_APPLY_STATUS_apply_status m) ≠ 1) (hcheck : s.applyCheck m ≠ 1) :
    s.applyMacro m = s.setF (F.PORT_APPLY_STATUS_apply_status m) (s.applyCheck m) := by
  unfold State.applyMacro
  rw [if_neg (by simp [hst])]
  split
  · exact absurd ‹_› hcheck
  · rfl

theorem applyMacro_taken {s : State} {m : Nat} (hst : s.getF (F.PORT_APPLY_STATUS_apply_status m) ≠ 1) (hcheck : s.applyCheck m = 1)
    (hset : s.applySet m = [m]) : s.applyMacro m = s.takeCfg m (s.affected m) := by
  unfold State.applyMacro
  rw [if_neg (by simp [hst]), hcheck, hset]
  rfl

theorem restartVerify_downFault (s : State) (p q : Nat) : ((s.restartVerify p).port q).downFault = (s.port q).downFault := by
  unfold State.restartVerify
  dsimp only
  by_cases h : q = p
  · rw [h, port_setPort]
  · rw [port_setPort_other _ h, port_setF, port_setF]

/-- The start of a sub-port's link leaves what holds a port down. -/
theorem freshLink_downFault (s : State) (m i p : Nat) : ((s.freshLink m i).port p).downFault = (s.port p).downFault := by
  unfold State.freshLink
  dsimp only
  rw [restartVerify_downFault, port_setReg]

/-- A configuration whose changed sub-ports do not exist yet, where no fault holds a port down. -/
theorem takeCfg_fresh {s : State} {m : Nat} {l : List Nat} (hnew : ∀ i ∈ l, s.portExists (4 * m + i) = false)
    (hdown : ∀ i < 4, (s.port (4 * m + i)).downFault = false) :
    s.takeCfg m l = (((s.setMac m (s.macCfg m)).each l fun x i => x.freshLink m i).setF (F.PORT_APPLY_STATUS_apply_status m) 1).setF
      (F.PORT_APPLY_STATUS_apply_ignored m) 0 := by
  unfold State.takeCfg
  dsimp only
  have hold : (s.each l fun t i => if t.portExists (4 * m + i) then t.portDown (4 * m + i) true else t) = s :=
    each_id fun i hi => by rw [hnew i hi]; rfl
  rw [hold]
  have hlinks : ∀ i < 4, ((((s.setMac m (s.macCfg m)).each l fun x i => x.freshLink m i).port (4 * m + i)).downFault = false) :=
    fun i hi => each_keeps (fun t => (t.port (4 * m + i)).downFault = false) _ l
      (fun t j _ ht => (freshLink_downFault t m j _).trans ht) _ (hdown i hi)
  rw [each_id (l := List.range 4) fun i hi => if_neg (by simp [hlinks i (List.mem_range.mp hi)])]

/-- Settles O1: the outcomes of the check (R44), the configuration taken into force where no changed sub-port exists yet, and the end
of an apply. -/
theorem portApply : Obligations.PortApply := by
  unfold Obligations.PortApply
  refine ⟨fun s m mac v hcalm _ hadmits hv => ?_, fun s mac hcalm _ hon hst => ?_⟩
  · have hown : canonAddr (Addr.PORT_APPLY mac) = Addr.PORT_APPLY mac := canonAddr_self (.inr (by unfold Addr.PORT_APPLY; omega))
    have hplb : Addr.PORT_APPLY mac ≠ Addr.PLB_STATUS := plb_high (high_add (by decide))
    refine ⟨fun hon hst => ?_, fun hst hcheck => ?_, fun hst hcheck hset hnew hdown => ?_⟩
    · exact takes_write rfl hcalm hadmits hown hplb ((after_apply _ m _ _ hv).trans (applyMacro_busy hon hst)) (by simp)
    · exact takes_write rfl hcalm hadmits hown hplb ((after_apply _ m _ _ hv).trans (applyMacro_refused hst hcheck)) (by simp)
    · exact takes_write rfl hcalm hadmits hown hplb
        ((after_apply _ m _ _ hv).trans ((applyMacro_taken hst hcheck hset).trans (takeCfg_fresh hnew hdown))) (by simp)
  · refine takes_of_agenda (f := fun s => s.applyDoneAt mac) rfl hcalm ?_ (by simp)
    simp [State.applyDoneAt, hon, hst]

/-! Received flow control -/

/-- Acting on quanta while no priority of the list is in a recovery window. -/
theorem actPause_of_open {s : State} {p : Nat} {l : List (Nat × Nat)} (h : ∀ e ∈ l, s.recovering p e.1 = false) :
    s.actPause p l = s.each l fun t e => t.setPaused p e.1 e.2 := by
  have hany : (l.any fun e => s.recovering p e.1) = false := List.any_eq_false.mpr fun e he => by simp [h e he]
  have hall : (l.filter fun e => !s.recovering p e.1) = l := List.filter_eq_self.mpr fun e he => by simp [h e he]
  unfold State.actPause
  rw [hany, hall]
  rfl

/-- A good PAUSE frame for this port. -/
theorem flowControlRx_pause {s : State} {p : Nat} {b : List Byte} (hup : s.portUp p = true)
    (hrx : s.getB (F.PORT_MAC_CFG_rx_en (p / 4) (p % 4)) = true) (hmin : 64 ≤ b.length)
    (hmax : b.length ≤ s.getF (F.PORT_MAC_CFG_max_frame (p / 4) (p % 4))) (hety : be16 b 12 = 0x8808)
    (hda : beAt b 0 6 = 0x0180C2000001 ∨ beAt b 0 6 = s.macAddr p) (hop : be16 b 14 = 1)
    (hmode : s.getF (F.PORT_MAC_CFG_pause_mode (p / 4) (p % 4)) = 1) :
    s.flowControlRx p b true = ((s.setPort p { s.port p with activity := true }).actPause p
      ((List.range 8).map fun j => (j, be16 b 16))).count 0 p 9 := by
  have hclass : rxClass (fldOf (s.reg (Addr.PORT_MAC_CFG (p / 4) (p % 4))) 0 14) b.length true false = (0, []) := by
    unfold rxClass
    rw [if_neg (by omega)]
    exact if_pos hmax
  have hpause : (F.PORT_MAC_CFG_pause_mode (p / 4) (p % 4)).of (s.reg (Addr.PORT_MAC_CFG (p / 4) (p % 4))) = 1 := hmode
  have hmine : (decide (beAt b 0 6 = 0x0180C2000001) || decide (beAt b 0 6 = s.macAddr p)) = true := by simpa using hda
  unfold State.flowControlRx
  rw [if_neg (by simp [hup, hrx, hety])]
  unfold State.macCtrlRx
  simp only [hclass, hpause, hmine, hop]
  rfl

/-- A pause of a priority is broken: what the watchdog does before the flush. -/
def State.pauseBroken (s : State) (p i : Nat) : State :=
  (((s.raiseBit (F.PORT_MAC_EVENT_pause_storm (p / 4) (p % 4)) i).count 0 p 25).setPaused p i 0).setFBit
    (F.PORT_MAC_STATUS_wd_recovering (p / 4) (p % 4)) i true

/-- It changes no register but the MAC's status. -/
theorem reg_pauseBroken {s : State} {p i a : Nat} (h : a ≠ Addr.PORT_MAC_STATUS (p / 4) (p % 4)) : (s.pauseBroken p i).reg a = s.reg a :=
  (reg_setReg_other _ h _).trans (reg_setReg_other (s.raiseBit (F.PORT_MAC_EVENT_pause_storm (p / 4) (p % 4)) i |>.count 0 p 25) h _)

theorem maskQueues_pauseBroken (s : State) (p i : Nat) : (s.pauseBroken p i).maskQueues p i = s.maskQueues p i := by
  unfold State.maskQueues State.pfcMap
  dsimp only
  rw [reg_pauseBroken (by unfold Addr.PORT_PFC_RX_MAP_LO Addr.PORT_MAC_STATUS; omega),
    reg_pauseBroken (by unfold Addr.PORT_PFC_RX_MAP_HI Addr.PORT_MAC_STATUS; omega)]

theorem wdBreak_of_waiting {s : State} {p i : Nat} (hi : i < 8) (hlim : s.getF (F.PORT_PAUSE_WD_wd_limit (p / 4) (p % 4)) ≠ 0)
    (hpaused : s.getFBit (F.PORT_MAC_STATUS_rx_paused (p / 4) (p % 4)) i = true)
    (hwait : ∃ x ∈ s.maskQueues p i, (s.queue x).copies ≠ []) :
    s.wdBreak p i = if s.getF (F.PORT_MAC_CFG_wd_action (p / 4) (p % 4)) = 1 then
        ((s.pauseBroken p i).abortQueues p (s.maskQueues p i)).each (s.maskQueues p i) State.flushQueue
      else s.pauseBroken p i := by
  obtain ⟨x, hx, hcopies⟩ := hwait
  have hany : ((s.maskQueues p i).any fun x => !(s.queue x).copies.isEmpty) = true :=
    List.any_eq_true.mpr ⟨x, hx, by simpa using hcopies⟩
  have haction : (s.pauseBroken p i).getF (F.PORT_MAC_CFG_wd_action (p / 4) (p % 4)) = s.getF (F.PORT_MAC_CFG_wd_action (p / 4) (p % 4)) := by
    unfold State.getF
    rw [reg_pauseBroken (by simp only [F.PORT_MAC_CFG_wd_action, Addr.PORT_MAC_CFG, Addr.PORT_MAC_STATUS]; omega)]
  unfold State.wdBreak
  rw [if_neg (by simp [hi, hlim, hpaused, hany])]
  change (if (s.pauseBroken p i).getF (F.PORT_MAC_CFG_wd_action (p / 4) (p % 4)) = 1 then
    ((s.pauseBroken p i).abortQueues p ((s.pauseBroken p i).maskQueues p i)).each ((s.pauseBroken p i).maskQueues p i) State.flushQueue
    else s.pauseBroken p i) = _
  rw [haction, maskQueues_pauseBroken]

/-- Settles O4: the frame's class is that of a good one, and no priority is in its recovery window. -/
theorem portPauseAndWatchdog : Obligations.PortPauseAndWatchdog := by
  unfold Obligations.PortPauseAndWatchdog
  refine ⟨fun s p b hcalm hp hup hrx hmin hmax hety hda hop hmode hrec => ?_, fun s p i hcalm _ hi => ?_, fun s p i hcalm _ hi => ?_,
    fun s p i hcalm _ hi hlim hpaused hwait => ?_⟩
  · refine takes_of_agenda (f := fun s => s.flowControlRx p b true) rfl hcalm ?_ (by simp)
    have hopen : ∀ e ∈ (List.range 8).map fun j => (j, be16 b 16),
        (s.setPort p { s.port p with activity := true }).recovering p e.1 = false := by
      intro e he
      obtain ⟨j, hj, rfl⟩ := List.mem_map.mp he
      exact hrec j (List.mem_range.mp hj)
    rw [flowControlRx_pause hup hrx hmin hmax hety hda hop hmode, actPause_of_open hopen]
    unfold State.each
    rw [List.foldl_map]
  · refine takes_of_agenda (f := fun s => s.pauseExpiry p i) rfl hcalm ?_ (by simp)
    simp [State.pauseExpiry, hi]
  · refine takes_of_agenda (f := fun s => s.wdEnd p i) rfl hcalm ?_ (by simp)
    simp [State.wdEnd, hi]
  · exact takes_of_agenda (f := fun s => s.wdBreak p i) rfl hcalm (wdBreak_of_waiting hi hlim hpaused hwait) (by split <;> simp)

end Sys2Proof.Machine
end

/-! ### Links, auto-negotiation and generated flow control (R41, R42, R46, R58, R59, R116) -/

section
namespace Sys2Proof.Machine

@[simp] theorem agenda_noteRefusal (s : State) (q d c r : Nat) : (s.noteRefusal q d c r).agenda = s.agenda := by
  unfold State.noteRefusal
  rw [agenda_raise _ (by decide), agenda_setReg _ _ (by decide)]

/-- Without an active Ephemeris no port has a type to run. -/
theorem checkType_of_off {s : State} (h : s.ephOn = false) (p : Nat) : s.checkType p = s := by
  unfold State.checkType
  simp [h]

/-- PORT.LINK_STATUS of a port is no register of the Ephemeris's report of types. -/
theorem linkUp_checkType (s : State) (p q : Nat) : (s.checkType p).linkUp q = s.linkUp q := by
  have hmis : ∀ f : Fld, f.addr = Addr.EPH_MISMATCH → Addr.PORT_LINK_STATUS (q / 4) (q % 4) ≠ f.addr := by
    intro f hf
    rw [hf]
    unfold Addr.PORT_LINK_STATUS Addr.EPH_MISMATCH
    omega
  unfold State.checkType
  split
  · unfold State.linkUp State.getB
    rw [show ∀ t : State, (t.raise F.EPH_EVENT_rate_mismatch).getF (F.PORT_LINK_STATUS_link_up (q / 4) (q % 4))
        = t.getF (F.PORT_LINK_STATUS_link_up (q / 4) (q % 4)) from fun _ => rfl,
      getF_setF_reg _ _ (hmis F.EPH_MISMATCH_running_type rfl), getF_setF_reg _ _ (hmis F.EPH_MISMATCH_port rfl)]
  · rfl

/-- A field of PORT.LINK_STATUS beside link_up. -/
theorem linkUp_setF_beside {s : State} {p v : Nat} {f : Fld} (hlo : 1 ≤ f.lo) (hwidth : f.lo + f.width ≤ 32) : (s.setF f v).linkUp p = s.linkUp p := by
  unfold State.linkUp State.getB
  rw [getF_setF_other s f (F.PORT_LINK_STATUS_link_up (p / 4) (p % 4)) v hwidth (.inr (.inl hlo))]

/-- A link that is down and stays down has no entries to suspend. -/
theorem rematch_of_down {s old : State} {p : Nat} (h : s.linkUp p = false) (hold : old.linkUp p = false) : s.rematch old p = s := by
  unfold State.rematch State.portMatches
  simp [h, hold]

/-! Links -/

/-- PORT.LINK_STATUS shows a link that is up. -/
def State.linkShown (s : State) (p : Nat) : State :=
  ((s.setF (F.PORT_LINK_STATUS_link_up (p / 4) (p % 4)) 1).setF (F.PORT_LINK_STATUS_an_done (p / 4) (p % 4)) (b2n (s.anOn p))).setF
    (F.PORT_LINK_STATUS_lt_done (p / 4) (p % 4)) (b2n (s.ltOn p))

theorem linkShown_getF (s : State) (p : Nat) {f : Fld} (h : f.addr ≠ Addr.PORT_LINK_STATUS (p / 4) (p % 4)) :
    (s.linkShown p).getF f = s.getF f :=
  (getF_setF_reg _ _ h).trans ((getF_setF_reg _ _ h).trans (getF_setF_reg s _ h))

theorem macCfg_ne_linkStatus (m i : Nat) : Addr.PORT_MAC_CFG m i ≠ Addr.PORT_LINK_STATUS m i := by
  unfold Addr.PORT_MAC_CFG Addr.PORT_LINK_STATUS
  omega

theorem linkShown_fcGen (s : State) (p : Nat) : (s.linkShown p).fcGen p = s.fcGen p := by
  have hcfg := macCfg_ne_linkStatus (p / 4) (p % 4)
  unfold State.fcGen State.getB
  rw [linkShown_getF s p (f := F.PORT_MAC_CFG_pause_mode (p / 4) (p % 4)) hcfg,
    linkShown_getF s p (f := F.PORT_MAC_CFG_fc_gen_en (p / 4) (p % 4)) hcfg]

/-- A port that comes up without an active Ephemeris. -/
theorem linkUpAt_of_lock {s : State} {p : Nat} (hexists : s.portExists p = true) (hon : s.domainOn (1 + p / 32) = true)
    (hdown : s.linkUp p = false) (hfault : (s.port p).downFault = false) (href : p / 128 ∉ s.refLost) (htest : s.groupTested = 0)
    (han : s.anOn p = false ∨ s.clause37 p = true ∨ s.getB (F.PORT_LINK_STATUS_an_done (p / 4) (p % 4)) = true)
    (heph : s.ephOn = false) :
    s.linkUpAt p = ((((s.linkShown p).setPort p { s.port p with fcPend := if s.fcGen p then (s.port p).bp else 0 }).raiseBit
      (F.PORT_EVENT_link_change (p / 4)) (p % 4)).dropCause fun c => decide (c = .port p)).rematch s p := by
  have hlock : (s.anOn p && !s.clause37 p && !s.getB (F.PORT_LINK_STATUS_an_done (p / 4) (p % 4))) = false := by
    rcases han with h | h | h <;> simp [h]
  have htested : ¬ 0 = 1 + p / 32 := by omega
  unfold State.linkUpAt
  rw [if_neg (by simp [hexists, hon, hdown, hfault, href, hlock, htest, htested])]
  extract_lets s1 gen r s2 r'
  have hgen : gen = s.fcGen p := linkShown_fcGen s p
  have heph' : ((s2.raiseBit (F.PORT_EVENT_link_change (p / 4)) (p % 4)).dropCause fun c => decide (c = .port p)).ephOn = false := by
    simpa [s2, s1] using heph
  rewrite [checkType_of_off heph']
  simp only [s2, r, r', s1, hgen, port_setF, State.linkShown]

/-- Settles O2: a port comes up with what its registers hold, and goes down with a report. -/
theorem portLinkUpAndDown : Obligations.PortLinkUpAndDown := by
  unfold Obligations.PortLinkUpAndDown
  refine ⟨fun s p hcalm _ hexists hon hdown hfault href han heph => ?_, fun s p hcalm _ hexists hup hlog => ?_⟩
  · obtain ⟨-, -, -, htest, -, -, -⟩ := calm_parts hcalm
    exact takes_of_agenda (f := fun s => s.linkUpAt p) rfl hcalm (linkUpAt_of_lock hexists hon hdown hfault href htest han heph) (by simp)
  · refine takes_ksLog_of_agenda (f := fun s => s.linkDownAt p) rfl hcalm hlog ?_ (by simp)
    unfold State.linkDownAt
    rw [if_pos (by simp [hexists, hup])]
    rfl

/-! Auto-negotiation -/

/-- A negotiation that fails on a port that is down. -/
theorem anFailAt_of_down {s : State} {p : Nat} (hexists : s.portExists p = true) (han : (s.anOn p || s.ltOn p) = true)
    (hon : s.domainOn (1 + p / 32) = true) (hdown : s.linkUp p = false) :
    s.anFailAt p = (((s.setF (F.PORT_LINK_STATUS_an_done (p / 4) (p % 4)) 0).setF (F.PORT_LINK_STATUS_resolved_tech (p / 4) (p % 4))
      15).checkType p).raise (F.PORT_EVENT_an_fail (p / 4)) := by
  unfold State.anFailAt
  rw [if_pos (by simp [hexists, han, hon]), hdown]
  dsimp only
  rw [if_neg (by simp), rematch_of_down _ hdown]
  rw [linkUp_checkType]
  rw [linkUp_setF_beside (show 1 ≤ 4 by decide) (show 4 + 4 ≤ 32 by decide),
    linkUp_setF_beside (show 1 ≤ 1 by decide) (show 1 + 1 ≤ 32 by decide)]
  exact hdown

/-- A negotiation that resolves without an active Ephemeris. -/
theorem anDoneAt_resolved {s : State} {p ability tech : Nat} {fp : FecPage} {eee : Bool} (hexists : s.portExists p = true)
    (han : s.anOn p = true) (hon : s.domainOn (1 + p / 32) = true) (hclause : s.clause37 p = false)
    (hfind : (techOrder.find? fun t => bitAt (fldOf (s.subCfg p) 16 11) t && bitAt ability t) = some tech)
    (hfec : techFec tech (fldOf (s.subCfg p) 0 2) fp ∈ fecAllowed (s.mac (p / 4)).mode ((s.mac (p / 4)).lane (p % 4)) (p % 4))
    (heph : s.ephOn = false) :
    s.anDoneAt p ability fp eee = ((((s.setF (F.PORT_LINK_STATUS_an_done (p / 4) (p % 4)) 1).setF
      (F.PORT_LINK_STATUS_resolved_tech (p / 4) (p % 4)) tech).setF (F.PORT_LINK_STATUS_fec_active (p / 4) (p % 4))
        (techFec tech (fldOf (s.subCfg p) 0 2) fp)).setPort p
          { s.port p with eeeAgreed := eee && s.getB (F.PORT_MAC_CFG_eee_enable (p / 4) (p % 4)) }).rematch s p := by
  have hcfg : (F.PORT_MAC_CFG_eee_enable (p / 4) (p % 4)).addr ≠ Addr.PORT_LINK_STATUS (p / 4) (p % 4) := macCfg_ne_linkStatus _ _
  unfold State.anDoneAt
  simp only [hexists, han, hon, hclause, hfind]
  rw [if_neg (by simp), if_neg (by simp), if_neg (not_not_intro hfec), checkType_of_off (by simpa using heph)]
  unfold State.getB
  rw [getF_setF_reg _ _ hcfg, getF_setF_reg _ _ hcfg, getF_setF_reg _ _ hcfg]
  simp only [port_setF]

/-- Settles O3: the first technology of the order that both sides have, by its place in the list. -/
theorem portAutoNegotiation : Obligations.PortAutoNegotiation := by
  unfold Obligations.PortAutoNegotiation
  refine ⟨fun s p ability fp eee hcalm _ hexists han hon hclause => ⟨fun l tech r horder hbefore hboth hfec heph => ?_,
    fun hnone hdown => ?_⟩, fun s p ability fp eee hcalm _ hexists han hon hclause => ?_, fun s p hcalm _ hexists han hon hdown => ?_⟩
  · refine takes_of_agenda (f := fun s => s.anDoneAt p ability fp eee) rfl hcalm ?_ (by simp)
    have hfind : (techOrder.find? fun t => bitAt (fldOf (s.subCfg p) 16 11) t && bitAt ability t) = some tech := by
      rw [List.find?_eq_some_iff_append]
      exact ⟨hboth, l, r, horder, fun x hx => List.all_eq_true.mp hbefore x hx⟩
    exact anDoneAt_resolved hexists han hon hclause hfind hfec heph
  · refine takes_of_agenda (f := fun s => s.anDoneAt p ability fp eee) rfl hcalm ?_ (by simp)
    have hfind : (techOrder.find? fun t => bitAt (fldOf (s.subCfg p) 16 11) t && bitAt ability t) = none :=
      List.find?_eq_none.mpr fun t ht => Bool.eq_false_iff.mp ((Bool.not_eq_true' _).mp (List.all_eq_true.mp hnone t ht))
    unfold State.anDoneAt
    simp only [hexists, han, hon, hclause, hfind]
    exact anFailAt_of_down hexists (by simp [han]) hon hdown
  · refine takes_of_agenda (f := fun s => s.anDoneAt p ability fp eee) rfl hcalm ?_ (by simp)
    simp [State.anDoneAt, hexists, han, hon, hclause]
  · exact takes_of_agenda (f := fun s => s.anFailAt p) rfl hcalm (anFailAt_of_down hexists han hon hdown) (by simp)

/-! Generated flow control -/

theorem agenda_fcStart (s : State) (p : Nat) : (s.fcStart p).agenda = s.agenda := by
  unfold State.fcStart
  extract_lets k mode
  split; next f s1 hstamp =>
  rw [agenda_startTx, agenda_setPort, ← agenda_stampTx s p, hstamp]

theorem bitAt_putBits_same (n k : Nat) (b : Bool) : bitAt (putBits n k 1 (b2n b)) k = b := by
  have h := bitsOf_putBits n k 1 (b2n b)
  unfold bitAt
  cases b <;> simp_all [bitsOf, b2n]

/-- Back-pressure of a class changes as its condition asks. -/
theorem bpSet_of_cond {s : State} {p k : Nat} {on : Bool} (hk : k < 8) (hold : bitAt (s.port p).bp k = !on) (hcond : s.bpCond p k = on) :
    s.bpSet p k on =
      if s.getF (F.PORT_MAC_CFG_pause_mode (p / 4) (p % 4)) = 1 ∧ (s.port p).bp ≠ 0 ∧ putBits (s.port p).bp k 1 (b2n on) ≠ 0 then
        s.setPort p { s.port p with bp := putBits (s.port p).bp k 1 (b2n on) }
      else (s.setPort p { s.port p with bp := putBits (s.port p).bp k 1 (b2n on) }).fcDue p k := by
  unfold State.bpSet
  rw [if_neg (by cases on <;> simp_all)]

theorem ne_zero_of_bitAt {n k : Nat} (h : bitAt n k = true) : n ≠ 0 := by
  rintro rfl
  simp [bitAt] at h

/-- What FC_FRAME_SEND does where nothing is ahead of the frame that is due. -/
theorem fcSend_of_due {s : State} {p : Nat} (hdue : (s.port p).fcPend ≠ 0) (hup : s.portUp p = true) (hskid : (s.port p).skid = [])
    (hgen : s.fcGen p = true) (hslot : s.fcSlot p = true) :
    s.fcSend p = match (s.port p).tx with
      | none => s.fcStart p
      | some t => if s.canCut p t then (s.interrupt p t).fcStart p else s := by
  unfold State.fcSend
  simp only [hskid, hgen, hslot, hup, hdue]
  simp <;> rfl

/-- The flow-control frame that is due in state `s` starts in state `t`. -/
def State.sendsDue (s : State) (p : Nat) (t : State) : State :=
  let (f, x) := t.stampTx p
    { TxFrame.unbilled (s.fcBytes p (s.getF (F.PORT_MAC_CFG_pause_mode (p / 4) (p % 4))) (s.port p).fcPend) 64 with
      flow := some ((s.port p).fcPend, s.getF (F.PORT_MAC_CFG_pause_mode (p / 4) (p % 4))) }
  (x.setPort p { x.port p with fcPend := 0 }).startTx p f

/-- The interruption of the frame in progress leaves what the flow-control frame is made of. -/
theorem interrupt_fcStart (s : State) (p : Nat) (t : TxFrame) : (s.interrupt p t).fcStart p = s.sendsDue p (s.interrupt p t) := by
  have hport : (s.interrupt p t).port p = { s.port p with tx := none, held := some { t with done := s.bytesOut p t } } := by
    unfold State.interrupt
    simp
  have hreg : ∀ a, (s.interrupt p t).reg a = s.reg a := fun a => by unfold State.interrupt; simp
  have hbytes : ∀ mode k, (s.interrupt p t).fcBytes p mode k = s.fcBytes p mode k := fun mode k => by
    simp [State.fcBytes, State.macAddr, State.getF, hport, hreg]
  have hmode : ∀ f, (s.interrupt p t).getF f = s.getF f := fun f => congrArg (fun w => fldOf w f.lo f.width) (hreg f.addr)
  unfold State.fcStart State.sendsDue
  simp only [hbytes, hmode, hport]

/-- Settles O5: each row's condition holds by hypothesis. -/
theorem portBackPressure : Obligations.PortBackPressure := by
  unfold Obligations.PortBackPressure
  refine ⟨⟨fun s p k hcalm hk hold hcond => ?_, fun s p k hcalm hk hold hcond => ?_, fun s p k hcalm hold hgen => ?_⟩,
    fun s p hcalm hdue hup hskid hgen hslot => ⟨fun htx => ?_, fun t htx hcut => ?_⟩⟩
  · refine takes_of_agenda (f := fun s => s.bpSet p k true) rfl hcalm ?_ (by split <;> simp)
    have hnew : putBits (s.port p).bp k 1 (b2n true) ≠ 0 := ne_zero_of_bitAt (bitAt_putBits_same _ k true)
    rw [bpSet_of_cond hk (by simpa using hold) hcond]
    simp only [hnew, ne_eq, not_false_eq_true, and_true]
    rfl
  · refine takes_of_agenda (f := fun s => s.bpSet p k false) rfl hcalm ?_ (by split <;> simp)
    rw [bpSet_of_cond hk (by simpa using hold) hcond]
    simp only [ne_zero_of_bitAt hold, ne_eq, not_false_eq_true, true_and]
    rfl
  · refine takes_of_agenda (f := fun s => s.fcRefreshAt p k) rfl hcalm ?_ (by simp)
    simp [State.fcRefreshAt, hold, State.fcDue, hgen]
  · refine takes_of_agenda (f := fun s => s.fcSend p) rfl hcalm ((fcSend_of_due hdue hup hskid hgen hslot).trans ?_) (agenda_fcStart s p)
    rw [htx]
    rfl
  · have hsend := fcSend_of_due hdue hup hskid hgen hslot
    rw [htx] at hsend
    simp only [hcut, if_true] at hsend
    exact takes_of_agenda (f := fun s => s.fcSend p) rfl hcalm (hsend.trans (interrupt_fcStart s p t))
      ((congrArg State.agenda (interrupt_fcStart s p t)).symm.trans ((agenda_fcStart _ p).trans (agenda_interrupt s p t)))

end Sys2Proof.Machine
end

/-! ### States at rest: what follows a command in them is settled with its events -/

section
namespace Sys2Proof.Machine

/-- Nothing is due from state `s` but its events, and the conductor log holds at most `n` entries. -/
structure State.Rests (s : State) (n : Nat) : Prop where
  queue : s.key.ks.queue = []
  flight : s.hif.inflight = []
  fenced : s.hif.fenced = []
  rings : (s.hif.rings.all fun e => !e.2.stopping) = true
  group : s.groupTested = 0
  due : s.key.logDue = false
  raised : ∀ e ∈ s.raised, guardReg e.1 = false
  log : s.key.log.length ≤ n

theorem rests_of_calm {s : State} (h : s.calm = true) : s.Rests s.key.log.length := by
  obtain ⟨hqueue, hflight, hrings, hgroup, hraised, hdue, hfenced⟩ := calm_parts h
  exact ⟨hqueue, hflight, hfenced, hrings, hgroup, hdue, by simp [hraised], Nat.le.refl⟩

/-- A command of a calm state whose effect is a state at rest. -/
theorem takes_of_rests {c : Instr} {s u : State} {f : State → State} {n : Nat} (hexec : exec c s = run f s) (hcalm : s.calm = true)
    (heffect : f s = u) (h : u.Rests n) : Takes c s u :=
  takes_intro (by rw [hexec, run_calm hcalm, heffect]) (due_parts u h.queue h.flight h.rings h.group h.due h.fenced) h.raised

/-- The same for a register write that is admitted. -/
theorem takes_write_of_rests {c : Instr} {s u : State} {m a n : Nat} {v : Word} (hexec : exec c s = run (fun s => s.regWord m a v) s)
    (hcalm : s.calm = true) (hadmits : s.admits m a v = true) (hown : canonAddr a = a)
    (heffect : (s.stored m a v).after m a (s.armed m) v (s.setArmed m false) = u) (h : u.Rests n) : Takes c s u :=
  takes_of_rests hexec hcalm (by rw [regWord_admits s m a v hadmits, hown, heffect]) h

namespace State.Rests

theorem mono {s : State} {m n : Nat} (h : s.Rests m) (hle : m ≤ n) : s.Rests n := { h with log := Nat.le_trans h.log hle }

theorem of_keep {s t : State} {n m : Nat} (h : s.Rests n) (k : Keep s t) (hlog : t.key.log.length ≤ m) : t.Rests m :=
  ⟨k.queue.trans h.queue, k.flight.trans h.flight, k.fenced.trans h.fenced, k.rings h.rings, (groupTested_reg k.group).trans h.group,
    k.log.trans h.due, fun e he => (k.raised e he).elim (h.raised e) id, hlog⟩

theorem of_agenda {s t : State} {n : Nat} (h : s.Rests n) (ha : t.agenda = s.agenda) : t.Rests n :=
  h.of_keep (.of_agenda ha) (logLength_of_agenda ha ▸ h.log)

theorem stored {s : State} {n m a : Nat} {v : Word} (h : s.Rests n) (hplb : canonAddr a ≠ Addr.PLB_STATUS) : (s.stored m a v).Rests n :=
  h.of_agenda (agenda_stored s m v hplb)

theorem ksLog_length (s : State) (kind : LogKind) : (s.ksLog kind).key.log.length ≤ s.key.log.length + 1 := by
  unfold State.ksLog
  split
  · omega
  · dsimp only
    split <;> simp

theorem ksLog {s : State} {n : Nat} (h : s.Rests n) (kind : LogKind) (hn : n < 767) : (s.ksLog kind).Rests (n + 1) :=
  h.of_keep ((Keep.refl s).ksLog kind (Nat.lt_of_le_of_lt h.log hn)) (Nat.le_trans (ksLog_length s kind) (Nat.succ_le_succ h.log))

theorem doIf {s : State} {n : Nat} {f : State → State} (h : s.Rests n) (c : Bool) (hf : (f s).Rests n) : (s.doIf c f).Rests n := by
  cases c
  · exact h
  · exact hf

theorem each {α : Type} {s : State} {n : Nat} (h : s.Rests n) (l : List α) (f : State → α → State)
    (hf : ∀ t, ∀ x ∈ l, t.Rests n → (f t x).Rests n) : (s.each l f).Rests n := each_keeps (fun t => t.Rests n) f l hf s h

/-- A list of steps of which each writes at most one entry. -/
theorem each_logged {α : Type} (f : State → α → State) : ∀ (l : List α) {s : State} {n : Nat}, s.Rests n → n + l.length < 768 →
    (∀ t, ∀ x ∈ l, ∀ k, t.Rests k → k < 767 → (f t x).Rests (k + 1)) → (s.each l f).Rests (n + l.length) := by
  intro l
  induction l with
  | nil => intro s n h _ _; exact h
  | cons x r ih =>
    intro s n h hn hf
    rw [List.length_cons] at hn ⊢
    have hx := hf s x (List.mem_cons_self ..) n h (by omega)
    have hr := ih hx (by omega) fun t y hy => hf t y (List.mem_cons_of_mem _ hy)
    rwa [show n + (r.length + 1) = n + 1 + r.length by omega]

end State.Rests

/-! Domains that are switched off -/

@[simp] theorem agenda_setDomain (s : State) (d : Nat) (on : Bool) : (s.setDomain d on).agenda = s.agenda := by
  unfold State.setDomain
  split <;> simp

@[simp] theorem agenda_rngHealth (s : State) (ok : Bool) : (s.rngHealth ok).agenda = s.agenda := (rfl)

@[simp] theorem agenda_endHomed (s : State) (n : Nat) : (s.endHomed n).agenda = s.agenda := (rfl)

/-- PLB.STATUS lies in D0. -/
theorem agenda_dropStatus (s : State) {d : Nat} (h : d ≠ 0) : (s.dropStatus d).agenda = s.agenda := by
  unfold State.dropStatus
  dsimp only
  refine Eq.trans (b := (s.each (s.regs.filter fun e => domainOf e.1 = d && !sharedPipe e.1) fun t e =>
    t.setRegBits e.1 (~~~(BitVec.ofNat 32 (keptMask e.1))) (resetWord t.part e.1)).agenda) rfl ?_
  refine agenda_each _ _ _ fun t e he => agenda_setRegBits _ _ _ ?_
  rintro hplb
  have hdomain : domainOf e.1 = d := by
    have := (List.mem_filter.mp he).2
    simp only [Bool.and_eq_true, decide_eq_true_eq] at this
    exact this.1
  rw [hplb] at hdomain
  exact h (hdomain.symm.trans (by decide))

@[simp] theorem agenda_dropPipe (s : State) (n : Nat) : (s.dropPipe n).agenda = s.agenda := by
  unfold State.dropPipe
  refine agenda_each _ _ _ fun t i _ => ?_
  split <;> simp

theorem agenda_switchOff (s : State) {d : Nat} (h : d ≠ 0) : (s.switchOff d).agenda = s.agenda := by
  unfold State.switchOff
  split
  · rfl
  · extract_lets s1 s2 s3 pwr s4 s5
    have h1 : s1.agenda = s.agenda := by simp [s1]
    have h2 : s2.agenda = s1.agenda := by
      simp only [s2]
      split
      · simp
      · split <;> simp
    have h3 : s3.agenda = s2.agenda := by simp only [s3]; split <;> simp
    have h4 : s4.agenda = s3.agenda := by
      simp only [s4]
      split
      · rw [agenda_setF _ _ (by decide)]; rfl
      · rfl
    have h5 : s5.agenda = s4.agenda := by simp only [s5]; split <;> simp
    rw [agenda_raise _ (by decide), agenda_setDomain, agenda_dropStatus _ h, h5, h4, h3, h2, h1]

theorem dependants_ne_zero {s : State} {d e : Nat} (h : e ∈ s.dependants d) : e ≠ 0 := by
  unfold State.dependants at h
  dsimp only at h
  obtain ⟨hmem, -⟩ := List.mem_filter.mp h
  rintro rfl
  rcases List.mem_append.mp hmem with hmem | hgroup
  · rcases List.mem_append.mp hmem with hx | hpipe
    · split at hx <;> simp at hx
    · split at hpipe <;> simp at hpipe
  · split at hgroup
    · simp at hgroup
    · split at hgroup <;> simp at hgroup

theorem agenda_faultOff (s : State) {d : Nat} (h : d ≠ 0) : (s.faultOff d).agenda = s.agenda := by
  unfold State.faultOff
  rw [agenda_switchOff _ h]
  exact agenda_each _ _ _ fun t e he => agenda_switchOff t (dependants_ne_zero he)

/-! SAFE_HOLD -/

@[simp] theorem refusePending_queue (s : State) (code : Nat) : (s.refusePending code).agenda = s.agenda := by
  unfold State.refusePending
  split
  · rfl
  · rw [agenda_setF _ _ (by decide), agenda_setF _ _ (by decide)]
    rfl

/-- No group is under test once the test's state reads 0. -/
theorem groupTested_cleared (s : State) : (((s.setF F.PLB_STATUS_abandoned 1).setF F.PLB_STATUS_plb_state 0).setF F.PLB_STATUS_step 0).groupTested = 0 := by
  have hstate : (((s.setF F.PLB_STATUS_abandoned 1).setF F.PLB_STATUS_plb_state 0).setF F.PLB_STATUS_step 0).getF F.PLB_STATUS_plb_state = 0 := by
    rw [getF_setF_other _ _ _ _ (by decide) (by decide), getF_setF _ _ _ (by decide)]
    rfl
  unfold State.groupTested
  rw [hstate]
  rfl

/-- A Plumb step in progress that is abandoned. -/
theorem Rests.abandoned {s : State} {n : Nat} (h : s.Rests n) (drop : List Grant → List Grant) (hdrop : drop [] = []) :
    (((({ s with key := { s.key with ks := { s.key.ks with grants := drop s.key.ks.grants, queue := drop s.key.ks.queue } } } :
        State).setF F.PLB_STATUS_abandoned 1).setF F.PLB_STATUS_plb_state 0).setF F.PLB_STATUS_step 0).Rests n :=
  { h with queue := (congrArg drop h.queue).trans hdrop, group := groupTested_cleared _ }

namespace State.Rests

theorem enterSafeHold {s : State} {n : Nat} (h : s.Rests n) : s.enterSafeHold.Rests n := by
  unfold State.enterSafeHold
  split
  · exact h
  · extract_lets s1 s2 drop gone s3 s4
    have h1 : s1.Rests n := h.of_agenda (by simp [s1])
    have h2 : s2.Rests n := h1.of_agenda (by simp [s2])
    have hgone : (gone s2).Rests n := Rests.abandoned h2 drop rfl
    have h3 : s3.Rests n := by
      simp only [s3]
      split
      · exact hgone
      · exact hgone
      · exact h2
    have h4 : s4.Rests n := h3.of_agenda (agenda_endTest s3)
    refine State.Rests.of_agenda ?_ (agenda_raise _ (by decide))
    exact { h4 with }

/-- The reaction to a fault of any class. -/
theorem reaction {s : State} {n : Nat} (h : s.Rests n) (diag cls inst : Nat) {at_ : Nat} (hat : diag = 0x16 → at_ ≠ 0) :
    (s.reaction diag cls inst at_).Rests n := by
  unfold State.reaction
  split
  · exact h.of_agenda (by simp)
  · split
    · exact enterSafeHold (h.of_agenda (by simp))
    · dsimp only
      have hnoted : (s.faultNoted diag cls inst).Rests n := h.of_agenda (agenda_faultNoted s diag cls inst)
      split
      · exact hnoted.of_agenda (by simp)
      · split
        · split
          next hdiag =>
            refine State.Rests.of_agenda ?_ (agenda_faultOff _ (hat hdiag))
            exact hnoted.of_agenda (by simp)
          next => exact hnoted.of_agenda (by simp)
        · exact hnoted.of_agenda ((agenda_faultOff _ (by omega)).trans (agenda_addCause ..))

theorem react {s : State} {n : Nat} (h : s.Rests n) (diag cls inst : Nat) {at_ : Nat} (hat : diag = 0x16 → at_ ≠ 0) (hn : n < 767) :
    (s.react diag cls inst at_).Rests (n + 1) := (h.reaction diag cls inst hat).ksLog .safety hn

end State.Rests

end Sys2Proof.Machine
end

/-! ### The sequencer and the servo leave a state at rest (R75 to R82, R100 to R110) -/

section
namespace Sys2Proof.Machine

@[simp] theorem agenda_cutConnections (s : State) (b : Blob) (old new : Nat) (all : Bool) :
    (s.cutConnections b old new all).agenda = s.agenda := by
  unfold State.cutConnections
  refine agenda_each _ _ _ fun t p _ => ?_
  split <;> simp

@[simp] theorem agenda_applyHold (s : State) (p : Nat) : (s.applyHold p).agenda = s.agenda := by
  unfold State.applyHold
  dsimp only
  split
  · rfl
  · split <;> simp

@[simp] theorem agenda_applyHolds (s : State) : s.applyHolds.agenda = s.agenda := by
  unfold State.applyHolds
  simp

@[simp] theorem agenda_cycleTick (s : State) : s.cycleTick.agenda = s.agenda := by
  have h : ((s.count 2 0 0).setF F.EPH_CYCLE_COUNT_cycles ((s.getF F.EPH_CYCLE_COUNT_cycles + 1) % 2 ^ 32)).agenda = s.agenda := by simp
  exact Eq.trans rfl h

@[simp] theorem eph_regs_ne_plb : Addr.EPH_ACT_EFF_SEC_LO ≠ Addr.PLB_STATUS ∧ Addr.EPH_ACT_EFF_SEC_HI ≠ Addr.PLB_STATUS ∧
    Addr.EPH_ACT_EFF_NS ≠ Addr.PLB_STATUS ∧ Addr.EPH_ACT_STATUS ≠ Addr.PLB_STATUS := by
  and_intros <;> decide

@[simp] theorem agenda_showEff (s : State) (t : Nat) : (s.showEff t).agenda = s.agenda := by
  unfold State.showEff
  simp

@[simp] theorem agenda_showAct (s : State) (st result sel : Nat) (adj pred : Bool) :
    (s.showAct st result sel adj pred).agenda = s.agenda := by
  unfold State.showAct
  simp

@[simp] theorem agenda_bumpEpoch (s : State) : s.bumpEpoch.agenda = s.agenda := by
  unfold State.bumpEpoch
  simp

@[simp] theorem agenda_stepPending (s : State) (old new : Nat) : (s.stepPending old new).agenda = s.agenda := by
  unfold State.stepPending
  split
  · rfl
  · dsimp only
    split
    · split
      · rw [agenda_setF _ _ (by decide), agenda_showEff, agenda_allKs _ _ (by rfl)]
        rfl
      · rfl
    · rfl

namespace State.Rests

/-- A slot is entered; a record that cannot be read puts the device in SAFE_HOLD (R306). -/
theorem enterSlot {s : State} {n : Nat} (h : s.Rests n) (i : Nat) (hn : n < 767) : (s.enterSlot i).Rests (n + 1) := by
  unfold State.enterSlot
  dsimp only
  split
  · exact State.Rests.react (s := { s with fly := { s.fly with slot := i } }) (h.of_agenda rfl) 7 4 i (by decide) hn
  · refine State.Rests.mono (of_agenda h ?_) (Nat.le_succ n)
    exact (agenda_applyHolds _).trans rfl

/-- The schedule after a step of the counter. -/
theorem stepSchedule {s : State} {n : Nat} (h : s.Rests n) (old new : Nat) (hn : n < 767) : (s.stepSchedule old new).Rests (n + 1) := by
  unfold State.stepSchedule
  split
  · exact h.mono (Nat.le_succ n)
  · split
    · refine State.Rests.mono (h.of_agenda ?_) (Nat.le_succ n)
      exact (agenda_allKs _ _ (by rfl)).trans rfl
    · dsimp only
      split
      · refine State.Rests.mono (h.of_agenda ?_) (Nat.le_succ n)
        exact Eq.trans (b := ((s.count 2 0 2).raise F.EPH_EVENT_step_resync).agenda) rfl (by simp)
      · refine State.Rests.enterSlot (h.of_agenda ?_) _ hn
        exact Eq.trans (b := (((s.count 2 0 2).raise F.EPH_EVENT_step_resync).cutConnections _ _ _ false).agenda) rfl (by simp)

/-- A step of the counter. -/
theorem stepTime {s : State} {n : Nat} (h : s.Rests n) (d : Int) (hn : n < 767) : (s.stepTime d).Rests (n + 1) := by
  unfold State.stepTime
  split
  · exact h.mono (Nat.le_succ n)
  · refine State.Rests.of_agenda (State.Rests.stepSchedule (h.of_agenda ?_) _ _ hn) (agenda_stepPending ..)
    exact (agenda_raise _ (by decide)).trans rfl

end State.Rests

end Sys2Proof.Machine
end

/-! ### Network time and its pins (R69 to R75, R84, R89, R90) -/

section
namespace Sys2Proof.Machine

/-- A register write changes registers alone, before what follows from it. -/
theorem stored_regs (s : State) (m a : Nat) (v : Word) : ∃ r b c, s.stored m a v = { s with regs := r, tmrB := b, tmrC := c } := by
  unfold State.stored
  dsimp only
  split
  · exact ⟨_, _, _, rfl⟩
  · exact ⟨_, _, _, rfl⟩

/-- A register write leaves what lies beside the registers. -/
theorem stored_beside {β : Type} (f : State → β) (h : ∀ (s : State) r b c, f { s with regs := r, tmrB := b, tmrC := c } = f s) (s : State)
    (m a : Nat) (v : Word) : f (s.stored m a v) = f s := by
  obtain ⟨r, b, c, hr⟩ := stored_regs s m a v
  rw [hr, h]

theorem stored_ksBusy (s : State) (m a : Nat) (v : Word) : (s.stored m a v).ksBusy = s.ksBusy :=
  stored_beside State.ksBusy (fun _ _ _ _ => rfl) s m a v

theorem stored_trn (s : State) (m a : Nat) (v : Word) : (s.stored m a v).trn = s.trn :=
  stored_beside State.trn (fun _ _ _ _ => rfl) s m a v

/-- The counter at `x` after a step, with what follows a step where no Ephemeris is active and no switch is armed (R71, R75). -/
def State.steppedTo (s : State) (x : Nat) : State :=
  { s with trn := { s.trn with time := x, steps := s.trn.steps + ((x : Int) - s.trn.time),
                               ppsSec := ((x : Int) - s.ppsOffset) / (10 ^ 9 * 2 ^ 40) },
           key := { s.key with edgeFifo := s.key.edgeFifo.map fun e => e + ((x / 2 ^ 40 : Nat) - s.timeNs : Int) } }

theorem stepSchedule_of_off {s : State} (h : s.ephOn = false) (old new : Nat) : s.stepSchedule old new = s := by
  unfold State.stepSchedule
  rw [h]
  rfl

theorem stepPending_of_none {s : State} (h : s.fly.armed = none) (old new : Nat) : s.stepPending old new = s := by
  unfold State.stepPending
  rw [h]

theorem stepTime_of_idle {s : State} {x : Nat} (hx : x < timeRange) (hne : x ≠ s.trn.time) (heph : s.ephOn = false)
    (harmed : s.fly.armed = none) : s.stepTime ((x : Int) - s.trn.time) = (s.steppedTo x).raise F.TRN_EVENT_stepped := by
  have htime : (((s.trn.time : Int) + ((x : Int) - s.trn.time)) % (timeRange : Nat)).toNat = x := by
    have hsum : (s.trn.time : Int) + ((x : Int) - s.trn.time) = x := by omega
    rw [hsum, Int.emod_eq_of_lt (Int.natCast_nonneg x) (Int.ofNat_lt.mpr hx), Int.toNat_natCast]
  unfold State.stepTime
  rw [if_neg (by omega)]
  simp only [htime]
  rw [stepSchedule_of_off (by exact heph), stepPending_of_none (by exact harmed)]
  rfl

theorem setEffect_of_idle {s : State} {x : Nat} (hset : s.trn.setPending = some x) (hx : x < timeRange) (hne : x ≠ s.trn.time)
    (heph : s.ephOn = false) (harmed : s.fly.armed = none) : s.setEffect =
      (((({ s with trn := { s.trn with setPending := none } } : State).setF F.TRN_TIME_SET_set 0).steppedTo x).raise F.TRN_EVENT_stepped) := by
  unfold State.setEffect
  rw [hset]
  exact stepTime_of_idle hx hne heph harmed

theorem after_timeSet (s : State) (m : Nat) (armed : Bool) (v : Word) (old : State) :
    s.after m Addr.TRN_TIME_SET armed v old = if armed && fldOf v 0 1 = 1 then s.scheduleSet else s := rfl

theorem after_rateBase (s : State) (m : Nat) (hi armed : Bool) (v : Word) (old : State) :
    s.after m (if hi then Addr.TRN_RATE_BASE_HI else Addr.TRN_RATE_BASE_LO) armed v old = if armed then s.rerate else s := by
  cases hi <;> rfl

theorem rateBase_addr (hi : Bool) : canonAddr (if hi then Addr.TRN_RATE_BASE_HI else Addr.TRN_RATE_BASE_LO)
      = (if hi then Addr.TRN_RATE_BASE_HI else Addr.TRN_RATE_BASE_LO)
    ∧ (if hi then Addr.TRN_RATE_BASE_HI else Addr.TRN_RATE_BASE_LO) ≠ Addr.PLB_STATUS := by
  cases hi <;> decide

theorem timeSet_ne_ppsOffset (s : State) (v : Nat) : (s.setF F.TRN_TIME_SET_set v).ppsOffset = s.ppsOffset := by
  unfold State.ppsOffset
  rw [getF_setF_reg s v (by decide)]

/-- Settles O8: a step without an Ephemeris moves the counter alone. -/
theorem timeSetAndRate : Obligations.TimeSetAndRate := by
  refine ⟨⟨fun s m v hcalm hadmits => ?_, fun s x hcalm hset hx hne heph harmed => ?_⟩, fun s m hi v hcalm hadmits => ?_⟩
  · refine takes_write rfl hcalm hadmits (by decide) (by decide) ?_ ?_
    · rw [after_timeSet]
      rfl
    · split
      · exact (agenda_setF _ _ (by decide)).trans rfl
      · rfl
  · refine takes_of_agenda (f := fun s => s.setEffect) rfl hcalm ?_ ?_
    · rw [setEffect_of_idle hset hx hne heph harmed]
      unfold State.steppedTo
      rw [timeSet_ne_ppsOffset]
      rfl
    · rw [agenda_raise _ (by decide), agenda_setF _ _ (by decide)]
      rfl
  · refine takes_write rfl hcalm hadmits (rateBase_addr hi).1 (rateBase_addr hi).2 ?_ ?_
    · obtain ⟨r, b, c, hr⟩ := stored_regs s m (if hi then Addr.TRN_RATE_BASE_HI else Addr.TRN_RATE_BASE_LO) v
      rw [after_rateBase, hr]
      rfl
    · split
      · exact agenda_setRate _ _
      · rfl

theorem after_timeCapture (s : State) (m : Nat) (armed : Bool) (v : Word) (old : State) :
    s.after m Addr.TRN_TIME_CAPTURE armed v old = if fldOf v 0 1 = 1 then s.captureTime else s := rfl

@[simp] theorem trn_regs_ne_plb : Addr.TRN_TIME_SEC_LO ≠ Addr.PLB_STATUS ∧ Addr.TRN_TIME_SEC_HI ≠ Addr.PLB_STATUS ∧
    Addr.TRN_TIME_NS ≠ Addr.PLB_STATUS ∧ Addr.TRN_TIME_FRAC ≠ Addr.PLB_STATUS ∧ Addr.TRN_PPS_IN_SEC_LO ≠ Addr.PLB_STATUS ∧
    Addr.TRN_PPS_IN_SEC_HI ≠ Addr.PLB_STATUS ∧ Addr.TRN_PPS_IN_NS ≠ Addr.PLB_STATUS ∧ Addr.TRN_PPS_IN_FRAC ≠ Addr.PLB_STATUS := by
  and_intros <;> decide

theorem agenda_latchTime (s : State) {a b c d : Nat} (t flags : Nat) (ha : a ≠ Addr.PLB_STATUS) (hb : b ≠ Addr.PLB_STATUS)
    (hc : c ≠ Addr.PLB_STATUS) (hd : d ≠ Addr.PLB_STATUS) : (s.latchTime a b c d t flags).agenda = s.agenda := by
  unfold State.latchTime
  rw [agenda_setReg _ _ hd, agenda_setReg _ _ hc, agenda_setReg _ _ hb, agenda_setReg _ _ ha]

theorem latchTime_reg (s : State) {a b c d x : Nat} (t flags : Nat) (ha : x ≠ a) (hb : x ≠ b) (hc : x ≠ c) (hd : x ≠ d) :
    (s.latchTime a b c d t flags).reg x = s.reg x := by
  unfold State.latchTime
  rw [reg_setReg_other _ hd, reg_setReg_other _ hc, reg_setReg_other _ hb, reg_setReg_other _ ha]

/-- The state once an edge of the 1PPS input has been captured (R79). -/
def State.ppsCaptured (s : State) : State :=
  ({ s.turnPps.latchTime Addr.TRN_PPS_IN_SEC_LO Addr.TRN_PPS_IN_SEC_HI Addr.TRN_PPS_IN_NS Addr.TRN_PPS_IN_FRAC s.trn.time
    (s.timeFlags false) with trn := { s.trn with lastPps := some s.trn.time } } : State).setF F.TRN_STATUS_pps_in_present 1

theorem ppsCaptured_getB_source (s : State) : s.ppsCaptured.getB F.TRN_CTRL_source = s.getB F.TRN_CTRL_source := by
  have hreg := latchTime_reg (x := F.TRN_CTRL_source.addr) (a := Addr.TRN_PPS_IN_SEC_LO) (b := Addr.TRN_PPS_IN_SEC_HI)
    (c := Addr.TRN_PPS_IN_NS) (d := Addr.TRN_PPS_IN_FRAC) s.turnPps s.trn.time (s.timeFlags false) (by decide) (by decide) (by decide)
    (by decide)
  unfold State.getB
  unfold State.ppsCaptured
  rw [getF_setF_reg _ _ (by decide)]
  unfold State.getF
  rewrite [show s.reg F.TRN_CTRL_source.addr = s.turnPps.reg F.TRN_CTRL_source.addr from rfl, ← hreg]
  rfl

theorem ppsIn_of_selected {s : State} (hdev : s.dev ≠ .off) (hen : s.getB F.TRN_CTRL_pps_in_en = true)
    (hedge : s.getB F.TRN_CTRL_pps_in_edge = s.pins.pps) (hsrc : s.getB F.TRN_CTRL_source = false) : s.ppsIn = s.ppsCaptured := by
  have hio : (s.timeIo && s.getB F.TRN_CTRL_pps_in_en && s.getB F.TRN_CTRL_pps_in_edge == s.pins.pps) = true := by
    simp [State.timeIo, hdev, hen, hedge]
  unfold State.ppsIn
  rw [hio]
  have hopen : ¬ s.ppsCaptured.getB F.TRN_CTRL_source = true := by
    rw [ppsCaptured_getB_source, hsrc]
    decide
  exact (if_neg (by decide)).trans (if_neg hopen)

theorem ppsIn_of_other {s : State} (hedge : s.getB F.TRN_CTRL_pps_in_edge = !s.pins.pps) : s.ppsIn = s.turnPps := by
  unfold State.ppsIn
  exact if_pos (by simp [hedge])

theorem ppsOut_of_second {s : State} (hdev : s.dev ≠ .off) (hsec : s.ppsSecond ≠ s.trn.ppsSec) :
    s.ppsOut = { s with trn := if s.getB F.TRN_CTRL_pps_out_en then
      { s.trn with ppsSec := s.ppsSecond, ppsOut := s.trn.ppsOut + 1, pulse := s.getF F.TRN_PPS_OUT_WIDTH_pps_out_width * 1000 * 2 ^ 40 }
      else { s.trn with ppsSec := s.ppsSecond } } := by
  unfold State.ppsOut
  rw [if_neg (by simp [State.timeIo, hdev, hsec])]
  dsimp only
  split <;> rfl

/-- Settles O9: each input and output by its row. -/
theorem timeCaptureAndPins : Obligations.TimeCaptureAndPins := by
  refine ⟨fun s m v hcalm hadmits hv => ?_, fun s hcalm hdev hen hedge hsrc => ?_, fun s hcalm hedge => ?_, fun s hcalm hdev hlast => ?_,
    fun s hcalm hdev hsec => ?_, fun s x inRange hcalm hdev hen => ?_⟩
  · refine takes_write rfl hcalm hadmits (by decide) (by decide) ?_ ?_
    · obtain ⟨r, b, c, hr⟩ := stored_regs s m Addr.TRN_TIME_CAPTURE v
      rw [after_timeCapture, if_pos hv, hr]
      rfl
    · exact agenda_latchTime _ _ _ (by decide) (by decide) (by decide) (by decide)
  · refine takes_of_agenda (f := fun s => s.ppsIn) rfl hcalm (ppsIn_of_selected hdev hen hedge hsrc) ?_
    rw [agenda_setF _ _ (by decide)]
    exact Eq.trans (b := (s.turnPps.latchTime Addr.TRN_PPS_IN_SEC_LO Addr.TRN_PPS_IN_SEC_HI Addr.TRN_PPS_IN_NS Addr.TRN_PPS_IN_FRAC
      s.trn.time (s.timeFlags false)).agenda) rfl (agenda_latchTime _ _ _ (by decide) (by decide) (by decide) (by decide))
  · exact takes_of_agenda (f := fun s => s.ppsIn) rfl hcalm (ppsIn_of_other hedge) rfl
  · refine takes_of_agenda (f := fun s => s.ppsMissing) rfl hcalm ?_ ?_
    · exact if_pos (by simp [State.timeIo, hdev, hlast])
    · rw [agenda_raise _ (by decide), agenda_setF _ _ (by decide)]
      rfl
  · exact takes_of_agenda (f := fun s => s.ppsOut) rfl hcalm (ppsOut_of_second hdev hsec) rfl
  · refine takes_of_agenda (f := fun s => s.measure10M x inRange) rfl hcalm ?_ ?_
    · exact if_pos (by simp [State.timeIo, hdev, hen])
    · rw [agenda_setF _ _ (by decide), agenda_setF _ _ (by decide)]

end Sys2Proof.Machine
end

/-! ### The servo (R76 to R82) -/

section
namespace Sys2Proof.Machine

theorem after_trnCtrl (s : State) (m : Nat) (armed : Bool) (v : Word) (old : State) :
    s.after m Addr.TRN_CTRL armed v old = s.writeCtrl (s.getB F.TRN_CTRL_servo_enable) (s.getB F.TRN_CTRL_hold) := rfl

theorem writeCtrl_of_conducted {s : State} (hbusy : s.ksBusy = false) (hfault : s.key.doubleFault = false) (en hold : Bool) :
    s.writeCtrl en hold = s.serveCtrl en hold := by
  unfold State.writeCtrl
  rw [hfault, hbusy]
  rfl

/-- A write of TRN.CTRL that the conductor serves. -/
theorem takes_ctrl {c : Instr} {s u : State} {m : Nat} {v : Word} (hexec : exec c s = run (fun s => s.regWord m Addr.TRN_CTRL v) s)
    (hcalm : s.calm = true) (hlog : s.key.log.length < 767) (hadmits : s.admits m Addr.TRN_CTRL v = true) (hbusy : s.ksBusy = false)
    (hfault : s.key.doubleFault = false)
    (heffect : (s.stored m Addr.TRN_CTRL v).serveCtrl ((s.stored m Addr.TRN_CTRL v).getB F.TRN_CTRL_servo_enable)
      ((s.stored m Addr.TRN_CTRL v).getB F.TRN_CTRL_hold) = u.ksLog .hold)
    (hagenda : u.agenda = (s.stored m Addr.TRN_CTRL v).agenda) : Takes c s (u.ksLog .hold) := by
  refine takes_write_ksLog hexec hcalm hlog hadmits (by decide) (by decide) ?_ hagenda
  have hkey := stored_key s m Addr.TRN_CTRL v
  rw [after_trnCtrl, writeCtrl_of_conducted ?_ ?_, heffect]
  · exact (stored_ksBusy ..).trans hbusy
  · rw [hkey]
    exact hfault

/-- Settles O10: of the rows the first one that applies. -/
theorem servoStates : Obligations.ServoStates := by
  intro s m v hcalm hadmits hbusy hfault hlog t x i
  have hservo : t.key.ks.servo = s.key.ks.servo := by rw [stored_key]
  have hi : t.key.ks.i = s.key.ks.i := by rw [stored_key]
  have hx : x.agenda = t.agenda := agenda_setKs _ _ rfl
  refine ⟨fun hen hoff => ?_, fun hen => ?_, fun hen hon hhold => ?_, fun hen hon hhold => ?_⟩
  · refine takes_ctrl rfl hcalm hlog hadmits hbusy hfault ?_ ?_
    · rw [hen]
      unfold State.serveCtrl
      dsimp only
      rw [if_neg (by decide), if_pos (hservo.trans hoff)]
      rfl
    · rw [agenda_showServo, agenda_setRate, agenda_setKs _ _ (by rfl), hx]
  · refine takes_ctrl rfl hcalm hlog hadmits hbusy hfault ?_ ?_
    · rw [hen]
      unfold State.serveCtrl
      dsimp only
      rw [if_pos (by decide), ← hservo]
      rfl
    · rw [agenda_raiseIf _ _ (by decide), agenda_raiseIf _ _ (by decide), agenda_showServo, agenda_setRate, agenda_setKs _ _ (by rfl), hx]
  · refine takes_ctrl rfl hcalm hlog hadmits hbusy hfault ?_ ?_
    · rw [hen, hhold]
      unfold State.serveCtrl
      dsimp only
      rw [if_neg (by decide), if_neg (fun h => hon (hservo.symm.trans h)), if_pos rfl, ← hservo, ← hi]
      simp only [x, hhold]
      rfl
    · rw [agenda_raiseIf _ _ (by decide), agenda_raise _ (by decide), agenda_showServo, agenda_setRate, agenda_setKs _ _ (by rfl), hx]
  · refine takes_ctrl rfl hcalm hlog hadmits hbusy hfault ?_ hx
    rw [hen, hhold]
    unfold State.serveCtrl
    dsimp only
    rw [if_neg (by decide), if_neg (fun h => hon (hservo.symm.trans h)), if_neg (by decide)]
    simp only [x, hhold]
    rfl

/-- The clamp of f, by its magnitude. -/
theorem clamp_eq (lim : Nat) (i i1 f d : Int) :
    (if (lim : Int) < f then (i, (lim : Int), d, true) else if f < -lim then (i, -(lim : Int), d, true) else (i1, f, d, false))
      = (if lim < f.natAbs then i else i1, if lim < f.natAbs then f.sign * lim else f, d, decide (lim < f.natAbs)) := by
  by_cases hover : (lim : Int) < f
  · rw [if_pos hover, if_pos (by omega), if_pos (by omega), decide_eq_true (by omega), Int.sign_eq_one_of_pos (by omega), Int.one_mul]
  · by_cases hunder : f < -lim
    · rw [if_neg hover, if_pos hunder, if_pos (by omega), if_pos (by omega), decide_eq_true (by omega),
        Int.sign_eq_neg_one_of_neg (by omega), Int.neg_one_mul]
    · rw [if_neg hover, if_neg hunder, if_neg (by omega), if_neg (by omega), decide_eq_false (by omega)]

/-- An update steps the counter (R76). -/
def State.steps (s : State) (th : Int) : Prop :=
  s.getB F.TRN_CTRL_step_enable = true ∧ s.getF F.TRN_STEP_THRESHOLD_step_threshold * 2 ^ 16 ≤ th.natAbs

theorem servoUpdate_eq (s : State) (th : Int) [dec : Decidable (s.steps th)] :
    let lim : Nat := s.getF F.TRN_FREQ_LIMIT_freq_limit * 2 ^ 32
    let i := if s.steps th then s.key.ks.i else s.key.ks.i + (s.getF F.TRN_KI_ki : Nat) * th
    let f := if s.steps th then s.key.ks.i else i + (s.getF F.TRN_KP_kp : Nat) * th
    s.servoUpdate th = (if lim < f.natAbs then s.key.ks.i else i, if lim < f.natAbs then f.sign * lim else f,
      if s.steps th then -th * 2 ^ 24 else 0, decide (lim < f.natAbs)) := by
  intro lim i f
  rw [← clamp_eq]
  have hsteps : (s.getB F.TRN_CTRL_step_enable && decide (s.getF F.TRN_STEP_THRESHOLD_step_threshold * 2 ^ 16 ≤ th.natAbs))
      = decide (s.steps th) := by
    rw [Bool.eq_iff_iff, Bool.and_eq_true, decide_eq_true_eq, decide_eq_true_eq]
    rfl
  have hlim : ((s.getF F.TRN_FREQ_LIMIT_freq_limit : Nat) : Int) * ppb = (lim : Int) := by
    simp [lim, ppb]
  unfold State.servoUpdate
  simp only [hsteps, hlim, decide_eq_true_eq]
  rfl

theorem after_offset (s : State) (m : Nat) (armed : Bool) (v : Word) (old : State) :
    s.after m Addr.TRN_OFFSET_HI armed v old = if s.getB F.TRN_CTRL_source then s.discardTheta
      else s.submitTheta (signed 48 ((s.reg Addr.TRN_OFFSET_LO).toNat + fldOf v 0 16 * 2 ^ 32)) := rfl

/-- The servo once it has taken θ: its update, with the counter's rate and step (R76 to R78). -/
def State.servoMoved (y z : State) (th i f : Int) (clamped : Bool) (d : Int) : State :=
  let (st, lockRun, entered, left) := y.lockUpdate th
  let x : State := { z with trn := { z.trn with thetaAt := some y.now, expired := false } }
  (((((((x.setKs fun k => { k with i := i, f := f, servo := st, lockRun := lockRun }).raiseIf clamped
    F.TRN_EVENT_limit_reached).raiseIf entered F.TRN_EVENT_locked).raiseIf left F.TRN_EVENT_unlocked).setRate f).showServo).stepTime d)

theorem acceptTheta_eq {y : State} {th i f d : Int} {clamped : Bool} (h : y.servoUpdate th = (i, f, d, clamped)) :
    y.acceptTheta th = y.servoMoved (y.timeAlarm th) th i f clamped d := by
  unfold State.acceptTheta State.servoMoved
  rw [h]

theorem Rests.servoMoved {y z : State} {n : Nat} (hz : z.Rests n) (th i f d : Int) (clamped : Bool) (hn : n < 767) :
    (y.servoMoved z th i f clamped d).Rests (n + 1) := by
  unfold State.servoMoved
  split
  next st lockRun entered left _ =>
    refine State.Rests.stepTime (State.Rests.of_agenda hz ?_) d hn
    rw [agenda_showServo, agenda_setRate, agenda_raiseIf _ _ (by decide), agenda_raiseIf _ _ (by decide), agenda_raiseIf _ _ (by decide),
      agenda_setKs _ _ (by rfl)]
    rfl

theorem Rests.timeAlarm {s : State} {n : Nat} (h : s.Rests n) (th : Int) (hn : n < 767) : (s.timeAlarm th).Rests (n + 1) := by
  unfold State.timeAlarm
  dsimp only
  split
  · exact State.Rests.react (h.of_agenda (agenda_raise _ (by decide))) 0x0E 0 0 (by decide) hn
  · exact h.mono (Nat.le_succ n)

/-- The servo's state when it takes an offset: one in HOLDOVER has left it (R80). -/
def State.servoReady (s : State) : State :=
  if s.key.ks.servo = .holdover then (s.setKs fun k => { k with servo := .acquiring, lockRun := 0 }).raise F.TRN_EVENT_holdover_exit
  else s

theorem servoReady_getF (s : State) (f : Fld) : s.servoReady.getF f = s.getF f := by
  unfold State.servoReady
  split <;> rfl

theorem servoReady_i (s : State) : s.servoReady.key.ks.i = s.key.ks.i := by
  unfold State.servoReady
  split <;> rfl

theorem agenda_servoReady (s : State) : s.servoReady.agenda = s.agenda := by
  unfold State.servoReady
  split
  · rw [agenda_raise _ (by decide), agenda_setKs _ _ (by rfl)]
  · rfl

theorem servoReady_now (s : State) : s.servoReady.now = s.now := by
  unfold State.servoReady
  split <;> rfl

/-- What a submitted offset does in a conducted state (R79, R80). -/
theorem serveTheta_of_discarding {s : State} (th : Int)
    (h : s.key.ks.servo = .disabled ∨ (s.key.ks.servo = .holdover ∧ s.key.ks.hold = true)) :
    s.serveTheta th = (s.raise F.TRN_EVENT_offset_discarded).ksLog .theta := by
  unfold State.serveTheta
  rcases h with h | ⟨h, hhold⟩
  · rw [h]
    rfl
  · rw [h]
    dsimp only
    rw [if_pos (.inl hhold)]
    rfl

theorem serveTheta_of_accepting {s : State} (th : Int) (hfault : s.key.doubleFault = false) (hon : s.key.ks.servo ≠ .disabled)
    (hhold : s.key.ks.servo = .holdover → s.key.ks.hold = false) : s.serveTheta th = (s.servoReady.acceptTheta th).ksLog .theta := by
  unfold State.serveTheta State.servoReady
  cases hservo : s.key.ks.servo with
  | disabled => exact absurd hservo hon
  | acquiring => rfl
  | locked => rfl
  | holdover =>
    dsimp only
    rw [if_neg (by rw [hhold hservo, hfault]; decide), if_pos rfl]

theorem submitTheta_of_conducted {s : State} (th : Int) (hfault : s.key.doubleFault = false) (hbusy : s.ksBusy = false) :
    s.submitTheta th = s.serveTheta th := by
  unfold State.submitTheta
  rw [hfault, hbusy]
  rfl

theorem submitTheta_of_busy {s : State} (th : Int) (hfault : s.key.doubleFault = false) (hbusy : s.ksBusy = true) :
    s.submitTheta th = { s with key := { s.key with deferred := s.key.deferred ++ [.theta th] } } := by
  unfold State.submitTheta
  rw [hfault, hbusy]
  rfl

theorem holdTimeout_of_conducted {s : State} (hfault : s.key.doubleFault = false) :
    s.holdTimeout = if s.trn.thetaAt = some s.now then s else { s with trn := { s.trn with expired := true } } := by
  unfold State.holdTimeout
  simp only [hfault, Bool.false_eq_true, false_or]

/-- What a write of TRN.OFFSET_HI submits. -/
theorem after_offset_stored {s : State} {m : Nat} {v : Word} (hsrc : s.getB F.TRN_CTRL_source = false) (armed : Bool) (old : State) :
    (s.stored m Addr.TRN_OFFSET_HI v).after m Addr.TRN_OFFSET_HI armed v old = (s.stored m Addr.TRN_OFFSET_HI v).submitTheta
      (signed 48 ((s.reg Addr.TRN_OFFSET_LO).toNat + fldOf v 0 16 * 2 ^ 32)) := by
  have hstored : (s.stored m Addr.TRN_OFFSET_HI v).getB F.TRN_CTRL_source = false := by
    unfold State.getB
    rw [stored_getF (by decide) (by decide) (by decide)]
    exact hsrc
  rw [after_offset, hstored, if_neg (by decide), stored_reg _ _ _ _ _ (by decide) (by decide)]

/-- An offset that cannot be submitted is discarded (R79). -/
theorem after_offset_discarded {s : State} {m : Nat} {v : Word} (h : s.getB F.TRN_CTRL_source = true ∨ s.key.doubleFault = true)
    (armed : Bool) (old : State) : (s.stored m Addr.TRN_OFFSET_HI v).after m Addr.TRN_OFFSET_HI armed v old
      = (s.stored m Addr.TRN_OFFSET_HI v).raise F.TRN_EVENT_offset_discarded := by
  have hgetB : (s.stored m Addr.TRN_OFFSET_HI v).getB F.TRN_CTRL_source = s.getB F.TRN_CTRL_source := by
    unfold State.getB
    rw [stored_getF (by decide) (by decide) (by decide)]
  rw [after_offset, hgetB]
  cases hsrc : s.getB F.TRN_CTRL_source
  · rw [hsrc] at h
    rw [if_neg (by decide)]
    unfold State.submitTheta
    rw [if_pos (by rw [stored_key]; simpa using h)]
    rfl
  · rfl

theorem expire_of_conducted {s : State} (hexp : s.trn.expired = true) (hbusy : s.ksBusy = false) (hfault : s.key.doubleFault = false) :
    s.expire = ({ s with trn := { s.trn with expired := false } } : State).serveTimeout := by
  have hidle : ¬ (!s.trn.expired) = true := by rw [hexp]; decide
  have hconducts : ¬ s.key.doubleFault = true := by rw [hfault]; decide
  have hserves : (!({ s with trn := { s.trn with expired := false } } : State).ksBusy) = true := congrArg (!·) hbusy
  exact (if_neg hidle).trans ((if_neg hconducts).trans (if_pos hserves))

/-- Settles O11: the clamp by the magnitude of f, and the states of the servo by its cases. -/
theorem offsetMovesTheServo : Obligations.OffsetMovesTheServo := by
  refine ⟨?_, ?_, ?_, ?_⟩
  · intro s m v hcalm hadmits h
    exact takes_write rfl hcalm hadmits (by decide) (by decide) (after_offset_discarded h ..) (agenda_raise _ (by decide))
  · intro s m v hcalm hadmits hsrc hfault hlog th t
    have hkey : t.key = s.key := stored_key ..
    have hgetF : ∀ f : Fld, f.addr ≠ Addr.TRN_OFFSET_HI → f.addr ≠ Addr.SYS_ARMED → t.getF f = s.getF f := fun f h h' =>
      stored_getF (by decide) h h'
    have hbusyAt : t.ksBusy = s.ksBusy := stored_ksBusy ..
    have hfaultAt : t.key.doubleFault = false := by rw [hkey]; exact hfault
    refine ⟨fun hbusy => ?_, fun hbusy hservo => ?_, fun hbusy hon hhold => ?_⟩
    · refine takes_write rfl hcalm hadmits (by decide) (by decide) ?_ ?_
      · rw [after_offset_stored hsrc]
        exact submitTheta_of_busy th hfaultAt (hbusyAt.trans hbusy)
      · rfl
    · refine takes_write_ksLog rfl hcalm (by omega) hadmits (by decide) (by decide) ?_ (agenda_raise _ (by decide))
      rw [after_offset_stored hsrc, submitTheta_of_conducted th hfaultAt (hbusyAt.trans hbusy)]
      exact serveTheta_of_discarding th (by rw [hkey]; exact hservo)
    · intro y thr z stepping lim i f newI newF
      have hy : y = t.servoReady := by
        unfold State.servoReady
        rw [hkey]
      have hyF : ∀ g : Fld, g.addr ≠ Addr.TRN_OFFSET_HI → g.addr ≠ Addr.SYS_ARMED → y.getF g = s.getF g := fun g h h' => by
        rw [hy, servoReady_getF, hgetF g h h']
      have hyi : y.key.ks.i = s.key.ks.i := by rw [hy, servoReady_i, hkey]
      have hupdate : y.servoUpdate th = (newI, newF, if stepping then -th * 2 ^ 24 else 0, decide (lim < f.natAbs)) := by
        have hsteps : y.steps th = stepping := by
          unfold State.steps State.getB
          rw [hyF _ (by decide) (by decide), hyF _ (by decide) (by decide)]
          rfl
        have h := servoUpdate_eq y th (dec := hsteps ▸ inferInstanceAs (Decidable stepping))
        simp only [hsteps, hyi, hyF _ (show F.TRN_FREQ_LIMIT_freq_limit.addr ≠ _ by decide) (by decide),
          hyF _ (show F.TRN_KI_ki.addr ≠ _ by decide) (by decide), hyF _ (show F.TRN_KP_kp.addr ≠ _ by decide) (by decide)] at h
        exact h
      have halarm : y.timeAlarm th = z := by
        unfold State.timeAlarm
        rw [hyF _ (by decide) (by decide)]
      have hrests : z.Rests 765 := by
        have hrests : y.Rests 764 := by
          rw [hy]
          exact ((rests_of_calm hcalm).stored (by decide)).of_agenda (agenda_servoReady t) |>.mono (by omega)
        rw [← halarm]
        exact Rests.timeAlarm hrests th (by decide)
      have htakes : Takes (.offsetSubmit m v) s
          ((y.servoMoved z th newI newF (decide (lim < f.natAbs)) (if stepping then -th * 2 ^ 24 else 0)).ksLog .theta) := by
        refine takes_write_of_rests rfl hcalm hadmits (by decide) ?_ ((Rests.servoMoved hrests _ _ _ _ _ (by decide)).ksLog .theta (by decide))
        rw [after_offset_stored hsrc, submitTheta_of_conducted th hfaultAt (hbusyAt.trans hbusy),
          serveTheta_of_accepting th hfaultAt (by rw [hkey]; exact hon) (by rw [hkey]; exact hhold), ← halarm, ← acceptTheta_eq hupdate, hy]
      have hnow : y.now = s.now := by
        rw [hy, servoReady_now]
        exact stored_now ..
      unfold State.servoMoved at htakes
      rw [hnow] at htakes
      exact htakes
  · intro s hcalm hfault
    refine ⟨fun hnew => ?_, fun hsame => ?_⟩
    · exact takes_of_agenda (f := fun s => s.holdTimeout) rfl hcalm ((holdTimeout_of_conducted hfault).trans (if_neg hnew)) rfl
    · exact idles_of (f := fun s => s.holdTimeout) rfl hcalm ((holdTimeout_of_conducted hfault).trans (if_pos hsame))
  · intro s hexp hbusy hfault hservo x
    exact (expire_of_conducted hexp hbusy hfault).trans (if_pos hservo)

end Sys2Proof.Machine
end

/-! ### What the operations on frames leave: everything beside registers, counters, ports and the fabric -/

section
namespace Sys2Proof.Machine

/-- A state without the parts that the operations on frames change. -/
def State.plan (s : State) : State :=
  { s with regs := State.reset.regs, tmrB := State.reset.tmrB, tmrC := State.reset.tmrC, sqc := State.reset.sqc,
           raised := State.reset.raised, ctrs := State.reset.ctrs, host := State.reset.host, rd := State.reset.rd,
           freeCtr := State.reset.freeCtr, ports := State.reset.ports, macros := State.reset.macros, fab := State.reset.fab,
           hif := State.reset.hif }

@[simp] theorem plan_setReg (s : State) (a : Nat) (w : Word) : (s.setReg a w).plan = s.plan := (rfl)
@[simp] theorem plan_setF (s : State) (f : Fld) (v : Nat) : (s.setF f v).plan = s.plan := (rfl)
@[simp] theorem plan_setFBit (s : State) (f : Fld) (i : Nat) (b : Bool) : (s.setFBit f i b).plan = s.plan := (rfl)
@[simp] theorem plan_raiseBit (s : State) (f : Fld) (i : Nat) : (s.raiseBit f i).plan = s.plan := (rfl)
@[simp] theorem plan_raise (s : State) (f : Fld) : (s.raise f).plan = s.plan := (rfl)

@[simp] theorem plan_raiseIf (s : State) (c : Bool) (f : Fld) : (s.raiseIf c f).plan = s.plan := by
  cases c <;> rfl

@[simp] theorem plan_doIf (s : State) (c : Bool) (f : State → State) (h : ∀ t, (f t).plan = t.plan) : (s.doIf c f).plan = s.plan := by
  cases c
  · rfl
  · exact h s

@[simp] theorem plan_each {α : Type} (s : State) (l : List α) (f : State → α → State)
    (h : ∀ t, ∀ x ∈ l, (f t x).plan = t.plan) : (s.each l f).plan = s.plan :=
  each_keeps (fun t => t.plan = s.plan) f l (fun t x m c => (h t x m).trans c) s rfl

@[simp] theorem plan_count (s : State) (g i c : Nat) : (s.count g i c).plan = s.plan := (rfl)
@[simp] theorem plan_countN (s : State) (g i c n : Nat) : (s.countN g i c n).plan = s.plan := (rfl)
@[simp] theorem plan_setPort (s : State) (p : Nat) (r : PortRun) : (s.setPort p r).plan = s.plan := (rfl)
@[simp] theorem plan_setQueue (s : State) (x : Nat) (q : Queue) : (s.setQueue x q).plan = s.plan := (rfl)
@[simp] theorem plan_setFrame (s : State) (i : Nat) (f : Option Frame) : (s.setFrame i f).plan = s.plan := (rfl)
@[simp] theorem plan_setPool (s : State) (k : Nat) (p : Pool) : (s.setPool k p).plan = s.plan := (rfl)
@[simp] theorem plan_setCell (s : State) (a : Nat) (c : Option Cell) : (s.setCell a c).plan = s.plan := (rfl)
@[simp] theorem plan_setSched (s : State) (p : Nat) (x : PortSched) : (s.setSched p x).plan = s.plan := (rfl)
@[simp] theorem plan_chargeMove (s : State) (p k : Nat) (d : Int) : (s.chargeMove p k d).plan = s.plan := (rfl)
@[simp] theorem plan_hostPut (s : State) (a : Nat) (b : Byte) : (s.hostPut a b).plan = s.plan := (rfl)

@[simp] theorem plan_hostWrite (l : List Byte) : ∀ (s : State) (a : Nat), (s.hostWrite a l).plan = s.plan := by
  induction l with
  | nil => intro s a; rfl
  | cons b r ih => intro s a; exact (ih (s.hostPut a b) (a + 1)).trans (plan_hostPut s a b)

@[simp] theorem plan_poolMove (s : State) (k : Nat) (d e : Int) : (s.poolMove k d e).plan = s.plan := by
  unfold State.poolMove
  dsimp only
  split <;> simp

@[simp] theorem plan_poolFail (s : State) (k : Nat) : (s.poolFail k).plan = s.plan := (rfl)

@[simp] theorem plan_free (s : State) (n : Nat) : (s.free n).2.plan = s.plan := (rfl)

@[simp] theorem plan_freeCell (s : State) (req a : Nat) : (s.freeCell req a).plan = s.plan := by
  unfold State.freeCell
  split
  · rfl
  · dsimp only
    split
    · split
      · rfl
      · rfl
    · rfl

@[simp] theorem plan_freeRefused (s : State) (a req reason master : Nat) : (s.freeRefused a req reason master).plan = s.plan := by
  unfold State.freeRefused
  simp

@[simp] theorem plan_releaseCell (s : State) (req master a : Nat) : (s.releaseCell req master a).plan = s.plan := by
  unfold State.releaseCell
  split
  · simp
  · split
    · simp
    · split <;> simp

@[simp] theorem plan_unchargeFrame (s : State) (f : Frame) (n : Nat) : (s.unchargeFrame f n).plan = s.plan := by
  unfold State.unchargeFrame
  dsimp only
  split <;> split <;> simp

@[simp] theorem plan_dropFrame (s : State) (i : Nat) (f : Frame) : (s.dropFrame i f).plan = s.plan := by
  unfold State.dropFrame
  split <;> simp

@[simp] theorem plan_endFrame (s : State) (i : Nat) (f : Frame) : (s.endFrame i f).plan = s.plan := by
  unfold State.endFrame
  simp

@[simp] theorem plan_release (s : State) (i : Nat) : (s.release i).plan = s.plan := by
  unfold State.release
  split
  · rfl
  · dsimp only
    split <;> simp

@[simp] theorem plan_txReport (s : State) (i status : Nat) (ts : List Byte) : (s.txReport i status ts).plan = s.plan := by
  unfold State.txReport
  split
  · rfl
  · split
    · rfl
    · dsimp only
      split <;> simp

@[simp] theorem plan_loseShare (s : State) (i : Nat) : (s.loseShare i).plan = s.plan := by
  unfold State.loseShare
  split <;> simp

@[simp] theorem plan_loseCopy (s : State) (c : Copy) : (s.loseCopy c).plan = s.plan := plan_loseShare s _

/-! Queues -/

@[simp] theorem plan_fixSpill (s : State) (x : Nat) : (s.fixSpill x).plan = s.plan := by
  unfold State.fixSpill
  split <;> simp

@[simp] theorem plan_fixSpills (s : State) (l : List CopyReq) : (s.fixSpills l).plan = s.plan := by
  unfold State.fixSpills
  simp

@[simp] theorem plan_popCopy (s : State) (x : Nat) : (s.popCopy x).plan = s.plan := by
  unfold State.popCopy
  simp

@[simp] theorem plan_flushQueue (s : State) (x : Nat) : (s.flushQueue x).plan = s.plan := by
  unfold State.flushQueue
  simp

@[simp] theorem plan_flushOne (s : State) (hbm : Bool) (x : Nat) : (s.flushOne hbm x).plan = s.plan := by
  unfold State.flushOne
  dsimp only
  split
  · rfl
  · split <;> simp

@[simp] theorem plan_flushCycle (s : State) : s.flushCycle.plan = s.plan := by
  unfold State.flushCycle
  dsimp only
  split
  · rfl
  · refine plan_each _ _ _ fun t x _ => ?_
    split <;> simp

@[simp] theorem plan_flushPort (s : State) (p : Nat) : (s.flushPort p).plan = s.plan := by
  unfold State.flushPort
  simp

@[simp] theorem plan_syncQ (s : State) (x : Nat) : (s.syncQ x).plan = s.plan := (rfl)
@[simp] theorem plan_syncP (s : State) (p : Nat) : (s.syncP p).plan = s.plan := (rfl)
@[simp] theorem plan_syncCpu (s : State) : s.syncCpu.plan = s.plan := (rfl)

/-! The egress MAC -/

@[simp] theorem plan_interrupt (s : State) (p : Nat) (t : TxFrame) : (s.interrupt p t).plan = s.plan := by
  unfold State.interrupt
  simp

@[simp] theorem plan_startTx (s : State) (p : Nat) (t : TxFrame) : (s.startTx p t).plan = s.plan := by
  unfold State.startTx
  simp

@[simp] theorem plan_restartVerify (s : State) (p : Nat) : (s.restartVerify p).plan = s.plan := by
  unfold State.restartVerify
  simp

@[simp] theorem plan_verifyDue (s : State) (p : Nat) : (s.verifyDue p).plan = s.plan := by
  unfold State.verifyDue
  dsimp only
  split <;> simp

@[simp] theorem plan_holdCut (s : State) (p : Nat) : (s.holdCut p).plan = s.plan := by
  unfold State.holdCut
  split
  · split <;> simp
  · rfl

@[simp] theorem plan_subCycle (s : State) : s.subCycle.2.plan = s.plan := (rfl)

@[simp] theorem plan_markerTerm (s : State) (m : Nat) : (s.markerTerm m).2.plan = s.plan := (rfl)

@[simp] theorem plan_deskew (s : State) (p : Nat) : (s.deskew p).2.plan = s.plan := by
  unfold State.deskew
  split <;> rfl

@[simp] theorem plan_txStamp (s : State) (p : Nat) : (s.txStamp p).2.plan = s.plan := by
  unfold State.txStamp State.deskew
  dsimp only
  split <;> rfl

@[simp] theorem plan_rxStamp (s : State) (p : Nat) : (s.rxStamp p).2.plan = s.plan := by
  unfold State.rxStamp
  split; next rx tx per am hterms =>
  split; next sub s1 hsub =>
  split; next cw s2 hword =>
  split; next m s3 hmark =>
  split; next d s4 hskew =>
  have h1 : s1.plan = s.plan := by rw [← plan_subCycle s, hsub]
  have h2 : s2.plan = s1.plan := by
    split at hword <;> exact (congrArg (fun x => x.2.plan) hword).symm
  have h3 : s3.plan = s2.plan := by rw [← plan_markerTerm s2 am, hmark]
  have h4 : s4.plan = s3.plan := by rw [← plan_deskew s3 p, hskew]
  exact h4.trans (h3.trans (h2.trans h1))

@[simp] theorem plan_stampTx (s : State) (p : Nat) (t : TxFrame) : (s.stampTx p t).2.plan = s.plan := by
  unfold State.stampTx
  exact plan_txStamp s p

@[simp] theorem plan_wakeQueue (s : State) (p q : Nat) : (s.wakeQueue p q).plan = s.plan := by
  unfold State.wakeQueue
  dsimp only
  split
  · simp
  · split <;> simp

@[simp] theorem plan_wakeGroup (s : State) (p g : Nat) : (s.wakeGroup p g).plan = s.plan := by
  unfold State.wakeGroup
  dsimp only
  split
  · simp
  · split <;> simp

@[simp] theorem plan_wakeChild (s : State) (p q : Nat) : (s.wakeChild p q).plan = s.plan := by
  unfold State.wakeChild
  simp

@[simp] theorem plan_wakePort (s : State) (p : Nat) : (s.wakePort p).plan = s.plan := by
  unfold State.wakePort
  simp

@[simp] theorem plan_wakePorts (s : State) : s.wakePorts.plan = s.plan := by
  unfold State.wakePorts
  simp

@[simp] theorem plan_chargeQ (s : State) (x : Nat) (b : Int) : (s.chargeQ x b).plan = s.plan := by
  unfold State.chargeQ
  split <;> simp

@[simp] theorem plan_chargeP (s : State) (p : Nat) (b : Int) : (s.chargeP p b).plan = s.plan := by
  unfold State.chargeP
  split <;> simp

@[simp] theorem plan_chargeTags (s : State) (p x : Nat) (b : Bill) : (s.chargeTags p x b).plan = s.plan := by
  unfold State.chargeTags
  dsimp only
  split <;> split <;> simp

@[simp] theorem plan_correctTags (s : State) (p x : Nat) (b : Bill) (n : Nat) : (s.correctTags p x b n).plan = s.plan := by
  unfold State.correctTags
  dsimp only
  split <;> split <;> simp

@[simp] theorem plan_settleBill (s : State) (p x : Nat) (b : Bill) (n : Nat) : (s.settleBill p x b n).plan = s.plan := by
  unfold State.settleBill
  simp

@[simp] theorem plan_settleTx (s : State) (p : Nat) (t : TxFrame) (n : Nat) : (s.settleTx p t n).plan = s.plan := by
  unfold State.settleTx
  simp

@[simp] theorem plan_endTx (s : State) (p : Nat) (t : TxFrame) (c : Option Stomp) (l : List Byte) (n : Nat) :
    (s.endTx p t c l n).plan = s.plan := by
  unfold State.endTx
  cases c with
  | none =>
    dsimp only
    split
    · simp
    · split
      · split <;> simp
      · simp
  | some c =>
    dsimp only
    split
    · simp
    · split
      · simp
      · simp

@[simp] theorem plan_stompAt (s : State) (p : Nat) (t : TxFrame) (c : Stomp) (pcs : Bool) (n : Nat) :
    (s.stompAt p t c pcs n).plan = s.plan := by
  unfold State.stompAt
  dsimp only
  split <;> simp

@[simp] theorem plan_stompNow (s : State) (p : Nat) (c : Stomp) (pcs : Bool) : (s.stompNow p c pcs).plan = s.plan := by
  unfold State.stompNow
  split <;> simp

@[simp] theorem plan_stompHeld (s : State) (p : Nat) (c : Stomp) (pcs : Bool) : (s.stompHeld p c pcs).plan = s.plan := by
  unfold State.stompHeld
  dsimp only
  split <;> simp

@[simp] theorem plan_abortPort (s : State) (p : Nat) (pcs : Bool) : (s.abortPort p pcs).plan = s.plan := by
  unfold State.abortPort
  simp

@[simp] theorem plan_abortQueues (s : State) (p : Nat) (l : List Nat) : (s.abortQueues p l).plan = s.plan := by
  unfold State.abortQueues
  dsimp only
  split <;> split <;> simp

@[simp] theorem plan_skidOverflow (s : State) (p : Nat) (t : TxFrame) : (s.skidOverflow p t).plan = s.plan := by
  unfold State.skidOverflow
  dsimp only
  split
  · split <;> simp
  · simp

@[simp] theorem plan_skidCheck (s : State) (p : Nat) : (s.skidCheck p).plan = s.plan := by
  unfold State.skidCheck
  dsimp only
  split <;> simp

@[simp] theorem plan_expressArrive (s : State) (i p : Nat) (l : List Byte) : (s.expressArrive i p l).plan = s.plan := by
  unfold State.expressArrive
  dsimp only
  split
  · simp
  · split
    · simp
    · split
      · simp
      · split <;> simp

@[simp] theorem plan_onCrossing (s : State) (p i : Nat) (f : TxFrame → TxFrame) : (s.onCrossing p i f).plan = s.plan := by
  unfold State.onCrossing
  dsimp only
  split
  · split <;> simp
  · simp

@[simp] theorem plan_overrunAt (s : State) (p i n : Nat) : (s.overrunAt p i n).plan = s.plan := by
  unfold State.overrunAt
  dsimp only
  split
  · split <;> simp
  · simp

@[simp] theorem plan_hardEnd (s : State) (i : Nat) : (s.hardEnd i).plan = s.plan := by
  unfold State.hardEnd
  split
  · dsimp only
    split <;> simp
  · rfl

end Sys2Proof.Machine
end

/-! ### The Ephemeris sequencer (R100 to R110) -/

section
namespace Sys2Proof.Machine

theorem plan_cutConnections (s : State) (b : Blob) (old new : Nat) (all : Bool) : (s.cutConnections b old new all).plan = s.plan := by
  unfold State.cutConnections
  refine plan_each _ _ _ fun t p _ => ?_
  split <;> simp

theorem plan_applyHold (s : State) (p : Nat) : (s.applyHold p).plan = s.plan := by
  unfold State.applyHold
  dsimp only
  split
  · rfl
  · split <;> simp

theorem plan_applyHolds (s : State) : s.applyHolds.plan = s.plan := plan_each _ _ _ fun t p _ => plan_applyHold t p

theorem eph_of_plan {s t : State} (h : t.plan = s.plan) : t.eph = s.eph := (congrArg State.eph h :)

theorem fly_of_plan {s t : State} (h : t.plan = s.plan) : t.fly = s.fly := (congrArg State.fly h :)

theorem applyHolds_eph (s : State) : s.applyHolds.eph = s.eph := eph_of_plan (plan_applyHolds s)

theorem applyHolds_fly (s : State) : s.applyHolds.fly = s.fly := fly_of_plan (plan_applyHolds s)

/-- A slot whose record can be read. -/
theorem enterSlot_of_readable {s : State} {i : Nat} (h : i ∉ s.eph.1.badSlots) : s.enterSlot i =
    ({ s with fly := { s.fly with slot := i }, saf := { s.saf with gateSlot := some (s.cal, i) } } : State).applyHolds := if_neg h

theorem agenda_enterSlot {s : State} {i : Nat} (h : i ∉ s.eph.1.badSlots) : (s.enterSlot i).agenda = s.agenda := by
  rw [enterSlot_of_readable h, agenda_applyHolds]
  rfl

theorem enterSlot_armed {s : State} {i : Nat} (h : i ∉ s.eph.1.badSlots) : (s.enterSlot i).fly.armed = s.fly.armed := by
  rw [enterSlot_of_readable h, applyHolds_fly]

/-- The state in which slot `i` of the same cycle, or slot 0 of the next one, is entered. -/
theorem cut_eph (s : State) (b : Blob) (old new : Nat) (all : Bool) : (s.cutConnections b old new all).eph = s.eph :=
  eph_of_plan (plan_cutConnections ..)

theorem cut_armed (s : State) (b : Blob) (old new : Nat) (all : Bool) : (s.cutConnections b old new all).fly.armed = s.fly.armed :=
  congrArg Flywheel.armed (fly_of_plan (plan_cutConnections ..))

theorem switchDue_of_none {s : State} (h : s.fly.armed = none) (t : Int) : s.switchDue t = false := by
  unfold State.switchDue
  rw [h]

/-- The next slot of a cycle under TIME binding (R100). -/
theorem slotFires_next {s : State} (hon : s.ephOn = true) (hbound : ephRefBound s.cal = false) (hnext : s.fly.slot + 1 < ephSlots s.cal) :
    s.slotFires = (s.cutConnections s.cal s.fly.slot (s.fly.slot + 1) false).enterSlot (s.fly.slot + 1) := by
  unfold State.slotFires
  rw [hon]
  dsimp only
  rw [if_neg (by decide), if_neg (by rw [hbound]; decide), if_pos hnext]

/-- The cycle of slot 0 that follows the last slot (R100). -/
def State.cycleEntered (s : State) (start : Int) : State :=
  let t := s.cutConnections s.cal s.fly.slot 0 false
  (({ t with fly := { t.fly with cycleStart := start } } : State).enterSlot 0).cycleTick

theorem cycleEntered_readable {s : State} {start : Int} (hslot : 0 ∉ s.eph.1.badSlots) : 0 ∉
    ({ s.cutConnections s.cal s.fly.slot 0 false with
      fly := { (s.cutConnections s.cal s.fly.slot 0 false).fly with cycleStart := start } } : State).eph.1.badSlots := by
  exact (cut_eph s s.cal s.fly.slot 0 false).symm ▸ hslot

theorem agenda_cycleEntered {s : State} (start : Int) (hslot : 0 ∉ s.eph.1.badSlots) : (s.cycleEntered start).agenda = s.agenda := by
  unfold State.cycleEntered
  dsimp only
  rw [agenda_cycleTick, agenda_enterSlot (cycleEntered_readable hslot)]
  exact agenda_cutConnections ..

theorem cycleEntered_armed {s : State} (start : Int) (hslot : 0 ∉ s.eph.1.badSlots) :
    (s.cycleEntered start).fly.armed = s.fly.armed :=
  (enterSlot_armed (cycleEntered_readable hslot)).trans (cut_armed ..)

theorem slotFires_cycle {s : State} (hon : s.ephOn = true) (hbound : ephRefBound s.cal = false) (hlast : s.fly.slot + 1 = ephSlots s.cal)
    (hslot : 0 ∉ s.eph.1.badSlots) (harmed : s.fly.armed = none) :
    s.slotFires = s.cycleEntered (s.fly.cycleStart + ephCycleLen s.cal) := by
  have hdue : (s.cycleEntered (s.fly.cycleStart + ephCycleLen s.cal)).switchDue (s.fly.cycleStart + ephCycleLen s.cal) = false :=
    switchDue_of_none ((cycleEntered_armed _ hslot).trans harmed) _
  unfold State.slotFires
  rw [hon]
  dsimp only
  rw [if_neg (by decide), if_neg (by rw [hbound]; decide), if_neg (by omega), if_neg (by rw [switchDue_of_none harmed]; simp)]
  exact if_neg (by rw [Bool.not_eq_true]; exact hdue)

/-! The switch of the banks (R107, R149 to R151) -/

@[simp] theorem agenda_advanceFor (s : State) (g : Signed) : (s.advanceFor g).agenda = s.agenda := by
  unfold State.advanceFor State.advanceRollback
  split
  · split
    · exact (agenda_raise _ (by decide)).trans rfl
    · rfl
  · rfl

theorem advanceFor_eph (s : State) (g : Signed) : (s.advanceFor g).eph = s.eph := by
  unfold State.advanceFor State.advanceRollback
  split
  · split <;> rfl
  · rfl

@[simp] theorem agenda_recoveryChange (s : State) (old : AshBank) (k : Nat) : (s.recoveryChange old k).agenda = s.agenda := by
  unfold State.recoveryChange
  split <;> rfl

@[simp] theorem agenda_policerChange (s : State) (i : Nat) (e e' : PolEntry) : (s.policerChange i e e').agenda = s.agenda := by
  unfold State.policerChange
  split
  · split <;> rfl
  · split <;> rfl

@[simp] theorem agenda_attachMirror (s : State) (i : Nat) : (s.attachMirror i).agenda = s.agenda := by
  unfold State.attachMirror
  dsimp only
  split
  · rfl
  · exact Eq.trans (b := (s.flushQueue (4160 + i)).agenda) rfl (agenda_flushQueue s (4160 + i))

@[simp] theorem agenda_sectionsChanged (s : State) (old : AshBank) : (s.sectionsChanged old).agenda = s.agenda := by
  unfold State.sectionsChanged
  extract_lets s1 fab s2 n s3
  have h1 : s1.agenda = s.agenda := by simp [s1]
  have h2 : s2.agenda = s1.agenda := rfl
  have h3 : s3.agenda = s2.agenda := by simp [s3]
  rw [agenda_each _ _ _ fun t i _ => agenda_attachMirror t i, h3, h2, h1]

theorem agenda_switchAsh (s : State) : s.switchAsh.agenda = s.agenda := by
  unfold State.switchAsh
  split
  next a b hab =>
    extract_lets s1 s2
    have h1 : s1.agenda = s.agenda := rfl
    have h2 : s2.agenda = s1.agenda := by simp [s2]
    rw [← h1, ← h2]
    split <;> rfl

@[simp] theorem agenda_checkTypes (s : State) : s.checkTypes.agenda = s.agenda := by
  unfold State.checkTypes
  refine agenda_each _ _ _ fun t p _ => ?_
  dsimp only
  split <;> simp

theorem agenda_switchEph {s : State} (t : Int) (hfirst : 0 ∉ s.eph.2.badSlots) (hlast : ephSlots s.eph.2.blob - 1 ∉ s.eph.2.badSlots) :
    (s.switchEph t).agenda = s.agenda := by
  unfold State.switchEph
  extract_lets skip s1 s2 s3 fly u1 u2 s4 dark
  have h1 : s1.agenda = s.agenda := by simp [s1]
  have heph : s3.eph = (s.eph.2, s.eph.1) := by
    have hcut : s1.eph = s.eph := cut_eph ..
    have hswap : s2.eph = (s.eph.2, s.eph.1) := by rw [show s2.eph = (s1.eph.2, s1.eph.1) from rfl, hcut]
    exact (advanceFor_eph s2 _).trans hswap
  have h3 : s3.agenda = s1.agenda := by
    simp only [s3]
    rw [agenda_setF _ _ (by decide), agenda_setF _ _ (by decide), agenda_advanceFor]
    rfl
  have hcal : s3.cal = s.eph.2.blob := congrArg (fun e => e.1.blob) heph
  have h4 : s4.agenda = s3.agenda := by
    simp only [s4]
    split
    · rw [agenda_enterSlot (by rw [hcal, show (u1.allKs _).eph = s3.eph from rfl, heph]; exact hlast), agenda_allKs _ _ (by rfl)]
      rfl
    · rw [agenda_cycleTick, agenda_enterSlot (by rw [show (u2.allKs _).eph = s3.eph from rfl, heph]; exact hfirst),
        agenda_allKs _ _ (by rfl)]
      rfl
  rw [agenda_doIf _ _ _ fun t => agenda_switchOff t (by decide), agenda_checkTypes, h4, h3, h1]

theorem agenda_switchAt {s : State} (t : Int) (hfirst : 0 ∉ s.eph.2.badSlots)
    (hlast : ephSlots s.eph.2.blob - 1 ∉ s.eph.2.badSlots) : (s.switchAt t).agenda = s.agenda := by
  unfold State.switchAt
  split
  · rfl
  split
  · exact refusePending_queue s 0x02
  · extract_lets fly s1 s2 s3 s4 snap s5
    have h1 : s1.agenda = s.agenda := (agenda_allKs _ _ (by rfl)).trans rfl
    have h2 : s2.agenda = s1.agenda := by
      simp only [s2]
      split
      · exact agenda_switchEph t hfirst hlast
      · exact agenda_setF _ _ (by decide)
    have h3 : s3.agenda = s2.agenda := by
      simp only [s3]
      split
      · exact agenda_switchAsh s2
      · rfl
    have h4 : s4.agenda = s3.agenda := by
      simp only [s4]
      split
      · rw [agenda_setF _ _ (by decide), agenda_showEff]
      · rfl
    rw [agenda_raise _ (by decide), agenda_bumpEpoch, agenda_setF _ _ (by decide), ← h1, ← h2, ← h3, ← h4]
    rfl

theorem bankSwitchNow_of_eph {s : State} {a : PendAct} (harmed : s.fly.armed = some a) (hpred : a.predicted = false)
    (hsel : bitAt a.sel 0 = true) : s.bankSwitchNow = s.switchAt a.tEff := by
  unfold State.bankSwitchNow
  rw [harmed]
  dsimp only
  rw [hpred, hsel, if_neg (by decide), if_neg (by simp)]

/-- Settles O12: with no switch armed the end of a cycle starts the next one. -/
theorem slotsAndSwitches : Obligations.SlotsAndSwitches := by
  refine ⟨fun s hcalm hon hbound hnext hslot => ?_, fun s hcalm hon hbound hlast hslot harmed => ?_,
    fun s a hcalm harmed hpred hsel _ hfirst hlast _ => ?_⟩
  · refine takes_of_agenda (f := fun s => s.slotFires) rfl hcalm (slotFires_next hon hbound hnext) ?_
    rw [agenda_enterSlot (by rw [cut_eph]; exact hslot), agenda_cutConnections]
  · exact takes_of_agenda (f := fun s => s.slotFires) rfl hcalm (slotFires_cycle hon hbound hlast hslot harmed)
      (agenda_cycleEntered _ hslot)
  · exact takes_of_agenda (f := fun s => s.bankSwitchNow) rfl hcalm (bankSwitchNow_of_eph harmed hpred hsel)
      (agenda_switchAt _ hfirst hlast)

/-! CYCLE_REF_IN (R103, R106) -/

theorem agenda_refCycleStart {s : State} (u : Int) (hslot : 0 ∉ s.eph.1.badSlots) (harmed : s.fly.armed = none) :
    (s.refCycleStart u).agenda = s.agenda := by
  unfold State.refCycleStart
  extract_lets n early old free locked s1 s2 last s2b s3 next fly s4 due s5
  have h1 : s1.agenda = s.agenda ∧ s1.plan = s.plan := by
    simp only [s1]
    split
    · exact ⟨(agenda_raise _ (by decide)).trans (agenda_countN ..), rfl⟩
    · exact ⟨rfl, rfl⟩
  have h2 : s2.agenda = s1.agenda ∧ s2.plan = s1.plan := by
    simp only [s2]
    split
    · exact ⟨agenda_raise _ (by decide), rfl⟩
    · split
      · exact ⟨agenda_raise _ (by decide), rfl⟩
      · exact ⟨rfl, rfl⟩
  have h2b : s2b.agenda = s2.agenda ∧ s2b.plan = s2.plan := by
    simp only [s2b]
    split
    · exact ⟨rfl, rfl⟩
    · exact ⟨agenda_cutConnections .., plan_cutConnections ..⟩
  have hplan : s2b.plan = s.plan := h2b.2.trans (h2.2.trans h1.2)
  have heph : s4.eph = s.eph := (cut_eph ..).trans (Eq.trans (b := s2b.eph) rfl (eph_of_plan hplan))
  have harmed4 : s4.fly.armed = none :=
    (cut_armed ..).trans (Eq.trans (b := s2b.fly.armed) rfl ((congrArg Flywheel.armed (fly_of_plan hplan)).trans harmed))
  have hslot4 : 0 ∉ s4.eph.1.badSlots := heph ▸ hslot
  have h4 : s4.agenda = s.agenda := by
    have h3 : s3.agenda = s2b.agenda := (agenda_cutConnections ..).trans (agenda_allKs _ _ (by rfl))
    rw [show s4.agenda = s3.agenda from rfl, h3, h2b.1, h2.1, h1.1]
  have harmed5 : s5.fly.armed = none := (enterSlot_armed hslot4).trans harmed4
  have hdue : ∀ t : State, t.fly.armed = none → due t = false := fun t ht => by
    simp only [due, ht]
    simp
  rw [hdue s4 harmed4, hdue s5 harmed5, if_neg (by simp), if_neg (by decide), agenda_cycleTick, agenda_enterSlot hslot4, h4]

theorem refEdge_of_other {s : State}
    (h : s.getB F.EPH_CTRL_ref_in_en = false ∨ s.getB F.EPH_CTRL_ref_edge = !s.pins.ref) : s.refEdge = s.turnRef := by
  unfold State.refEdge
  refine if_pos ?_
  rcases h with h | h <;> rw [h] <;> simp

theorem refEdge_of_selected {s : State} (hen : s.getB F.EPH_CTRL_ref_in_en = true) (hedge : s.getB F.EPH_CTRL_ref_edge = s.pins.ref)
    (hbusy : s.ksBusy = false) : s.refEdge = s.turnRef.refEdgeAt s.timeNs := by
  unfold State.refEdge
  rw [hen, hedge, hbusy]
  dsimp only
  rw [if_neg (by simp), if_neg (by decide)]

/-- The edge that arms the next cycle start (R103). -/
theorem refEdgeAt_accepted {s : State} {e : Int} (hon : s.ephOn = true) (hbound : ephRefBound s.cal = true)
    (hfault : s.key.doubleFault = false) (hmin : ∀ last l, s.key.ks.edges = last :: l → (s.cal.le 0x28 4 : Int) ≤ e - last) :
    s.refEdgeAt e = State.refEdgeAt.accepted e s (match s.key.ks.edges with | [] => none | last :: _ => some (e - last).toNat) := by
  unfold State.refEdgeAt
  rw [hon, hbound, hfault, if_neg (by decide)]
  cases hedges : s.key.ks.edges with
  | nil => rfl
  | cons last l =>
    dsimp only
    rw [if_neg (by have := hmin last l hedges; omega)]

theorem refEdgeAt_ignored {s : State} {e last : Int} {l : List Int} (hon : s.ephOn = true) (hbound : ephRefBound s.cal = true)
    (hfault : s.key.doubleFault = false) (hedges : s.key.ks.edges = last :: l) (hmin : e - last < s.cal.le 0x28 4) :
    s.refEdgeAt e = s.count 2 0 3 := by
  unfold State.refEdgeAt
  rw [hon, hbound, hfault, if_neg (by decide), hedges]
  exact if_pos hmin

theorem refMissing_of_locked {s : State} (hon : s.ephOn = true) (hbound : ephRefBound s.cal = true) (hstarted : s.fly.started = true)
    (hlocked : s.key.ks.refState = 2) (hedge : s.fly.fromEdge = false) :
    s.refMissing = s.refCycleStart (s.fly.cycleStart + s.cal.le 0x24 4) := by
  unfold State.refMissing
  rw [hon, hbound, hstarted, hlocked, hedge]
  exact if_pos (by decide)

/-- Settles O13: an edge by its distance from the one before. -/
theorem cycleReference : Obligations.CycleReference := by
  refine ⟨?_, fun s last l hcalm hen hedge hbusy hon hbound hfault hedges hmin => ?_, fun s hcalm h => ?_,
    fun s hcalm hon hbound hstarted hlocked hedge hslot harmed => ?_⟩
  · intro s hcalm hen hedge hbusy hon hbound hfault hmin hlog t
    refine takes_ksLog_of_agenda (f := fun s => s.refEdge) rfl hcalm hlog ?_ ?_
    · rw [refEdge_of_selected hen hedge hbusy, refEdgeAt_accepted (by exact hon) (by exact hbound) (by exact hfault) (by exact hmin)]
      have hks : s.turnRef.key.ks = s.key.ks := rfl
      unfold State.refEdgeAt.accepted
      simp only [t, State.setKs, hks]
      cases s.key.ks.edges <;> rfl
    · exact Eq.trans (b := t.agenda) rfl ((agenda_setKs _ _ (by rfl)).trans rfl)
  · exact takes_of_agenda (f := fun s => s.refEdge) rfl hcalm
      ((refEdge_of_selected hen hedge hbusy).trans (refEdgeAt_ignored hon hbound hfault hedges hmin)) (agenda_count ..)
  · exact takes_of_agenda (f := fun s => s.refEdge) rfl hcalm (refEdge_of_other h) rfl
  · exact takes_of_agenda (f := fun s => s.refMissing) rfl hcalm (refMissing_of_locked hon hbound hstarted hlocked hedge)
      (agenda_refCycleStart _ hslot harmed)

/-! EPH.ACTIVATE (R108, R109) -/

theorem after_activate (s : State) (m : Nat) (v : Word) (old : State) :
    (fldOf v 0 1 = 1 → fldOf v 3 1 = 0 → s.after m Addr.EPH_ACTIVATE true v old = s.actGo (s.getF F.EPH_ACTIVATE_select)
      ((s.getF F.EPH_ACT_TIME_SEC_LO_req_sec_lo + s.getF F.EPH_ACT_TIME_SEC_HI_req_sec_hi * 2 ^ 32) * 10 ^ 9
        + s.getF F.EPH_ACT_TIME_NS_req_ns))
    ∧ (fldOf v 0 1 = 0 → fldOf v 3 1 = 1 → s.after m Addr.EPH_ACTIVATE true v old = s.actCancel) := by
  refine ⟨fun hgo hcancel => ?_, fun hgo hcancel => ?_⟩
  · rw [after_eph (by decide)]
    unfold State.ephAfter
    rw [if_pos rfl, hgo, hcancel]
    rfl
  · rw [after_eph (by decide)]
    unfold State.ephAfter
    rw [if_pos rfl, hgo, hcancel]
    rfl

/-- What an accepted request leaves (R108). -/
theorem requestSwitch_accepted {s x : State} {sel tReq c : Nat} {a : PendAct} (h : s.requestSwitch sel tReq = (c, some a, x)) :
    x = ({ s with key := { s.key with ks := { s.key.ks with pend := some a } }, fly := { s.fly with armed := some a } } : State).showEff
        a.tEff ∧ a.sel = sel ∧ a.tReq = tReq := by
  unfold State.requestSwitch at h
  split at h
  · simp at h
  split at h
  · simp at h
  split at h
  · simp at h
  split at h
  · simp at h
  dsimp only at h
  split at h
  · simp at h
  split at h
  · simp at h
  obtain ⟨-, ha, hx⟩ := Prod.mk.inj h |>.imp id Prod.mk.inj
  obtain rfl := Option.some.inj ha
  exact ⟨hx.symm, rfl, rfl⟩

theorem decideGo_accepted {s x : State} {sel tReq c : Nat} {a : PendAct} (hdev : s.dev = .config ∨ s.dev = .ready ∨ s.dev = .degraded)
    (h : s.requestSwitch sel tReq = (c, some a, x)) :
    s.decideGo sel tReq = (x.showAct 1 c sel (decide (c = 0x0C)) a.predicted).setF F.EPH_ACT_STATUS_busy_refused 0 := by
  have hreq : s.activateReq sel tReq = (c, some a, x.showAct 1 c sel (decide (c = 0x0C)) a.predicted) := by
    unfold State.activateReq
    rw [h]
  unfold State.decideGo
  dsimp only
  rw [if_neg (by rcases hdev with h | h | h <;> rw [h] <;> decide), hreq]

theorem cancelPending_in_time {s : State} {a : PendAct} (hpend : s.key.ks.pend = some a) (hearly : s.nsCeil + 1000 ≤ a.tEff) :
    s.cancelPending.2 = ({ s.setKs (fun k => { k with pend := none }) with fly := { s.fly with armed := none } } : State).setF
      F.EPH_ACT_STATUS_act_state 0 := by
  unfold State.cancelPending
  rw [hpend]
  dsimp only
  rw [if_pos hearly]
  rfl

/-- Settles O14: a request that is accepted, and one withdrawn in time. -/
theorem activationByRegister : Obligations.ActivationByRegister := by
  refine ⟨?_, ?_⟩
  · intro s m v hcalm hadmits harmed hgo hcancel hbusy hlog hdev t sel tReq c a x hreq
    obtain ⟨hx, hsel, htReq⟩ := requestSwitch_accepted hreq
    refine ⟨?_, by rw [hx]; rfl, by rw [hx]; rfl, hsel, htReq⟩
    refine takes_write_ksLog rfl hcalm hlog hadmits (by decide) (by decide) ?_ ?_
    · have hbusyAt : t.ksBusy = false := (stored_ksBusy ..).trans hbusy
      have hdevAt : t.dev = s.dev := stored_dev ..
      rw [harmed, (after_activate _ _ _ _).1 hgo hcancel]
      unfold State.actGo
      rw [if_neg (by rw [hbusyAt]; decide)]
      unfold State.serveGo
      rw [decideGo_accepted (hdevAt ▸ hdev) hreq]
    · rw [agenda_setF _ _ (by decide), agenda_showAct, hx, agenda_showEff]
      rfl
  · intro s m v a hcalm hadmits harmed hgo hcancel hbusy hlog hpend hearly t
    refine takes_write_ksLog rfl hcalm hlog hadmits (by decide) (by decide) ?_ ?_
    · rw [harmed, (after_activate _ _ _ _).2 hgo hcancel]
      unfold State.actCancel
      rw [if_neg (by rw [stored_ksBusy, hbusy]; decide)]
      unfold State.serveCancel
      rw [cancelPending_in_time (a := a) (by rw [stored_key]; exact hpend) (by unfold State.nsCeil; rw [stored_trn]; exact hearly)]
    · rw [agenda_setF _ _ (by decide)]
      exact Eq.trans (b := (t.setKs fun k => { k with pend := none }).agenda) rfl (agenda_setKs _ _ (by rfl))

end Sys2Proof.Machine
end

/-! ### Wake detectors, references, flits and the LED stream (R19, R35, R66, R446, R447) -/

section
namespace Sys2Proof.Machine

/-! What a report does, by its class (R301, R303) -/

theorem reaction_masked (s : State) (diag inst a : Nat) :
    s.reaction diag 0 inst a = (s.endTest.count 16 0 0).raise F.SAF_EVENT_fault_masked := if_pos rfl

theorem react_masked (s : State) (diag inst a : Nat) :
    s.react diag 0 inst a = ((s.endTest.count 16 0 0).raise F.SAF_EVENT_fault_masked).ksLog .safety :=
  congrArg (fun t => State.ksLog t .safety) (reaction_masked s diag inst a)

theorem react_redundancy (s : State) (diag inst a : Nat) :
    s.react diag 1 inst a = ((s.faultNoted diag 1 inst).addCause (.redundancy diag inst)).ksLog .safety :=
  congrArg (fun t => State.ksLog t .safety) ((if_neg (by decide)).trans ((if_neg (by decide)).trans (if_pos rfl)))

/-! A request for leave in a calm state (R393) -/

theorem leaveWaiting_of_calm {s : State} (h : s.key.ks.queue = []) : s.leaveWaiting = 0 := by
  unfold State.leaveWaiting
  rw [h]
  rfl

theorem askLeave_granted {s : State} {g : Grant} (hbusy : s.ksBusy = false) (hqueue : s.key.ks.queue = [])
    (h : s.decideLeave g 0 = .granted) : s.askLeave g = (.granted, (s.enterGrant g).ksLog .power) := by
  unfold State.askLeave
  rw [hbusy, leaveWaiting_of_calm hqueue, h]
  rfl

theorem askLeave_refused {s : State} {g : Grant} {r : Nat} (hbusy : s.ksBusy = false) (hqueue : s.key.ks.queue = [])
    (h : s.decideLeave g 0 = .refused r) :
    s.askLeave g = (.refused r, (s.noteRefusal g.requester g.domain g.cost r).ksLog .power) := by
  unfold State.askLeave
  rw [hbusy, leaveWaiting_of_calm hqueue, h]
  rfl

/-- A detector that is armed and fires (R66). -/
theorem wakeAt_of_armed {s : State} {mac lane : Nat} (hoff : s.domainOn (1 + mac / 8) = false)
    (hmode : bitsOf (s.reg (Addr.PORT_WAKE_CFG mac)).toNat (2 * lane) 2 ≠ 0) :
    s.wakeAt mac lane =
      let t := s.raiseBit (F.PORT_WAKE_STATUS_woke mac) lane
      if s.dev = .off then (if s.getB F.PWR_CTRL_wake_boot then s.sysReset 3 else t)
      else if s.getB (F.PORT_WAKE_CFG_wake_action mac) then
        match t.askPowerUp 1 (1 + mac / 8) with
        | (.refused _, u) => u.raise (F.PORT_WAKE_STATUS_wake_refused mac)
        | (_, u) => u
      else t := by
  unfold State.wakeAt
  exact if_neg (by rw [hoff]; simp [hmode])

theorem askPowerUp_of_down {s : State} {d : Nat} (h : d ∉ s.pwr.rising) (q : Nat) :
    s.askPowerUp q d = s.askLeave ⟨q, d, chargeOf s.part d⟩ := if_neg h

/-! Bad cells (R209, R214) -/

@[simp] theorem agenda_endAfterGood (s : State) (i : Nat) : (s.endAfterGood i).agenda = s.agenda := by
  unfold State.endAfterGood
  split
  · rfl
  · exact agenda_each _ _ _ fun t e _ => agenda_setPort ..

@[simp] theorem agenda_spoilCells (s : State) (i : Nat) (l : List Nat) : (s.spoilCells i l).agenda = s.agenda := by
  unfold State.spoilCells
  extract_lets s1
  have h1 : s1.agenda = s.agenda := by
    refine agenda_each _ _ _ fun t a _ => ?_
    split <;> simp
  split
  · exact h1
  · rw [agenda_setFrame, agenda_endAfterGood, h1]

@[simp] theorem agenda_spoilFrame (s : State) (i : Nat) : (s.spoilFrame i).agenda = s.agenda := by
  unfold State.spoilFrame
  split <;> simp

/-! The loss of a reference (R35) -/

theorem Rests.refDown {s : State} {n : Nat} (h : s.Rests n) (p : Nat) (hn : n < 767) : (s.refDown p).Rests (n + 1) :=
  State.Rests.ksLog (h.of_agenda (by rw [agenda_portDown, agenda_addCause, agenda_faultNoted])) .safety hn

/-- The state once the macros of chiplet `k` have shown the loss. -/
def State.refShown (s : State) (k : Nat) : State :=
  ({ s with refLost := s.refLost ++ [k] } : State).each ((List.range 32).map fun i => 32 * k + i) fun t m =>
    t.raise (F.PORT_EVENT_ref_clock_loss m)

theorem agenda_refShown (s : State) (k : Nat) : (s.refShown k).agenda = s.agenda :=
  agenda_each _ _ _ fun t m _ => agenda_raise (f := F.PORT_EVENT_ref_clock_loss m) t (by simp)

theorem refShown_portExists (s : State) (k : Nat) : (s.refShown k).portExists = s.portExists :=
  each_keeps (fun t => t.portExists = s.portExists) (fun (t : State) i => t.raise (F.PORT_EVENT_ref_clock_loss i)) _
    (fun t _ _ h => Eq.trans (b := t.portExists) rfl h) { s with refLost := s.refLost ++ [k] } rfl

theorem refLoss_of_new {s : State} {k : Nat} (hk : k < 4) (hnew : k ∉ s.refLost) :
    s.refLoss k = if ((chipletPorts k).filter s.portExists).isEmpty then ((s.refShown k).faultNoted 0x14 2 (128 * k)).ksLog .safety
      else (s.refShown k).each ((chipletPorts k).filter s.portExists) State.refDown := by
  have h := refShown_portExists s k
  unfold State.refLoss
  rw [if_neg (by simp [hnew]; omega)]
  exact (congrArg (fun g => if ((chipletPorts k).filter g).isEmpty then ((s.refShown k).faultNoted 0x14 2 (128 * k)).ksLog .safety
    else (s.refShown k).each ((chipletPorts k).filter g) State.refDown) h)

theorem rests_refLoss {s : State} {k : Nat} (hcalm : s.calm = true) (hlog : s.key.log.length < 639) :
    (if ((chipletPorts k).filter s.portExists).isEmpty then ((s.refShown k).faultNoted 0x14 2 (128 * k)).ksLog .safety
      else (s.refShown k).each ((chipletPorts k).filter s.portExists) State.refDown).Rests 767 := by
  have hshown : (s.refShown k).Rests 638 := ((rests_of_calm hcalm).of_agenda (agenda_refShown s k)).mono (by omega)
  split
  · exact (State.Rests.ksLog (hshown.of_agenda (agenda_faultNoted ..)) .safety (by decide)).mono (by decide)
  · have hlen : ((chipletPorts k).filter s.portExists).length ≤ 128 :=
      Nat.le_trans (List.length_filter_le ..) (by simp [chipletPorts])
    exact (State.Rests.each_logged _ _ hshown (by omega) fun t p _ n h hn => Rests.refDown h p hn).mono (by omega)

theorem flitErrorAt_none (s : State) (k : Nat) : s.flitErrorAt (.port k none) = s.react 0x03 0 k 0 := (rfl)

theorem flitErrorAt_frame (s : State) (k i : Nat) : s.flitErrorAt (.port k (some i)) = (s.spoilFrame i).react 0x03 0 k 0 := (rfl)

/-- Settles O7: each detector, reference and link by its row. -/
theorem portWakeReferenceFlitLed : Obligations.PortWakeReferenceFlitLed := by
  refine ⟨?_, ⟨?_, ?_, ?_⟩, ?_, ?_, ?_, ?_, ?_⟩
  · intro s mac lane hcalm _ _ hoff hmode t g
    have ht : t.agenda = s.agenda := agenda_raiseBit _ _ (by simp)
    have hwake := wakeAt_of_armed hoff hmode
    refine ⟨fun hdev hact => ?_, fun hdev hboot => ?_, fun hdev hact hbusy hlog hrising => ?_⟩
    · refine takes_of_agenda (f := fun s => s.wakeAt mac lane) rfl hcalm (hwake.trans ?_) ht
      dsimp only
      rw [if_neg hdev, if_neg (by rw [hact]; decide)]
    · refine takes_of_agenda (f := fun s => s.wakeAt mac lane) rfl hcalm (hwake.trans ?_) ht
      dsimp only
      rw [if_pos hdev, if_neg (by rw [hboot]; decide)]
    · have hqueue : t.key.ks.queue = [] := (rests_of_calm hcalm).queue
      have hrests : t.Rests 766 := ((rests_of_calm hcalm).of_agenda ht).mono (by omega)
      refine ⟨fun hgranted => ?_, fun r hrefused => ?_⟩
      · refine takes_of_rests (f := fun s => s.wakeAt mac lane) rfl hcalm (hwake.trans ?_)
          (State.Rests.ksLog (hrests.of_agenda (t := { t with pwr := { t.pwr with rising := t.pwr.rising ++ [1 + mac / 8] } }) rfl) .power
            (by decide))
        dsimp only
        rw [if_neg hdev, if_pos hact, askPowerUp_of_down (by exact hrising), askLeave_granted (by exact hbusy) (by exact hqueue) (by exact hgranted)]
        rfl
      · refine takes_of_rests (f := fun s => s.wakeAt mac lane) rfl hcalm (hwake.trans ?_)
          (State.Rests.of_agenda (State.Rests.ksLog (hrests.of_agenda (agenda_noteRefusal t 1 (1 + mac / 8) g.cost r)) .power
            (by decide)) (agenda_raise _ (by simp)))
        dsimp only
        rw [if_neg hdev, if_pos hact, askPowerUp_of_down (by exact hrising), askLeave_refused (by exact hbusy) (by exact hqueue) (by exact hrefused)]
        rfl
  · intro s k hcalm hk hnew hlog t l
    exact takes_of_rests (f := fun s => s.refLoss k) rfl hcalm (refLoss_of_new hk hnew) (rests_refLoss hcalm hlog)
  · exact fun s k hcalm hold => idles_of (f := fun s => s.refLoss k) rfl hcalm (if_pos (.inr hold))
  · exact fun s k hcalm => takes_of_agenda (f := fun s => s.refRelock k) rfl hcalm rfl rfl
  · intro s k f hcalm hlog t
    have ht : t.agenda = s.agenda := by
      cases f
      · rfl
      · exact agenda_spoilFrame ..
    refine takes_ksLog_of_agenda (f := fun s => s.flitErrorAt (.port k f)) rfl hcalm hlog ?_ ?_
    · cases f
      · rw [flitErrorAt_none, react_masked]
      · rw [flitErrorAt_frame, react_masked]
    · rw [agenda_raise _ (by decide), agenda_count, agenda_endTest, ht]
  · exact fun s u => rfl
  · intro s hcalm hboot hoff bits
    refine takes_of_agenda (f := fun s => s.ledStreamAt) rfl hcalm ?_ ?_
    · exact if_neg (by simp [hboot, hoff])
    · clear_value bits
      exact (agenda_each _ _ _ fun t p _ => agenda_setPort ..).trans rfl
  · exact fun s hcalm h => takes_of_agenda (f := fun s => s.ledStreamAt) rfl hcalm (if_pos h) rfl
  · exact fun s => ⟨rfl, rfl, rfl⟩

end Sys2Proof.Machine
end

/-! ### Registers (R362 to R374) -/

section
namespace Sys2Proof.Machine

/-! Writes that only store -/

/-- A write to such a register starts nothing. -/
theorem after_of_storesOnly {a : Nat} (h : storesOnly a = true) (s : State) (m : Nat) (armed : Bool) (v : Word) (old : State) :
    s.after m a armed v old = s := by
  unfold storesOnly at h
  by_cases hlow : a < 0x10000
  · rw [if_pos hlow] at h
    unfold State.after
    simp only [decide_eq_true_eq] at h
    rw [if_neg h, if_neg (by omega), if_neg (by omega), if_neg (by unfold Addr.PWR_SW_RESET; omega), if_neg (by omega),
      if_neg (by omega), if_neg (by omega), if_neg (by omega), if_neg (by unfold Addr.SAF_ALARM_TEST; omega), if_neg (by omega),
      if_neg (by unfold Addr.PIPE_FRER_RESET; omega), if_neg (by omega), if_neg (by omega), if_neg (by omega)]
  rw [if_neg hlow] at h
  by_cases hhif : a < 0x20000
  · rw [if_pos hhif] at h
    rw [after_hif (by omega)]
    unfold State.hifAfter
    split
    · rfl
    next r hr =>
      rw [hr, Option.all_some, decide_eq_true_eq] at h
      rw [if_neg h]
  rw [if_neg hhif] at h
  by_cases hgap : a < 0x30000
  · rw [if_pos hgap] at h
    simp at h
  rw [if_neg hgap] at h
  by_cases hdma : a < 0x40000
  · rw [if_pos hdma] at h
    rw [after_dma (by omega)]
    unfold State.dmaAfter
    split
    · rfl
    next c hc =>
      simp only [hc, Option.all_some, Bool.and_eq_true, decide_eq_true_eq] at h
      rw [if_neg h.1, if_neg h.2]
  rw [if_neg hdma] at h
  by_cases hpwr : a < 0x60000
  · rw [if_pos hpwr] at h
    unfold State.after
    simp only [decide_eq_true_eq] at h
    rw [if_neg (by unfold Addr.SYS_UNLOCK; omega), if_neg (by omega), if_neg (by omega), if_neg h, if_neg (by omega),
      if_neg (by omega), if_neg (by omega), if_neg (by omega), if_neg (by unfold Addr.SAF_ALARM_TEST; omega), if_neg (by omega),
      if_neg (by unfold Addr.PIPE_FRER_RESET; omega), if_neg (by omega), if_neg (by omega), if_neg (by omega)]
  rw [if_neg hpwr] at h
  by_cases hkey : a < 0x70000
  · rw [if_pos hkey] at h
    simp only [Bool.and_eq_true, decide_eq_true_eq] at h
    rw [after_key (by omega)]
    unfold State.keyAfter
    rw [if_neg h.1, if_neg h.2]
  rw [if_neg hkey] at h
  by_cases htrn : a < 0x80000
  · rw [if_pos htrn] at h
    simp only [decide_eq_true_eq, List.mem_cons, List.not_mem_nil, or_false, not_or] at h
    obtain ⟨hctrl, hpps, hlo, hhi, hset, hcapture, hoffset⟩ := h
    rw [after_trn (by omega)]
    unfold State.trnAfter
    rw [if_neg hctrl, if_neg hpps, if_neg (not_or.mpr ⟨hlo, hhi⟩), if_neg hset, if_neg hcapture, if_neg hoffset]
  rw [if_neg htrn] at h
  by_cases heph : a < 0x90000
  · rw [if_pos heph] at h
    simp only [Bool.and_eq_true, decide_eq_true_eq] at h
    rw [after_eph (by omega)]
    unfold State.ephAfter
    rw [if_neg h.1, if_neg h.2]
  rw [if_neg heph] at h
  by_cases hcnt : a < 0xA0000
  · rw [if_pos hcnt] at h
    simp only [Bool.and_eq_true, decide_eq_true_eq, List.mem_cons, List.not_mem_nil, or_false, not_or, Bool.not_eq_true',
      Bool.and_eq_false_iff, decide_eq_false_iff_not] at h
    obtain ⟨⟨hctrl, hevery, hinterval, haddr⟩, hpc⟩ := h
    rw [after_cnt (by omega)]
    unfold State.cntAfter
    rw [if_neg (by simp [hctrl, hevery, hinterval]), if_neg haddr, if_neg (by omega)]
  rw [if_neg hcnt] at h
  by_cases hsaf : a < 0xC0000
  · rw [if_pos hsaf] at h
    unfold State.after
    simp only [decide_eq_true_eq] at h
    rw [if_neg (by unfold Addr.SYS_UNLOCK; omega), if_neg (by omega), if_neg (by omega), if_neg (by unfold Addr.PWR_SW_RESET; omega),
      if_neg (by omega), if_neg (by omega), if_neg (by omega), if_neg (by omega), if_neg h, if_neg (by omega),
      if_neg (by unfold Addr.PIPE_FRER_RESET; omega), if_neg (by omega), if_neg (by omega), if_neg (by omega)]
  rw [if_neg hsaf] at h
  by_cases hacc : a < 0xD0000
  · rw [if_pos hacc] at h
    rw [after_acc (by omega), Option.isNone_iff_eq_none.mp h]
  rw [if_neg hacc] at h
  by_cases hpipe : 0x200000 ≤ a ∧ a < 0x300000
  · rw [if_pos hpipe] at h
    unfold State.after
    simp only [decide_eq_true_eq] at h
    rw [if_neg (by unfold Addr.SYS_UNLOCK; omega), if_neg (by omega), if_neg (by omega), if_neg (by unfold Addr.PWR_SW_RESET; omega),
      if_neg (by omega), if_neg (by omega), if_neg (by omega), if_neg (by omega), if_neg (by unfold Addr.SAF_ALARM_TEST; omega),
      if_neg (by omega), if_neg h, if_neg (by omega), if_neg (by omega), if_neg (by omega)]
  rw [if_neg hpipe] at h
  by_cases hbuf : 0x400000 ≤ a ∧ a < 0x420000
  · rw [if_pos hbuf] at h
    simp only [decide_eq_true_eq, List.mem_cons, List.not_mem_nil, or_false, not_or] at h
    obtain ⟨happly, hretire, hctrl⟩ := h
    rw [after_buf (by omega)]
    unfold State.bufAfter
    rw [if_neg (by omega), if_neg happly, if_neg hretire, if_neg hctrl]
  rw [if_neg hbuf] at h
  by_cases htm : 0x500000 ≤ a ∧ a < 0x600000
  · rw [if_pos htm] at h
    simp only [Bool.and_eq_true, decide_eq_true_eq, List.mem_cons, List.not_mem_nil, or_false, not_or, Bool.not_eq_true',
      Bool.and_eq_false_iff, decide_eq_false_iff_not] at h
    obtain ⟨⟨hport, hqueue⟩, hcfg, hrate, hburst⟩ := h
    rw [after_tm (by omega)]
    unfold State.tmAfter
    rw [if_neg (by omega), if_neg (by omega), if_neg (by simp [hcfg, hrate, hburst])]
  rw [if_neg htm] at h
  by_cases hport : 0x1000000 ≤ a
  · rw [if_pos hport] at h
    simp only [Bool.and_eq_true, decide_eq_true_eq, Bool.not_eq_true', Bool.and_eq_false_iff, decide_eq_false_iff_not] at h
    obtain ⟨happly, hcfg⟩ := h
    rw [after_port (by omega)]
    unfold State.portAfter
    dsimp only
    rw [if_neg happly, if_neg (by omega)]
  rw [if_neg hport] at h
  simp at h

/-- No write changes PLB.STATUS: its fields are read-only. -/
theorem stored_plbStatus (s : State) (m a : Nat) (v : Word) : (s.stored m a v).reg Addr.PLB_STATUS = s.reg Addr.PLB_STATUS := by
  by_cases h : canonAddr a = Addr.PLB_STATUS
  · have harmed : (s.setArmed m false).reg Addr.PLB_STATUS = s.reg Addr.PLB_STATUS := reg_setReg_other s (by decide) _
    have hmask : ∀ b w, (regDesc Addr.PLB_STATUS).map (fun d => writeMask d b w) = some 0 := fun _ _ => rfl
    unfold State.stored
    dsimp only
    rw [h]
    split
    · exact harmed
    next d hd =>
      have hzero := hmask (s.armed m) v
      rw [hd, Option.map_some, Option.some.injEq] at hzero
      rw [hzero, reg_setRegBits, harmed]
      simp only [BitVec.zero_and, BitVec.not_zero, BitVec.and_allOnes, BitVec.and_zero, BitVec.or_zero]
  · exact stored_reg s m a v _ (Ne.symm h) (by decide)

theorem agenda_stored_any (s : State) (m a : Nat) (v : Word) : (s.stored m a v).agenda = s.agenda := by
  unfold State.agenda
  rw [stored_plbStatus, stored_key, stored_hif, stored_raised, stored_dev, stored_now]

/-- A register of the doorbell page is none that only stores. -/
theorem storesOnly_not_bell {a : Nat} (h : storesOnly a = true) : ¬ (0x100000 ≤ a ∧ a < 0x102000) := by
  rintro ⟨hlow, hhigh⟩
  unfold storesOnly at h
  rw [if_neg (by omega), if_neg (by omega), if_neg (by omega), if_neg (by omega), if_neg (by omega), if_neg (by omega),
    if_neg (by omega), if_neg (by omega), if_neg (by omega), if_neg (by omega), if_neg (by omega), if_neg (by omega),
    if_neg (by omega), if_neg (by omega), if_neg (by omega)] at h
  simp at h

theorem canonAddr_bell {a : Nat} (h : 0x100000 ≤ a ∧ a < 0x102000) : canonAddr a = a := canonAddr_self (by omega)

theorem storesOnly_canon_not_bell {a : Nat} (h : storesOnly (canonAddr a) = true) : ¬ (0x100000 ≤ a ∧ a < 0x102000) := fun hbell =>
  storesOnly_not_bell h ((canonAddr_bell hbell).symm ▸ hbell)

/-- A write outside the doorbell page is a write of its words. -/
theorem regWrite_word {a : Nat} (h : ¬ (0x100000 ≤ a ∧ a < 0x102000)) (s : State) (m : Nat) (v : BitVec 64) :
    s.regWrite m a 4 v = s.regWord m a (BitVec.ofNat 32 v.toNat) := by
  unfold State.regWrite
  dsimp only
  rw [if_neg (by decide), if_neg (by omega), if_neg (by omega)]
  rfl

theorem regWrite_two {a : Nat} (h : ¬ (0x100000 ≤ a ∧ a < 0x102000)) (s : State) (m : Nat) (v : BitVec 64) :
    s.regWrite m a 8 v = (s.regWord m a (BitVec.ofNat 32 v.toNat)).regWord m (a + 4) (BitVec.ofNat 32 (v.toNat / 2 ^ 32)) := by
  unfold State.regWrite
  dsimp only
  rw [if_neg (by decide), if_neg (by omega), if_neg (by omega)]
  rfl

theorem regWord_stores {s : State} {m a : Nat} {v : Word} (h : storesOnly (canonAddr a) = true) (hadmits : s.admits m a v = true) :
    s.regWord m a v = s.stored m a v := by
  rw [regWord_admits s m a v hadmits, after_of_storesOnly h]

/-- Settles O22: what follows from such a write is nothing. -/
theorem registerWriteStores : Obligations.RegisterWriteStores := by
  refine ⟨fun s m a v hcalm hstores hadmits => ?_, fun s m a v hcalm hstores hstores' hadmits hadmits' => ?_,
    fun s m v hcalm hadmits => ?_⟩
  · refine takes_of_agenda (f := fun s => s.regWrite m a 4 v) rfl hcalm ?_ (agenda_stored_any ..)
    rw [regWrite_word (storesOnly_canon_not_bell hstores), regWord_stores hstores hadmits]
  · refine takes_of_agenda (f := fun s => s.regWrite m a 8 v) rfl hcalm ?_ ((agenda_stored_any ..).trans (agenda_stored_any ..))
    rw [regWrite_two (storesOnly_canon_not_bell hstores), regWord_stores hstores hadmits, regWord_stores hstores' hadmits']
  · exact takes_of_agenda (f := fun s => s.regWord m Addr.SAF_CTRL v) rfl hcalm (regWord_stores (by decide) hadmits) (agenda_stored_any ..)

/-! Refused writes (R366, R370, R392) -/

@[simp] theorem access_regs_ne_plb : Addr.SYS_ARMED ≠ Addr.PLB_STATUS ∧ F.SYS_ARMED_armed.addr ≠ Addr.PLB_STATUS
    ∧ Addr.SYS_KEY_ERR ≠ Addr.PLB_STATUS ∧ Addr.PWR_OFF_ADDR ≠ Addr.PLB_STATUS ∧ Addr.ACC_VIOL_ADDR ≠ Addr.PLB_STATUS
    ∧ Addr.ACC_VIOL_INFO ≠ Addr.PLB_STATUS := by
  and_intros <;> decide

@[simp] theorem agenda_setArmed (s : State) (m : Nat) (on : Bool) : (s.setArmed m on).agenda = s.agenda :=
  agenda_setFBit s m on (by decide)

@[simp] theorem agenda_offAccess (s : State) (m a : Nat) : (s.offAccess m a).agenda = s.agenda := by
  unfold State.offAccess
  simp

@[simp] theorem agenda_keyRefused (s : State) (m a : Nat) : (s.keyRefused m a).agenda = s.agenda := by
  unfold State.keyRefused
  simp

@[simp] theorem agenda_violation (s : State) (m kind target a opcode : Nat) : (s.violation m kind target a opcode).agenda = s.agenda := by
  unfold State.violation
  extract_lets ev s1 hif s2
  have hev : guardReg ev.addr = false := by
    simp only [ev]
    split
    · decide
    · split <;> decide
  have h1 : s1.agenda = s.agenda := by simp [s1]
  rw [agenda_raise _ hev, agenda_count, ← h1]
  rfl

theorem regWord_denied {s : State} {m a t : Nat} {v : Word} (ht : targetOf a = some t) (h : s.permitted m a 2 = false) :
    s.regWord m a v = s.violation m 1 t a 0 := by
  unfold State.regWord State.writeWord
  rw [ht, h]
  rfl

/-- A write that a master may make goes on to the checks of the register. -/
theorem regWord_permitted {s : State} {m a : Nat} (v : Word) (ht : (targetOf a).isSome = true) (h : s.permitted m a 2 = true) :
    s.regWord m a v = (s.setArmed m false).writeFields blockRules m a (s.armed m) v := by
  unfold State.regWord State.writeWord
  rw [if_neg (by simpa using Option.isSome_iff_ne_none.mp ht), if_neg (by rw [h]; decide)]

theorem regOn_setArmed (s : State) (m a : Nat) : (s.setArmed m false).regOn a = s.regOn a := armed_on s m _

theorem regWord_off {s : State} {m a : Nat} (v : Word) (ht : (targetOf a).isSome = true) (h : s.permitted m a 2 = true)
    (hd : (regDesc (canonAddr a)).isSome = true) (hoff : s.regOn a = false) :
    s.regWord m a v = (s.setArmed m false).offAccess m a := by
  rw [regWord_permitted v ht h]
  unfold State.writeFields
  dsimp only
  split
  next hnone =>
    rw [hnone] at hd
    simp at hd
  · rw [regOn_setArmed, hoff]
    rfl

/-- A write of a register whose fields events do not sequence. -/
theorem regWord_fields {s : State} {m a : Nat} {v : Word} {d : RegDesc} (ht : (targetOf a).isSome = true) (h : s.permitted m a 2 = true)
    (hd : regDesc (canonAddr a) = some d) (hon : s.regOn a = true) (hsqc : isSqc (canonAddr a) = false) :
    let t := s.setArmed m false
    s.regWord m a v = State.after
      ((if !s.armed m && keyDiffers d v (t.view (canonAddr a)) then t.keyRefused m a else t).setRegBits (canonAddr a)
        (BitVec.ofNat 32 (writeMask d (s.armed m) v) &&& t.allow m (canonAddr a) v) v) m (canonAddr a) (s.armed m) v t := by
  intro t
  rw [regWord_permitted v ht h]
  unfold State.writeFields
  dsimp only
  rw [hd]
  dsimp only
  rw [regOn_setArmed, hon, if_neg (by decide), hsqc, if_neg (by decide)]
  rfl

/-- PLB.STATUS has no KEY field. -/
theorem canon_ne_plb_of_keyDiffers {a : Nat} {d : RegDesc} {v w : Word} (hd : regDesc (canonAddr a) = some d)
    (hkey : keyDiffers d v w = true) : canonAddr a ≠ Addr.PLB_STATUS := by
  intro h
  have hnone : ∀ v w, (regDesc Addr.PLB_STATUS).map (fun d => keyDiffers d v w) = some false := fun _ _ => rfl
  have hfalse := hnone v w
  rw [← h, hd, Option.map_some, hkey] at hfalse
  simp at hfalse

/-- Settles O23: the checks in the order of R372. -/
theorem registerWriteRefused : Obligations.RegisterWriteRefused := by
  refine ⟨fun s m a n v hcalm hn => ?_, fun s m a t v hcalm hstores ht hdenied => ?_, fun s m a v hcalm hstores ht hperm hd hoff => ?_, ?_⟩
  · exact takes_of_agenda (f := fun s => s.regWrite m a n v) rfl hcalm (if_pos hn) (agenda_raise _ (by decide))
  · refine takes_of_agenda (f := fun s => s.regWrite m a 4 v) rfl hcalm ?_ (agenda_violation ..)
    rw [regWrite_word (storesOnly_not_bell hstores), regWord_denied ht hdenied]
  · refine takes_of_agenda (f := fun s => s.regWrite m a 4 v) rfl hcalm ?_ ((agenda_offAccess ..).trans (agenda_setArmed ..))
    rw [regWrite_word (storesOnly_not_bell hstores), regWord_off _ ht hperm hd hoff]
  · intro s m a v d hcalm hstores ht hperm hd hon hsqc hunarmed hkey t w
    refine takes_of_agenda (f := fun s => s.regWrite m a 4 v) rfl hcalm ?_ ?_
    · rw [regWrite_word (storesOnly_canon_not_bell hstores), regWord_fields ht hperm hd hon hsqc, after_of_storesOnly hstores, hunarmed,
        hkey]
      rfl
    · rw [agenda_setRegBits _ _ _ (canon_ne_plb_of_keyDiffers hd hkey), agenda_keyRefused, agenda_setArmed]

/-! Reads (R362, R366, R392) -/

/-- A read of a register that events do not sequence, of which no copy is disturbed. -/
theorem readWord_plain {s : State} {m a : Nat} (hperm : s.permitted m a 1 = true) (hd : (regDesc (canonAddr a)).isSome = true)
    (hon : s.regOn a = true) (hrandom : canonAddr a ≠ Addr.SEC_RANDOM) (hcopies : ∀ e ∈ s.tmrB ++ s.tmrC, e.1 ≠ canonAddr a) :
    s.readWord m a = (s.view a, if isSqc (canonAddr a) then s.latchSqc (canonAddr a) else s) := by
  have hB : s.tmrB.any (fun e => e.1 = canonAddr a) = false := by
    simp only [List.any_eq_false, decide_eq_true_eq]
    exact fun e he => hcopies e (List.mem_append_left _ he)
  have hC : s.tmrC.any (fun e => e.1 = canonAddr a) = false := by
    simp only [List.any_eq_false, decide_eq_true_eq]
    exact fun e he => hcopies e (List.mem_append_right _ he)
  unfold State.readWord
  dsimp only
  rw [if_neg (by rw [hperm]; decide), if_neg (by simpa using Option.isSome_iff_ne_none.mp hd), if_neg (by rw [hon]; decide),
    if_neg hrandom, hB, hC]
  rfl

theorem readWord_off {s : State} {m a : Nat} (hperm : s.permitted m a 1 = true) (hd : (regDesc (canonAddr a)).isSome = true)
    (hoff : s.regOn a = false) : s.readWord m a = (0, s.offAccess m a) := by
  unfold State.readWord
  dsimp only
  rw [if_neg (by rw [hperm]; decide), if_neg (by simpa using Option.isSome_iff_ne_none.mp hd), if_pos (by rw [hoff]; rfl)]

theorem readWords_cons {s s1 s2 : State} {m x n : Nat} {r : List Nat} {w : Word} (hx : s.readWord m x = (w, s1))
    (hr : s1.readWords m r = (n, s2)) : s.readWords m (x :: r) = (w.toNat + n * 2 ^ 32, s2) := by
  rw [State.readWords, hx]
  dsimp only
  rw [hr]

theorem readWords_single {s s1 : State} {m x : Nat} {w : Word} (hx : s.readWord m x = (w, s1)) : s.readWords m [x] = (w.toNat, s1) := by
  rw [readWords_cons hx (State.readWords.eq_1 s1 m), Nat.zero_mul, Nat.add_zero]

theorem readWords_plain {s : State} {m : Nat} : ∀ {l : List Nat}, (∀ x ∈ l, s.readWord m x = (s.view x, s)) →
    s.readWords m l = (l.foldr (fun x k => (s.view x).toNat + k * 2 ^ 32) 0, s) := by
  intro l
  induction l with
  | nil => intro _; rfl
  | cons x r ih =>
    intro h
    rw [readWords_cons (h x (List.mem_cons_self ..)) (ih fun y hy => h y (List.mem_cons_of_mem _ hy)), List.foldr_cons]

/-- A read in which the master may read every register. -/
theorem readBytes_permitted {s : State} {m a n : Nat} (h : ∀ x ∈ wordsOf a n, s.permitted m x 1 = true) :
    s.readBytes m a n = { (s.readWords m (wordsOf a n)).2 with
      rd := BitVec.ofNat 64 (bitsOf (s.readWords m (wordsOf a n)).1 (8 * (a % 4)) (8 * n)) } := by
  have hfind : ((wordsOf a n).find? fun x => !s.permitted m x 1) = none := by
    rw [List.find?_eq_none]
    intro x hx
    rw [h x hx]
    decide
  unfold State.readBytes
  rw [hfind]

theorem readBytes_denied {s : State} {m a n x : Nat} (h : ((wordsOf a n).find? fun y => !s.permitted m y 1) = some x) :
    s.readBytes m a n = { s.violation m 0 ((targetOf x).getD 0) x 0 with rd := BitVec.ofNat 64 (2 ^ (8 * n) - 1) } := by
  unfold State.readBytes
  rw [h]

@[simp] theorem agenda_rd (s : State) (r : BitVec 64) : ({ s with rd := r } : State).agenda = s.agenda := (rfl)

/-- Settles O24: a read is the reads of its words. -/
theorem registerReads : Obligations.RegisterReads := by
  intro s m a n hcalm hn l
  refine ⟨?_, fun x hx => ?_, fun x hx hperm hd hoff => ?_⟩
  · intro h w
    have hwords : s.readWords m l = (w, s) := readWords_plain fun x hx => by
      obtain ⟨hperm, hd, hon, hrandom, hsqc, hcopies⟩ := h x hx
      rw [readWord_plain hperm hd hon hrandom hcopies, hsqc]
      rfl
    clear_value w
    refine takes_of_agenda (f := fun s => s.readBytes m a n) rfl hcalm ?_ rfl
    rw [readBytes_permitted fun x hx => (h x hx).1, hwords]
  · refine takes_of_agenda (f := fun s => s.readBytes m a n) rfl hcalm (readBytes_denied hx) ?_
    exact (agenda_rd ..).trans (agenda_violation ..)
  · have hl : wordsOf a n = [x] := hx
    have hwords : s.readWords m (wordsOf a n) = (0, s.offAccess m x) := by
      rw [hl, readWords_single (readWord_off hperm hd hoff)]
      rfl
    refine takes_of_agenda (f := fun s => s.readBytes m a n) rfl hcalm ?_ ((agenda_rd ..).trans (agenda_offAccess ..))
    rw [readBytes_permitted (by rw [hl]; simpa using hperm), hwords]
    simp [bitsOf]

/-! Sequence-cleared registers (R368) -/

/-- A word of four bytes at its address is one register. -/
theorem wordsOf_aligned {a : Nat} (h : a % 4 = 0) : wordsOf a 4 = [a] := by
  unfold wordsOf
  rw [h]
  simp only [Nat.reduceAdd, Nat.reduceDiv, List.range_one, List.map_cons, List.map_nil, Nat.mul_zero, Nat.add_zero, List.cons.injEq, and_true]
  omega

theorem regDesc_of_isSqc {a : Nat} (h : isSqc a = true) : (regDesc a).isSome = true := by
  unfold isSqc at h
  cases hd : regDesc a with
  | none => rw [hd] at h; simp at h
  | some d => rfl

theorem bitsOf_word (w : Word) : bitsOf w.toNat (8 * 0) (8 * 4) = w.toNat := by
  unfold bitsOf
  simp [Nat.mod_eq_of_lt w.isLt]

theorem isSqc_ne {a b : Nat} (h : isSqc a = true) (hb : isSqc b = false) : a ≠ b := by
  rintro rfl
  rw [h] at hb
  simp at hb

theorem regWord_sqc {s : State} {m a : Nat} (v : Word) (ht : (targetOf a).isSome = true) (h : s.permitted m a 2 = true)
    (hon : s.regOn a = true) (hsqc : isSqc (canonAddr a) = true) : s.regWord m a v = (s.setArmed m false).clearSqc (canonAddr a) v := by
  obtain ⟨d, hd⟩ := Option.isSome_iff_exists.mp (regDesc_of_isSqc hsqc)
  rw [regWord_permitted v ht h]
  unfold State.writeFields
  dsimp only
  rw [hd]
  dsimp only
  rw [regOn_setArmed, hon, if_neg (by decide), hsqc, if_pos rfl]

/-- Settles O25: the read of one register, and the clearing write. -/
theorem sequenceClearedRegisters : Obligations.SequenceClearedRegisters := by
  refine ⟨fun s m a hcalm ha hperm hon hsqc hrandom hcopies => ?_, ?_⟩
  · refine takes_of_agenda (f := fun s => s.readBytes m a 4) rfl hcalm ?_ ((agenda_rd ..).trans (agenda_setSqc _ _ _))
    have hwords : s.readWords m (wordsOf a 4) = ((s.view a).toNat, s.latchSqc (canonAddr a)) := by
      rw [wordsOf_aligned ha, readWords_single (readWord_plain hperm (regDesc_of_isSqc hsqc) hon hrandom hcopies), hsqc]
      rfl
    rw [readBytes_permitted (by rw [wordsOf_aligned ha]; simpa using hperm), hwords, ha, bitsOf_word]
    rfl
  · intro s m a v d hcalm ht hperm hon hd hsqc t ev
    have hreg : t.reg (canonAddr a) = s.reg (canonAddr a) := reg_setReg_other s (isSqc_ne hsqc (by decide)) _
    refine takes_of_agenda (f := fun s => s.regWord m a v) rfl hcalm ?_ ?_
    · rw [regWord_sqc v ht hperm hon hsqc]
      unfold State.clearSqc
      dsimp only
      rw [hd, show (s.setArmed m false).reg (canonAddr a) = s.reg (canonAddr a) from hreg]
      rfl
    · dsimp only
      split
      · exact (agenda_setSqc _ _ _).trans ((agenda_setReg _ _ (isSqc_ne hsqc (by decide))).trans (agenda_setArmed ..))
      · exact agenda_setArmed ..

/-! The access tables -/

/-- A command has one outcome: two effects agree in a quiet register in which neither raises an event. -/
theorem takes_reg_unique {c : Instr} {s u w : State} (hu : Takes c s u) (hw : Takes c s w) {a : Nat} (hquiet : quietReg a = true)
    (hau : a ∉ u.devUpdate.raised.map Prod.fst) (haw : a ∉ w.devUpdate.raised.map Prod.fst) : u.reg a = w.reg a := by
  obtain ⟨t, ht, -, hregs, -⟩ := hu
  obtain ⟨t', ht', -, hregs', -⟩ := hw
  obtain rfl := Host.Outcome.next.inj (ht.symm.trans ht')
  exact (hregs a hquiet hau).symm.trans (hregs' a hquiet haw)

/-- The state after reset but with master 31 armed and the domain of the access tables, D0, off: nothing in the statement asks for it
to be on. -/
def tablesOff : State := (State.reset.setReg Addr.SYS_ARMED 0x80000000).setReg Addr.PWR_DOMAIN_ON_LO 0

/-- Refutes O26: the statement does not ask that D0 be on, and in a state with D0 off the write of an armed master is an access to a
domain that is off (R392), which leaves the entry as it is. -/
theorem not_armingAndAccessTables : ¬ Obligations.ArmingAndAccessTables := by
  rintro ⟨-, htables⟩
  have hcalm : tablesOff.calm = true := by decide
  have hclaimed := (htables tablesOff 31 0 1 2 hcalm (by decide) (by decide) (by decide) (by decide)).1 (by decide) (by decide) (by decide)
  have hdone : Takes (.accTableWrite 31 0 1 2) tablesOff ((tablesOff.setArmed 31 false).offAccess 31 (Addr.ACC_TABLE 0 1)) :=
    takes_of_agenda (f := fun s => s.regWord 31 (Addr.ACC_TABLE 0 1) 2) rfl hcalm
      (regWord_off 2 (by decide) (by decide) (by decide) (by decide)) ((agenda_offAccess ..).trans (agenda_setArmed ..))
  have hsame := takes_reg_unique hclaimed hdone (a := Addr.ACC_TABLE 0 1) (by decide) (by decide) (by decide)
  exact absurd hsame (by decide)

end Sys2Proof.Machine
end

/-! ### The settling of events (R339, R368, R379) -/

section
namespace Sys2Proof.Machine

/-! Event counts -/

theorem pcIncr_sqc (n : Nat) : ∀ (s : State) (k : Nat), (s.pcIncr k n).sqc = s.sqc := by
  induction n with
  | zero => intro s k; rfl
  | succ n ih =>
    intro s k
    simp only [State.pcIncr]
    split
    · rfl
    · split
      · rfl
      · split
        · exact ih _ _
        · rfl

theorem pcCount_sqc (s : State) (l : List Nat) : (s.pcCount l).sqc = s.sqc :=
  each_keeps (fun t => t.sqc = s.sqc) _ l (fun t k _ h => (pcIncr_sqc 2 t k).trans h) s rfl

theorem hostWrite_sqc (l : List Byte) : ∀ (s : State) (a : Nat), (s.hostWrite a l).sqc = s.sqc := by
  induction l with
  | nil => intro s a; rfl
  | cons b r ih => intro s a; exact ih (s.hostPut a b) (a + 1)

theorem ringPass_sqc (n : Nat) : ∀ (s : State) (r : Nat), (s.ringPass r n).sqc = s.sqc := by
  induction n with
  | zero => intro s r; rfl
  | succ n ih =>
    intro s r
    refine (ih (s.entryPass r) r).trans ?_
    unfold State.entryPass
    dsimp only
    split <;> rfl

theorem setF_sqc (s : State) (f : Fld) (v : Nat) : (s.setF f v).sqc = s.sqc := (rfl)

theorem count_sqc (s : State) (g i j : Nat) : (s.count g i j).sqc = s.sqc := (rfl)

theorem raise_sqc (s : State) (f : Fld) : (s.raise f).sqc = s.sqc := (rfl)

theorem ringAdvance_sqc (s : State) (r n : Nat) : (s.ringAdvance r n).sqc = s.sqc := setF_sqc s _ _

theorem postEvent_sqc (s : State) (a : Nat) : (s.postEvent a).sqc = s.sqc := by
  unfold State.postEvent
  split
  · split
    · rw [raise_sqc, setF_sqc, count_sqc]
    · dsimp only
      rw [ringPass_sqc, setF_sqc, ringAdvance_sqc, hostWrite_sqc]
  · rfl

theorem sqcOf_of_sqc {s t : State} (h : t.sqc = s.sqc) (a : Nat) : t.sqcOf a = s.sqcOf a := by
  unfold State.sqcOf
  rw [h]

theorem commitReg_sqcOf_other (s : State) (r : Nat × Nat) {a : Nat} (h : a ≠ r.1) : (s.commitReg r).sqcOf a = s.sqcOf a := by
  unfold State.commitReg
  split
  · exact sqcOf_setSqc_other _ h _
  · rfl

/-- A round leaves the event count of a register without events raised. -/
theorem settleRound_sqcOf (s : State) (l : List Nat) {a : Nat} (h : a ∉ s.raised.map Prod.fst) : (s.settleRound l).sqcOf a = s.sqcOf a := by
  unfold State.settleRound
  refine each_keeps (fun t => t.sqcOf a = s.sqcOf a) _ _ (fun t e _ ht => (sqcOf_of_sqc (postEvent_sqc t e.1) a).trans ht) _ ?_
  refine each_keeps (fun t => t.sqcOf a = s.sqcOf a) _ _ (fun t e he ht => (commitReg_sqcOf_other t e ?_).trans ht) _ ?_
  · rintro rfl
    exact h (List.mem_map_of_mem he)
  · exact (sqcOf_of_sqc (pcCount_sqc _ l) a).trans rfl

/-- So does settling, of a quiet register. -/
theorem settleN_sqcOf (n : Nat) : ∀ (old s : State) (a : Nat), quietReg a → a ∉ s.raised.map Prod.fst →
    (State.settleN n old s).sqcOf a = s.sqcOf a := by
  induction n with
  | zero => intro _ _ _ _ _; rfl
  | succ n ih =>
    intro old s a hquiet h
    simp only [State.settleN]
    split
    · rfl
    · rw [ih _ _ a hquiet ?_, settleRound_sqcOf s _ h]
      intro hmem
      obtain ⟨e, he, rfl⟩ := List.mem_map.mp hmem
      simp [settleRound_raised s _ (fun k hk => pcHits_lt hk) e he] at hquiet

/-! One register whose events are raised -/

/-- The bits that a write of this core cycle has cleared and that stand again (R368 step 4). -/
def Sqc.back (q : Sqc) (now : Nat) : Word :=
  match q.cleared with
  | some (t, w) => if t = now then w else 0
  | none => 0

/-- The event count once events `ev` have been raised in the core cycle `now`. -/
def Sqc.raised (q : Sqc) (now : Nat) (ev : Word) : Sqc :=
  if q.advanced = some now then { q with events := q.events ||| ev, cleared := none }
  else { q with count := q.count + 1, advanced := some now, events := ev, cleared := none }

theorem commitReg_on {s : State} {a b : Nat} (h : (s.domainOn (domainOf a) || sharedPipe a) = true) :
    s.commitReg (a, b) = (s.setReg a (s.reg a ||| BitVec.ofNat 32 b ||| (s.sqcOf a).back s.now)).setSqc a
      ((s.sqcOf a).raised s.now (BitVec.ofNat 32 b)) := if_pos h

theorem commitReg_reg_on {s : State} {a b : Nat} (h : (s.domainOn (domainOf a) || sharedPipe a) = true) :
    (s.commitReg (a, b)).reg a = s.reg a ||| BitVec.ofNat 32 b ||| (s.sqcOf a).back s.now := by
  rw [commitReg_on h, setSqc_reg, reg_setReg]

theorem commitReg_sqcOf_on {s : State} {a b : Nat} (h : (s.domainOn (domainOf a) || sharedPipe a) = true) :
    (s.commitReg (a, b)).sqcOf a = (s.sqcOf a).raised s.now (BitVec.ofNat 32 b) := by
  rw [commitReg_on h, sqcOf_setSqc]

/-- After settling, a quiet register whose events alone were raised has them set, and its count has advanced. -/
theorem settle_single {s : State} (old : State) {a b : Nat} (hraised : s.raised = [(a, b)]) (hquiet : quietReg a = true)
    (hon : (s.domainOn (domainOf a) || sharedPipe a) = true) :
    (State.settle old s).reg a = s.reg a ||| BitVec.ofNat 32 b ||| (s.sqcOf a).back s.now
      ∧ (State.settle old s).sqcOf a = (s.sqcOf a).raised s.now (BitVec.ofNat 32 b) := by
  have hlt : ∀ k ∈ s.pcHits old, k < 0x800 := fun k hk => pcHits_lt hk
  have hrest : a ∉ (s.settleRound (s.pcHits old)).raised.map Prod.fst := fun hmem => by
    obtain ⟨e, he, rfl⟩ := List.mem_map.mp hmem
    simp [settleRound_raised s _ hlt e he] at hquiet
  have hround : State.settle old s = State.settleN 5 s (s.settleRound (s.pcHits old)) := by
    unfold State.settle
    rw [State.settleN, if_neg (by rw [hraised]; simp)]
  obtain ⟨hcounted, hposted⟩ := round_parts s (s.pcHits old) hlt
  obtain ⟨v, hv⟩ : ∃ v, v = ({ s with raised := [] } : State).pcCount (s.pcHits old) := ⟨_, rfl⟩
  rw [← hv, hraised] at hposted
  rw [← hv] at hcounted
  have hdomain : (v.domainOn (domainOf a) || sharedPipe a) = true := by
    rw [domainOn_reg hcounted.reg]
    exact hon
  have hsqc : v.sqcOf a = s.sqcOf a := by
    rw [hv]
    exact sqcOf_of_sqc (pcCount_sqc _ _) a
  have hnow : v.now = s.now := by
    rw [hv]
    exact (congrArg State.now (pcCount_core ({ s with raised := [] } : State) (s.pcHits old)) :)
  have hreg : v.reg a = s.reg a := hcounted.reg a (plain_of_quiet hquiet)
  rw [hround]
  constructor
  · rw [settleN_plain 5 _ _ a hquiet hrest, hposted.reg a (plain_of_quiet hquiet)]
    exact (commitReg_reg_on hdomain).trans (by rw [hreg, hsqc, hnow])
  · rw [settleN_sqcOf 5 _ _ a hquiet hrest]
    unfold State.settleRound
    rw [← hv, hraised]
    refine (each_keeps (fun t => t.sqcOf a = (v.commitReg (a, b)).sqcOf a) _ _
      (fun t e _ ht => (sqcOf_of_sqc (postEvent_sqc t e.1) a).trans ht) _ rfl).trans ?_
    rw [commitReg_sqcOf_on hdomain, hsqc, hnow]

/-! The event ring (R339) -/

theorem pcOn_setReg_outside (s : State) {a : Nat} (w : Word) (h : a < 0x94000 ∨ 0x98000 ≤ a) : (s.setReg a w).pcOn = s.pcOn := by
  refine pcOn_parts ?_ rfl rfl fun k hk => reg_setReg_other s (by unfold Addr.CNT_PC_CFG; omega) w
  unfold State.pcHeld State.setReg
  dsimp only
  rw [filter_set]
  intro x
  simp only [Bool.and_eq_false_iff, decide_eq_false_iff_not]
  omega

theorem pcOn_commitReg (s : State) {r : Nat × Nat} (h : r.1 < 0x94000 ∨ 0x98000 ≤ r.1) : (s.commitReg r).pcOn = s.pcOn := by
  unfold State.commitReg
  split
  · exact (pcOn_parts rfl rfl rfl fun _ _ => rfl).trans (pcOn_setReg_outside s _ h)
  · rfl

/-- With no counter configured and no event raised, there is nothing to settle. -/
theorem settleN_of_settled (n : Nat) {s : State} (old : State) (hraised : s.raised = []) (hon : s.pcOn = []) :
    State.settleN n old s = s := by
  cases n with
  | zero =>
    unfold State.settleN
    rw [← hraised]
  | succ n =>
    rw [State.settleN, if_pos]
    rw [hraised, pcHits_off s old hon]
    rfl

/-- A round in which one register has events and no counter is configured. -/
theorem settleN_of_single (n : Nat) {s : State} (old : State) {a b : Nat} (hraised : s.raised = [(a, b)]) (hon : s.pcOn = []) :
    State.settleN (n + 1) old s = State.settleN n s
      (let t := ({ s with raised := [] } : State).commitReg (a, b)
       if s.advances (a, b) then t.postEvent a else t) := by
  rw [State.settleN, if_neg (by rw [hraised]; simp), pcHits_off s old hon]
  congr 1
  unfold State.settleRound
  rw [hraised]
  cases hadv : s.advances (a, b)
  · rw [List.filter_cons_of_neg (by rw [hadv]; decide)]
    rfl
  · rw [List.filter_cons_of_pos hadv]
    rfl

theorem hostWrite_raised (l : List Byte) (s : State) (a : Nat) : (s.hostWrite a l).raised = s.raised := (hostWrite_regs l s a).2.1

theorem ringPass_raised (n : Nat) : ∀ (s : State) (r : Nat), (s.ringPass r n).raised = s.raised := by
  induction n with
  | zero => intro s r; rfl
  | succ n ih =>
    intro s r
    refine (ih (s.entryPass r) r).trans ?_
    unfold State.entryPass
    dsimp only
    split <;> rfl

/-- The event descriptor of a register. -/
def State.eventDesc (s : State) (a : Nat) : List Byte :=
  leBytes 4 (a % 2 ^ 24) ++ leBytes 4 (s.view a).toNat ++ s.tsNow ++ [0, 0, 0, 0, 0, 0, 0, 0]

/-- The state once a descriptor has been posted. -/
def State.eventPosted (s : State) (d : List Byte) : State :=
  (((s.hostWrite (s.ringAddr 0x100 0) d).ringAdvance 0x100 1).setF F.HIF_STATUS_event_overflow 0).ringPass 0x100 1

/-- The state once a descriptor has been lost. -/
def State.eventLost (s : State) : State := (s.count 21 0 0).setF F.HIF_STATUS_event_overflow 1

theorem postEvent_posted {s : State} {a : Nat} (hruns : s.ringRuns 0x100 = true)
    (hmask : s.getFBit F.HIF_EVENT_MASK_block_mask (blockBit a) = true) (hfree : s.ringAvail 0x100 1 ≠ 0) :
    s.postEvent a = s.eventPosted (s.eventDesc a) := by
  unfold State.postEvent
  rw [hruns, hmask, if_pos (by decide), if_neg hfree]
  rfl

theorem postEvent_lost {s : State} {a : Nat} (hruns : s.ringRuns 0x100 = true)
    (hmask : s.getFBit F.HIF_EVENT_MASK_block_mask (blockBit a) = true) (hfull : s.ringAvail 0x100 1 = 0) :
    s.postEvent a = s.eventLost.raise F.HIF_EVENT_event_lost := by
  unfold State.postEvent
  rw [hruns, hmask, if_pos (by decide), if_pos hfull]
  rfl

theorem eventPosted_raised (s : State) (d : List Byte) : (s.eventPosted d).raised = s.raised :=
  (ringPass_raised 1 _ _).trans (hostWrite_raised d s _)

theorem eventPosted_pcOn {s : State} (d : List Byte) (h : s.pcOn = []) : (s.eventPosted d).pcOn = [] := by
  have hhost : (s.hostWrite (s.ringAddr 0x100 0) d).pcOn = [] := by
    rw [← h]
    generalize s.ringAddr 0x100 0 = a
    induction d generalizing s a with
    | nil => rfl
    | cons b r ih => exact (ih (s := s.hostPut a b) h _).trans (pcOn_parts rfl rfl rfl fun _ _ => rfl)
  unfold State.eventPosted
  generalize s.hostWrite (s.ringAddr 0x100 0) d = t at hhost
  have hstatus : ((t.ringAdvance 0x100 1).setF F.HIF_STATUS_event_overflow 0).pcOn = [] :=
    (pcOn_setReg_outside _ _ (by decide)).trans ((pcOn_setReg_outside t _ (by decide)).trans hhost)
  generalize (t.ringAdvance 0x100 1).setF F.HIF_STATUS_event_overflow 0 = u at hstatus
  rw [← hstatus]
  change (u.entryPass 0x100).pcOn = u.pcOn
  unfold State.entryPass
  dsimp only
  split <;> exact pcOn_parts rfl rfl rfl fun _ _ => rfl

theorem settle_posted {s : State} (old : State) {a b : Nat} (hraised : s.raised = [(a, b)]) (hoff : a < 0x94000 ∨ 0x98000 ≤ a)
    (hadv : s.advances (a, b) = true) (hon : s.pcOn = [])
    (hruns : (({ s with raised := [] } : State).commitReg (a, b)).ringRuns 0x100 = true)
    (hmask : (({ s with raised := [] } : State).commitReg (a, b)).getFBit F.HIF_EVENT_MASK_block_mask (blockBit a) = true)
    (hfree : (({ s with raised := [] } : State).commitReg (a, b)).ringAvail 0x100 1 ≠ 0) :
    State.settle old s = (({ s with raised := [] } : State).commitReg (a, b)).eventPosted
      ((({ s with raised := [] } : State).commitReg (a, b)).eventDesc a) := by
  obtain ⟨t, ht⟩ : ∃ t, t = ({ s with raised := [] } : State).commitReg (a, b) := ⟨_, rfl⟩
  rw [← ht] at hruns hmask hfree ⊢
  have htOn : t.pcOn = [] := by rw [ht]; exact (pcOn_commitReg _ hoff).trans ((pcOn_parts rfl rfl rfl fun _ _ => rfl).trans hon)
  have htRaised : t.raised = [] := by rw [ht]; exact commitReg_raised _ _
  unfold State.settle
  rw [settleN_of_single 5 old hraised hon]
  dsimp only
  rw [if_pos hadv, ← ht, postEvent_posted hruns hmask hfree]
  exact settleN_of_settled 5 s ((eventPosted_raised t _).trans htRaised) (eventPosted_pcOn _ htOn)

theorem count_raised (s : State) (g i j : Nat) : (s.count g i j).raised = s.raised := (rfl)

theorem setF_raised (s : State) (f : Fld) (v : Nat) : (s.setF f v).raised = s.raised := (rfl)

theorem eventLost_raised (s : State) : s.eventLost.raised = s.raised := (setF_raised _ _ _).trans (count_raised s _ _ _)

theorem eventLost_getF (s : State) : s.eventLost.reg F.HIF_EVENT_MASK_block_mask.addr = s.reg F.HIF_EVENT_MASK_block_mask.addr :=
  reg_setReg_other _ (by decide) _

theorem eventLost_pcOn (s : State) : s.eventLost.pcOn = s.pcOn :=
  (pcOn_setReg_outside _ _ (by decide)).trans (pcOn_parts rfl rfl rfl fun _ _ => rfl)

theorem raise_once {s : State} {f : Fld} (h : s.raised = []) : (s.raise f).raised = [(f.addr, 2 ^ f.lo)] := by
  unfold State.raise State.raiseBit
  dsimp only
  rw [h]
  simp [SMap.get, SMap.set, SMap.put]

/-- With no descriptor entry free, and event_lost not posted itself. -/
theorem settle_lost {s : State} (old : State) {a b : Nat} (hraised : s.raised = [(a, b)]) (hoff : a < 0x94000 ∨ 0x98000 ≤ a)
    (hadv : s.advances (a, b) = true) (hon : s.pcOn = [])
    (hruns : (({ s with raised := [] } : State).commitReg (a, b)).ringRuns 0x100 = true)
    (hmask : (({ s with raised := [] } : State).commitReg (a, b)).getFBit F.HIF_EVENT_MASK_block_mask (blockBit a) = true)
    (hfull : (({ s with raised := [] } : State).commitReg (a, b)).ringAvail 0x100 1 = 0)
    (hown : (({ s with raised := [] } : State).commitReg (a, b)).getFBit F.HIF_EVENT_MASK_block_mask 1 = false) :
    State.settle old s = (({ s with raised := [] } : State).commitReg (a, b)).eventLost.commitReg
      (F.HIF_EVENT_event_lost.addr, 2 ^ F.HIF_EVENT_event_lost.lo) := by
  obtain ⟨t, ht⟩ : ∃ t, t = ({ s with raised := [] } : State).commitReg (a, b) := ⟨_, rfl⟩
  rw [← ht] at hruns hmask hfull hown ⊢
  have htOn : t.pcOn = [] := by rw [ht]; exact (pcOn_commitReg _ hoff).trans ((pcOn_parts rfl rfl rfl fun _ _ => rfl).trans hon)
  have htRaised : t.raised = [] := by rw [ht]; exact commitReg_raised _ _
  obtain ⟨v, hv⟩ : ∃ v, v = t.eventLost := ⟨_, rfl⟩
  have hvRaised : v.raised = [] := by rw [hv, eventLost_raised, htRaised]
  have hvOn : v.pcOn = [] := by rw [hv, eventLost_pcOn, htOn]
  have hvMask : v.getFBit F.HIF_EVENT_MASK_block_mask 1 = false := by
    rw [← hown, hv]
    unfold State.getFBit State.getF
    rw [eventLost_getF]
  have hsame : ({ v.raise F.HIF_EVENT_event_lost with raised := [] } : State) = v := by
    obtain ⟨⟩ := v
    cases hvRaised
    rfl
  unfold State.settle
  rw [settleN_of_single 5 old hraised hon]
  dsimp only
  rw [if_pos hadv, ← ht, postEvent_lost hruns hmask hfull, ← hv,
    settleN_of_single 4 s (raise_once hvRaised) ((pcOn_parts rfl rfl rfl fun _ _ => rfl).trans hvOn), hsame]
  dsimp only
  have hquiet : (v.commitReg (F.HIF_EVENT_event_lost.addr, 2 ^ F.HIF_EVENT_event_lost.lo)).postEvent F.HIF_EVENT_event_lost.addr
      = v.commitReg (F.HIF_EVENT_event_lost.addr, 2 ^ F.HIF_EVENT_event_lost.lo) := by
    unfold State.postEvent
    refine if_neg ?_
    have hsilent : (v.commitReg (F.HIF_EVENT_event_lost.addr, 2 ^ F.HIF_EVENT_event_lost.lo)).getFBit F.HIF_EVENT_MASK_block_mask
        (blockBit F.HIF_EVENT_event_lost.addr) = false := by
      rw [← hvMask]
      unfold State.getFBit State.getF
      rw [commitReg_reg _ _ _ (by decide)]
      rfl
    rw [hsilent, Bool.and_false]
    exact Bool.false_ne_true
  rw [hquiet, ite_self]
  exact settleN_of_settled 4 _ ((commitReg_raised v _).trans hvRaised) ((pcOn_commitReg v (by decide)).trans hvOn)

/-! Programmable counters (R379, R381) -/

/-- Of programmable counter `k` the value and what it counts by are those of `s`. -/
structure CountsBeside (s : State) (k : Nat) (t : State) : Prop where
  ctr : t.ctr (ctrKey 26 k 0) = s.ctr (ctrKey 26 k 0)
  snap : t.snap = s.snap
  now : t.now = s.now
  cfg : ∀ j, t.reg (Addr.CNT_PC_CFG j) = s.reg (Addr.CNT_PC_CFG j)

theorem CountsBeside.pcWritten {s t : State} {k : Nat} (h : CountsBeside s k t) (j : Nat) : t.pcWritten j = s.pcWritten j := by
  unfold State.pcWritten
  rw [h.snap, h.now]

theorem CountsBeside.pcChain {s t : State} {k : Nat} (h : CountsBeside s k t) (j : Nat) : t.pcChain j = s.pcChain j := by
  unfold State.pcChain State.pcField State.pcCfg State.pcLate
  rw [h.snap, h.now, h.cfg]

theorem CountsBeside.setCtr {s t : State} {k j : Nat} (h : CountsBeside s k t) (hjk : j ≠ k) (v : Nat) :
    CountsBeside s k (t.setCtr (ctrKey 26 j 0) v) :=
  ⟨(ctr_setCtr_other t (by unfold ctrKey; omega) v).trans h.ctr, h.snap, h.now, h.cfg⟩

theorem CountsBeside.overflow {s t : State} {k : Nat} (h : CountsBeside s k t) {j : Nat} (hj : j < 2048) :
    CountsBeside s k ((t.setFBit (F.CNT_PC_OVF_ovf (j / 32)) (j % 32) true).raise F.CNT_EVENT_pc_overflow) :=
  ⟨h.ctr, h.snap, h.now, fun i => (reg_setReg_other t (by
    unfold F.CNT_PC_OVF_ovf Addr.CNT_PC_OVF Addr.CNT_PC_CFG
    dsimp only
    omega) _).trans (h.cfg i)⟩

/-- An increment of another counter, which is not chained to this one, leaves this one alone. -/
theorem CountsBeside.pcIncr {s : State} {k j : Nat} (hj : j < 2048) (hjk : j ≠ k) (hchain : s.pcChain j = true → j + 1 ≠ k) {t : State}
    (h : CountsBeside s k t) : CountsBeside s k (t.pcIncr j 2) := by
  unfold State.pcIncr
  dsimp only
  split
  · exact h
  split
  · exact h.setCtr hjk _
  have hwrap := h.setCtr hjk 0
  rw [h.pcChain j]
  split
  case isFalse => exact hwrap.overflow hj
  case isTrue hch =>
    have hodd : s.pcChain (j + 1) = false := by
      unfold State.pcChain at hch ⊢
      rw [Bool.and_eq_true, decide_eq_true_eq] at hch
      rw [decide_eq_false (by omega), Bool.false_and]
    have hlt : j + 1 < 2048 := by
      unfold State.pcChain at hch
      rw [Bool.and_eq_true, decide_eq_true_eq] at hch
      omega
    unfold State.pcIncr
    dsimp only
    split
    · exact hwrap
    split
    · exact hwrap.setCtr (hchain hch) _
    have hwrap2 := hwrap.setCtr (hchain hch) 0
    rw [hwrap.pcChain, hodd, if_neg Bool.false_ne_true]
    exact hwrap2.overflow hlt

/-- Of counters that count by themselves each counts once. -/
theorem pcCount_once {s : State} {l : List Nat} {k : Nat} (hlt : ∀ j ∈ l, j < 2048) (halone : s.pcChained k = false)
    (hnodup : l.Nodup) (hmem : k ∈ l) (hwritten : s.pcWritten k = false) (hmax : s.ctr (ctrKey 26 k 0) + 1 < 2 ^ 32) :
    (s.pcCount l).ctr (ctrKey 26 k 0) = s.ctr (ctrKey 26 k 0) + 1 := by
  obtain ⟨l1, l2, rfl⟩ := List.append_of_mem hmem
  have hne1 : ∀ j ∈ l1, j ≠ k := fun j hj e => (List.nodup_append.mp hnodup).2.2 j hj k (List.mem_cons_self ..) e
  have hne2 : ∀ j ∈ l2, j ≠ k := fun j hj e =>
    (List.nodup_cons.mp (List.nodup_append.mp hnodup).2.1).1 (e ▸ hj)
  have hchain : ∀ j, s.pcChain j = true → j + 1 ≠ k := by
    rintro j hj rfl
    have hodd : (j + 1) % 2 = 1 := by
      unfold State.pcChain at hj
      rw [Bool.and_eq_true, decide_eq_true_eq] at hj
      omega
    unfold State.pcChained at halone
    rw [decide_eq_true hodd, Bool.true_and, Nat.add_sub_cancel, hj] at halone
    exact absurd halone (by decide)
  have hself : ∀ t : State, CountsBeside s k t → (t.pcIncr k 2) = t.setCtr (ctrKey 26 k 0) (s.ctr (ctrKey 26 k 0) + 1) := by
    intro t ht
    unfold State.pcIncr
    dsimp only
    rw [ht.pcWritten, hwritten, if_neg Bool.false_ne_true, ht.ctr, if_pos hmax]
  have hbefore : CountsBeside s k (s.pcCount l1) :=
    each_keeps (CountsBeside s k) _ l1 (fun t j hj ht => ht.pcIncr (hlt j (List.mem_append_left _ hj)) (hne1 j hj) (hchain j)) s
      ⟨rfl, rfl, rfl, fun _ => rfl⟩
  have hsplit : s.pcCount (l1 ++ k :: l2) = (((s.pcCount l1).pcIncr k 2).pcCount l2) := by
    unfold State.pcCount State.each
    rw [List.foldl_append, List.foldl_cons]
  rw [hsplit, hself _ hbefore]
  obtain ⟨u, hu⟩ : ∃ u, u = (s.pcCount l1).setCtr (ctrKey 26 k 0) (s.ctr (ctrKey 26 k 0) + 1) := ⟨_, rfl⟩
  have hchain' : ∀ j, u.pcChain j = true → j + 1 ≠ k := fun j hj => hchain j (by
    rw [← hbefore.pcChain j, ← hj, hu]
    rfl)
  have hafter : CountsBeside u k (u.pcCount l2) :=
    each_keeps (CountsBeside u k) _ l2
      (fun t j hj ht => ht.pcIncr (hlt j (List.mem_append_right _ (List.mem_cons_of_mem _ hj))) (hne2 j hj) (hchain' j)) u
      ⟨rfl, rfl, rfl, fun _ => rfl⟩
  rw [← hu, hafter.ctr, hu, ctr_setCtr]

/-- With no events raised only the programmable counters are settled. -/
theorem settle_counts {s : State} (old : State) (hraised : s.raised = []) (hcounted : (s.pcCount (s.pcHits old)).raised = [])
    (hquiet : (s.pcCount (s.pcHits old)).pcHits s = []) : State.settle old s = s.pcCount (s.pcHits old) := by
  have hround : s.settleRound (s.pcHits old) = s.pcCount (s.pcHits old) := by
    have hsame : ({ s with raised := [] } : State) = s := by
      obtain ⟨⟩ := s
      cases hraised
      rfl
    unfold State.settleRound
    rw [hraised, hsame]
    rfl
  unfold State.settle
  rw [State.settleN]
  by_cases hhits : s.pcHits old = []
  · rw [if_pos (by rw [hraised, hhits]; rfl), hhits]
    rfl
  · rw [if_neg (by rw [hraised]; simpa using hhits), hround, State.settleN, if_pos (by rw [hcounted, hquiet]; rfl)]

theorem pcMode_alone {s : State} {m k : Nat} (h : k ∈ s.pcMode m) : k < 2048 ∧ s.pcChained k = false := by
  unfold State.pcMode at h
  obtain ⟨hon, hmode⟩ := List.mem_filter.mp h
  rw [Bool.and_eq_true, Bool.and_eq_true, Bool.not_eq_true'] at hmode
  exact ⟨pcOn_lt hon, hmode.1.2⟩

/-- Settles O20: settling applies an event to its own register, the posted descriptor raises nothing further, and a lost one raises
event_lost alone; of the programmable counters none that counts by itself is another's chained partner. -/
theorem eventsSetBitsAndCount : Obligations.EventsSetBitsAndCount := by
  refine ⟨?_, ?_, fun old s => settle_counts old, ?_⟩
  · intro old s a b hraised hquiet hon q
    obtain ⟨hreg, hsqc⟩ := settle_single old hraised hquiet hon
    have hcount : (q.raised s.now (BitVec.ofNat 32 b)).count = (if q.advanced = some s.now then q.count else q.count + 1)
        ∧ (q.raised s.now (BitVec.ofNat 32 b)).advanced = some s.now ∧ (q.raised s.now (BitVec.ofNat 32 b)).latch = q.latch := by
      unfold Sqc.raised
      by_cases h : q.advanced = some s.now
      · rw [if_pos h, if_pos h]
        exact ⟨rfl, h, rfl⟩
      · rw [if_neg h, if_neg h]
        exact ⟨rfl, rfl, rfl⟩
    refine ⟨fun c hc hnow => ?_, fun hnone => ?_, ?_⟩
    · rw [hreg]
      unfold Sqc.back
      rw [show (s.sqcOf a).cleared = some c from hc]
      exact congrArg _ (if_pos hnow)
    · rw [hreg]
      have hback : (s.sqcOf a).back s.now = 0 := by
        unfold Sqc.back
        split
        next t w hc => exact if_neg (hnone (t, w) hc)
        next => rfl
      rw [hback]
      exact BitVec.or_zero
    · rw [hsqc]
      exact hcount
  · intro old s a b hraised hoff hon hfresh hpc t hruns hmask
    have hadv : s.advances (a, b) = true := by
      unfold State.advances
      rw [show (s.domainOn (domainOf (a, b).1) || sharedPipe (a, b).1) = true from hon, Bool.true_and]
      exact decide_eq_true hfresh
    exact ⟨fun hfree => settle_posted old hraised hoff hadv hpc hruns hmask hfree,
      fun hfull hown => settle_lost old hraised hoff hadv hpc hruns hmask hfull hown⟩
  · intro old s l k hl hnodup hmem hwritten hmax
    have hmode : ∃ m, ∀ j ∈ l, j ∈ s.pcMode m := by
      obtain rfl | rfl := hl
      · exact ⟨0, fun j hj => (List.mem_filter.mp hj).1⟩
      · exact ⟨1, fun j hj => (List.mem_filter.mp hj).1⟩
    obtain ⟨m, hm⟩ := hmode
    exact pcCount_once (fun j hj => (pcMode_alone (hm j hj)).1) (pcMode_alone (hm k hmem)).2 hnodup hmem hwritten hmax

end Sys2Proof.Machine
end

/-! ### Shapers, pools, channels, scrubbing and FRER (R194 to R258) -/

section
namespace Sys2Proof.Machine

/-! Shapers (R257, R258) -/

/-- The write that arms no master changes no other register. -/
theorem disarmed_getF (s : State) (m : Nat) {f : Fld} (h : f.addr ≠ Addr.SYS_ARMED) : (s.setArmed m false).getF f = s.getF f := by
  unfold State.getF
  rw [show (s.setArmed m false).reg f.addr = s.reg f.addr from reg_setReg_other s h _]

theorem disarmed_getB (s : State) (m : Nat) {f : Fld} (h : f.addr ≠ Addr.SYS_ARMED) : (s.setArmed m false).getB f = s.getB f := by
  unfold State.getB
  rw [disarmed_getF s m h]

theorem bucketAfter_eq (t : Bucket) (en was : Bool) (burst : Nat) : bucketAfter t en was burst =
    if en then (if was then (if (byteUnits burst : Int) ≤ t.t then Bucket.full burst else t) else .full burst) else t := by
  cases en <;> cases was <;> rfl

theorem tmAfter_queue (s old : State) {x : Nat} (h : x < 4176) : s.tmAfter (Addr.TM_Q_CFG x) old =
    s.setQueue x { s.queue x with
      tokens := bucketAfter (old.qTokens x) (s.getB (F.TM_Q_CFG_shaper_en x)) (old.getB (F.TM_Q_CFG_shaper_en x)) (s.getF (F.TM_Q_BURST_burst x))
      stamp := s.now } := by
  unfold State.tmAfter
  rw [if_pos (by unfold Addr.TM_Q_CFG; omega), show (Addr.TM_Q_CFG x - 0x520000) / 0x10 = x by unfold Addr.TM_Q_CFG; omega]

theorem tmAfter_port (s old : State) {p : Nat} (h : p < 512) : s.tmAfter (Addr.TM_PORT_CFG p) old =
    s.setSched p { s.sched p with
      tokens := bucketAfter (old.pTokens p) (s.getB (F.TM_PORT_CFG_pshaper_en p)) (old.getB (F.TM_PORT_CFG_pshaper_en p))
        (s.getF (F.TM_PSHAPER_BURST_burst p))
      stamp := s.now } := by
  unfold State.tmAfter
  rw [if_neg (by unfold Addr.TM_PORT_CFG; omega), if_pos (by unfold Addr.TM_PORT_CFG; omega),
    show (Addr.TM_PORT_CFG p - 0x510000) / 0x20 = p by unfold Addr.TM_PORT_CFG; omega]

theorem tmAfter_cpu (s old : State) : s.tmAfter Addr.TM_CPU_CFG old =
    { s with fab := { s.fab with
        cpuTokens := bucketAfter old.cpuTokensNow (s.getB F.TM_CPU_CFG_cpu_shaper_en) (old.getB F.TM_CPU_CFG_cpu_shaper_en)
          (s.getF F.TM_CPU_BURST_burst)
        cpuStamp := s.now } } := rfl

theorem disarmed_qTokens (s : State) (m x : Nat) : (s.setArmed m false).qTokens x = s.qTokens x := by
  unfold State.qTokens
  rw [disarmed_getB s m (by unfold F.TM_Q_CFG_shaper_en Addr.TM_Q_CFG Addr.SYS_ARMED; dsimp only; omega),
    disarmed_getF s m (by unfold F.TM_Q_RATE_rate Addr.TM_Q_RATE Addr.SYS_ARMED; dsimp only; omega),
    disarmed_getF s m (by unfold F.TM_Q_BURST_burst Addr.TM_Q_BURST Addr.SYS_ARMED; dsimp only; omega)]
  rfl

theorem disarmed_pTokens (s : State) (m p : Nat) : (s.setArmed m false).pTokens p = s.pTokens p := by
  unfold State.pTokens
  rw [disarmed_getB s m (by unfold F.TM_PORT_CFG_pshaper_en Addr.TM_PORT_CFG Addr.SYS_ARMED; dsimp only; omega),
    disarmed_getF s m (by unfold F.TM_PSHAPER_RATE_rate Addr.TM_PSHAPER_RATE Addr.SYS_ARMED; dsimp only; omega),
    disarmed_getF s m (by unfold F.TM_PSHAPER_BURST_burst Addr.TM_PSHAPER_BURST Addr.SYS_ARMED; dsimp only; omega)]
  rfl

theorem disarmed_cpuTokens (s : State) (m : Nat) : (s.setArmed m false).cpuTokensNow = s.cpuTokensNow := by
  unfold State.cpuTokensNow
  rw [disarmed_getB s m (by decide), disarmed_getF s m (by decide), disarmed_getF s m (by decide)]
  rfl

/-- Settles O31: the rule of the written register sets its bucket by the enable bit before and after. -/
theorem shaperEnable : Obligations.ShaperEnable := by
  refine ⟨?_, ?_, ?_⟩
  · intro s m x v hcalm hx hadmits t burst kept
    have hrange : 0x500000 ≤ Addr.TM_Q_CFG x ∧ Addr.TM_Q_CFG x < 0x600000 := by unfold Addr.TM_Q_CFG; omega
    refine takes_write (a := Addr.TM_Q_CFG x) rfl hcalm hadmits (canonAddr_self (by omega)) (plb_high (high_add (by decide))) ?_ (agenda_setQueue ..)
    rw [after_tm hrange, tmAfter_queue _ _ hx, bucketAfter_eq, disarmed_qTokens,
      disarmed_getB s m (by unfold F.TM_Q_CFG_shaper_en Addr.TM_Q_CFG Addr.SYS_ARMED; dsimp only; omega), stored_now]
  · intro s m p v hcalm hp hadmits t burst kept
    have hrange : 0x500000 ≤ Addr.TM_PORT_CFG p ∧ Addr.TM_PORT_CFG p < 0x600000 := by unfold Addr.TM_PORT_CFG; omega
    refine takes_write (a := Addr.TM_PORT_CFG p) rfl hcalm hadmits (canonAddr_self (by omega)) (plb_high (high_add (by decide))) ?_ (agenda_setSched ..)
    rw [after_tm hrange, tmAfter_port _ _ hp, bucketAfter_eq, disarmed_pTokens,
      disarmed_getB s m (by unfold F.TM_PORT_CFG_pshaper_en Addr.TM_PORT_CFG Addr.SYS_ARMED; dsimp only; omega), stored_now]
  · intro s m v hcalm hadmits t burst kept
    refine takes_write rfl hcalm hadmits rfl (by decide) ?_ (agenda_congr rfl rfl rfl rfl rfl rfl rfl rfl rfl rfl rfl rfl rfl)
    rw [after_tm (by decide), tmAfter_cpu, bucketAfter_eq, disarmed_cpuTokens, disarmed_getB s m (by decide), stored_now]

/-! Pools (R196, R197) -/

theorem pool_setPool (s : State) (k : Nat) (p : Pool) : (s.setPool k p).pool k = p := SMap.get_set_same _ k p s.fab.pools

theorem pool_setPool_other (s : State) {j k : Nat} (h : j ≠ k) (p : Pool) : (s.setPool k p).pool j = s.pool j := by
  unfold State.pool State.setPool
  rw [SMap.get_set_other _ h]

/-- The levels of a pool are flags beside its sizes and its use. -/
theorem levels_fields (p : Pool) (t : Nat) : (p.levels t).threshold = p.threshold ∧ (p.levels t).onchip = p.onchip ∧ (p.levels t).hbm = p.hbm
    ∧ (p.levels t).headroom = p.headroom ∧ (p.levels t).used = p.used ∧ (p.levels t).usedHbm = p.usedHbm := by
  unfold Pool.levels
  dsimp only
  split <;> exact ⟨rfl, rfl, rfl, rfl, rfl, rfl⟩

/-- The pools of a list, taken one after the other, are each what its registers and its use give. -/
theorem takePools_pool : ∀ (l : List Nat) (s : State) (k : Nat), l.Nodup → (s.each l State.takePool).pool k =
    if k ∈ l then (s.wantedPool k).levels (s.pool k).total else s.pool k := by
  intro l
  induction l with
  | nil => intro s k _; rfl
  | cons j r ih =>
    intro s k hnodup
    obtain ⟨hj, hr⟩ := List.nodup_cons.mp hnodup
    rw [show s.each (j :: r) State.takePool = (s.takePool j).each r State.takePool from rfl, ih _ _ hr]
    by_cases hjk : k = j
    · subst hjk
      rw [if_neg hj, if_pos (List.mem_cons_self ..)]
      exact pool_setPool s k _
    · have hpool : (s.takePool j).pool k = s.pool k := pool_setPool_other s hjk _
      have hwanted : (s.takePool j).wantedPool k = s.wantedPool k := by
        unfold State.wantedPool
        rw [hpool]
        rfl
      rw [hpool, hwanted]
      simp only [List.mem_cons, hjk, false_or]

theorem agenda_takePool (s : State) (k : Nat) : (s.takePool k).agenda = s.agenda := agenda_setPool ..

/-- The state that a pool apply shows its outcome in. -/
def State.poolStatus (s : State) (n : Nat) : State := (s.setF F.BUF_POOL_APPLY_STATUS_pool_apply_status n).raise F.BUF_EVENT_pool_apply_done

theorem agenda_poolStatus (s : State) (n : Nat) : (s.poolStatus n).agenda = s.agenda :=
  (agenda_raise _ (by decide)).trans (agenda_setF s n (by decide))

/-- hbm_spare_en as it stands is what an accepted apply takes into force. -/
def State.spareAsked (s : State) : State := { s with fab := { s.fab with spareWanted := s.getB F.BUF_CTRL_hbm_spare_en } }

theorem agenda_spareAsked (s : State) : s.spareAsked.agenda = s.agenda := (rfl)

/-- More cells are asked for than are there. -/
def State.poolsAbove (w : State) : Prop :=
  w.onchipAvail < ((List.range 16).map fun k => w.getF (F.BUF_POOL_ONCHIP_size_onchip k)).sum
    ∨ w.hbmAvail < ((List.range 16).map fun k => w.getF (F.BUF_POOL_HBM_size_hbm k)).sum

/-- The registers of pool `k` are ones that R196 does not allow. -/
def State.poolBad (w : State) (k : Nat) : Prop :=
  w.getF (F.BUF_POOL_ONCHIP_size_onchip k) < w.getF (F.BUF_POOL_HEADROOM_headroom k)
    ∨ (w.getB (F.BUF_POOL_CFG_mode k) = false ∧ w.getF (F.BUF_POOL_HEADROOM_headroom k) ≠ 0)
    ∨ (12 ≤ k ∧ w.getF (F.BUF_POOL_HBM_size_hbm k) ≠ 0) ∨ (w.part.en = true ∧ w.getF (F.BUF_POOL_HBM_size_hbm k) ≠ 0)

theorem poolCheck_above {w : State} (h : w.poolsAbove) : w.poolCheck = 2 := by
  unfold State.poolCheck
  simp only [List.map_map]
  exact if_pos h

theorem poolFieldOk_iff (w : State) (k : Nat) : poolFieldOk w.part.en k (w.wantedPool k) = true ↔ ¬ w.poolBad k := by
  unfold poolFieldOk State.wantedPool State.poolBad
  simp only [Bool.and_eq_true, Bool.or_eq_true, decide_eq_true_eq, Bool.not_eq_true']
  cases w.part.en <;> cases w.getB (F.BUF_POOL_CFG_mode k) <;> simp only [not_or, Classical.not_and_iff_not_or_not, Nat.not_lt, Decidable.not_not] <;> grind

theorem poolCheck_bad {w : State} (h : ¬ w.poolsAbove) {k : Nat} (hk : k < 16) (hbad : w.poolBad k) : w.poolCheck = 3 := by
  unfold State.poolCheck
  simp only [List.map_map]
  refine (if_neg h).trans (if_pos ?_)
  rw [Bool.not_eq_true', List.all_eq_false]
  exact ⟨k, List.mem_range.mpr hk, fun hok => (poolFieldOk_iff w k).mp hok hbad⟩

theorem poolCheck_fits {w : State} (h : ¬ w.poolsAbove) (hok : ∀ k, k < 16 → ¬ w.poolBad k) : w.poolCheck = 1 := by
  unfold State.poolCheck
  simp only [List.map_map]
  refine (if_neg h).trans (if_neg ?_)
  rw [Bool.not_eq_true', Bool.not_eq_false, List.all_eq_true]
  exact fun k hk => (poolFieldOk_iff w k).mpr (hok k (List.mem_range.mp hk))

theorem poolApplyNow_refused {s : State} {n : Nat} (h : s.spareAsked.poolCheck = n) (hn : n ≠ 1) : s.poolApplyNow = s.poolStatus n := by
  unfold State.poolApplyNow
  dsimp only
  rw [show ({ s with fab := { s.fab with spareWanted := s.getB F.BUF_CTRL_hbm_spare_en } } : State).poolCheck = n from h, if_neg hn]
  rfl

theorem poolApplyNow_done {s : State} (h : s.spareAsked.poolCheck = 1) :
    s.poolApplyNow = ((s.spareAsked.each (List.range 16) State.takePool).dropCause Cause.ofHbm).poolStatus 1 := by
  unfold State.poolApplyNow
  dsimp only
  rw [show ({ s with fab := { s.fab with spareWanted := s.getB F.BUF_CTRL_hbm_spare_en } } : State).poolCheck = 1 from h, if_pos rfl]
  rfl

/-- Settles O28: the check's outcomes in their order, and the pools taken one after the other, each from its own registers. -/
theorem poolApply : Obligations.PoolApply := by
  intro s m v hcalm hadmits hgo t w onchip hbm headroom above bad status
  have htakes : ∀ u : State, t.poolApplyNow = u → u.agenda = t.agenda → Takes (.poolApply m v) s u := by
    intro u heffect hagenda
    refine takes_write rfl hcalm hadmits rfl (by decide) ?_ hagenda
    rw [after_buf (by decide)]
    exact (if_pos hgo).trans heffect
  refine ⟨fun habove => ?_, fun hfits hbad => ?_, fun hfits hok => ⟨?_, fun k hk => ?_⟩⟩
  · exact htakes _ (poolApplyNow_refused (poolCheck_above habove) (by decide)) (agenda_poolStatus _ _)
  · obtain ⟨k, hk, hbad⟩ := hbad
    exact htakes _ (poolApplyNow_refused (poolCheck_bad hfits hk hbad) (by decide)) (agenda_poolStatus _ _)
  · exact htakes _ (poolApplyNow_done (poolCheck_fits hfits hok)) ((agenda_poolStatus _ 1).trans ((agenda_dropCause ..).trans
      ((agenda_each _ _ _ fun t k _ => agenda_takePool t k).trans (agenda_spareAsked t))))
  · have hpool := takePools_pool (List.range 16) w k List.nodup_range
    rw [if_pos (List.mem_range.mpr hk)] at hpool
    rw [hpool]
    exact levels_fields _ _

/-! Reports whose record finds room in the conductor log (R282) -/

/-- State `s` is at rest, and `k` entries more find room in its conductor log. -/
structure State.Room (s : State) (k : Nat) : Prop where
  rests : s.Rests s.key.log.length
  room : s.key.logOn = false ∨ s.key.log.length + k < 768

theorem State.Room.of_agenda {s t : State} {k : Nat} (h : s.Room k) (ha : t.agenda = s.agenda) (hon : t.key.logOn = s.key.logOn) : t.Room k := by
  have hlog := logLength_of_agenda ha
  exact ⟨(h.rests.of_agenda ha).mono (Nat.le_of_eq hlog.symm), by rw [hon, hlog]; exact h.room⟩

theorem ksLog_of_off {s : State} (kind : LogKind) (h : s.key.logOn = false) : s.ksLog kind = s := by
  unfold State.ksLog
  rw [h]
  rfl

theorem State.Room.ksLog {s : State} {k : Nat} (h : s.Room (k + 1)) (kind : LogKind) : (s.ksLog kind).Room k := by
  by_cases hoff : s.key.logOn = false
  · rw [ksLog_of_off kind hoff]
    exact ⟨h.rests, .inl hoff⟩
  · have hlog := h.room.resolve_left hoff
    have hlen := State.Rests.ksLog_length s kind
    exact ⟨h.rests.of_keep ((Keep.refl s).ksLog kind (by omega)) Nat.le.refl, .inr (by omega)⟩

/-! What reports leave of the conductor's state -/

theorem key_endTest (s : State) : s.endTest.key = s.key := by
  unfold State.endTest
  split <;> rfl

theorem key_persist (s : State) (diag cls inst : Nat) : (s.persist diag cls inst).key = s.key := by
  unfold State.persist
  extract_lets t e l again
  split <;> rfl

theorem key_faultInfo (s : State) (diag cls inst : Nat) : (s.faultInfo diag cls inst).key = s.key := by
  unfold State.faultInfo
  dsimp only
  split <;> rfl

theorem key_addCause (s : State) (c : Cause) : (s.addCause c).key = s.key := by
  unfold State.addCause
  split <;> rfl

theorem key_count (s : State) (g i c : Nat) : (s.count g i c).key = s.key := (rfl)

theorem key_raise (s : State) (f : Fld) : (s.raise f).key = s.key := (rfl)

theorem key_faultNoted (s : State) (diag cls inst : Nat) : (s.faultNoted diag cls inst).key = s.key := by
  unfold State.faultNoted
  simp only [key_faultInfo, key_persist, key_endTest, key_raise, key_count]

theorem key_reaction_masked (s : State) (diag inst a : Nat) : (s.reaction diag 0 inst a).key = s.key := by
  rw [reaction_masked, key_raise]
  exact key_endTest s

theorem key_reaction_redundancy (s : State) (diag inst a : Nat) : (s.reaction diag 1 inst a).key = s.key := by
  have h : s.reaction diag 1 inst a = (s.faultNoted diag 1 inst).addCause (.redundancy diag inst) :=
    (if_neg (by decide)).trans ((if_neg (by decide)).trans (if_pos rfl))
  rw [h, key_addCause, key_faultNoted]

theorem State.Room.react_masked {s : State} {k : Nat} (h : s.Room (k + 1)) (diag inst a : Nat) : (s.react diag 0 inst a).Room k :=
  State.Room.ksLog (h.of_agenda (agenda_reaction_masked ..) (by rw [key_reaction_masked])) .safety

theorem State.Room.react_redundancy {s : State} {k : Nat} (h : s.Room (k + 1)) (diag inst a : Nat) : (s.react diag 1 inst a).Room k :=
  State.Room.ksLog (h.of_agenda (agenda_reaction_redundancy ..) (by rw [key_reaction_redundancy])) .safety

/-! The retirement of a channel (R217, R218) -/

theorem key_endAfterGood (s : State) (i : Nat) : (s.endAfterGood i).key = s.key := by
  unfold State.endAfterGood
  split
  · rfl
  · extract_lets good fix
    refine each_keeps (fun t => t.key = s.key) _ _ ?_ s rfl
    exact fun t e _ h => h

theorem key_spoilCells (s : State) (i : Nat) (l : List Nat) : (s.spoilCells i l).key = s.key := by
  unfold State.spoilCells
  extract_lets s1
  have h1 : s1.key = s.key := each_keeps (fun t => t.key = s.key) _ _ (fun t _ _ h => by split <;> exact h) s rfl
  split
  · exact h1
  · exact (key_endAfterGood s1 i).trans h1

/-- A state whose spare or channel is dropped differs in registers, events and the relocation alone. -/
theorem dropChannel_beside (s : State) (c : Nat) (mayMove : Bool) :
    (s.dropChannel c mayMove).agenda = s.agenda ∧ (s.dropChannel c mayMove).key = s.key := by
  have hmark : (s.setFBit F.BUF_HBM_RETIRED_retired c true).agenda = s.agenda := agenda_setFBit s c true (by decide)
  unfold State.dropChannel
  extract_lets s1 free
  rw [← hmark]
  split
  · unfold State.loseSpare
    split
    · exact ⟨(agenda_raise _ (by decide)).trans (agenda_setF _ _ (by decide)), rfl⟩
    · split
      · exact ⟨agenda_raise _ (by decide), rfl⟩
      · exact ⟨rfl, rfl⟩
  · split
    · exact ⟨agenda_setF _ _ (by decide), rfl⟩
    · exact ⟨agenda_raise _ (by decide), rfl⟩

theorem State.Room.retireChannel {s : State} {k : Nat} (h : s.Room (k + 1)) (c : Nat) : (s.retireChannel c).Room k := by
  unfold State.retireChannel
  split
  · exact ⟨h.rests, h.room.imp_right fun hlog => by omega⟩
  · obtain ⟨hagenda, hkey⟩ := dropChannel_beside s c true
    exact State.Room.react_redundancy (h.of_agenda hagenda (by rw [hkey])) 0x02 c c

theorem key_setF (s : State) (f : Fld) (v : Nat) : (s.setF f v).key = s.key := (rfl)

theorem State.Room.crcTally {s : State} (h : s.Room 1) (c : Nat) : (s.crcTally c).Room 0 := by
  unfold State.crcTally
  extract_lets l lim fab s1
  have h1 : s1.Room 1 := h.of_agenda rfl rfl
  split
  · exact h1.retireChannel c
  · exact ⟨h1.rests, h1.room.imp_right fun hlog => by omega⟩

/-- A cell's CRC failure reports at most twice: itself, and the retirement of its channel. -/
theorem State.Room.crcFail {s : State} (h : s.Room 2) (i a : Nat) : (s.crcFail i a).Room 0 := by
  unfold State.crcFail
  extract_lets s1
  have h1 : s1.Room 2 := by
    refine h.of_agenda ?_ ?_
    · rw [agenda_raise _ (by decide), agenda_setF _ _ (by decide), agenda_setF _ _ (by decide), agenda_count]
    · rw [key_raise, key_setF, key_setF, key_count]
  have h2 : (s1.spoilCells i [a]).Room 2 := h1.of_agenda (agenda_spoilCells ..) (by rw [key_spoilCells])
  exact (h2.react_masked 0x02 i 0).crcTally _

theorem react_agenda_retired {s y : State} {c : Nat} (hcalm : s.calm = true) (hy : y.agenda = s.agenda) (hlog : s.key.log.length < 767) :
    ((y.setF F.BUF_HBM_RELOC_relocated 0).react 0x02 1 c c).Rests 767 :=
  (((rests_of_calm hcalm).mono (m := s.key.log.length) (n := 766) (by omega)).of_agenda
    ((agenda_setF y 0 (by decide)).trans hy)).react 0x02 1 c (fun h => absurd h (by decide)) (by decide)

theorem bitAt_putBits_other (n v : Nat) {i j : Nat} (h : j ≠ i) : bitAt (putBits n i 1 v) j = bitAt n j := by
  have hbit : ∀ m k : Nat, bitAt m k = m.testBit k := fun m k => Nat.testBit_eq_decide_div_mod_eq.symm
  rw [hbit, hbit, putBits_eq, Nat.mul_comm, Nat.testBit_two_pow_mul_add _ (Nat.mod_lt _ (Nat.two_pow_pos i))]
  split
  case isTrue hlt => rw [Nat.testBit_mod_two_pow, decide_eq_true hlt, Bool.true_and]
  case isFalse hge =>
    obtain ⟨k, hk⟩ : ∃ k, j - i = k + 1 := ⟨j - i - 1, by omega⟩
    rw [hk, Nat.testBit_succ, show (n / 2 ^ i / 2 ^ 1 * 2 ^ 1 + v % 2 ^ 1) / 2 = n / 2 ^ i / 2 by omega, ← Nat.testBit_succ,
      show k.succ = j - i from hk.symm, Nat.testBit_div_two_pow, Nat.sub_add_cancel (by omega)]

/-- The other bits of a field keep their values when one is set. -/
theorem getFBit_setFBit_other (s : State) {f : Fld} (hf : f.lo + f.width ≤ 32) {i j : Nat} (h : j ≠ i) (hj : j < f.width) (b : Bool) :
    (s.setFBit f i b).getFBit f j = s.getFBit f j := by
  unfold State.getFBit State.setFBit
  rw [getF_setF s f _ hf, ← bitAt_putBits_other (s.getF f) (b2n b) h]
  have hbit : ∀ m k : Nat, bitAt m k = m.testBit k := fun m k => Nat.testBit_eq_decide_div_mod_eq.symm
  rw [hbit, hbit, Nat.testBit_mod_two_pow, decide_eq_true hj, Bool.true_and]

/-- A channel is retired onto the free spare. -/
theorem retireChannel_moves {s : State} {c : Nat} (hc : c < 31) (hen : s.part.en = false)
    (hfresh : s.getFBit F.BUF_HBM_RETIRED_retired c = false) (hspare : s.fab.spareWanted = true)
    (huse : s.getB F.BUF_HBM_SPARE_MAP_in_use = false) (hgood : s.getFBit F.BUF_HBM_RETIRED_retired 31 = false) (hidle : s.fab.hbmReloc = none) :
    s.retireChannel c =
      ((({ s.setFBit F.BUF_HBM_RETIRED_retired c true with
            fab := { s.fab with hbmReloc := some (c, (s.channelCells c).map Prod.fst) } } : State).setF
          F.BUF_HBM_RELOC_relocated 0).react 0x02 1 c c) := by
  have huse' : (s.setFBit F.BUF_HBM_RETIRED_retired c true).getB F.BUF_HBM_SPARE_MAP_in_use = false := by
    rw [← huse]
    unfold State.getB State.getF
    rw [show (s.setFBit F.BUF_HBM_RETIRED_retired c true).reg F.BUF_HBM_SPARE_MAP_in_use.addr = s.reg F.BUF_HBM_SPARE_MAP_in_use.addr from
      reg_setReg_other s (by decide) _]
  have hgood' : (s.setFBit F.BUF_HBM_RETIRED_retired c true).getFBit F.BUF_HBM_RETIRED_retired 31 = false := by
    rw [← hgood]
    exact getFBit_setFBit_other s (by decide) (by omega) (by decide) _
  unfold State.retireChannel
  rw [if_neg (by simp only [hen, hfresh]; simp; omega)]
  congr 1
  unfold State.dropChannel
  dsimp only
  rw [huse', hgood', if_neg (by omega), if_pos]
  · rfl
  · rw [show (s.setFBit F.BUF_HBM_RETIRED_retired c true).fab = s.fab from rfl, hspare, hidle]
    rfl

/-- Settles O29: the conditions of the statement pick the retirement's one branch, and a bad cell of the channel on the move is one of
its frame alone. -/
theorem channelRetirement : Obligations.ChannelRetirement := by
  refine ⟨?_, ?_⟩
  · intro s m v hcalm hadmits harmed hgo hen t c
    have hafter : ∀ u : State, t.hbmRetireGo c = u → t.after m Addr.BUF_HBM_RETIRE (s.armed m) v (s.setArmed m false) = u := by
      intro u hu
      rw [after_buf (by decide), harmed]
      unfold State.bufAfter
      rw [if_neg (by decide), if_neg (by decide), if_pos rfl, hgo]
      exact hu
    have hfab : t.fab = s.fab := stored_beside State.fab (fun _ _ _ _ => rfl) s m _ v
    refine ⟨fun hmoving => ?_, ?_⟩
    · exact takes_write rfl hcalm hadmits rfl (by decide) (hafter _ (if_pos (by rw [hfab]; exact hmoving))) rfl
    · intro hidle hc hfresh hspare huse hgood hlog x y
      have hpart : t.part = s.part := stored_beside State.part (fun _ _ _ _ => rfl) s m _ v
      have hcells : t.channelCells c = s.channelCells c := by
        unfold State.channelCells
        rw [hfab]
      have hy : y.agenda = s.agenda := by
        have hx : x.agenda = t.agenda := agenda_setFBit t c true (by decide)
        exact (show y.agenda = x.agenda from rfl).trans (hx.trans (agenda_stored s m v (by decide)))
      refine takes_write_of_rests rfl hcalm hadmits rfl (hafter _ ?_) (react_agenda_retired hcalm hy hlog)
      unfold State.hbmRetireGo
      rw [if_neg (by rw [hfab, hidle]; exact Bool.false_ne_true),
        retireChannel_moves hc (by rw [hpart]; exact hen) hfresh (by rw [hfab]; exact hspare) huse hgood (by rw [hfab]; exact hidle), hcells]
      rfl
  · intro s c l hcalm hmoving live
    refine ⟨fun a i hphase hmem hholders hlog => ?_, ?_⟩
    · have hroom : s.Room 2 := ⟨rests_of_calm hcalm, hlog.imp_right fun h => by omega⟩
      refine takes_of_rests (f := fun s => s.diagnose ⟨0x02, a, 2⟩) rfl hcalm ?_ (hroom.crcFail i a).rests
      have hreloc : s.relocCrc a = s.crcFail i a := by
        unfold State.relocCrc
        rw [hmoving]
        dsimp only
        rw [if_pos hmem, hholders]
        rfl
      unfold State.diagnose
      dsimp only
      rw [if_neg hphase]
      exact hreloc
    · refine takes_of_agenda (f := fun s => s.relocationDone) rfl hcalm ?_ ?_
      · unfold State.relocationDone
        rewrite [hmoving]
        rfl
      · exact (agenda_raise _ (by decide)).trans ((agenda_countN _ 8 0 5 _).trans ((agenda_setF _ _ (by decide)).trans
          ((agenda_setF _ _ (by decide)).trans (agenda_setF _ _ (by decide)))))

end Sys2Proof.Machine
end

/-! ### Scrubbing and the FRER scanners (R214, R215, R239, R240, R246) -/

section
namespace Sys2Proof.Machine

/-! Scrubbing (R214, R353) -/

/-- A cell with an uncorrectable error is counted and recorded. -/
def State.cellErr (s : State) (a : Nat) : State :=
  (((s.count 8 0 1).setF F.BUF_CELL_ERR_pointer a).setF F.BUF_CELL_ERR_kind 0).raise F.BUF_EVENT_ecc_uncorrectable

theorem agenda_cellErr (s : State) (a : Nat) : (s.cellErr a).agenda = s.agenda := by
  unfold State.cellErr
  rw [agenda_raise _ (by decide), agenda_setF _ _ (by decide), agenda_setF _ _ (by decide), agenda_count]

/-- The frames that hold the bad cell `c` at `a` are marked, their copies in transmission ended. -/
def State.cellLost (s : State) (a : Nat) (c : Cell) (l : List Nat) : State :=
  (s.setCell a (some { c with bad := true })).each l fun t i => match t.frame i with
    | some g => (t.endAfterGood i).setFrame i (some { g with cellBad := true })
    | none => t

theorem agenda_cellLost (s : State) (a : Nat) (c : Cell) (l : List Nat) : (s.cellLost a c l).agenda = s.agenda := by
  unfold State.cellLost
  refine (agenda_each _ _ _ fun t i _ => ?_).trans (agenda_setCell ..)
  split
  · rw [agenda_setFrame, agenda_endAfterGood]
  · rfl

theorem fab_setF (s : State) (f : Fld) (v : Nat) : (s.setF f v).fab = s.fab := (rfl)

theorem fab_count (s : State) (g i c : Nat) : (s.count g i c).fab = s.fab := (rfl)

theorem fab_raise (s : State) (f : Fld) : (s.raise f).fab = s.fab := (rfl)

theorem dma_setF (s : State) (f : Fld) (v : Nat) : (s.setF f v).dma = s.dma := (rfl)

theorem dma_count (s : State) (g i c : Nat) : (s.count g i c).dma = s.dma := (rfl)

theorem dma_raise (s : State) (f : Fld) : (s.raise f).dma = s.dma := (rfl)

theorem cellErr_fab (s : State) (a : Nat) : (s.cellErr a).fab = s.fab := by
  unfold State.cellErr
  rw [fab_raise, fab_setF, fab_setF, fab_count]

theorem cellErr_dma (s : State) (a : Nat) : (s.cellErr a).dma = s.dma := by
  unfold State.cellErr
  rw [dma_raise, dma_setF, dma_setF, dma_count]

theorem cellErr_cell (s : State) (a b : Nat) : (s.cellErr a).cell b = s.cell b := by
  unfold State.cell
  rw [cellErr_fab]

theorem cellErr_holders (s : State) (a b : Nat) : (s.cellErr a).holders b = s.holders b := by
  unfold State.holders
  rw [cellErr_fab]

theorem cellErr_ch (s : State) (a c : Nat) : (s.cellErr a).ch c = s.ch c := by
  unfold State.ch
  rw [cellErr_dma]

/-- The state once the bad cell at `a`, found in no staging area, has been dealt with. -/
def State.cellDone (s : State) (a : Nat) : State :=
  match s.cell a with
  | none => s.cellErr a
  | some c => (s.cellErr a).cellLost a c (s.holders a)

theorem agenda_cellDone (s : State) (a : Nat) : (s.cellDone a).agenda = s.agenda := by
  unfold State.cellDone
  split
  · exact agenda_cellErr s a
  · exact (agenda_cellLost ..).trans (agenda_cellErr s a)

theorem scrubAt_cell (s : State) {a : Nat} (ha : a < 2 ^ 27) : s.scrubAt (.cell a) =
    match (s.cellErr a).cell a with
    | none => (s.cellErr a).react 0x01 0 0 0
    | some c => match (s.cellErr a).dma.find? fun e => decide (a ∈ e.2.cells) with
      | some e => (s.cellErr a).stagingError e.1
      | none => ((s.cellErr a).cellLost a c ((s.cellErr a).holders a)).react 0x01 0 0 0 := if_neg (Nat.not_le.mpr ha)

theorem scrubAt_buffer {s : State} {a : Nat} (ha : a < 2 ^ 27) (h : (s.cell a).isSome → ∀ e ∈ s.dma, a ∉ e.2.cells) :
    s.scrubAt (.cell a) = (s.cellDone a).react 0x01 0 0 0 := by
  rw [scrubAt_cell s ha, cellErr_cell, cellErr_dma, cellErr_holders]
  unfold State.cellDone
  cases hcell : s.cell a with
  | none => rfl
  | some c =>
    have hnone : (s.dma.find? fun e => decide (a ∈ e.2.cells)) = none :=
      List.find?_eq_none.mpr fun e he hin => h (by rw [hcell]; rfl) e he (of_decide_eq_true hin)
    rw [hnone]

/-- The channel's beat in the staging cell is fetched again. -/
def State.stagingNoted (s : State) (c : Nat) : State := ((s.setCh c (s.ch c).refetch).count 23 0 0).raise F.DMA_EVENT_staging_ecc

theorem agenda_stagingNoted (s : State) (c : Nat) : (s.stagingNoted c).agenda = s.agenda := by
  unfold State.stagingNoted
  rw [agenda_raise _ (by decide), agenda_count, agenda_setCh]

theorem scrubAt_staging {s : State} {a : Nat} {e : Nat × DmaCh} (ha : a < 2 ^ 27) (hcell : (s.cell a).isSome = true)
    (hfind : s.dma.find? (fun d => decide (a ∈ d.2.cells)) = some e) (hcells : (s.ch e.1).cells ≠ []) :
    s.scrubAt (.cell a) = ((s.cellErr a).stagingNoted e.1).react 0x01 0 e.1 0 := by
  obtain ⟨c, hc⟩ := Option.isSome_iff_exists.mp hcell
  rw [scrubAt_cell s ha, cellErr_cell, cellErr_dma, hc, hfind]
  exact if_neg (by rw [cellErr_ch]; simpa using hcells)

/-! Leave for the fast scrubber (R215) -/

theorem decideLeave_scrub {s : State} (hdev : s.dev ≠ .parking) (hoff : s.dev ≠ .off) (hdouble : s.key.doubleFault = false)
    (hfits : s.permanent + s.transient + 60 ≤ s.budget) : s.decideLeave scrubLeave 0 = .granted := by
  have hclosed : s.leaveClosed scrubLeave = false := by
    unfold State.leaveClosed
    rw [hdouble, decide_eq_false hdev, decide_eq_false hoff]
    rfl
  unfold State.decideLeave
  rw [hclosed, if_neg Bool.false_ne_true, if_neg (fun h => absurd h.1 (by decide)),
    if_neg (by show ¬ s.budget < s.permanent + 60; omega), if_pos ⟨hfits, rfl⟩]

/-- The Keystone holds the leave for the fast scrubber besides. -/
def State.scrubGranted (s : State) : State := s.setKs fun k => { k with grants := k.grants ++ [scrubLeave] }

theorem agenda_scrubGranted (s : State) : s.scrubGranted.agenda = s.agenda := agenda_setKs s _ rfl

theorem scrubAfter_set {s : State} (hset : s.getB F.BUF_CTRL_scrub_fast = true) (hheld : s.holdsGrant 6 0 = false) (hqueue : s.key.ks.queue = [])
    (hbusy : s.ksBusy = false) (hgranted : s.decideLeave scrubLeave 0 = .granted) : s.scrubAfter = s.scrubGranted.ksLog .power := by
  unfold State.scrubAfter
  rw [hset, hheld, hqueue, askLeave_granted hbusy hqueue hgranted, if_pos rfl, if_neg (by decide)]
  rfl

/-- Requests of the fast scrubber are withdrawn, and its leave is given back. -/
def State.scrubCleared (s : State) : State :=
  let x := s.allKs fun k => { k with queue := k.queue.filter fun g => decide (g ≠ scrubLeave) }
  ({ x with key := { x.key with deferred := x.key.deferred.filter fun d => decide (d ≠ .leave scrubLeave) } } : State).returnGrant 6 0

theorem agenda_scrubCleared {s : State} (hqueue : s.key.ks.queue = []) : s.scrubCleared.agenda = s.agenda := by
  unfold State.scrubCleared State.returnGrant
  extract_lets x
  refine (agenda_allKs _ _ rfl).trans ((show _ = x.agenda from rfl).trans (agenda_allKs s _ ?_))
  dsimp only
  rw [hqueue]
  rfl

theorem scrubAfter_cleared {s : State} (hclear : s.getB F.BUF_CTRL_scrub_fast = false) : s.scrubAfter = s.scrubCleared := by
  unfold State.scrubAfter
  rw [hclear, if_neg Bool.false_ne_true]
  rfl

/-- Settles O30: each finding has its own count and report, and the write of BUF.CTRL asks the arbiter or gives back. -/
theorem scrubbing : Obligations.Scrubbing := by
  refine ⟨?_, ?_, ?_, ?_, ?_, ?_⟩
  · exact fun s hcalm => takes_of_agenda (f := fun s => s.scrubAt .corrected) rfl hcalm rfl (agenda_count ..)
  · exact fun s hcalm => idles_of (f := fun s => s.scrubAt .clean) rfl hcalm rfl
  · intro s a hcalm ha hlog hother t x
    have hx : x = s.cellDone a := by
      unfold State.cellDone
      cases hcell : s.cell a with
      | none => simp only [x, hcell]; rfl
      | some c => simp only [x, hcell]; rfl
    rw [hx]
    refine takes_ksLog_of_agenda (f := fun s => s.scrubAt (.cell a)) rfl hcalm hlog ((scrubAt_buffer ha hother).trans (react_masked ..)) ?_
    rw [agenda_raise _ (by decide), agenda_count, agenda_endTest, agenda_cellDone]
  · intro s a e hcalm ha hlog hcell hfind hcells t
    have hrests : s.Rests 766 := (rests_of_calm hcalm).mono (by omega)
    have hnoted := hrests.of_agenda ((agenda_stagingNoted (s.cellErr a) e.1).trans (agenda_cellErr s a))
    have hout := takes_of_rests (f := fun s => s.scrubAt (.cell a)) (c := .scrub (.cell a)) rfl hcalm
      (scrubAt_staging ha hcell hfind hcells)
      (hnoted.react 0x01 0 e.1 (fun h => absurd h (by decide)) (by decide))
    unfold State.stagingNoted at hout
    rw [cellErr_ch] at hout
    exact hout
  · intro s n hcalm hlog t
    have hlog' : s.Rests 766 := (rests_of_calm hcalm).mono (by omega)
    refine takes_of_rests (f := fun s => s.scrubAt (.structure_ n)) (n := 767) rfl hcalm rfl
      (State.Rests.react (hlog'.of_agenda ?_) 0x01 1 0 (fun h => absurd h (by decide)) (by decide))
    exact (agenda_raise _ (by decide)).trans (agenda_countN s 8 0 6 n)
  · intro s m v hcalm hadmits hbusy hlog t
    have hqueue : t.key.ks.queue = [] := by rw [stored_key]; exact (rests_of_calm hcalm).queue
    have hafter : ∀ u, t.scrubAfter = u → t.after m Addr.BUF_CTRL (s.armed m) v (s.setArmed m false) = u := fun u hu =>
      (after_buf (by decide) ..).trans hu
    refine ⟨fun hset hheld hdev hoff hdouble hfits => ?_, fun hclear => ?_⟩
    · refine takes_write_ksLog rfl hcalm hlog hadmits rfl (by decide) (hafter _ (scrubAfter_set hset ?_ hqueue ?_ ?_)) (agenda_scrubGranted t)
      · unfold State.holdsGrant at hheld ⊢
        rw [stored_key]
        exact hheld
      · rw [stored_ksBusy]
        exact hbusy
      · exact decideLeave_scrub (by rw [stored_dev]; exact hdev) (by rw [stored_dev]; exact hoff) (by rw [stored_key]; exact hdouble) hfits
    · exact takes_write rfl hcalm hadmits rfl (by decide) (hafter _ (scrubAfter_cleared hclear)) (agenda_scrubCleared hqueue)

/-! FRER (R239, R240, R246) -/

/-- The registers that the pipelines share are those of pipeline 0. -/
theorem canonAddr_frerReset {n : Nat} (h : n < 8) : canonAddr (Addr.PIPE_FRER_RESET n) = Addr.PIPE_FRER_RESET 0 := by
  have hcases : n = 0 ∨ n = 1 ∨ n = 2 ∨ n = 3 ∨ n = 4 ∨ n = 5 ∨ n = 6 ∨ n = 7 := by omega
  obtain rfl | rfl | rfl | rfl | rfl | rfl | rfl | rfl := hcases <;> decide

theorem agenda_setRec (s : State) (k : Nat) (r : Recovery) : (s.setRec k r).agenda = s.agenda := (rfl)

theorem agenda_setNextSeq (s : State) (k v : Nat) : (s.setNextSeq k v).agenda = s.agenda := (rfl)

theorem stored_ash (s : State) (m a : Nat) (v : Word) : (s.stored m a v).ash = s.ash :=
  stored_beside State.ash (fun _ _ _ _ => rfl) s m a v

theorem stored_recState (s : State) (m a : Nat) (v : Word) (k : Nat) : (s.stored m a v).recState k = s.recState k :=
  stored_beside (fun s => s.recState k) (fun _ _ _ _ => rfl) s m a v

/-- The state of recovery function `k` at the start of its next period. -/
def Recovery.nextPeriod (r : Recovery) : Recovery := { r with passed := 0, dups := 0, heard := [] }

/-- A latent error is counted and shown. -/
def State.latentShown (s : State) (k : Nat) : State :=
  let e := s.ash.1.recovery k
  (((s.count 12 k 8).raise (F.PIPE_REP_EVENT_latent_error e.home)).setF (F.PIPE_FRER_LAST_index e.home) k).setF
    (F.PIPE_FRER_LAST_is_stream e.home) 0

theorem agenda_latentShown (s : State) (k : Nat) : (s.latentShown k).agenda = s.agenda := by
  unfold State.latentShown
  extract_lets e
  rw [agenda_setF _ _ (by simp), agenda_setF _ _ (by simp), agenda_raise _ (by simp), agenda_count]

theorem frerLatent_heard {s : State} {k : Nat} (hvalid : s.ash.1.valid = true) (hentry : (s.ash.1.recovery k).valid = true)
    (hon : s.domainOn (17 + (s.ash.1.recovery k).home) = true) (hperiod : (s.ash.1.recovery k).period ≠ 0)
    (hheard : ∀ m ∈ (s.ash.1.recovery k).streams, m ∈ (s.recState k).heard) :
    s.frerLatent k =
      (if decide ((s.ash.1.recovery k).threshold <
          (((s.recState k).passed * ((s.ash.1.recovery k).members - 1) : Nat) - ((s.recState k).dups : Int)).natAbs)
        then (s.latentShown k).react 0x15 0 k 0 else s).setRec k (s.recState k).nextPeriod := by
  have hnone : ((s.ash.1.recovery k).streams.filter fun m => decide (m ∉ (s.recState k).heard)) = [] :=
    List.filter_eq_nil_iff.mpr fun m hm h => of_decide_eq_true h (hheard m hm)
  unfold State.frerLatent
  dsimp only
  rw [hvalid, hentry, hon, hnone, if_neg (by simp [hperiod])]
  rfl

/-- Settles O32: the write's two targets, the scanner's condition, and a period with every member heard. -/
theorem frerResets : Obligations.FrerResets := by
  refine ⟨?_, ?_, ?_⟩
  · intro s m n v hcalm hn hadmits harmed hgo hvalid t k
    have hcanon := canonAddr_frerReset hn
    have htakes : ∀ u : State, t.frerReset k (t.getF (F.PIPE_FRER_RESET_target 0)) = u → u.agenda = t.agenda → Takes (.frerReset m n v) s u := by
      intro u heffect hagenda
      refine takes_of_agenda (f := fun s => s.regWord m (Addr.PIPE_FRER_RESET n) v) rfl hcalm ?_
        (hagenda.trans (agenda_stored s m v (by rw [hcanon]; decide)))
      rw [regWord_admits s m _ v hadmits, hcanon, after_frerReset, harmed, hgo]
      exact heffect
    refine ⟨fun htarget hkind => htakes _ ?_ (agenda_setNextSeq ..), fun htarget hentry => htakes _ ?_ (agenda_setRec ..)⟩
    · unfold State.frerReset
      rw [if_pos htarget, stored_ash, hvalid, hkind]
      rfl
    · unfold State.frerReset
      rw [if_neg (by rw [htarget]; decide), stored_ash, hvalid, hentry, stored_recState]
      rfl
  · intro s k hcalm hvalid hentry hon due
    have hexpiry : s.frerExpiry k = if due then
        (s.setRec k { s.recState k with takeAny := true, resetAsked := false, timer := none }).count 12 k 7 else s := by
      have hdue : ((s.recState k).timer.any (fun t => decide (t ≠ s.now)) || (s.recState k).resetAsked) = true ↔ due := by
        simp only [Bool.or_eq_true, Option.any_eq_true, decide_eq_true_eq, due]
      unfold State.frerExpiry
      extract_lets e r runs
      rw [hvalid, hentry, hon]
      by_cases h : due
      · rw [if_pos h, hdue.mpr h]
        rfl
      · rw [if_neg h, Bool.eq_false_iff.mpr fun hd => h (hdue.mp hd)]
        rfl
    refine ⟨fun h => ?_, fun h => ?_⟩
    · exact takes_of_agenda (f := fun s => s.frerExpiry k) rfl hcalm (hexpiry.trans (if_pos h)) ((agenda_count ..).trans (agenda_setRec ..))
    · exact idles_of (f := fun s => s.frerExpiry k) rfl hcalm (hexpiry.trans (if_neg h))
  · intro s k hcalm hvalid hentry hon hperiod hheard hlog e diff next
    have hlatent := frerLatent_heard hvalid hentry hon hperiod hheard
    refine ⟨fun h => ?_, fun h => ?_⟩
    · refine takes_of_agenda (f := fun s => s.frerLatent k) rfl hcalm (hlatent.trans ?_) (agenda_setRec ..)
      rw [decide_eq_false (by exact Nat.not_lt.mpr h)]
      rfl
    · have hlog' : s.Rests 766 := (rests_of_calm hcalm).mono (by omega)
      have hshown := hlog'.of_agenda (agenda_latentShown s k)
      have hmasked : ((s.latentShown k).endTest.count 16 0 0).raise F.SAF_EVENT_fault_masked |>.Rests 766 := by
        refine hshown.of_agenda ?_
        rw [agenda_raise _ (by decide), agenda_count, agenda_endTest]
      refine takes_of_rests (f := fun s => s.frerLatent k) (n := 767) rfl hcalm (hlatent.trans ?_)
        (State.Rests.of_agenda (hmasked.ksLog .safety (by decide)) (agenda_setRec ..))
      rw [decide_eq_true (by exact h), if_pos rfl, react_masked]
      rfl

end Sys2Proof.Machine
end

/-! ### Counter registers, programmable counters and snapshots (R378 to R384) -/

section
namespace Sys2Proof.Machine

/-! Settling while the enabled programmable counters count levels alone (R379) -/

/-- The programmable counters of `v`, with what they count by and their overflow bits, are those of `t`. -/
structure Counters (t v : State) : Prop where
  on : v.pcOn = t.pcOn
  snap : v.snap = t.snap
  now : v.now = t.now
  ctr : ∀ k, k / 2 ^ 20 = 26 → v.ctr k = t.ctr k
  reg : ∀ a, pcReg a → v.reg a = t.reg a
  raised : ∀ e ∈ v.raised, pcReg e.1 = false

namespace Counters

theorem setReg {t v : State} (h : Counters t v) {a : Nat} (w : Word) (q : pcReg a = false) : Counters t (v.setReg a w) :=
  { h with on := (pcOn_setReg v a w q).trans h.on, reg := fun b p => (reg_setReg_other v (pc_ne p q) w).trans (h.reg b p) }

theorem beside {t v w : State} (h : Counters t v) (hregs : w.regs = v.regs) (hB : w.tmrB = v.tmrB) (hC : w.tmrC = v.tmrC)
    (hpart : w.part = v.part) (hctrs : w.ctrs = v.ctrs) (hraised : w.raised = v.raised) (hsnap : w.snap = v.snap) (hnow : w.now = v.now) :
    Counters t w :=
  have hreg : ∀ a, w.reg a = v.reg a := reg_same hregs hB hC hpart
  { on := (pcOn_parts (by unfold State.pcHeld; rw [hregs]) hsnap hnow fun _ _ => hreg _).trans h.on
    snap := hsnap.trans h.snap
    now := hnow.trans h.now
    ctr := fun k hk => by unfold State.ctr; rw [hctrs]; exact h.ctr k hk
    reg := fun a ha => (hreg a).trans (h.reg a ha)
    raised := fun e he => h.raised e (hraised ▸ he) }

theorem raise {t v : State} (h : Counters t v) {f : Fld} (q : pcReg f.addr = false) : Counters t (v.raise f) :=
  { h with
    on := (pcOn_parts rfl rfl rfl fun _ _ => rfl).trans h.on
    raised := fun e he => (mem_set (fun _ => 0) f.addr _ v.raised e he).elim (fun heq => heq ▸ q) (h.raised e) }

theorem clear {t v : State} (h : Counters t v) : Counters t { v with raised := [] } :=
  { h with on := (pcOn_parts rfl rfl rfl fun _ _ => rfl).trans h.on, raised := fun _ he => nomatch he }

theorem lost {t v : State} (h : Counters t v) : Counters t (v.count 21 0 0) :=
  { h with
    on := (pcOn_parts rfl rfl rfl fun _ _ => rfl).trans h.on
    ctr := fun k hk => (ctr_setCtr_other v (by rintro rfl; exact absurd hk (by decide)) _).trans (h.ctr k hk) }

theorem hostWrite {t : State} (l : List Byte) : ∀ {v : State} (a : Nat), Counters t v → Counters t (v.hostWrite a l) := by
  induction l with
  | nil => intro v a h; exact h
  | cons b r ih => intro v a h; exact ih (a + 1) (h.beside rfl rfl rfl rfl rfl rfl rfl rfl)

theorem ringPass {t : State} (n : Nat) : ∀ {v : State} (r : Nat), Counters t v → Counters t (v.ringPass r n) := by
  induction n with
  | zero => intro v r h; exact h
  | succ n ih =>
    intro v r h
    refine ih r ?_
    unfold State.entryPass
    dsimp only
    split <;> exact h.beside rfl rfl rfl rfl rfl rfl rfl rfl

theorem posted {t v : State} (h : Counters t v) (d : List Byte) : Counters t (v.eventPosted d) :=
  .ringPass 1 _ (.setReg (.setReg (.hostWrite d _ h) _ (by decide)) _ (by decide))

theorem postEvent {t v : State} (h : Counters t v) (a : Nat) : Counters t (v.postEvent a) := by
  unfold State.postEvent
  split
  · split
    · exact .raise (.setReg h.lost _ (by decide)) (by decide)
    · exact h.posted (v.eventDesc a)
  · exact h

theorem commitReg {t v : State} (h : Counters t v) {r : Nat × Nat} (q : pcReg r.1 = false) : Counters t (v.commitReg r) := by
  unfold State.commitReg
  split
  · exact (h.setReg _ q).beside rfl rfl rfl rfl rfl rfl rfl rfl
  · exact h

theorem pcField {t v : State} (h : Counters t v) (f : Nat → Fld) {k : Nat} (hk : k < 2048) : v.pcField f k = t.pcField f k := by
  unfold State.pcField State.pcCfg State.pcLate
  rw [h.snap, h.now, h.reg _ (cfg_pc hk)]

/-- While no enabled counter counts edges, settling leaves the counters. -/
theorem settleN {t : State} (hlevel : ∀ k ∈ t.pcOn, t.pcField F.CNT_PC_CFG_mode k ≠ 0) (n : Nat) :
    ∀ {v : State} (old : State), Counters t v → Counters t (State.settleN n old v) := by
  induction n with
  | zero => intro v old h; exact h.clear
  | succ n ih =>
    intro v old h
    have hhits : v.pcHits old = [] := by
      unfold State.pcHits State.pcMode
      refine (congrArg (List.filter _) (List.filter_eq_nil_iff.mpr ?_)).trans List.filter_nil
      intro k hk hmode
      rw [h.on] at hk
      rw [Bool.and_eq_true, Bool.and_eq_true, h.pcField _ (pcOn_lt hk)] at hmode
      exact hlevel k hk (of_decide_eq_true hmode.1.1)
    simp only [State.settleN]
    rw [hhits]
    split
    · exact h
    · refine ih v ?_
      unfold State.settleRound
      refine each_keeps (Counters t) _ _ (fun w e _ hw => hw.postEvent e.1) _ ?_
      exact each_keeps (Counters t) _ _ (fun w e he hw => hw.commitReg (h.raised e he)) _ h.clear

end Counters

/-- The device state's update leaves the counters. -/
theorem counters_devStep {u v : State} (h : Counters u v) : Counters u v.devStep := by
  obtain ⟨hregs, hB, hC, hpart, hctrs, -, -, hsnap, hnow, hraised⟩ := devStep_fields v
  have hbase : Counters u { v.devStep with raised := v.raised } := h.beside hregs hB hC hpart hctrs rfl hsnap hnow
  exact { hbase with
    on := (pcOn_parts rfl rfl rfl fun _ _ => rfl).trans hbase.on
    raised := hraised.elim (fun heq e he => h.raised e (heq ▸ he)) fun heq e he =>
      (h.raise (f := F.SAF_EVENT_fault_degraded) (by decide)).raised e (heq ▸ he) }

/-- The counters after a command in a calm state with effect `u`. -/
theorem counters_concluded {s u : State} {n : Nat} (hrests : u.Rests n) (hlevel : ∀ k ∈ u.pcOn, u.pcField F.CNT_PC_CFG_mode k ≠ 0) :
    Counters u (State.conclude s u) := by
  unfold State.conclude
  rw [tail_idle u 1024 (due_parts u hrests.queue hrests.flight hrests.rings hrests.group hrests.due hrests.fenced)]
  have hself : Counters u u :=
    ⟨rfl, rfl, rfl, fun _ _ => rfl, fun _ _ => rfl, fun e he => (Bool.or_eq_false_iff.mp (hrests.raised e he)).2⟩
  exact (counters_devStep (counters_devStep hself)).settleN hlevel 6 s

/-! The wrap of a programmable counter (R381) -/

/-- Counter `k` overflows: its bit is set and the event raised. -/
def State.pcOverflowed (s : State) (k : Nat) : State :=
  (s.setFBit (F.CNT_PC_OVF_ovf (k / 32)) (k % 32) true).raise F.CNT_EVENT_pc_overflow

theorem pcIncr_full {s : State} {k n : Nat} (hwritten : s.pcWritten k = false) (hfull : s.ctr (ctrKey 26 k 0) = 0xFFFFFFFF) :
    s.pcIncr k (n + 1) =
      if s.pcChain k then (s.setCtr (ctrKey 26 k 0) 0).pcIncr (k + 1) n else (s.setCtr (ctrKey 26 k 0) 0).pcOverflowed k := by
  rw [State.pcIncr]
  dsimp only
  rw [hwritten, if_neg Bool.false_ne_true, hfull, if_neg (by decide)]
  rfl

theorem pcIncr_below {s : State} {k n : Nat} (hwritten : s.pcWritten k = false) (hbelow : s.ctr (ctrKey 26 k 0) < 0xFFFFFFFF) :
    s.pcIncr k (n + 1) = s.setCtr (ctrKey 26 k 0) (s.ctr (ctrKey 26 k 0) + 1) := by
  rw [State.pcIncr]
  dsimp only
  rw [hwritten, if_neg Bool.false_ne_true, if_pos (by omega)]

theorem pcChain_even {s : State} {k : Nat} (h : s.pcChain k = true) : k % 2 = 0 := by
  unfold State.pcChain at h
  exact of_decide_eq_true ((Bool.and_eq_true _ _).mp h).1

theorem pcChain_odd (s : State) {k : Nat} (h : k % 2 = 0) : s.pcChain (k + 1) = false := by
  unfold State.pcChain
  rw [decide_eq_false (by omega), Bool.false_and]

theorem pcChained_even (s : State) {k : Nat} (h : k % 2 = 0) : s.pcChained k = false := by
  unfold State.pcChained
  rw [decide_eq_false (by omega), Bool.false_and]

theorem pcWrap_alone {s : State} {k : Nat} (hfull : s.ctr (ctrKey 26 k 0) = 0xFFFFFFFF) (halone : s.pcChained k = false)
    (hon : s.pcOn = [k]) (hlive : s.pcLive k = true) : s.pcWrap k = s.pcIncr k 2 := by
  unfold State.pcWrap
  extract_lets full counts
  refine (if_neg ?_).trans ((if_neg ?_).trans (if_pos ?_))
  · rw [decide_eq_true (p := full k) hfull]
    decide
  · rw [halone]
    decide
  · simp only [counts, hon, hlive, Bool.and_true]
    simp

theorem pcWrap_carried {s : State} {k : Nat} (hfull : s.ctr (ctrKey 26 k 0) = 0xFFFFFFFF)
    (hnext : s.ctr (ctrKey 26 (k + 1) 0) = 0xFFFFFFFF) (hchain : s.pcChain k = true) (hon : s.pcOn = [k]) (hlive : s.pcLive k = true) :
    s.pcWrap (k + 1) = s.pcIncr k 2 := by
  have hchained : s.pcChained (k + 1) = true := by
    have heven := pcChain_even hchain
    unfold State.pcChained
    rw [decide_eq_true (by omega), Bool.true_and, Nat.add_sub_cancel, hchain]
  unfold State.pcWrap
  extract_lets full counts
  rw [Nat.add_sub_cancel]
  refine (if_neg ?_).trans ((if_pos hchained).trans (if_pos ?_))
  · rw [decide_eq_true (p := full (k + 1)) hnext]
    decide
  · rw [decide_eq_true (p := full k) hfull]
    simp only [counts, hon, hlive, Bool.and_true]
    simp

theorem ctrKey_succ (k : Nat) : ctrKey 26 k 0 ≠ ctrKey 26 (k + 1) 0 := by
  unfold ctrKey
  omega

theorem ctrKey_pc {k : Nat} (h : k < 2049) : ctrKey 26 k 0 / 2 ^ 20 = 26 := ctr_group 26 k 0 (by omega)

theorem pcReg_ovf {k : Nat} (h : k < 2048) : pcReg (Addr.CNT_PC_OVF (k / 32)) = true := by
  unfold pcReg Addr.CNT_PC_OVF
  simp only [Bool.or_eq_true, Bool.and_eq_true, decide_eq_true_eq]
  omega

theorem agenda_pcOverflowed (s : State) {k : Nat} (h : k < 2048) : (s.pcOverflowed k).agenda = s.agenda := by
  unfold State.pcOverflowed
  rw [agenda_raise _ (by decide), agenda_setFBit _ _ _ (by unfold F.CNT_PC_OVF_ovf Addr.CNT_PC_OVF Addr.PLB_STATUS; dsimp only; omega)]

theorem ctr_raise (s : State) (f : Fld) (j : Nat) : (s.raise f).ctr j = s.ctr j := (rfl)

theorem ctr_setFBit (s : State) (f : Fld) (i : Nat) (b : Bool) (j : Nat) : (s.setFBit f i b).ctr j = s.ctr j := (rfl)

theorem pcOverflowed_ctr (s : State) (k j : Nat) : (s.pcOverflowed k).ctr j = s.ctr j := by
  unfold State.pcOverflowed
  rw [ctr_raise, ctr_setFBit]

/-- To set a bit of a word as a field is to add it. -/
theorem putFld_bit (w : Word) {i : Nat} (hi : i < 32) :
    putFld w 0 32 (putBits (fldOf w 0 32) i 1 1) = w ||| BitVec.ofNat 32 (2 ^ i) := by
  have hword : fldOf w 0 32 = w.toNat := by
    unfold fldOf bitsOf
    rw [Nat.pow_zero, Nat.div_one, Nat.mod_eq_of_lt w.isLt]
  have hput : putFld w 0 32 (putBits w.toNat i 1 1) = BitVec.ofNat 32 (putBits w.toNat i 1 1) := by
    unfold putFld
    congr 1
    rw [putBits_eq w.toNat 0, Nat.mod_eq_of_lt (putBits_lt _ i 1 1 w.isLt (by omega)), Nat.pow_zero, Nat.div_one, Nat.div_eq_of_lt w.isLt]
    omega
  have hbit : ∀ m j : Nat, bitAt m j = m.testBit j := fun m j => Nat.testBit_eq_decide_div_mod_eq.symm
  rw [hword, hput]
  ext j hj
  rw [BitVec.getElem_or, BitVec.getElem_eq_testBit_toNat, BitVec.getElem_eq_testBit_toNat, BitVec.getElem_eq_testBit_toNat,
    BitVec.toNat_ofNat, BitVec.toNat_ofNat, Nat.testBit_mod_two_pow, Nat.testBit_mod_two_pow, decide_eq_true hj, Bool.true_and,
    Bool.true_and, Nat.testBit_two_pow]
  by_cases hij : j = i
  · subst hij
    have hone : (putBits w.toNat j 1 1).testBit j = true := by
      rw [← hbit]
      exact decide_eq_true (bitsOf_putBits w.toNat j 1 1)
    rw [hone, decide_eq_true rfl, Bool.or_true]
  · rw [← hbit, bitAt_putBits_other _ _ hij, hbit, decide_eq_false (Ne.symm hij), Bool.or_false]

/-- The overflow bits are those of before with the counter's own besides. -/
theorem pcOverflowed_reg (s : State) (k : Nat) :
    (s.pcOverflowed k).reg (Addr.CNT_PC_OVF (k / 32)) = s.reg (Addr.CNT_PC_OVF (k / 32)) ||| BitVec.ofNat 32 (2 ^ (k % 32)) := by
  rw [← putFld_bit _ (Nat.mod_lt k (by decide))]
  unfold State.pcOverflowed State.setFBit State.setF State.raise
  rw [reg_raiseBit]
  exact reg_setReg s _ _

theorem domainOn_pcOverflowed (s : State) (k d : Nat) : (s.pcOverflowed k).domainOn d = s.domainOn d := by
  have hreg : ∀ a, a ≠ Addr.CNT_PC_OVF (k / 32) → (s.pcOverflowed k).reg a = s.reg a := fun a ha => reg_setReg_other s ha _
  unfold State.domainOn
  rw [hreg _ (by unfold Addr.PWR_DOMAIN_ON_LO Addr.CNT_PC_OVF; omega), hreg _ (by unfold Addr.PWR_DOMAIN_ON_HI Addr.CNT_PC_OVF; omega)]

theorem CountsBeside.pcField {s t : State} {k : Nat} (h : CountsBeside s k t) (f : Nat → Fld) (j : Nat) : t.pcField f j = s.pcField f j := by
  unfold State.pcField State.pcCfg State.pcLate
  rw [h.snap, h.now, h.cfg]

theorem pcOn_setCtr (s : State) (k v : Nat) : (s.setCtr k v).pcOn = s.pcOn := pcOn_parts rfl rfl rfl fun _ _ => rfl

theorem pcField_setCtr (s : State) (k v : Nat) (f : Nat → Fld) (j : Nat) : (s.setCtr k v).pcField f j = s.pcField f j := (rfl)

theorem pcOn_pcOverflowed (s : State) {k : Nat} (h : k < 2048) : (s.pcOverflowed k).pcOn = s.pcOn := by
  unfold State.pcOverflowed State.setFBit State.setF
  refine Eq.trans (pcOn_parts rfl rfl rfl fun _ _ => rfl) (pcOn_setReg_outside s _ (.inl ?_))
  unfold F.CNT_PC_OVF_ovf Addr.CNT_PC_OVF
  dsimp only
  omega

theorem pcField_pcOverflowed (s : State) {k : Nat} (h : k < 2048) (f : Nat → Fld) (j : Nat) : (s.pcOverflowed k).pcField f j = s.pcField f j :=
  CountsBeside.pcField (k := 0) (CountsBeside.overflow ⟨rfl, rfl, rfl, fun _ => rfl⟩ h) f j

/-- What a wrap's command leads to, where the one enabled counter counts levels. -/
theorem exec_pcOverflow {s u : State} {j k : Nat} (hcalm : s.calm = true) (heffect : s.pcWrap j = u) (hagenda : u.agenda = s.agenda)
    (hon : u.pcOn = [k]) (hmode : u.pcField F.CNT_PC_CFG_mode k ≠ 0) :
    exec (.pcOverflow j) s = .next (State.conclude s u) ∧ Counters u (State.conclude s u) := by
  refine ⟨(run_calm hcalm fun s => s.pcWrap j).trans (by rw [heffect]), counters_concluded ((rests_of_calm hcalm).of_agenda hagenda) ?_⟩
  intro i hi
  rw [hon, List.mem_singleton] at hi
  rwa [hi]

theorem raised_devStep {v : State} {a : Nat} {w : Word} (h : Raised v.raised a w) : Raised v.devStep.raised a w := by
  rcases (devStep_fields v).2.2.2.2.2.2.2.2.2 with hsame | hmore
  · rwa [hsame]
  · rw [hmore]
    exact raise_keeps v _ a w h

/-- An event that a command raises in a block that is on stands set after it. -/
theorem concluded_sets {s u : State} {n a : Nat} {w : Word} (hrests : u.Rests n) (hraised : Raised u.raised a w) (hplain : plainReg a = true)
    (hon : (u.domainOn (domainOf a) || sharedPipe a) = true) : (State.conclude s u).reg a &&& w = w := by
  unfold State.conclude
  rw [tail_idle u 1024 (due_parts u hrests.queue hrests.flight hrests.rings hrests.group hrests.due hrests.fenced)]
  exact settleN_sets 5 s _ a w (raised_devStep (raised_devStep hraised)) hplain (by rw [domainOn_reg fun a _ => devUpdate_reg u a]; exact hon)

theorem pcOverflowed_raised {s : State} (k : Nat) (h : s.raised = []) :
    Raised (s.pcOverflowed k).raised Addr.CNT_EVENT (BitVec.ofNat 32 (2 ^ F.CNT_EVENT_pc_overflow.lo)) := by
  refine ⟨(Addr.CNT_EVENT, 2 ^ F.CNT_EVENT_pc_overflow.lo), ?_, rfl, BitVec.and_self⟩
  unfold State.pcOverflowed
  rw [raise_once (f := F.CNT_EVENT_pc_overflow) (by exact h)]
  exact List.mem_singleton.mpr rfl

theorem bit_of_or (w : Word) {i : Nat} (hi : i < 32) : (w ||| BitVec.ofNat 32 (2 ^ i)).toNat / 2 ^ i % 2 = 1 := by
  have hbit : (w ||| BitVec.ofNat 32 (2 ^ i)).toNat.testBit i = true := by
    rw [BitVec.toNat_or, Nat.testBit_or, BitVec.toNat_ofNat, Nat.testBit_mod_two_pow, Nat.testBit_two_pow_self, decide_eq_true hi, Bool.true_and,
      Bool.or_true]
  rw [Nat.testBit_eq_decide_div_mod_eq] at hbit
  exact of_decide_eq_true hbit

/-! Captures and configurations (R378, R380) -/

theorem canonAddr_cnt {a : Nat} (h : 0x90000 ≤ a ∧ a < 0xA0000) : canonAddr a = a ∧ a ≠ Addr.PLB_STATUS ∧ a ≠ Addr.SYS_ARMED :=
  ⟨canonAddr_self (by omega), by unfold Addr.PLB_STATUS; omega, by unfold Addr.SYS_ARMED; omega⟩

/-- A write of a register of the counters, in a calm state. -/
theorem takes_cnt {c : Instr} {s u : State} {m a : Nat} {v : Word} (ha : 0x90000 ≤ a ∧ a < 0xA0000)
    (hexec : exec c s = run (fun s => s.regWord m a v) s) (hcalm : s.calm = true) (hadmits : s.admits m a v = true)
    (heffect : (s.stored m a v).cntAfter a v (s.setArmed m false) = u) (hagenda : u.agenda = (s.stored m a v).agenda) : Takes c s u := by
  obtain ⟨hown, hplb, -⟩ := canonAddr_cnt ha
  exact takes_write hexec hcalm hadmits hown hplb ((after_cnt ha ..).trans heffect) hagenda

theorem stored_snap (s : State) (m a : Nat) (v : Word) : (s.stored m a v).snap = s.snap :=
  stored_beside State.snap (fun _ _ _ _ => rfl) s m a v

theorem agenda_snap (s : State) (x : Snapshot) : ({ s with snap := x } : State).agenda = s.agenda := (rfl)

theorem agenda_captureCtr (s : State) (v : Nat) : (s.captureCtr v).agenda = s.agenda := by
  unfold State.captureCtr
  extract_lets g i c ok x
  rw [agenda_setF _ _ (by decide), agenda_setF _ _ (by decide), agenda_setReg _ _ (by decide), agenda_setReg _ _ (by decide)]

theorem agenda_captureAt (s : State) (v : Nat) : (s.captureAt v).agenda = s.agenda := (agenda_captureCtr _ v).trans (agenda_snap s _)

theorem cntAfter_capture (s : State) (v : Word) (old : State) :
    s.cntAfter Addr.CNT_RD_ADDR v old = s.captureAt (s.reg Addr.CNT_RD_ADDR).toNat := rfl

theorem cntAfter_cfg (s : State) {k : Nat} (h : k < 2048) (v : Word) (old : State) :
    s.cntAfter (Addr.CNT_PC_CFG k) v old = s.pcConfigured k (old.reg (Addr.CNT_PC_CFG k)) := by
  unfold State.cntAfter
  rw [if_neg (by unfold Addr.CNT_PC_CFG Addr.CNT_CTRL Addr.CNT_DUMP_EVERY_N Addr.CNT_DUMP_INTERVAL; omega),
    if_neg (by unfold Addr.CNT_PC_CFG Addr.CNT_RD_ADDR; omega), if_pos (by unfold Addr.CNT_PC_CFG; omega)]
  dsimp only
  rw [if_neg (by unfold Addr.CNT_PC_CFG; omega), show (Addr.CNT_PC_CFG k - 0x94000) / 8 = k by unfold Addr.CNT_PC_CFG; omega]

theorem cntAfter_val (s : State) {k : Nat} (h : k < 2048) (v : Word) (old : State) :
    s.cntAfter (Addr.CNT_PC_VAL k) v old = s.pcValued k v := by
  unfold State.cntAfter
  rw [if_neg (by unfold Addr.CNT_PC_VAL Addr.CNT_CTRL Addr.CNT_DUMP_EVERY_N Addr.CNT_DUMP_INTERVAL; omega),
    if_neg (by unfold Addr.CNT_PC_VAL Addr.CNT_RD_ADDR; omega), if_pos (by unfold Addr.CNT_PC_VAL; omega)]
  dsimp only
  rw [if_pos (by unfold Addr.CNT_PC_VAL; omega), show (Addr.CNT_PC_VAL k - 0x94000) / 8 = k by unfold Addr.CNT_PC_VAL; omega]

theorem agenda_pcConfigured (s : State) (k : Nat) (w : Word) : (s.pcConfigured k w).agenda = s.agenda := by
  unfold State.pcConfigured
  split
  · rfl
  · exact agenda_snap ..

theorem agenda_pcValued (s : State) {k : Nat} (h : k < 2048) (v : Word) : (s.pcValued k v).agenda = s.agenda := by
  unfold State.pcValued
  extract_lets set src s1
  rw [agenda_setFBit _ _ _ (by unfold F.CNT_PC_OVF_ovf Addr.CNT_PC_OVF Addr.PLB_STATUS; dsimp only; omega), agenda_setCtr]
  exact agenda_snap ..

theorem stored_pcLate (s : State) (m a : Nat) (v : Word) : (s.stored m a v).pcLate = s.pcLate :=
  stored_beside State.pcLate (fun _ _ _ _ => rfl) s m a v

/-- Settles O33: the write rules of the counter registers, and a wrap that settling leaves as it is, since no enabled counter counts
edges. -/
theorem counterRegisters : Obligations.CounterRegisters := by
  refine ⟨?_, ?_, ?_, ?_, ?_, ?_, ?_⟩
  · intro s m v hcalm hadmits t a g ok c x
    have htakes := takes_cnt (c := .counterCapture m v) (by decide) rfl hcalm hadmits (cntAfter_capture ..) (agenda_captureAt ..)
    exact htakes
  · intro s m r v hcalm a hadmits
    have hrange : 0x90000 ≤ a ∧ a < 0xA0000 := by cases r <;> decide
    refine takes_cnt hrange (by cases r <;> rfl) hcalm hadmits ?_ (agenda_snap ..)
    rw [← stored_snap s m a v]
    refine if_pos ?_
    cases r
    · exact .inl rfl
    · exact .inr (.inl rfl)
    · exact .inr (.inr rfl)
  · intro s m k v hcalm hk hadmits t none'
    have hrange : 0x90000 ≤ Addr.CNT_PC_CFG k ∧ Addr.CNT_PC_CFG k < 0xA0000 := by unfold Addr.CNT_PC_CFG; omega
    have hagenda : (t.pcConfigured k (s.reg (Addr.CNT_PC_CFG k))).agenda = t.agenda := agenda_pcConfigured ..
    have heffect : t.pcConfigured k (s.reg (Addr.CNT_PC_CFG k)) = if (SMap.get none' k s.pcLate).isSome then t
        else { t with snap := { t.snap with pcLate := (s.now, SMap.set none' k (some (s.reg (Addr.CNT_PC_CFG k))) s.pcLate) } } := by
      unfold State.pcConfigured
      rw [stored_pcLate, stored_now]
    rw [← heffect]
    refine takes_cnt hrange rfl hcalm hadmits ?_ hagenda
    rw [cntAfter_cfg _ hk, show (s.setArmed m false).reg (Addr.CNT_PC_CFG k) = s.reg (Addr.CNT_PC_CFG k) from
      reg_setReg_other s (canonAddr_cnt hrange).2.2 _]
  · intro s m k v hcalm hk hadmits set t
    have hrange : 0x90000 ≤ Addr.CNT_PC_VAL k ∧ Addr.CNT_PC_VAL k < 0xA0000 := by unfold Addr.CNT_PC_VAL; omega
    have heffect : (s.stored m (Addr.CNT_PC_VAL k) v).pcValued k v
        = (t.setCtr (ctrKey 26 k 0) v.toNat).setFBit (F.CNT_PC_OVF_ovf (k / 32)) (k % 32) false := by
      obtain ⟨r, b, c, hstored⟩ := stored_regs s m (Addr.CNT_PC_VAL k) v
      simp only [t]
      rw [hstored]
      rfl
    rw [← heffect]
    exact takes_cnt hrange rfl hcalm hadmits (cntAfter_val _ hk ..) (agenda_pcValued _ hk v)
  · intro s k hcalm hdomain hk hon hlive hwritten hmode hchain halone hfull
    obtain ⟨v, hv⟩ : ∃ v, v = s.setCtr (ctrKey 26 k 0) 0 := ⟨_, rfl⟩
    have heffect : s.pcWrap k = v.pcOverflowed k := by
      rw [pcWrap_alone hfull halone hon hlive, pcIncr_full hwritten hfull, hchain, if_neg Bool.false_ne_true, hv]
    have hagenda : (v.pcOverflowed k).agenda = s.agenda := by rw [agenda_pcOverflowed _ hk, hv, agenda_setCtr]
    obtain ⟨hexec, hcounters⟩ := exec_pcOverflow hcalm heffect hagenda (by rw [pcOn_pcOverflowed _ hk, hv, pcOn_setCtr, hon])
      (by rw [pcField_pcOverflowed _ hk, hv, pcField_setCtr]; exact hmode)
    refine ⟨_, hexec, ?_, ?_, ?_⟩
    · rw [hcounters.ctr _ (ctrKey_pc (by omega)), pcOverflowed_ctr, hv, ctr_setCtr]
    · rw [hcounters.reg _ (pcReg_ovf hk), pcOverflowed_reg]
      exact bit_of_or _ (Nat.mod_lt _ (by decide))
    · refine concluded_sets ((rests_of_calm hcalm).of_agenda hagenda) (pcOverflowed_raised k ?_) (by decide) ?_
      · rw [hv]
        exact (calm_parts hcalm).2.2.2.2.1
      · rw [domainOn_pcOverflowed, hv]
        exact (Bool.or_eq_true _ _).mpr (.inl hdomain)
  · intro s k hcalm hk hon hlive hwritten hwritten' hmode hchain hfull hbelow
    obtain ⟨v, hv⟩ : ∃ v, v = s.setCtr (ctrKey 26 k 0) 0 := ⟨_, rfl⟩
    have hctr : v.ctr (ctrKey 26 (k + 1) 0) = s.ctr (ctrKey 26 (k + 1) 0) := by
      rw [hv]
      exact ctr_setCtr_other s (ctrKey_succ k).symm 0
    have heffect : s.pcWrap k = v.setCtr (ctrKey 26 (k + 1) 0) (s.ctr (ctrKey 26 (k + 1) 0) + 1) := by
      have hunwritten : v.pcWritten (k + 1) = false := by rw [hv]; exact hwritten'
      rw [pcWrap_alone hfull (pcChained_even s (pcChain_even hchain)) hon hlive, pcIncr_full hwritten hfull, hchain, if_pos rfl, ← hv,
        pcIncr_below hunwritten (by rw [hctr]; exact hbelow), hctr]
    obtain ⟨hexec, hcounters⟩ := exec_pcOverflow hcalm heffect (by rw [agenda_setCtr, hv, agenda_setCtr])
      (by rw [pcOn_setCtr, hv, pcOn_setCtr, hon]) (by rw [pcField_setCtr, hv, pcField_setCtr]; exact hmode)
    refine ⟨_, hexec, ?_, ?_, ?_⟩
    · rw [hcounters.ctr _ (ctrKey_pc (by omega)), ctr_setCtr_other _ (ctrKey_succ k), hv, ctr_setCtr]
    · rw [hcounters.ctr _ (ctrKey_pc (by omega)), ctr_setCtr]
    · rw [hcounters.reg _ (pcReg_ovf hk), hv]
      rfl
  · intro s k hcalm hdomain hk hon hlive hwritten hwritten' hmode hchain hfull hnext
    have heven := pcChain_even hchain
    obtain ⟨v, hv⟩ : ∃ v, v = s.setCtr (ctrKey 26 k 0) 0 := ⟨_, rfl⟩
    obtain ⟨w, hw⟩ : ∃ w, w = v.setCtr (ctrKey 26 (k + 1) 0) 0 := ⟨_, rfl⟩
    have hctr : v.ctr (ctrKey 26 (k + 1) 0) = 0xFFFFFFFF := by
      rw [hv, ctr_setCtr_other s (ctrKey_succ k).symm 0, hnext]
    have heffect : s.pcWrap (k + 1) = w.pcOverflowed (k + 1) := by
      have hunwritten : v.pcWritten (k + 1) = false := by rw [hv]; exact hwritten'
      rw [pcWrap_carried hfull hnext hchain hon hlive, pcIncr_full hwritten hfull, hchain, if_pos rfl, ← hv, pcIncr_full hunwritten hctr,
        pcChain_odd v heven, if_neg Bool.false_ne_true, hw]
    obtain ⟨hexec, hcounters⟩ := exec_pcOverflow hcalm heffect
      (by rw [agenda_pcOverflowed _ hk, hw, agenda_setCtr, hv, agenda_setCtr])
      (by rw [pcOn_pcOverflowed _ hk, hw, pcOn_setCtr, hv, pcOn_setCtr, hon])
      (by rw [pcField_pcOverflowed _ hk, hw, pcField_setCtr, hv, pcField_setCtr]; exact hmode)
    refine ⟨_, hexec, ?_, ?_, ?_⟩
    · rw [hcounters.ctr _ (ctrKey_pc (by omega)), pcOverflowed_ctr, hw, ctr_setCtr_other _ (ctrKey_succ k), hv, ctr_setCtr]
    · rw [hcounters.ctr _ (ctrKey_pc (by omega)), pcOverflowed_ctr, hw, ctr_setCtr]
    · have hshared : k / 32 = (k + 1) / 32 := by omega
      rw [hshared, hcounters.reg _ (pcReg_ovf hk), pcOverflowed_reg, hw, hv]
      rfl

/-! Snapshots (R382 to R384) -/

theorem agenda_latch (s : State) (periodic command : Bool) : (s.latch periodic command).agenda = s.agenda := by
  unfold State.latch
  extract_lets s1 w bw seq keep x
  rw [agenda_setF _ _ (by decide)]
  exact (agenda_snap s1 x).trans (agenda_count ..)

theorem periodicAt_free {s : State} (hdue : s.periodicDue = true) (hfree : s.snap.busy = false) : s.periodicAt = s.latch true false := by
  unfold State.periodicAt State.latchedNow
  rw [hdue, hfree]
  rfl

theorem periodicAt_busy {s : State} (hdue : s.periodicDue = true) (hbusy : s.snap.busy = true) (hold : s.snap.lastLatch ≠ s.now) :
    s.periodicAt = (({ s with snap := { s.snap with starts := 0 } } : State).count 28 0 2).raise F.CNT_EVENT_dump_overrun := by
  unfold State.periodicAt State.latchedNow
  rw [hdue, hbusy, decide_eq_false hold]
  rfl

/-- What a latch at the period shows. -/
theorem latch_shows (s : State) : let u := s.latch true false
    u.snap.busy = true ∧ u.snap.seq = (s.getF F.CNT_LAST_SEQ_snap_seq + 1) % 2 ^ 32 ∧ u.snap.time = s.trn.time ∧ u.snap.periodic = true
    ∧ u.snap.command = false ∧ u.snap.window = s.now - s.snap.lastLatch ∧ u.getF F.CNT_LAST_SEQ_snap_seq = u.snap.seq
    ∧ u.ctrs = (s.count 28 0 0).ctrs
    ∧ ∀ e ∈ (s.count 28 0 0).ctrs, s.instExists (e.1 / 2 ^ 20) (e.1 / 64 % 2 ^ 14) = true → e ∈ u.snap.values := by
  intro u
  refine ⟨rfl, rfl, rfl, rfl, rfl, rfl, ?_, rfl, fun e he hexists => ?_⟩
  · exact (getF_setF _ _ _ (by decide)).trans (Nat.mod_mod _ _)
  · exact List.mem_append_left _ (List.mem_filter.mpr ⟨he, hexists⟩)

/-- What an inclusion changes beside the snapshot are the registers of a capture. -/
theorem includeEvents_reg (s : State) {a : Nat} (h : a ≠ Addr.CNT_RD_VAL_LO ∧ a ≠ Addr.CNT_RD_VAL_HI ∧ a ≠ Addr.CNT_RD_STATUS) :
    s.includeEvents.reg a = s.reg a := by
  unfold State.includeEvents
  extract_lets keep src old bw s1
  have h1 : s1.reg a = s.reg a := by
    simp only [s1]
    split <;> rfl
  rw [← h1]
  split
  · unfold State.captureCtr
    extract_lets g i c ok x
    rw [reg_setF_other _ _ (by exact h.2.2), reg_setF_other _ _ (by exact h.2.2), reg_setReg_other _ h.2.1, reg_setReg_other _ h.1]
  · rfl

theorem agenda_includeEvents (s : State) : s.includeEvents.agenda = s.agenda := by
  unfold State.includeEvents
  extract_lets keep src old bw s1
  have h1 : s1.agenda = s.agenda := by
    simp only [s1]
    split
    · exact agenda_snap ..
    · rfl
  rw [← h1]
  split
  · exact agenda_captureCtr ..
  · rfl

theorem ringRuns_includeEvents (s : State) (r : Nat) : s.includeEvents.ringRuns r = s.ringRuns r := by
  unfold State.ringRuns State.domainOn State.getF
  rw [includeEvents_reg s (by decide), includeEvents_reg s (by decide), includeEvents_reg s (a := (F.HIF_RING_STATUS_state r).addr) ?_]
  unfold F.HIF_RING_STATUS_state Addr.HIF_RING_STATUS Addr.CNT_RD_VAL_LO Addr.CNT_RD_VAL_HI Addr.CNT_RD_STATUS
  dsimp only
  omega

/-- The record in the snapshot store is skipped. -/
def State.dumpSkipped (s : State) : State :=
  (({ s with snap := { s.snap with busy := false, values := [] } } : State).count 21 0 1).raise F.CNT_EVENT_dump_skipped

theorem agenda_dumpSkipped (s : State) : s.dumpSkipped.agenda = s.agenda := by
  unfold State.dumpSkipped
  rw [agenda_raise _ (by decide), agenda_count, agenda_snap]

theorem dumpWrite_skipped {s : State} (hbusy : s.snap.busy = true) (hring : s.ringRuns 0x101 = false) (hflight : s.hif.inflight = []) :
    s.dumpWrite = s.includeEvents.dumpSkipped := by
  have hidle : s.includeEvents.dumpSkipped.hif.inflight = [] :=
    (congrArg (fun x => x.2.2.2.1) ((agenda_dumpSkipped _).trans (agenda_includeEvents s))).trans hflight
  have hnone : ∀ (t : State) (i : RxInfo) (b : Blob), t = s.includeEvents → t.rxDeliver 0x101 i b = (false, t) := by
    rintro t i b rfl
    unfold State.rxDeliver
    dsimp only
    rw [ringRuns_includeEvents, hring]
    rfl
  unfold State.dumpWrite
  rw [hbusy, if_neg (by decide)]
  dsimp only
  rw [hnone _ _ _ rfl]
  dsimp only
  rw [if_neg Bool.false_ne_true]
  exact (congrArg (fun l => State.each _ (List.filter _ l) _) hidle).trans rfl

theorem Keep.hostPutBlob {s t : State} (h : Keep s t) (a : Nat) (b : Blob) : Keep s (t.hostPutBlob a b) :=
  h.upd rfl rfl rfl rfl rfl rfl rfl rfl rfl rfl

theorem Keep.rxWrite {s t : State} (h : Keep s t) (r n : Nat) (x : RxInfo) (b : Blob) : Keep s (t.rxWrite r n x b) := by
  unfold State.rxWrite
  extract_lets l s1 s2
  have h1 : Keep s s1 := h.each _ _ fun u i _ => (Keep.refl u).hostPutBlob _ _
  have h2 : Keep s s2 := h1.each _ _ fun u i _ => (Keep.refl u).hostWrite _ _
  exact h2.each _ _ fun u i _ => (Keep.refl u).hostPut _ _

/-- A delivery into a ring changes host memory, the ring's head and what of it has been signalled. -/
theorem Keep.rxDeliver {s t u : State} {r : Nat} {x : RxInfo} {b : Blob} {ok : Bool} (h : Keep s t) (hd : t.rxDeliver r x b = (ok, u)) :
    Keep s u := by
  unfold State.rxDeliver at hd
  dsimp only at hd
  split at hd
  · rw [← (Prod.mk.inj hd).2]
    exact Keep.ringPass _ _ ((h.rxWrite ..).ringAdvance _ _)
  · rw [← (Prod.mk.inj hd).2]
    exact h

/-- The record in the snapshot store has been written. -/
def State.dumpWritten (s : State) : State :=
  (({ s with snap := { s.snap with busy := false, values := [] } } : State).count 28 0 1).raise F.CNT_EVENT_dump_written

theorem Keep.dumpWritten {s t : State} (h : Keep s t) : Keep s t.dumpWritten :=
  h.trans (.of_agenda (by
    unfold State.dumpWritten
    rw [agenda_raise _ (by decide), agenda_count, agenda_snap]))

theorem dumpWrite_written {s x : State} (hbusy : s.snap.busy = true) (hflight : s.hif.inflight = [])
    (hring : s.includeEvents.rxDeliver 0x101 ⟨tsBytes s.includeEvents.snap.time s.includeEvents.snap.flags,
      s.includeEvents.snap.record.len / 64, 0, false⟩ s.includeEvents.snap.record = (true, x)) : s.dumpWrite = x.dumpWritten := by
  have hkeep : Keep s x.dumpWritten := ((Keep.of_agenda (agenda_includeEvents s)).rxDeliver hring).dumpWritten
  unfold State.dumpWrite
  rw [hbusy, if_neg (by decide)]
  dsimp only
  rw [hring]
  dsimp only
  rw [if_pos rfl]
  exact (congrArg (fun l => State.each _ (List.filter _ l) _) (hkeep.flight.trans hflight)).trans rfl

/-- Settles O34: the trigger's branches by the store's state, and the record, which a ring takes or not. -/
theorem snapshots : Obligations.Snapshots := by
  refine ⟨?_, ?_, ?_, ?_⟩
  · intro s hcalm hdue hfree u
    exact ⟨takes_of_agenda (f := fun s => s.periodicAt) rfl hcalm (periodicAt_free hdue hfree) (agenda_latch ..), latch_shows s⟩
  · intro s hcalm hdue hbusy hold
    refine takes_of_agenda (f := fun s => s.periodicAt) rfl hcalm (periodicAt_busy hdue hbusy hold) ?_
    rw [agenda_raise _ (by decide), agenda_count, agenda_snap]
  · intro s hcalm hbusy hring t
    exact takes_of_agenda (f := fun s => s.dumpWrite) rfl hcalm (dumpWrite_skipped hbusy hring (rests_of_calm hcalm).flight)
      ((agenda_dumpSkipped t).trans (agenda_includeEvents s))
  · intro s x hcalm hbusy t hring
    have hkeep : Keep s x.dumpWritten := ((Keep.of_agenda (agenda_includeEvents s)).rxDeliver hring).dumpWritten
    refine takes_keep hcalm ((run_calm hcalm fun s => s.dumpWrite).trans ?_) hkeep
    rw [dumpWrite_written hbusy (rests_of_calm hcalm).flight hring]
    rfl

end Sys2Proof.Machine
end

/-! ### The Keystone pair (R276 to R293) -/

section
namespace Sys2Proof.Machine

/-! Unit states -/

theorem unitState_of_reg {s t : State} (h : t.reg Addr.KEY_STATUS = s.reg Addr.KEY_STATUS) (u : Unit2) : t.unitState u = s.unitState u := by
  have hf : ∀ f : Fld, f.addr = Addr.KEY_STATUS → t.getF f = s.getF f := fun f hf => by
    unfold State.getF
    rw [hf, h]
  cases u
  · exact hf F.KEY_STATUS_state_a rfl
  · exact hf F.KEY_STATUS_state_b rfl

theorem activeUnit_of_reg {s t : State} (h : t.reg Addr.KEY_STATUS = s.reg Addr.KEY_STATUS) : t.activeUnit = s.activeUnit := by
  unfold State.activeUnit
  rw [unitState_of_reg h, unitState_of_reg h]

theorem unitState_setUnit (s : State) (u : Unit2) {v : Nat} (hv : v < 8) : (s.setUnit u v).unitState u = v := by
  cases u
  · exact (getF_setF s F.KEY_STATUS_state_a v (by decide)).trans (Nat.mod_eq_of_lt hv)
  · exact (getF_setF s F.KEY_STATUS_state_b v (by decide)).trans (Nat.mod_eq_of_lt hv)

theorem unitState_setUnit_other (s : State) (u : Unit2) (v : Nat) : (s.setUnit u v).unitState (other u) = s.unitState (other u) := by
  cases u
  · exact getF_setF_other s F.KEY_STATUS_state_a F.KEY_STATUS_state_b v (by decide) (by decide)
  · exact getF_setF_other s F.KEY_STATUS_state_b F.KEY_STATUS_state_a v (by decide) (by decide)

theorem reg_setUnit_other (s : State) (u : Unit2) (v : Nat) {a : Nat} (h : a ≠ Addr.KEY_STATUS) : (s.setUnit u v).reg a = s.reg a := by
  cases u
  · exact reg_setF_other s F.KEY_STATUS_state_a h v
  · exact reg_setF_other s F.KEY_STATUS_state_b h v

theorem getF_of_reg {s t : State} {f : Fld} (h : t.reg f.addr = s.reg f.addr) : t.getF f = s.getF f := by
  unfold State.getF
  rw [h]

theorem getB_of_reg {s t : State} {f : Fld} (h : t.reg f.addr = s.reg f.addr) : t.getB f = s.getB f := by
  unfold State.getB
  rw [getF_of_reg h]

/-- Without auto_resync no resync follows by itself. -/
theorem autoResync_of_off {s : State} (u : Unit2) (h : s.getB F.KEY_CTRL_auto_resync = false) : s.autoResync u = s := by
  unfold State.autoResync
  rw [h, Bool.and_false, Bool.false_and, if_neg Bool.false_ne_true]

/-! Self-tests (R278, R291) -/

theorem resyncFail_unit (s : State) (u : Unit2) : (s.resyncFail u).unitState u = 5 := by
  unfold State.resyncFail
  extract_lets k
  exact (unitState_of_reg (by rfl) u).trans (unitState_setUnit _ u (by decide))

theorem resyncFail_other (s : State) (u : Unit2) : (s.resyncFail u).unitState (other u) = s.unitState (other u) := by
  unfold State.resyncFail
  extract_lets k
  exact (unitState_of_reg (by rfl) _).trans ((unitState_setUnit_other _ u 5).trans (unitState_of_reg (by rfl) _))

theorem resyncFail_reg (s : State) (u : Unit2) {a : Nat} (h : a ≠ Addr.KEY_STATUS) : (s.resyncFail u).reg a = s.reg a := by
  unfold State.resyncFail
  extract_lets k
  exact (show _ = State.reg (State.setUnit _ u 5) a from rfl).trans ((reg_setUnit_other _ u 5 h).trans rfl)

theorem resyncFail_fails (s : State) (u : Unit2) : (s.resyncFail u).resyncFails u = s.resyncFails u + 1 := by
  cases u <;> rfl

theorem agenda_resyncFail (s : State) (u : Unit2) : (s.resyncFail u).agenda = s.agenda := by
  unfold State.resyncFail
  extract_lets k
  rw [agenda_raise _ (by decide), agenda_count, agenda_setUnit]
  cases u <;> rfl

theorem selfTest_failed {s : State} {u : Unit2} (hinit : s.unitState u = 1) (hphase : s.pwr.phase ≠ .keystones)
    (hauto : s.getB F.KEY_CTRL_auto_resync = false) : s.selfTest u false = s.resyncFail u := by
  have hkeep : (s.resyncFail u).autoResync u = s.resyncFail u :=
    autoResync_of_off u ((getB_of_reg (resyncFail_reg s u (by decide))).trans hauto)
  refine Eq.trans ?_ hkeep
  unfold State.selfTest
  rw [if_neg (not_not_intro hinit), if_neg hphase]
  exact if_pos rfl

theorem selfTest_passed {s : State} {u : Unit2} (hinit : s.unitState u = 1) (hphase : s.pwr.phase ≠ .keystones)
    (hother : s.unitState (other u) = 4) (hdouble : s.key.doubleFault = false) : s.selfTest u true = s.startFullCopy u := by
  unfold State.selfTest
  rw [if_neg (not_not_intro hinit), if_neg hphase, if_neg (by decide), if_neg (by simp [hother, hdouble])]

theorem keep_startFullCopy {s : State} (u : Unit2) (hdue : s.key.logDue = false) : Keep s (s.startFullCopy u) := by
  unfold State.startFullCopy
  extract_lets src k
  exact (Keep.same (s := s) (t := { s with key := k }) rfl rfl rfl rfl rfl rfl rfl rfl hdue.symm rfl).trans (.of_agenda (agenda_setUnit ..))

theorem acc_ne_plb {g m : Nat} : Addr.ACC_TABLE g m ≠ Addr.PLB_STATUS := by
  unfold Addr.ACC_TABLE Addr.PLB_STATUS
  omega

theorem agenda_keyGrants (s : State) (u : Unit2) (on : Bool) : (s.keyGrants u on).agenda = s.agenda := by
  unfold State.keyGrants
  extract_lets m s1
  rw [agenda_each _ _ _ fun t n _ => agenda_setReg t _ acc_ne_plb, agenda_each _ _ _ fun t n _ => agenda_setReg t _ acc_ne_plb]

theorem agenda_becomeActive (s : State) (u : Unit2) : (s.becomeActive u).agenda = s.agenda := by
  unfold State.becomeActive
  rw [agenda_keyGrants, agenda_setF _ _ (by decide), agenda_setUnit]

theorem keyGrants_key (s : State) (u : Unit2) (on : Bool) : (s.keyGrants u on).key = s.key := by
  unfold State.keyGrants
  extract_lets m s1
  have h1 : s1.key = s.key := by
    refine each_keeps (fun t => t.key = s.key) _ _ ?_ s rfl
    exact fun t g _ h => h
  refine each_keeps (fun t => t.key = s.key) _ _ ?_ s1 h1
  exact fun t n _ h => h

theorem setUnit_key (s : State) (u : Unit2) (v : Nat) : (s.setUnit u v).key = s.key := by
  cases u <;> rfl

theorem becomeActive_key (s : State) (u : Unit2) : (s.becomeActive u).key = s.key := by
  unfold State.becomeActive
  rw [keyGrants_key, key_setF, setUnit_key]

/-- Unit A passes its boot self-test before B has ended its own. -/
def State.bootFirst (s : State) : State := { s with key := { s.key with bootDoneA := some true } }

theorem selfTest_boot {s : State} (hinit : s.unitState .a = 1) (hphase : s.pwr.phase = .keystones) (hA : s.key.bootDoneA = none)
    (hB : s.key.bootDoneB = none) (hnets : s.pwr.fails = []) : s.selfTest .a true = s.bootFirst.becomeActive .a := by
  have hok : (true && !(s.pwr.fails.any fun e => decide (netKeystone e.1 = some Unit2.a))) = true := by
    rw [hnets]
    rfl
  have hpassed : s.bootFirst.bootPassed .a = s.bootFirst.becomeActive .a := by
    have hB' : s.bootFirst.key.bootDoneB = none := hB
    unfold State.bootPassed
    rw [hB']
    rfl
  have hwaits : (s.bootFirst.becomeActive .a).bootKeystones = s.bootFirst.becomeActive .a := by
    unfold State.bootKeystones
    rw [becomeActive_key, show s.bootFirst.key.bootDoneA = some true from rfl, show s.bootFirst.key.bootDoneB = none from hB]
  unfold State.selfTest
  rw [if_neg (not_not_intro hinit), if_pos hphase, if_pos (by unfold State.bootDone; rw [hA]; rfl)]
  unfold State.bootTestEnd
  rw [hok]
  exact (congrArg State.bootKeystones hpassed).trans hwaits

/-- Settles O35: a self-test's end by the boot phase, its outcome, and the state of the other unit. -/
theorem selfTests : Obligations.SelfTests := by
  refine ⟨?_, fun s u => ⟨resyncFail_unit s u, resyncFail_fails s u, resyncFail_other s u⟩, ?_⟩
  · intro s u hcalm hinit hphase hother hdouble
    refine ⟨?_, fun hauto => ⟨?_, ?_⟩⟩
    · refine takes_keep hcalm ((run_calm hcalm fun s => s.selfTest u true).trans ?_) (keep_startFullCopy u (rests_of_calm hcalm).due)
      rw [selfTest_passed hinit hphase hother hdouble]
      rfl
    · exact takes_of_agenda (f := fun s => s.selfTest u false) rfl hcalm (selfTest_failed hinit hphase hauto) (agenda_resyncFail s u)
    · exact takes_of_agenda (f := fun s => s.selfTest u false) rfl hcalm (selfTest_failed hinit hphase hauto) (agenda_resyncFail s u)
  · intro s hcalm hinit hphase hA hB hnets
    exact takes_of_agenda (f := fun s => s.selfTest .a true) rfl hcalm (selfTest_boot hinit hphase hA hB hnets)
      ((agenda_becomeActive ..).trans rfl)

/-! Checkpoints (R279 to R282) -/

/-- Changes of the conductor's log and copies that leave its requests. -/
theorem keep_key {s : State} {k : Keystone} (hqueue : k.ks.queue = s.key.ks.queue) (hdue : k.logDue = s.key.logDue) :
    Keep s { s with key := k } := Keep.same hqueue rfl rfl rfl rfl rfl rfl rfl hdue rfl

theorem keep_commitCheckpoint (s : State) (c : Ckpt) : Keep s (s.commitCheckpoint c) := by
  unfold State.commitCheckpoint
  extract_lets next src s1
  have h1 : Keep s s1 := keep_key rfl rfl
  exact h1.trans (.of_agenda (by rw [agenda_countN, agenda_count, agenda_setF _ _ (by decide)]))

theorem commitCheckpoint_reg (s : State) (c : Ckpt) {a : Nat} (h : a ≠ F.KEY_COPY_STATUS_last_ckpt_bytes.addr) :
    (s.commitCheckpoint c).reg a = s.reg a := by
  unfold State.commitCheckpoint
  extract_lets next src s1
  exact (show _ = (s1.setF F.KEY_COPY_STATUS_last_ckpt_bytes c.bytes).reg a from rfl).trans ((reg_setF_other s1 _ h _).trans rfl)

theorem commitCheckpoint_firstCkpt (s : State) (c : Ckpt) : (s.commitCheckpoint c).key.firstCkpt = s.key.firstCkpt := by
  unfold State.commitCheckpoint
  extract_lets next src s1
  rfl

theorem agenda_reachSynced (s : State) (u : Unit2) : (s.reachSynced u).agenda = s.agenda := by
  unfold State.reachSynced
  rw [agenda_dropCause, agenda_raise _ (by decide), agenda_count, agenda_setUnit]
  rfl

theorem takeCheckpoint_free {s : State} (h : s.key.inFlight = none) : s.takeCheckpoint =
    { s with freeCtr := s.freeCtr + 1
             key := { s.key with inFlight := some ⟨Config.freeNat s.freeCtr % (2 ^ 20 + 1), s.key.log.length, s.key.ks⟩, cyclesSinceCkpt := 0 } } := by
  unfold State.takeCheckpoint
  rewrite [h]
  rfl

theorem checkpointAt_free {s : State} {u : Unit2} (hactive : s.activeUnit = some u) (hsynced : s.unitState (other u) = 3)
    (hbusy : s.ksBusy = false) (heph : s.ephOn = false) :
    s.checkpointAt = ({ s with key := { s.key with cyclesSinceCkpt := 0 } } : State).takeCheckpoint := by
  have htakes : s.standbyTakes (other u) = true := by
    unfold State.standbyTakes
    rw [decide_eq_true hsynced, Bool.true_or]
  unfold State.checkpointAt
  rw [hactive]
  dsimp only
  rw [hbusy, htakes, heph]
  rfl

theorem checkpointEnd_lost {s : State} {u : Unit2} {c : Ckpt} (n : Nat) (hactive : s.activeUnit = some u) (hflight : s.key.inFlight = some c) :
    s.checkpointEnd false n = ({ s.countN 15 0 8 n with key := { s.key with inFlight := s.key.behind, behind := none } } : State).count 15 0 2 := by
  unfold State.checkpointEnd
  rw [hactive, hflight]
  rfl

theorem checkpointEnd_whole {s : State} {u : Unit2} {c : Ckpt} (n : Nat) (hactive : s.activeUnit = some u) (hflight : s.key.inFlight = some c) :
    s.checkpointEnd true n = (fun t : State => if s.key.firstCkpt && decide (s.unitState (other u) = 2) then t.reachSynced (other u) else t)
      ((s.countN 15 0 8 n).commitCheckpoint c) := by
  have hfirst : ((s.countN 15 0 8 n).commitCheckpoint c).key.firstCkpt = s.key.firstCkpt := commitCheckpoint_firstCkpt _ c
  have hunit : ((s.countN 15 0 8 n).commitCheckpoint c).unitState (other u) = s.unitState (other u) :=
    (unitState_of_reg (commitCheckpoint_reg _ c (by decide)) _).trans rfl
  unfold State.checkpointEnd
  rw [hactive, hflight]
  dsimp only
  rw [hfirst, hunit]
  rfl

/-- Settles O36: the checkpoint's three moments, each with what it leaves of the log and of the copies in flight. -/
theorem checkpoints : Obligations.Checkpoints := by
  refine ⟨?_, ?_, ?_⟩
  · intro s u hcalm hactive hsynced hbusy heph hfree c
    refine takes_of_agenda (f := fun s => s.checkpointAt) rfl hcalm ((checkpointAt_free hactive hsynced hbusy heph).trans ?_) rfl
    exact takeCheckpoint_free (by exact hfree)
  · intro s u c n hcalm hactive hflight x next done
    have hdone : done = x.commitCheckpoint c := rfl
    have hkeep : Keep s done := hdone ▸ (Keep.of_agenda (agenda_countN s 15 0 8 n)).trans (keep_commitCheckpoint x c)
    have hrun : ∀ b, exec (.checkpointCommit ⟨b, n⟩) s = .next (State.conclude s (s.checkpointEnd b n)) := fun b =>
      run_calm hcalm fun s => s.checkpointEnd b n
    refine ⟨fun hfirst => ?_, fun hfirst hresync => ?_, ?_⟩
    · refine takes_keep hcalm ((hrun true).trans ?_) hkeep
      rw [checkpointEnd_whole n hactive hflight, hfirst, hdone]
      rfl
    · refine takes_keep hcalm ((hrun true).trans ?_) (hkeep.trans (.of_agenda (agenda_reachSynced ..)))
      rw [checkpointEnd_whole n hactive hflight, hfirst, decide_eq_true hresync, hdone]
      rfl
    · refine takes_of_agenda (f := fun s => s.checkpointEnd false n) rfl hcalm (checkpointEnd_lost n hactive hflight) ?_
      exact (agenda_count ..).trans ((show _ = x.agenda from rfl).trans (agenda_countN ..))
  · intro s u hcalm hcopy hresync hfirst
    refine takes_of_agenda (f := fun s => s.fullCopyEnd) rfl hcalm ?_ ((agenda_setF _ _ (by decide)).trans rfl)
    unfold State.fullCopyEnd
    rw [hcopy]
    exact if_pos ⟨hresync, by rw [hfirst]; rfl⟩

/-! SAFE_HOLD (R300) -/

/-- Of the state `s` the parts that the entry into SAFE_HOLD leaves: MRAM, the clock, the conductor's state but for its requests, and
whether the core die runs. -/
structure HeldFrom (s t : State) : Prop where
  mram : t.mram = s.mram
  now : t.now = s.now
  stopped : t.stopped = s.stopped
  gapEnd : t.key.gapEnd = s.key.gapEnd
  gapAlarm : t.key.gapAlarm = s.key.gapAlarm
  doubleFault : t.key.doubleFault = s.key.doubleFault
  servo : t.key.ks.servo = s.key.ks.servo

namespace HeldFrom

theorem refl (s : State) : HeldFrom s s := ⟨rfl, rfl, rfl, rfl, rfl, rfl, rfl⟩

theorem trans {s t u : State} (h : HeldFrom s t) (g : HeldFrom t u) : HeldFrom s u :=
  ⟨g.mram.trans h.mram, g.now.trans h.now, g.stopped.trans h.stopped, g.gapEnd.trans h.gapEnd, g.gapAlarm.trans h.gapAlarm,
    g.doubleFault.trans h.doubleFault, g.servo.trans h.servo⟩

theorem of_plan {s t : State} (h : t.plan = s.plan) : HeldFrom s t :=
  have hkey : t.key = s.key := (congrArg State.key h :)
  ⟨(congrArg State.mram h :), (congrArg State.now h :), (congrArg State.stopped h :), by rw [hkey], by rw [hkey], by rw [hkey], by rw [hkey]⟩

theorem setF (s : State) (f : Fld) (v : Nat) : HeldFrom s (s.setF f v) := .of_plan (plan_setF s f v)

theorem refusePending (s : State) (code : Nat) : HeldFrom s (s.refusePending code) := by
  unfold State.refusePending
  split
  · exact refl s
  · exact ⟨rfl, rfl, rfl, rfl, rfl, rfl, rfl⟩

theorem endTest (s : State) : HeldFrom s s.endTest := by
  unfold State.endTest
  split
  · exact ⟨rfl, rfl, rfl, rfl, rfl, rfl, rfl⟩
  · exact refl s

end HeldFrom

/-- A state that SAFE_HOLD can be entered from. -/
def State.canHold (s : State) : Prop := s.dev ≠ .safeHold ∧ s.dev ≠ .off ∧ s.pwr.phase ≠ .held

/-- The monitor's channels order SAFE_HOLD. -/
def State.held (s : State) : State :=
  ({ s with dev := .safeHold, saf := { s.saf with safeA := true, safeB := true }, pwr := { s.pwr with phase := .none } } : State).raise
    F.SAF_EVENT_safe_hold

theorem held_fields (s : State) : s.held.dev = .safeHold ∧ s.held.saf.safeA = true ∧ s.held.saf.safeB = true
    ∧ s.held.saf.testing = s.saf.testing ∧ HeldFrom s s.held := ⟨rfl, rfl, rfl, rfl, rfl, rfl, rfl, rfl, rfl, rfl, rfl⟩

/-- A Plumb step in progress is abandoned. -/
def State.plumbGone (s : State) : State :=
  let drop := fun (l : List Grant) => l.filter fun g => !(decide (g.requester = 3) && decide (g.key < 100))
  (((({ s with key := { s.key with ks := { s.key.ks with grants := drop s.key.ks.grants, queue := drop s.key.ks.queue } } } :
    State).setF F.PLB_STATUS_abandoned 1).setF F.PLB_STATUS_plb_state 0).setF F.PLB_STATUS_step 0)

/-- A Plumb step or a boot-time test in progress, if there is one, is abandoned. -/
def State.plumbStopped (s : State) : State :=
  match s.pwr.phase with
  | .plumb _ _ _ => s.plumbGone
  | .bootTest _ => s.plumbGone
  | _ => s

/-- What SAFE_HOLD stops: connections, a pending activation, the queues it shuts, and a Plumb step. -/
def State.shut (s : State) : State :=
  let s1 := (s.each (s.ports.map Prod.fst) State.hardEnd).refusePending 0x03
  (s1.each ((s1.fab.queues.map Prod.fst).filter fun x =>
    (decide (x < 4096) && s1.safetyQ (x % 8)) || (decide (4096 ≤ x) && decide (x < 4160) && s1.safetyCpuQ (x - 4096)))
    State.flushQueue).plumbStopped

theorem heldFrom_plumbStopped (s : State) : HeldFrom s s.plumbStopped := by
  have hgone : HeldFrom s s.plumbGone := by
    unfold State.plumbGone
    extract_lets drop key
    refine HeldFrom.trans ?_ ((HeldFrom.setF _ _ _).trans ((HeldFrom.setF _ _ _).trans (HeldFrom.setF _ _ _)))
    exact ⟨rfl, rfl, rfl, rfl, rfl, rfl, rfl⟩
  unfold State.plumbStopped
  split
  · exact hgone
  · exact hgone
  · exact .refl s

theorem heldFrom_shut (s : State) : HeldFrom s s.shut := by
  unfold State.shut
  extract_lets s1
  have h1 : HeldFrom s s1 := (HeldFrom.of_plan (plan_each _ _ _ fun t p _ => plan_hardEnd t p)).trans (.refusePending _ _)
  exact (h1.trans (.of_plan (plan_each _ _ _ fun t x _ => plan_flushQueue t x))).trans (heldFrom_plumbStopped _)

theorem enterSafeHold_eq {s : State} (h : s.canHold) : s.enterSafeHold = s.shut.endTest.held := by
  unfold State.enterSafeHold
  rw [if_neg (fun hd => hd.elim h.1 fun hd => hd.elim h.2.1 h.2.2)]
  extract_lets s1 s2 drop gone s3 s4
  have h3 : s3 = s2.plumbStopped := by
    simp only [s3]
    unfold State.plumbStopped
    clear_value s2
    cases s2.pwr.phase <;> rfl
  have h4 : s4 = s2.plumbStopped.endTest := congrArg State.endTest h3
  clear_value s4
  subst h4
  rfl

/-- The entry into SAFE_HOLD. -/
theorem enterSafeHold_holds {s : State} (h : s.canHold) :
    s.enterSafeHold.dev = .safeHold ∧ s.enterSafeHold.saf.safeA = true ∧ s.enterSafeHold.saf.safeB = true
      ∧ s.enterSafeHold.saf.testing = none ∧ HeldFrom s s.enterSafeHold := by
  have htest : ∀ t : State, t.endTest.saf.testing = none := fun t => by
    unfold State.endTest
    split
    · rfl
    · next hnone => exact Option.not_isSome_iff_eq_none.mp hnone
  obtain ⟨hdev, hA, hB, htesting, hheld⟩ := held_fields s.shut.endTest
  rw [enterSafeHold_eq h]
  exact ⟨hdev, hA, hB, htesting.trans (htest _), (heldFrom_shut s).trans ((HeldFrom.endTest _).trans hheld)⟩

/-- SAFE_HOLD is left by no condition of the state table. -/
theorem devUpdate_safeHold {s : State} (h : s.dev = .safeHold) : s.devUpdate = s := by
  have hstep : s.devStep = s := by
    unfold State.devStep
    rw [if_neg (by rw [h]; exact fun hc => absurd hc.1 (by decide)), if_neg (by rw [h]; exact fun hc => absurd hc.1 (by decide)),
      if_neg (by rw [h]; exact fun hc => absurd hc.1 (by decide))]
  unfold State.devUpdate
  rw [hstep, hstep]

/-- What a command with an effect in SAFE_HOLD leaves beside registers, counters and host memory. -/
theorem takes_safeHold {c : Instr} {s u : State} (h : Takes c s u) (hdev : u.dev = .safeHold) :
    ∃ t, exec c s = .next t ∧ t.dev = .safeHold ∧ t.saf = u.saf ∧ t.key = u.key ∧ t.mram = u.mram ∧ t.stopped = u.stopped ∧ t.pwr = u.pwr := by
  obtain ⟨t, ht, hcore, -⟩ := h
  rw [devUpdate_safeHold hdev] at hcore
  exact ⟨t, ht, (congrArg State.dev hcore).trans hdev, (congrArg State.saf hcore :), (congrArg State.key hcore :),
    (congrArg State.mram hcore :), (congrArg State.stopped hcore :), (congrArg State.pwr hcore :)⟩

theorem heldFrom_ksLog (s : State) (kind : LogKind) : HeldFrom s (s.ksLog kind) ∧ (s.ksLog kind).dev = s.dev ∧ (s.ksLog kind).saf = s.saf := by
  unfold State.ksLog
  split
  · exact ⟨.refl s, rfl, rfl⟩
  · dsimp only
    split
    · exact ⟨⟨rfl, rfl, rfl, rfl, rfl, rfl, rfl⟩, rfl, rfl⟩
    · exact ⟨⟨rfl, rfl, rfl, rfl, rfl, rfl, rfl⟩, rfl, rfl⟩

/-- A SAFE report: the record and the entry into SAFE_HOLD. -/
def State.safeNoted (s : State) (diag inst : Nat) : State := ((s.endTest).persist diag 4 inst).faultInfo diag 4 inst

theorem react_safe (s : State) (diag inst a : Nat) : s.react diag 4 inst a = ((s.safeNoted diag inst).enterSafeHold).ksLog .safety :=
  congrArg (fun t => State.ksLog t .safety) ((if_neg (by decide)).trans (if_pos rfl))

theorem safeNoted_fields (s : State) (diag inst : Nat) : (s.safeNoted diag inst).dev = s.dev ∧ (s.safeNoted diag inst).pwr = s.pwr
    ∧ (s.safeNoted diag inst).key = s.key ∧ (s.safeNoted diag inst).stopped = s.stopped ∧ (s.safeNoted diag inst).now = s.now := by
  have htest : s.endTest.dev = s.dev ∧ s.endTest.pwr = s.pwr ∧ s.endTest.stopped = s.stopped ∧ s.endTest.now = s.now := by
    unfold State.endTest
    split <;> exact ⟨rfl, rfl, rfl, rfl⟩
  have hpersist : ∀ t : State, (t.persist diag 4 inst).dev = t.dev ∧ (t.persist diag 4 inst).pwr = t.pwr
      ∧ (t.persist diag 4 inst).stopped = t.stopped ∧ (t.persist diag 4 inst).now = t.now := fun t => by
    unfold State.persist
    extract_lets time e l again
    split <;> exact ⟨rfl, rfl, rfl, rfl⟩
  have hinfo : ∀ t : State, (t.faultInfo diag 4 inst).dev = t.dev ∧ (t.faultInfo diag 4 inst).pwr = t.pwr
      ∧ (t.faultInfo diag 4 inst).stopped = t.stopped ∧ (t.faultInfo diag 4 inst).now = t.now := fun t => by
    unfold State.faultInfo
    extract_lets time w
    split <;> exact ⟨rfl, rfl, rfl, rfl⟩
  obtain ⟨h1, h2, h3, h4⟩ := htest
  obtain ⟨p1, p2, p3, p4⟩ := hpersist s.endTest
  obtain ⟨i1, i2, i3, i4⟩ := hinfo (s.endTest.persist diag 4 inst)
  refine ⟨i1.trans (p1.trans h1), i2.trans (p2.trans h2), ?_, i3.trans (p3.trans h3), i4.trans (p4.trans h4)⟩
  unfold State.safeNoted
  rw [key_faultInfo, key_persist, key_endTest]

theorem canHold_safeNoted {s : State} (h : s.canHold) (diag inst : Nat) : (s.safeNoted diag inst).canHold := by
  obtain ⟨hdev, hpwr, -⟩ := safeNoted_fields s diag inst
  exact ⟨by rw [hdev]; exact h.1, by rw [hdev]; exact h.2.1, by rw [hpwr]; exact h.2.2⟩

/-- The device after a SAFE report. -/
theorem react_safe_holds {s : State} (h : s.canHold) (diag inst a : Nat) :
    (s.react diag 4 inst a).dev = .safeHold ∧ (s.react diag 4 inst a).saf.safeA = true ∧ (s.react diag 4 inst a).saf.safeB = true
      ∧ (s.react diag 4 inst a).saf.testing = none ∧ HeldFrom (s.safeNoted diag inst) (s.react diag 4 inst a) := by
  obtain ⟨hdev, hA, hB, htest, hheld⟩ := enterSafeHold_holds (canHold_safeNoted h diag inst)
  obtain ⟨hlog, hldev, hlsaf⟩ := heldFrom_ksLog (s.safeNoted diag inst).enterSafeHold .safety
  rw [react_safe]
  exact ⟨hldev.trans hdev, by rw [hlsaf]; exact hA, by rw [hlsaf]; exact hB, by rw [hlsaf]; exact htest, hheld.trans hlog⟩

/-! Faults of the pair (R283 to R285, R293) -/

theorem keystoneFaultAt_unit {s : State} {u : Unit2} {cause : Nat} (h : cause < 7) : s.keystoneFaultAt u cause = s.unitFault u cause :=
  if_neg (by omega)

theorem unitFault_conducting {s : State} {u : Unit2} (cause : Nat) (hactive : s.unitState u = 4) (hgap : s.inGap = false) :
    s.unitFault u cause = if s.unitState (other u) = 3 then s.startSwitch u cause false
      else s.doubleFaultAt u cause (s.unitState (other u)) (s.pastCause (other u)) := by
  have hsame : s.sameFault u = false := by
    unfold State.sameFault
    rw [hactive]
    simp
  have hsecond : s.sameSecond u = false := by
    unfold State.sameSecond
    rw [hactive]
    simp
  unfold State.unitFault
  dsimp only
  rw [hsame, hsecond, hgap, if_neg Bool.false_ne_true, if_neg Bool.false_ne_true, if_neg Bool.false_ne_true, if_pos hactive]

theorem unitFault_standby {s : State} {v : Unit2} (cause : Nat) (hsynced : s.unitState v = 3) (hbusy : s.ksBusy = false) :
    s.unitFault v cause = s.standbyFault v cause := by
  obtain ⟨hgap, hreplay⟩ := Bool.or_eq_false_iff.mp hbusy
  have hsame : s.sameFault v = false := by
    unfold State.sameFault
    rw [hsynced]
    simp
  have hsecond : s.sameSecond v = false := by
    unfold State.sameSecond
    rw [hsynced]
    simp
  unfold State.unitFault
  dsimp only
  rw [hsame, hsecond, hgap, hreplay, if_neg Bool.false_ne_true, if_neg Bool.false_ne_true, if_neg Bool.false_ne_true,
    if_neg (by rw [hsynced]; decide), if_pos (.inr hsynced), if_neg Bool.false_ne_true]

/-- The standby is FAILED, its copies stopped, and the fault recorded. -/
def State.standbyLost (s : State) (v : Unit2) (cause : Nat) : State :=
  (((s.setUnit v 5).stopCopies).keyFaultInfo cause v).raise F.KEY_EVENT_standby_fault

theorem rests_standbyLost {s : State} {n : Nat} (h : s.Rests n) (v : Unit2) (cause : Nat) : (s.standbyLost v cause).Rests 0 := by
  have hunit : (s.setUnit v 5).Rests n := h.of_agenda (agenda_setUnit ..)
  have hstop : (s.setUnit v 5).stopCopies.Rests 0 :=
    { hunit with due := rfl, log := Nat.le.refl }
  exact hstop.of_agenda ((agenda_raise _ (by decide)).trans (agenda_keyFaultInfo ..))

theorem reg_keyFaultInfo_other (s : State) (cause : Nat) (u : Unit2) {a : Nat}
    (h : a ≠ Addr.KEY_FAULT_INFO ∧ a ≠ Addr.KEY_SWITCH_SEC_LO ∧ a ≠ Addr.KEY_SWITCH_SEC_HI ∧ a ≠ Addr.KEY_SWITCH_NS) :
    (s.keyFaultInfo cause u).reg a = s.reg a := by
  obtain ⟨h1, h2, h3, h4⟩ := h
  unfold State.keyFaultInfo
  extract_lets t k
  rw [reg_setReg_other _ h4, reg_setReg_other _ h3, reg_setReg_other _ h2, reg_setReg_other _ h1]
  rfl

theorem plan_setUnit (s : State) (u : Unit2) (v : Nat) : (s.setUnit u v).plan = s.plan := by
  cases u
  · exact plan_setF s F.KEY_STATUS_state_a v
  · exact plan_setF s F.KEY_STATUS_state_b v

theorem plan_setRate (s : State) (f : Int) : (s.setRate f).plan = s.plan := by
  unfold State.setRate
  extract_lets r
  rw [plan_setF, plan_setF]

theorem plan_showServo (s : State) : s.showServo.plan = s.plan := by
  unfold State.showServo
  rw [plan_setF, plan_setF]

theorem plan_keyGrants (s : State) (u : Unit2) (on : Bool) : (s.keyGrants u on).plan = s.plan := by
  unfold State.keyGrants
  extract_lets m s1
  rw [plan_each _ _ _ fun t n _ => plan_setReg t _ _, plan_each _ _ _ fun t n _ => plan_setReg t _ _]

/-- In state `t` of a double fault in `s` the servo holds over, and the device stands as in `s`. -/
structure DoubleFault (s t : State) : Prop where
  dev : t.dev = s.dev
  pwr : t.pwr = s.pwr
  fault : t.key.doubleFault = true
  servo : t.key.ks.servo = .holdover

theorem DoubleFault.of_plan {s t v : State} (h : DoubleFault s t) (hp : v.plan = t.plan) : DoubleFault s v := by
  have hkey : v.key = t.key := (congrArg State.key hp :)
  exact ⟨(congrArg State.dev hp :).trans h.dev, (congrArg State.pwr hp :).trans h.pwr, by rw [hkey]; exact h.fault, by rw [hkey]; exact h.servo⟩

theorem DoubleFault.keyFaultInfo {s t : State} (h : DoubleFault s t) (cause : Nat) (u : Unit2) : DoubleFault s (t.keyFaultInfo cause u) := by
  unfold State.keyFaultInfo
  extract_lets time k
  have hk : DoubleFault s { t with key := { k with faultAt := some t.now, faultTime := time } } := ⟨h.dev, h.pwr, h.fault, h.servo⟩
  exact hk.of_plan (by rw [plan_setReg, plan_setReg, plan_setReg, plan_setReg])

theorem rests_stopCopies {s : State} {n : Nat} (h : s.Rests n) : s.stopCopies.Rests 0 := { h with due := rfl, log := Nat.le.refl }

/-- A double fault ends in SAFE_HOLD. -/
theorem doubleFaultAt_holds {s : State} {n : Nat} (hrests : s.Rests n) (h : s.canHold) (u : Unit2) (cause st2 cause2 : Nat) :
    (s.doubleFaultAt u cause st2 cause2).Rests 1 ∧ ∃ x : State, DoubleFault s x ∧ x.canHold
      ∧ s.doubleFaultAt u cause st2 cause2 = x.react (causeDiag cause) 4 (unitCode u) 0 := by
  have hrest1 : ∀ t : State, t.Rests 0 → (t.react (causeDiag cause) 4 (unitCode u) 0).Rests 1 := fun t ht =>
    ht.react _ _ _ (fun hd => by unfold causeDiag at hd; split at hd <;> exact absurd hd (by decide)) (by decide)
  unfold State.doubleFaultAt
  extract_lets u2 i s1 stopped src s2 s3 s4
  have h1 : s1.plan = s.plan := (plan_setUnit _ _ _).trans (plan_setUnit _ _ _)
  have hr2 : s2.Rests 0 := (rests_stopCopies (hrests.of_agenda ((agenda_setUnit _ _ _).trans (agenda_setUnit _ _ _)) : s1.Rests n)).of_agenda rfl
  have hd2 : DoubleFault s (s2.setKs fun k => { k with servo := .holdover, i := i, f := i }) := ⟨(congrArg State.dev h1 :), (congrArg State.pwr h1 :), rfl, rfl⟩
  have hr2' : (s2.setKs fun k => { k with servo := .holdover, i := i, f := i }).Rests 0 := hr2.of_agenda (agenda_setKs _ _ rfl)
  have hr3 : s3.Rests 0 := hr2'.of_agenda (by
    rw [agenda_raiseIf _ _ (by decide), agenda_raiseIf _ _ (by decide), agenda_setRate])
  have hd3 : DoubleFault s s3 := hd2.of_plan (by rw [plan_raiseIf, plan_raiseIf, plan_setRate])
  have hr4 : s4.Rests 0 := hr3.of_agenda (by
    rw [agenda_setF _ _ (by decide), agenda_setF _ _ (by decide), agenda_keyFaultInfo, agenda_showServo])
  have hd4 : DoubleFault s s4 := ((hd3.of_plan (plan_showServo s3)).keyFaultInfo cause u).of_plan (by rw [plan_setF, plan_setF])
  have hd5 : DoubleFault s (((s4.keyGrants .a false).keyGrants .b false).raise F.KEY_EVENT_double_fault) :=
    hd4.of_plan (by rw [plan_raise, plan_keyGrants, plan_keyGrants])
  refine ⟨hrest1 _ (hr4.of_agenda (by rw [agenda_raise _ (by decide), agenda_keyGrants, agenda_keyGrants])), _, hd5, ?_, rfl⟩
  exact ⟨by rw [hd5.dev]; exact h.1, by rw [hd5.dev]; exact h.2.1, by rw [hd5.pwr]; exact h.2.2⟩

theorem causeDiag_ne (cause : Nat) : causeDiag cause ≠ 0x16 := by
  unfold causeDiag
  split <;> decide

theorem reg_endTest (s : State) (a : Nat) : s.endTest.reg a = s.reg a := by
  unfold State.endTest
  split <;> rfl

theorem reg_persist (s : State) (diag cls inst a : Nat) : (s.persist diag cls inst).reg a = s.reg a := by
  unfold State.persist
  extract_lets time e l again
  split <;> rfl

theorem reg_addCause (s : State) (c : Cause) (a : Nat) : (s.addCause c).reg a = s.reg a := by
  unfold State.addCause
  split <;> rfl

theorem reg_faultInfo_other (s : State) (diag cls inst : Nat) {a : Nat} (h : a ≠ F.SAF_FAULT_INFO_diag.addr ∧ a ≠ Addr.SAF_FAULT_SEC_LO
    ∧ a ≠ Addr.SAF_FAULT_SEC_HI ∧ a ≠ Addr.SAF_FAULT_NS) : (s.faultInfo diag cls inst).reg a = s.reg a := by
  unfold State.faultInfo
  extract_lets t w
  split
  · rfl
  · rw [reg_setReg_other _ h.2.2.2, reg_setReg_other _ h.2.2.1, reg_setReg_other _ h.2.1, reg_setReg_other _ h.1]

theorem reg_raise (s : State) (f : Fld) (a : Nat) : (s.raise f).reg a = s.reg a := (rfl)

theorem reg_ksLog_other (s : State) (kind : LogKind) {a : Nat} (h : a ≠ F.KEY_LOG_STATUS_log_peak.addr) : (s.ksLog kind).reg a = s.reg a := by
  unfold State.ksLog
  split
  · rfl
  · dsimp only
    split
    · exact (reg_setF_other _ _ h _).trans rfl
    · rfl

/-- A REDUNDANCY report writes its own registers alone. -/
theorem react_redundancy_reg (s : State) (diag inst at_ : Nat) {a : Nat} (h : a ≠ F.SAF_FAULT_INFO_diag.addr ∧ a ≠ Addr.SAF_FAULT_SEC_LO
    ∧ a ≠ Addr.SAF_FAULT_SEC_HI ∧ a ≠ Addr.SAF_FAULT_NS) (hlog : a ≠ F.KEY_LOG_STATUS_log_peak.addr) :
    (s.react diag 1 inst at_).reg a = s.reg a := by
  rw [react_redundancy, reg_ksLog_other _ _ hlog, reg_addCause]
  unfold State.faultNoted
  rw [reg_raise, reg_count, reg_faultInfo_other _ _ _ _ h, reg_persist, reg_endTest]

theorem standbyLost_ctrl (s : State) (v : Unit2) (cause : Nat) : (s.standbyLost v cause).reg Addr.KEY_CTRL = s.reg Addr.KEY_CTRL := by
  have hstop : ∀ t : State, t.stopCopies.reg Addr.KEY_CTRL = t.reg Addr.KEY_CTRL := fun t => rfl
  unfold State.standbyLost
  rw [reg_raise, reg_keyFaultInfo_other _ _ _ (by decide), hstop, reg_setUnit_other _ _ _ (by decide)]

/-- The fault of a SYNCED standby, without auto_resync. -/
theorem standbyFault_synced {s : State} {v : Unit2} {cause : Nat} (hsynced : s.unitState v = 3) (hauto : s.getB F.KEY_CTRL_auto_resync = false) :
    s.standbyFault v cause = (s.standbyLost v cause).react (causeDiag cause) 1 (unitCode v) 0 := by
  have hkeep : ((s.standbyLost v cause).react (causeDiag cause) 1 (unitCode v) 0).autoResync v
      = (s.standbyLost v cause).react (causeDiag cause) 1 (unitCode v) 0 := by
    refine autoResync_of_off v ((getB_of_reg ?_).trans hauto)
    exact (react_redundancy_reg _ _ _ _ (by decide) (by decide)).trans (standbyLost_ctrl s v cause)
  refine Eq.trans ?_ hkeep
  unfold State.standbyFault
  dsimp only
  rw [if_neg (by rw [hsynced]; decide)]
  rfl

/-- The gap of a switchover begins: it ends 96 core cycles after `now`, and the alarm outputs hold their levels. -/
def State.gapStarted (s : State) (now time : Nat) (alarms : Bool × Bool) : State :=
  { s with key := { s.key with gapEnd := some (now + 96), gapTime := time, forced := false, inFlight := none, behind := none,
                               gapAlarm := alarms } }

theorem keyFaultInfo_now (s : State) (cause : Nat) (u : Unit2) : (s.keyFaultInfo cause u).now = s.now ∧ (s.keyFaultInfo cause u).trn = s.trn := by
  unfold State.keyFaultInfo
  extract_lets t k
  exact ⟨rfl, rfl⟩

theorem setUnit_now (s : State) (u : Unit2) (v : Nat) : (s.setUnit u v).now = s.now ∧ (s.setUnit u v).trn = s.trn := by
  cases u <;> exact ⟨rfl, rfl⟩

theorem startSwitch_fault (s : State) (u : Unit2) (cause : Nat) : s.startSwitch u cause false =
    ((s.setUnit u 5).keyFaultInfo cause u).gapStarted s.now s.trn.time (s.alarm .a, s.alarm .b) := by
  have h : s.startSwitch u cause false = ((s.setUnit u 5).keyFaultInfo cause u).gapStarted ((s.setUnit u 5).keyFaultInfo cause u).now
      ((s.setUnit u 5).keyFaultInfo cause u).trn.time (s.alarm .a, s.alarm .b) := rfl
  rw [h, (keyFaultInfo_now _ _ _).1, (keyFaultInfo_now _ _ _).2, (setUnit_now _ _ _).1, (setUnit_now _ _ _).2]

theorem agenda_gapStarted (s : State) (now time : Nat) (alarms : Bool × Bool) : (s.gapStarted now time alarms).agenda = s.agenda := (rfl)

/-- Settles O37: a fault of the conducting unit is a switchover or a double fault by the other unit's state, one of the standby stops the
copies. -/
theorem keystoneFaults : Obligations.KeystoneFaults := by
  refine ⟨?_, ?_, ?_⟩
  · intro s u c hcalm hcause hactive hsynced hbusy t
    have heffect : s.keystoneFaultAt u (causeCode c) = t.gapStarted s.now s.trn.time (s.alarm .a, s.alarm .b) := by
      rw [keystoneFaultAt_unit hcause, unitFault_conducting _ hactive (Bool.or_eq_false_iff.mp hbusy).1, if_pos hsynced, startSwitch_fault]
    exact takes_of_agenda (f := fun s => s.keystoneFaultAt u (causeCode c)) rfl hcalm heffect
      ((agenda_gapStarted ..).trans ((agenda_keyFaultInfo ..).trans (agenda_setUnit s u 5)))
  · intro s u v c hcalm hsynced hother hactive hcharged hbusy hauto
    have hfault : s.keystoneFaultAt u (causeCode c) = s.unitFault v (causeCode c) := by
      by_cases h : causeCode c < 7
      · rw [if_pos h] at hcharged
        rw [keystoneFaultAt_unit h, hcharged]
      · unfold State.keystoneFaultAt
        rw [if_pos (by omega), hactive]
        cases v <;> rfl
    have hrests := (rests_standbyLost (rests_of_calm hcalm) v (causeCode c)).react (causeDiag (causeCode c)) 1 (unitCode v)
      (at_ := 0) (fun h => absurd h (causeDiag_ne _)) (by decide)
    refine takes_of_rests (f := fun s => s.keystoneFaultAt u (causeCode c)) rfl hcalm ?_ hrests
    exact hfault.trans ((unitFault_standby _ hsynced hbusy).trans (standbyFault_synced hsynced hauto))
  · intro s u c hcalm hcause hactive hother hgap hdev hoff hphase
    obtain ⟨hrests, x, hx, hxhold, heq⟩ := doubleFaultAt_holds (rests_of_calm hcalm) ⟨hdev, hoff, hphase⟩ u (causeCode c)
      (s.unitState (other u)) (s.pastCause (other u))
    have hne : s.unitState (other u) ≠ 3 := by
      intro h
      rw [h] at hother
      exact absurd hother (by decide)
    have htakes : Takes (.keystoneFault u c) s (s.doubleFaultAt u (causeCode c) (s.unitState (other u)) (s.pastCause (other u))) := by
      refine takes_of_rests (f := fun s => s.keystoneFaultAt u (causeCode c)) rfl hcalm ?_ hrests
      rw [keystoneFaultAt_unit hcause, unitFault_conducting _ hactive hgap, if_neg hne]
    obtain ⟨hsafe, hA, hB, -, hheld⟩ := react_safe_holds hxhold (causeDiag (causeCode c)) (unitCode u) 0
    rw [heq] at htakes
    obtain ⟨t, ht, htdev, htsaf, htkey, -⟩ := takes_safeHold htakes hsafe
    obtain ⟨-, -, hkey, -⟩ := safeNoted_fields x (causeDiag (causeCode c)) (unitCode u)
    refine ⟨t, ht, htdev, ?_, ?_, ?_, ?_⟩
    · rw [htkey, hheld.doubleFault, hkey]
      exact hx.fault
    · rw [htkey, hheld.servo, hkey]
      exact hx.servo
    · rw [htsaf]
      exact hA
    · rw [htsaf]
      exact hB

end Sys2Proof.Machine
end

/-! ### KEY.COMMAND and the replay of the conductor log (R286, R287, R290, R291) -/

section
namespace Sys2Proof.Machine

theorem stored_freeCtr (s : State) (m a : Nat) (v : Word) : (s.stored m a v).freeCtr = s.freeCtr :=
  stored_beside State.freeCtr (fun _ _ _ _ => rfl) s m a v

theorem stored_unit_reg (s : State) (m : Nat) (v : Word) : (s.stored m Addr.KEY_COMMAND v).reg Addr.KEY_STATUS = s.reg Addr.KEY_STATUS :=
  stored_reg s m Addr.KEY_COMMAND v Addr.KEY_STATUS (by decide) (by decide)

/-- What an armed write of KEY.COMMAND starts. -/
theorem after_command (s : State) (m : Nat) (v : Word) (old : State) : s.after m Addr.KEY_COMMAND true v old
    = (s.doIf (decide (fldOf v 0 1 = 1)) State.forceSwitchAt).doIf (decide (fldOf v 1 1 = 1)) State.resyncAt := by
  rw [after_key (by decide)]
  rfl

theorem forceSwitchAt_refused {s : State} {u : Unit2} (hactive : s.activeUnit = some u) (h : s.unitState (other u) ≠ 3) :
    s.forceSwitchAt = s.raise F.KEY_EVENT_force_refused := by
  unfold State.forceSwitchAt
  rw [hactive]
  exact if_pos (.inr h)

theorem commitCheckpoint_flight (s : State) (x : Option Ckpt) (c : Ckpt) :
    ({ s with key := { s.key with inFlight := x } } : State).commitCheckpoint c = s.commitCheckpoint c := (rfl)

/-- The checkpoint that a planned switchover hands over is committed before the gap. -/
theorem forceSwitchAt_accepted {s : State} {u : Unit2} (hactive : s.activeUnit = some u) (hgap : s.inGap = false)
    (h : s.unitState (other u) = 3) : s.forceSwitchAt =
    (({ s with freeCtr := s.freeCtr + 1, key := { s.key with cyclesSinceCkpt := 0, behind := none } } : State).commitCheckpoint
      ⟨Config.freeNat s.freeCtr % (2 ^ 20 + 1), s.key.log.length, s.key.ks⟩).startSwitch u 9 true := by
  unfold State.forceSwitchAt
  rw [hactive]
  dsimp only
  rw [if_neg (by rw [hgap]; exact fun hc => hc.elim Bool.false_ne_true fun hc => hc h), takeCheckpoint_free rfl]
  dsimp only
  refine congrArg (fun t : State => t.startSwitch u 9 true) ?_
  exact commitCheckpoint_flight { s with freeCtr := s.freeCtr + 1, key := { s.key with cyclesSinceCkpt := 0, behind := none } } _ _

theorem resyncAt_failed {s : State} {u : Unit2} (hfailed : s.unitState u = 5) (hother : s.unitState (other u) ≠ 5)
    (hdouble : s.key.doubleFault = false) (hserved : s.activeUnit.isSome ∨ s.inGap) : s.resyncAt = s.resyncStart u := by
  have hserves : (s.activeUnit.isSome || s.inGap) = true := (Bool.or_eq_true _ _).mpr hserved
  unfold State.resyncAt
  dsimp only
  rw [hdouble, hserves, if_neg (by decide)]
  cases u
  · rw [if_pos (by rw [decide_eq_true hfailed, decide_eq_true hother]; rfl)]
  · have hA : s.unitState .a ≠ 5 := hother
    rw [if_neg (by rw [decide_eq_false hA, Bool.false_and]; exact Bool.false_ne_true),
      if_pos (by rw [decide_eq_true hfailed, decide_eq_true (by exact hA)]; rfl)]

theorem agenda_startForced (s : State) (u : Unit2) (cause : Nat) : (s.startSwitch u cause true).agenda = s.agenda :=
  (show _ = (s.keyFaultInfo cause u).agenda from rfl).trans (agenda_keyFaultInfo ..)

/-- Settles O38: the write's bit selects the command, which goes by the states of the two units. -/
theorem keystoneCommands : Obligations.KeystoneCommands := by
  refine ⟨?_, ?_⟩
  · intro s m v u hcalm hadmits harmed hforce hresync hactive hbusy t
    have hactive' : t.activeUnit = some u := (activeUnit_of_reg (stored_unit_reg s m v)).trans hactive
    have hunit : ∀ x, t.unitState x = s.unitState x := unitState_of_reg (stored_unit_reg s m v)
    have hafter : t.after m Addr.KEY_COMMAND (s.armed m) v (s.setArmed m false) = t.forceSwitchAt := by
      rw [harmed, after_command, hforce, hresync]
      rfl
    refine ⟨fun hother => ?_, ?_⟩
    · exact takes_write rfl hcalm hadmits (canonAddr_self (by decide)) (by decide)
        (hafter.trans (forceSwitchAt_refused hactive' (hunit _ ▸ hother))) (agenda_raise _ (by decide))
    · intro hother c
      have hgap : t.inGap = false := (Bool.or_eq_false_iff.mp ((stored_ksBusy s m _ v).trans hbusy)).1
      have hkeep : Keep t ({ t with freeCtr := s.freeCtr + 1, key := { t.key with cyclesSinceCkpt := 0, behind := none } } : State) :=
        .of_agenda rfl
      have hstored : t.Rests s.key.log.length := (rests_of_calm hcalm).stored (by decide)
      refine takes_write_of_rests rfl hcalm hadmits (canonAddr_self (by decide)) ?_
        (((hstored.of_keep (hkeep.trans (keep_commitCheckpoint _ c)) Nat.le.refl)).of_agenda (agenda_startForced _ u 9))
      rw [hafter, forceSwitchAt_accepted hactive' hgap ((hunit _).trans hother), show t.freeCtr = s.freeCtr from stored_freeCtr s m _ v,
        show t.key = s.key from stored_key s m _ v]
  · intro s m v u hcalm hadmits harmed hforce hresync hfailed hother hdouble hserved
    refine takes_write rfl hcalm hadmits (canonAddr_self (by decide)) (by decide) ?_ ((agenda_raise _ (by decide)).trans (agenda_setUnit ..))
    rw [harmed, after_command, hforce, hresync]
    have hunit := unitState_of_reg (stored_unit_reg s m v)
    refine Eq.trans (b := (s.stored m Addr.KEY_COMMAND v).resyncAt) rfl ?_
    refine resyncAt_failed ((hunit u).trans hfailed) (by rw [hunit]; exact hother) (by rw [stored_key]; exact hdouble) ?_
    rw [activeUnit_of_reg (stored_unit_reg s m v)]
    exact hserved.imp id fun h => (stored_beside State.inGap (fun _ _ _ _ => rfl) s m _ v).trans h

/-- Settles O39: the replay takes the state of the log's last entry; with an empty list of deferred inputs nothing else is served. -/
theorem replayAppliesTheLog : Obligations.ReplayAppliesTheLog := by
  refine ⟨?_, ?_⟩
  · intro s r l hcalm hgap hreplay hlog hdeferred hoff hqueue
    have hlast : (s.key.log.getLast?.map LogRec.after).getD s.key.ks = r.after := by
      rw [hlog, List.getLast?_concat]
      rfl
    have hlen : s.key.log.length = l.length + 1 := by rw [hlog, List.length_append]; rfl
    have heffect : s.serveDeferred = ({ s with key := { s.key with ks := { r.after with pend := s.fly.armed }, log := [], replay := false } } :
        State).countN 15 0 5 (l.length + 1) := by
      unfold State.serveDeferred
      rw [if_neg (by rw [hgap, hreplay, Bool.true_or]; decide)]
      dsimp only
      rw [if_pos hreplay, if_pos hreplay, if_neg (by rw [hoff]; decide), hlast, hlen, hdeferred]
      refine congrArg (fun k : Keystone => ({ s with key := k } : State).countN 15 0 5 (l.length + 1)) ?_
      rw [← hdeferred]
    refine takes_of_rests (f := fun s => s.serveDeferred) (n := 0) rfl hcalm heffect ?_
    have hreplayed : ({ s with key := { s.key with ks := { r.after with pend := s.fly.armed }, log := [], replay := false } } : State).Rests 0 :=
      { rests_of_calm hcalm with queue := hqueue, log := Nat.le.refl }
    exact hreplayed.of_agenda (agenda_countN ..)
  · intro s hcalm hgap
    refine idles_of (f := fun s => s.serveDeferred) rfl hcalm ?_
    exact if_pos (by rw [hgap]; rfl)

end Sys2Proof.Machine
end

/-! ### Alarm tests, temperature, votes and the random source (R303, R308, R371, R417, R420) -/

section
namespace Sys2Proof.Machine

theorem stored_saf (s : State) (m a : Nat) (v : Word) : (s.stored m a v).saf = s.saf :=
  stored_beside State.saf (fun _ _ _ _ => rfl) s m a v

/-- A test starts where none runs and the output may be released. -/
theorem alarmTestStart_free {s : State} (u : Unit2) (htest : s.saf.testing = none) (hdev : s.dev ≠ .safeHold) (hA : s.saf.safeA = false)
    (hB : s.saf.safeB = false) : s.alarmTestStart u = { s with saf := { s.saf with testing := some u } } := by
  have hsafe : (match u with | .a => s.saf.safeA | .b => s.saf.safeB) = false := by
    cases u
    · exact hA
    · exact hB
  unfold State.alarmTestStart
  rw [htest, decide_eq_false hdev]
  cases u
  · rewrite [hA]
    simp
  · rewrite [hB]
    simp

theorem alarmTestWrite_unit {s : State} {v : Nat} {u : Unit2} (h : v % 4 = 1 + unitCode u) : s.alarmTestWrite v = s.alarmTestStart u := by
  unfold State.alarmTestWrite
  rw [h]
  cases u <;> rfl

/-- The junction temperature above its limit. -/
theorem tempAt_over {s : State} {x : BitVec 16} (h : 1760 < x.toInt) :
    s.tempAt x = ((s.setF F.SAF_TEMP_junction_temp x.toNat).raise F.SAF_EVENT_over_temp).react 0x17
      (if s.getB F.SAF_CTRL_thermal_hold then 4 else 0) 0 0 := by
  have hctrl : ((s.setF F.SAF_TEMP_junction_temp x.toNat).getB F.SAF_CTRL_thermal_hold) = s.getB F.SAF_CTRL_thermal_hold :=
    getB_of_reg (reg_setF_other s F.SAF_TEMP_junction_temp (by decide) _)
  unfold State.tempAt
  rw [if_pos (by omega)]
  unfold State.overTemp
  rw [hctrl]

theorem tempAt_under {s : State} {x : BitVec 16} (h : x.toInt ≤ 1760) : s.tempAt x = s.setF F.SAF_TEMP_junction_temp x.toNat :=
  if_neg (by omega)

/-- Two equal copies of a field rewrite the third. -/
theorem voteField_second {s : State} {a x y : Nat} {f : FieldDesc} (h : s.copies a f = (x, y, x)) (hne : x ≠ y) :
    s.voteField a a f = (s.setRegBits a (BitVec.ofNat 32 ((2 ^ f.width - 1) * 2 ^ f.lo)) (BitVec.ofNat 32 (x * 2 ^ f.lo))).tmrReport a
      (BitVec.ofNat 32 ((x ^^^ y) * 2 ^ f.lo)) false := by
  unfold State.voteField
  rw [h]
  dsimp only
  rw [if_neg (fun hc => hne hc.1), if_neg hne, if_pos rfl]

theorem voteAll_single {s : State} {a : Nat} {w : Word} {d : RegDesc} {f : FieldDesc} (hB : s.tmrB = [(a, w)]) (hC : s.tmrC = [])
    (hdesc : regDesc a = some d) (hfields : d.fields.filter FieldDesc.tmr = [f]) : s.voteAll = s.voteField a a f := by
  have hreg : s.voteReg a a = s.voteField a a f := by
    unfold State.voteReg
    rw [hdesc]
    dsimp only
    rw [hfields]
    rfl
  unfold State.voteAll
  rw [hB, hC]
  exact hreg

/-- A register whose fields are voted is not PLB.STATUS, which has none in three copies. -/
theorem voted_ne_plb {a : Nat} {d : RegDesc} {f : FieldDesc} (hdesc : regDesc a = some d) (hfields : d.fields.filter FieldDesc.tmr = [f]) :
    a ≠ Addr.PLB_STATUS := by
  rintro rfl
  have hnone : (regDesc Addr.PLB_STATUS).all (fun d => (d.fields.filter FieldDesc.tmr).isEmpty) = true := by decide
  rw [hdesc, Option.all_some, hfields] at hnone
  exact absurd hnone Bool.false_ne_true

theorem agenda_voteNoted (s : State) {a : Nat} (hplb : a ≠ Addr.PLB_STATUS) (mask w bits : Word) (at_ : Word) :
    (((((s.setRegBits a mask w).setReg Addr.SYS_TMR_ERR at_).setReg Addr.SYS_TMR_ERR_BITS bits).count 16 0 2).raise
      F.SAF_EVENT_tmr_corrected).agenda = s.agenda := by
  rw [agenda_raise _ (by decide), agenda_count, agenda_setReg _ _ (by decide), agenda_setReg _ _ (by decide), agenda_setRegBits _ _ _ hplb]

/-- Settles O41: the alarm test, the temperature sample and the background vote, each by its condition. -/
theorem alarmsTemperatureVotes : Obligations.AlarmsTemperatureVotes := by
  refine ⟨?_, ?_, ?_, ?_, ?_⟩
  · intro s m v u hcalm hadmits harmed hunit htest hdev hA hB t
    refine takes_write rfl hcalm hadmits (canonAddr_self (by decide)) (by decide) ?_ rfl
    rw [harmed, after_alarmTest, if_pos rfl, alarmTestWrite_unit hunit]
    have hsaf : t.saf = s.saf := stored_saf s m _ v
    exact alarmTestStart_free u (by rw [hsaf]; exact htest) (by rw [show t.dev = s.dev from stored_dev s m _ v]; exact hdev)
      (by rw [hsaf]; exact hA) (by rw [hsaf]; exact hB)
  · intro s hcalm htest
    exact takes_of_agenda (f := fun s => s.alarmTestEnd) rfl hcalm (if_pos htest) ((agenda_raise _ (by decide)).trans rfl)
  · intro s x hcalm t
    have ht : t.agenda = s.agenda := agenda_setF _ _ (by decide)
    refine ⟨fun hx => ?_, fun hx hlog => ⟨fun hhold => ?_, fun hhold => ?_⟩⟩
    · exact takes_of_agenda (f := fun s => s.tempAt x) rfl hcalm (tempAt_under hx) ht
    · refine takes_ksLog_of_agenda (f := fun s => s.tempAt x) rfl hcalm hlog ?_
        ((agenda_raise _ (by decide)).trans ((agenda_count ..).trans ((agenda_endTest _).trans ((agenda_raise _ (by decide)).trans ht))))
      rw [tempAt_over hx, hhold]
      exact react_masked ..
    · refine takes_of_rests (f := fun s => s.tempAt x) rfl hcalm ?_
        (((rests_of_calm hcalm).of_agenda ((agenda_raise _ (by decide)).trans ht)).react 0x17 4 0 (at_ := 0) (by decide) hlog)
      rw [tempAt_over hx, hhold]
      rfl
  · intro s hcalm hB hC
    refine idles_of (f := fun s => s.voteAll) rfl hcalm ?_
    unfold State.voteAll
    rw [hB, hC]
    rfl
  · intro s a x y w d f hcalm hB hC hstores hdesc hfields hcopies hne hlog
    refine takes_of_rests (f := fun s => s.voteAll) (n := s.key.log.length + 1) rfl hcalm ((voteAll_single hB hC hdesc hfields).trans (voteField_second hcopies hne)) ?_
    exact ((rests_of_calm hcalm).of_agenda (agenda_voteNoted s (voted_ne_plb hdesc hfields) _ _ _ _)).react 0x12 0 0 (by decide) hlog

/-! The random source -/

theorem readWord_random {s : State} {m : Nat} (hpermitted : s.permitted m Addr.SEC_RANDOM 1 = true) (hon : s.regOn Addr.SEC_RANDOM = true) :
    s.readWord m Addr.SEC_RANDOM = s.randomWord := by
  unfold State.readWord
  dsimp only
  rw [hpermitted, hon, if_neg (by decide), if_neg (by decide), if_neg (by decide), if_pos (by decide)]

/-- Settles O42: credits, the health of the source, and a read of it. -/
theorem securityUnit : Obligations.SecurityUnit := by
  refine ⟨⟨?_, ?_, ?_⟩, ?_⟩
  · intro s hcalm
    exact takes_of_agenda (f := fun s => { s with sec := { s.sec with credits := min 64 (s.sec.credits + 1) } }) rfl hcalm rfl rfl
  · intro s hcalm hon
    refine ⟨?_, ?_⟩
    · refine takes_of_agenda (f := fun s => s.doIf (s.domainOn 36) fun t => (t.rngHealth false).raise F.SEC_EVENT_rng_fail) rfl hcalm ?_
        ((agenda_raise _ (by decide)).trans rfl)
      rw [hon]
      rfl
    · refine takes_of_agenda (f := fun s => s.doIf (s.domainOn 36) fun t => t.rngHealth true) rfl hcalm ?_ rfl
      rw [hon]
      rfl
  · intro s hcalm hoff
    refine ⟨?_, ?_⟩
    · refine idles_of (f := fun s => s.doIf (s.domainOn 36) fun t => (t.rngHealth false).raise F.SEC_EVENT_rng_fail) rfl hcalm ?_
      rw [hoff]
      rfl
    · refine idles_of (f := fun s => s.doIf (s.domainOn 36) fun t => t.rngHealth true) rfl hcalm ?_
      rw [hoff]
      rfl
  · intro s m hcalm hpermitted hon
    have hread : s.readBytes m Addr.SEC_RANDOM 4 = { s.randomWord.2 with rd := BitVec.ofNat 64 s.randomWord.1.toNat } := by
      rw [readBytes_permitted (fun x hx => by rw [List.mem_singleton.mp hx]; exact hpermitted),
        show wordsOf Addr.SEC_RANDOM 4 = [Addr.SEC_RANDOM] by decide,
        readWords_single ((readWord_random hpermitted hon).trans (Prod.eta _).symm)]
      exact congrArg (fun n => { s.randomWord.2 with rd := BitVec.ofNat 64 n }) (bitsOf_word _)
    by_cases hok : s.sec.rngOk = true
    · refine takes_of_agenda (f := fun s => s.readBytes m Addr.SEC_RANDOM 4) rfl hcalm ?_ (by rw [if_pos hok]; rfl)
      have hword : s.randomWord = (BitVec.ofNat 32 (Config.freeNat s.freeCtr % 2 ^ 32), { s with freeCtr := s.freeCtr + 1 }) := if_pos hok
      rw [hread, hword, if_pos hok, BitVec.toNat_ofNat, Nat.mod_mod]
    · refine takes_of_agenda (f := fun s => s.readBytes m Addr.SEC_RANDOM 4) rfl hcalm ?_ (by rw [if_neg hok]; rfl)
      have hword : s.randomWord = (0, s) := if_neg hok
      rw [hread, hword, if_neg hok]
      rfl

end Sys2Proof.Machine
end

/-! ### Resets and the boot (R397 to R399, R445) -/

section
namespace Sys2Proof.Machine

/-- A state without what the boot changes: registers, events, the power phases and the security unit. -/
def State.bootView (s : State) : State :=
  { s with regs := State.reset.regs, tmrB := State.reset.tmrB, tmrC := State.reset.tmrC, raised := State.reset.raised,
           freeCtr := State.reset.freeCtr, pwr := State.reset.pwr, sec := State.reset.sec }

/-- Registers that the boot writes: PWR.STATUS, PWR.DOMAIN_ON, those of SEC and those of PLB. -/
def bootReg (a : Nat) : Bool :=
  decide (a = Addr.PWR_STATUS) || decide (a = Addr.PWR_DOMAIN_ON_LO) || decide (a = Addr.PWR_DOMAIN_ON_HI)
    || (decide (0x50000 ≤ a) && decide (a < 0x60000)) || (decide (0xA0000 ≤ a) && decide (a < 0xB0000))

theorem domainOn_of_reg {s t : State} (hlo : t.reg Addr.PWR_DOMAIN_ON_LO = s.reg Addr.PWR_DOMAIN_ON_LO)
    (hhi : t.reg Addr.PWR_DOMAIN_ON_HI = s.reg Addr.PWR_DOMAIN_ON_HI) (d : Nat) : t.domainOn d = s.domainOn d := by
  unfold State.domainOn
  rw [hlo, hhi]

theorem bitAt_fldOf (w : Word) {lo width j : Nat} (h : j < width) : bitAt (fldOf w lo width) j = bitAt w.toNat (lo + j) := by
  have hbit : ∀ m k : Nat, bitAt m k = m.testBit k := fun m k => Nat.testBit_eq_decide_div_mod_eq.symm
  rw [hbit, hbit]
  unfold fldOf bitsOf
  rw [Nat.testBit_mod_two_pow, decide_eq_true h, Bool.true_and, Nat.testBit_div_two_pow, Nat.add_comm]

/-- A domain's bit in PWR.DOMAIN_ON. -/
theorem domainOn_bit (s : State) {d : Nat} (h : d < 38) :
    s.domainOn d = if d < 32 then s.getFBit F.PWR_DOMAIN_ON_LO_on_lo d else s.getFBit F.PWR_DOMAIN_ON_HI_on_hi (d - 32) := by
  unfold State.domainOn
  split
  case isTrue hd => exact (Nat.zero_add d ▸ bitAt_fldOf (s.reg Addr.PWR_DOMAIN_ON_LO) (lo := 0) hd).symm
  case isFalse hd =>
    have hlt : d - 32 < 6 := by omega
    exact (Nat.zero_add (d - 32) ▸ bitAt_fldOf (s.reg Addr.PWR_DOMAIN_ON_HI) (lo := 0) hlt).symm

/-- Switching a domain leaves the others. -/
theorem domainOn_setDomain_other (s : State) {d k : Nat} (hk : k < 38) (h : k ≠ d) (on : Bool) :
    (s.setDomain d on).domainOn k = s.domainOn k := by
  have hlo : ∀ i, (s.setFBit F.PWR_DOMAIN_ON_LO_on_lo i on).reg Addr.PWR_DOMAIN_ON_HI = s.reg Addr.PWR_DOMAIN_ON_HI := fun i =>
    reg_setReg_other s (by decide) _
  have hhi : ∀ i, (s.setFBit F.PWR_DOMAIN_ON_HI_on_hi i on).reg Addr.PWR_DOMAIN_ON_LO = s.reg Addr.PWR_DOMAIN_ON_LO := fun i =>
    reg_setReg_other s (by decide) _
  rw [domainOn_bit _ hk, domainOn_bit _ hk]
  by_cases hd : d < 32
  · rw [show s.setDomain d on = s.setFBit F.PWR_DOMAIN_ON_LO_on_lo d on from if_pos hd]
    by_cases hk32 : k < 32
    · rw [if_pos hk32, if_pos hk32]
      exact getFBit_setFBit_other s (by decide) h hk32 on
    · rw [if_neg hk32, if_neg hk32]
      exact congrArg (fun n => bitAt n (k - 32)) (getF_of_reg (f := F.PWR_DOMAIN_ON_HI_on_hi) (hlo d))
  · rw [show s.setDomain d on = s.setFBit F.PWR_DOMAIN_ON_HI_on_hi (d - 32) on from if_neg hd]
    by_cases hk32 : k < 32
    · rw [if_pos hk32, if_pos hk32]
      exact congrArg (fun n => bitAt n k) (getF_of_reg (f := F.PWR_DOMAIN_ON_LO_on_lo) (hhi (d - 32)))
    · rw [if_neg hk32, if_neg hk32]
      have hlt : k - 32 < 6 := by omega
      exact getFBit_setFBit_other s (by decide) (by omega) hlt on

theorem reg_setDomain_other (s : State) (d : Nat) (on : Bool) {a : Nat} (hlo : a ≠ Addr.PWR_DOMAIN_ON_LO) (hhi : a ≠ Addr.PWR_DOMAIN_ON_HI) :
    (s.setDomain d on).reg a = s.reg a := by
  unfold State.setDomain
  split
  · exact reg_setReg_other s hlo _
  · exact reg_setReg_other s hhi _

/-- State `t` follows from `s` by steps of the boot. -/
structure Boots (s t : State) : Prop where
  view : t.bootView = s.bootView
  reg : ∀ a, bootReg a = false → t.reg a = s.reg a
  domain : ∀ d, 1 ≤ d → d < 34 → d ≠ 25 → d ≠ 26 → t.domainOn d = s.domainOn d
  raised : ∀ e ∈ t.raised, e ∈ s.raised ∨ guardReg e.1 = false
  plumb : s.getF F.PLB_STATUS_plb_state ≠ 2 → t.getF F.PLB_STATUS_plb_state ≠ 2

namespace Boots

theorem refl (s : State) : Boots s s := ⟨rfl, fun _ _ => rfl, fun _ _ _ _ _ => rfl, fun _ h => .inl h, id⟩

theorem trans {s t u : State} (h : Boots s t) (g : Boots t u) : Boots s u :=
  ⟨g.view.trans h.view, fun a ha => (g.reg a ha).trans (h.reg a ha),
    fun d h1 h2 h3 h4 => (g.domain d h1 h2 h3 h4).trans (h.domain d h1 h2 h3 h4),
    fun e he => (g.raised e he).elim (h.raised e) .inr, fun hs => g.plumb (h.plumb hs)⟩

/-- A step beside registers and events. -/
theorem of_regs {s t : State} (hview : t.bootView = s.bootView) (hregs : t.regs = s.regs) (hB : t.tmrB = s.tmrB) (hC : t.tmrC = s.tmrC)
    (hpart : t.part = s.part) (hraised : t.raised = s.raised) : Boots s t :=
  have hreg : ∀ a, t.reg a = s.reg a := reg_same hregs hB hC hpart
  ⟨hview, fun a _ => hreg a, fun d _ _ _ _ => domainOn_of_reg (hreg _) (hreg _) d, fun e he => .inl (hraised ▸ he),
    fun h => by rw [getF_of_reg (f := F.PLB_STATUS_plb_state) (hreg _)]; exact h⟩

theorem pwr (s : State) (p : Power) : Boots s { s with pwr := p } := of_regs rfl rfl rfl rfl rfl rfl

theorem setReg (s : State) {a : Nat} (w : Word) (h : bootReg a = true) (hplb : a ≠ Addr.PLB_STATUS) (hlo : a ≠ Addr.PWR_DOMAIN_ON_LO)
    (hhi : a ≠ Addr.PWR_DOMAIN_ON_HI) : Boots s (s.setReg a w) :=
  ⟨rfl, fun b hb => reg_setReg_other s (fun e => by rw [e, h] at hb; exact absurd hb (by decide)) w,
    fun d _ _ _ _ => domainOn_of_reg (reg_setReg_other s hlo.symm w) (reg_setReg_other s hhi.symm w) d,
    fun _ he => .inl he, fun hs => by rw [getF_of_reg (f := F.PLB_STATUS_plb_state) (reg_setReg_other s hplb.symm w)]; exact hs⟩

theorem setF (s : State) {f : Fld} (v : Nat) (h : bootReg f.addr = true) (hplb : f.addr ≠ Addr.PLB_STATUS)
    (hlo : f.addr ≠ Addr.PWR_DOMAIN_ON_LO) (hhi : f.addr ≠ Addr.PWR_DOMAIN_ON_HI) : Boots s (s.setF f v) := setReg s _ h hplb hlo hhi

/-- A write of PLB.STATUS that does not show a group under test. -/
theorem setStatus (s : State) {f : Fld} (v : Nat) (h : f.addr = Addr.PLB_STATUS)
    (hstate : s.getF F.PLB_STATUS_plb_state ≠ 2 → (s.setF f v).getF F.PLB_STATUS_plb_state ≠ 2) : Boots s (s.setF f v) :=
  have hother : ∀ b, b ≠ Addr.PLB_STATUS → (s.setF f v).reg b = s.reg b := fun b hb => reg_setF_other s f (h ▸ hb) v
  ⟨rfl, fun b hb => hother b (fun e => by rw [e] at hb; exact absurd hb (by decide)),
    fun d _ _ _ _ => domainOn_of_reg (hother _ (by decide)) (hother _ (by decide)) d, fun _ he => .inl he, hstate⟩

theorem raise (s : State) {f : Fld} (h : guardReg f.addr = false) : Boots s (s.raise f) := by
  refine ⟨rfl, fun _ _ => rfl, fun _ _ _ _ _ => rfl, fun e he => ?_, id⟩
  cases hguard : guardReg e.1 with
  | false => exact .inr rfl
  | true =>
    have hmem : e ∈ (s.raise f).raised.filter fun e => guardReg e.1 := List.mem_filter.mpr ⟨he, hguard⟩
    have hsame : ((s.raise f).raised.filter fun e => guardReg e.1) = s.raised.filter fun e => guardReg e.1 :=
      congrArg (fun x => x.2.2.2.2.2.2.2.1) (agenda_raise s h)
    rw [hsame] at hmem
    exact .inl (List.mem_filter.mp hmem).1

theorem raiseIf (s : State) (c : Bool) {f : Fld} (h : guardReg f.addr = false) : Boots s (s.raiseIf c f) := by
  cases c
  · exact refl s
  · exact raise s h

theorem each {α : Type} (l : List α) (f : State → α → State) (hf : ∀ t, ∀ x ∈ l, Boots t (f t x)) (s : State) : Boots s (s.each l f) :=
  each_keeps (fun t => Boots s t) f l (fun t x hx ht => ht.trans (hf t x hx)) s (refl s)

/-- A Keystone's domain, or one above those of ports, pipelines and HBM. -/
theorem setDomain (s : State) {d : Nat} (on : Bool) (h : d = 25 ∨ d = 26 ∨ 34 ≤ d) : Boots s (s.setDomain d on) := by
  refine ⟨?_, fun a ha => ?_, fun k _ hk h25 h26 => domainOn_setDomain_other s (by omega) (by omega) on, fun e he => ?_, fun hs => ?_⟩
  · unfold State.setDomain
    split <;> rfl
  · exact reg_setDomain_other s d on (fun e => by rw [e] at ha; exact absurd ha (by decide)) (fun e => by rw [e] at ha; exact absurd ha (by decide))
  · unfold State.setDomain at he
    split at he <;> exact .inl he
  · rw [getF_of_reg (f := F.PLB_STATUS_plb_state) (reg_setDomain_other s d on (by decide) (by decide))]
    exact hs

theorem switchOn (s : State) {d : Nat} (h : d = 25 ∨ d = 26 ∨ 34 ≤ d) : Boots s (s.switchOn d) := by
  unfold State.switchOn
  split
  · exact refl s
  · extract_lets src s1
    have h1 : Boots s s1 := of_regs rfl rfl rfl rfl rfl rfl
    have h2 : Boots s1 (if d = 36 then s1.rngHealth false else s1) := by
      split
      · exact of_regs rfl rfl rfl rfl rfl rfl
      · exact refl s1
    exact ((h1.trans h2).trans (setDomain _ true h)).trans (raise _ (by decide))

theorem bootHss (s : State) : Boots s s.bootHss := by
  have h1 : Boots s { s with sec := { s.sec with hssIndex := s.mram.hssHeld } } := of_regs rfl rfl rfl rfl rfl rfl
  exact h1.trans (raiseIf _ _ (by decide))

theorem noteVerify (s : State) (typ reason cls : Nat) : Boots s (s.noteVerify typ reason cls) := by
  unfold State.noteVerify
  have hinfo : ∀ (t : State) (f : Fld) (v : Nat), f.addr = Addr.SEC_VERIFY_INFO → Boots t (t.setF f v) := fun t f v hf =>
    setF t v (by rw [hf]; decide) (by rw [hf]; decide) (by rw [hf]; decide) (by rw [hf]; decide)
  refine (((hinfo _ _ _ rfl).trans (hinfo _ _ _ rfl)).trans (hinfo _ _ _ rfl)).trans (raise _ ?_)
  split <;> decide

theorem verify (s : State) (b : Blob) (typ : Nat) : Boots s (s.verify b typ).2 := by
  unfold State.verify
  split
  · exact noteVerify s _ _ _
  · split
    · exact refl s
    · exact noteVerify s _ _ _

theorem bootFirmware (s : State) : Boots s s.bootFirmware.2 := by
  unfold State.bootFirmware
  extract_lets boots
  dsimp only
  have hboots : ∀ slot t g, Boots t (boots slot t g) := fun slot t g => of_regs rfl rfl rfl rfl rfl rfl
  split
  · exact refl s
  · have h0 := verify s (slotImage s.mram.fw0) 1
    split
    next p s1 heq =>
      rw [heq] at h0
      exact h0.trans (hboots 0 s1 _)
    next c0 s1 heq =>
      rw [heq] at h0
      have h1 := verify s1 (slotImage s.mram.fw1) 1
      split
      next p s2 heq2 =>
        rw [heq2] at h1
        exact (h0.trans h1).trans (hboots 1 s2 _)
      next c1 s2 heq2 =>
        rw [heq2] at h1
        exact h0.trans h1

theorem bootReg_fail (i : Nat) (h : i < 64) : bootReg (Addr.PLB_FAIL i) = true ∧ Addr.PLB_FAIL i ≠ Addr.PLB_STATUS
    ∧ Addr.PLB_FAIL i ≠ Addr.PWR_DOMAIN_ON_LO ∧ Addr.PLB_FAIL i ≠ Addr.PWR_DOMAIN_ON_HI := by
  refine ⟨?_, ?_, ?_, ?_⟩
  · unfold bootReg Addr.PLB_FAIL
    simp only [Bool.or_eq_true, Bool.and_eq_true, decide_eq_true_eq]
    omega
  · unfold Addr.PLB_FAIL Addr.PLB_STATUS
    omega
  · unfold Addr.PLB_FAIL Addr.PWR_DOMAIN_ON_LO
    omega
  · unfold Addr.PLB_FAIL Addr.PWR_DOMAIN_ON_HI
    omega

theorem showFails (s : State) (l : List (NetFail × Nat)) : Boots s (s.showFails l) := by
  unfold State.showFails
  refine each _ _ (fun t i hi => ?_) s
  obtain ⟨h1, h2, h3, h4⟩ := bootReg_fail i (List.mem_range.mp hi)
  exact setReg t _ h1 h2 h3 h4

theorem showPlumb (s : State) (steps skipped duration nFails : Nat) (l : List (NetFail × Nat)) :
    Boots s (s.showPlumb steps skipped duration nFails l) := by
  unfold State.showPlumb
  extract_lets s1 s2
  have h1 : Boots s s1 := ((setF s _ (by decide) (by decide) (by decide) (by decide)).trans
    (setF _ _ (by decide) (by decide) (by decide) (by decide))).trans (setF _ _ (by decide) (by decide) (by decide) (by decide))
  have h2 : Boots s1 s2 := ((setF s1 _ (by decide) (by decide) (by decide) (by decide)).trans
    (setF _ _ (by decide) (by decide) (by decide) (by decide))).trans (setF _ _ (by decide) (by decide) (by decide) (by decide))
  exact (((h1.trans h2).trans (setF s2 _ (by decide) (by decide) (by decide) (by decide))).trans (showFails _ l)).trans (raiseIf _ _ (by decide))

theorem continueBoot (s : State) : Boots s s.continueBoot := by
  unfold State.continueBoot
  extract_lets s1
  have h1 : Boots s s1 := ((switchOn s (by decide)).trans (switchOn _ (by decide))).trans (switchOn _ (by decide))
  exact h1.trans (pwr s1 _)

/-- A field of PLB.STATUS beside the state of the test. -/
theorem setStatus_other (s : State) {f : Fld} (v : Nat) (h : f.addr = Addr.PLB_STATUS) (hf : f.lo + f.width ≤ 32) (hlo : 2 ≤ f.lo) :
    Boots s (s.setF f v) :=
  setStatus s v h fun hs => by rw [getF_setF_other s f F.PLB_STATUS_plb_state v hf (.inr (.inl hlo))]; exact hs

theorem bootPlumb (s : State) : Boots s s.bootPlumb := by
  unfold State.bootPlumb
  split
  · extract_lets b l src s1
    have h1 : Boots s s1 := of_regs rfl rfl rfl rfl rfl rfl
    exact ((h1.trans (showPlumb s1 _ _ _ _ l)).trans (setStatus_other _ 1 rfl (by decide) (by decide))).trans (continueBoot _)
  · extract_lets s1 s2
    have hstate : ∀ t : State, Boots t (t.setF F.PLB_STATUS_plb_state 3) := fun t =>
      setStatus t 3 rfl fun _ => by rw [getF_setF t F.PLB_STATUS_plb_state 3 (by decide)]; decide
    have h1 : Boots s s1 := ((raise s (by decide)).trans (setStatus_other _ 1 rfl (by decide) (by decide))).trans (hstate _)
    have h2 : Boots s1 s2 := setStatus_other s1 1 rfl (by decide) (by decide)
    exact (h1.trans h2).trans (pwr s2 _)

end Boots

/-- The state that the boot starts from: MRAM counts it. -/
def State.bootCounted (s : State) : State :=
  { s with mram := { s.mram with bootCount := (s.mram.bootCount + 1) % 2 ^ 32 }, pwr := { s.pwr with phase := .none } }

theorem boots_bootStart (s : State) : Boots s.bootCounted s.bootStart := by
  have hpre : Boots s.bootCounted ((((s.bootCounted.setF F.PWR_STATUS_boot_status 1).switchOn 34).switchOn 36).bootHss) :=
    (((Boots.setF _ _ (by decide) (by decide) (by decide) (by decide)).trans (Boots.switchOn _ (by decide))).trans
      (Boots.switchOn _ (by decide))).trans (Boots.bootHss _)
  have hfw := hpre.trans (Boots.bootFirmware _)
  unfold State.bootStart
  dsimp only
  split
  · exact (hfw.trans (Boots.pwr _ _)).trans (Boots.setF _ (f := F.PWR_STATUS_boot_status) _ (by decide) (by decide) (by decide) (by decide))
  · exact (hfw.trans (Boots.switchOn _ (by decide))).trans (Boots.bootPlumb _)

end Sys2Proof.Machine
end

/-! ### What the resets clear and keep (R397, R398) -/

section
namespace Sys2Proof.Machine

theorem get_filter {α : Type} (d : Nat → α) (p : Nat → Bool) {k : Nat} (h : p k = true) (m : SMap α) :
    SMap.get d k (m.filter fun e => p e.1) = SMap.get d k m := by
  induction m with
  | nil => rfl
  | cons e r ih =>
    obtain ⟨k', v⟩ := e
    by_cases hk : k = k'
    · subst hk
      simp [SMap.get, h]
    · cases hp : p k' <;> simp [SMap.get, hk, hp, ih]

theorem get_filter_out {α : Type} (d : Nat → α) (p : Nat → Bool) {k : Nat} (h : p k = false) (m : SMap α) :
    SMap.get d k (m.filter fun e => p e.1) = d k := by
  induction m with
  | nil => rfl
  | cons e r ih =>
    obtain ⟨k', v⟩ := e
    cases hp : p k'
    · simp [hp, ih]
    · have hk : k ≠ k' := by
        rintro rfl
        exact absurd (hp.symm.trans h) (by decide)
      simp [SMap.get, hk, hp, ih]

/-- What SYS_RST_N and the software reset leave of a state. -/
def State.sysKept (s : State) : State :=
  let c := s.cleared
  { c with
    trn := s.trn
    regs := s.regs.filter fun e => keptBySys e.1
    tmrB := s.tmrB.filter fun e => keptBySys e.1
    tmrC := s.tmrC.filter fun e => keptBySys e.1
    sqc := s.sqc.filter fun e => keptBySys e.1
    fly := { c.fly with slot := s.fly.slot, cycleStart := s.fly.cycleStart } }

theorem sysKept_reg {s : State} {a : Nat} (h : keptBySys a = true) : s.sysKept.reg a = s.reg a := by
  have hregs : SMap.get (resetWord s.sysKept.part) a s.sysKept.regs = SMap.get (resetWord s.part) a s.regs :=
    get_filter (resetWord s.part) keptBySys h s.regs
  have hB : ∀ x, SMap.get (fun _ => x) a s.sysKept.tmrB = SMap.get (fun _ => x) a s.tmrB := fun x => get_filter _ keptBySys h s.tmrB
  have hC : ∀ x, SMap.get (fun _ => x) a s.sysKept.tmrC = SMap.get (fun _ => x) a s.tmrC := fun x => get_filter _ keptBySys h s.tmrC
  unfold State.reg
  rw [hregs]
  dsimp only
  rw [hB, hC]

theorem majority_self (x : Word) : (x &&& x) ||| (x &&& x) ||| (x &&& x) = x := by
  rw [BitVec.and_self, BitVec.or_self, BitVec.or_self]

theorem sysKept_cleared {s : State} {a : Nat} (h : keptBySys a = false) : s.sysKept.reg a = resetWord s.part a := by
  have hregs : SMap.get (resetWord s.sysKept.part) a s.sysKept.regs = resetWord s.part a :=
    get_filter_out (resetWord s.part) keptBySys h s.regs
  have hB : ∀ x, SMap.get (fun _ => x) a s.sysKept.tmrB = x := fun x => get_filter_out _ keptBySys h s.tmrB
  have hC : ∀ x, SMap.get (fun _ => x) a s.sysKept.tmrC = x := fun x => get_filter_out _ keptBySys h s.tmrC
  unfold State.reg
  rw [hregs]
  dsimp only
  rw [hB, hC]
  exact majority_self _

/-- The servo's state after a reset that keeps TRN. -/
def State.sysServo (s : State) (k : KsState) : KsState :=
  if s.key.ks.servo = .disabled then { k with hold := s.getB F.TRN_CTRL_hold }
  else { k with hold := s.getB F.TRN_CTRL_hold, servo := .holdover, i := signed 32 (s.getF F.TRN_SERVO_I_i_term) * 2 ^ 24,
                f := signed 32 (s.getF F.TRN_SERVO_I_i_term) * 2 ^ 24 }

/-- The state that a reset which keeps TRN boots from. -/
def State.sysHeld (s : State) (cause : Nat) : State :=
  let k1 := (s.sysKept.setF F.PWR_RESET_CAUSE_cause cause).setKs fun k => { k with hold := s.getB F.TRN_CTRL_hold }
  if s.key.ks.servo = .disabled then k1
  else
    let i := signed 32 (s.getF F.TRN_SERVO_I_i_term) * 2 ^ 24
    (((k1.setKs fun k => { k with servo := .holdover, i := i, f := i }).setRate i).showServo).raiseIf
      (decide (s.key.ks.servo ≠ .holdover)) F.TRN_EVENT_holdover_enter

theorem sysReset_boots (s : State) (cause : Nat) : Boots (s.sysHeld cause).bootCounted (s.sysReset cause) :=
  have h : s.sysReset cause = (s.sysHeld cause).bootStart := rfl
  h ▸ boots_bootStart _

theorem bootView_setF (s : State) (f : Fld) (v : Nat) : (s.setF f v).bootView = s.bootView := (rfl)

theorem bootView_raiseIf (s : State) (c : Bool) (f : Fld) : (s.raiseIf c f).bootView = s.bootView := by
  cases c <;> rfl

theorem bootView_setKs {s t : State} (h : t.bootView = s.bootView) (f : KsState → KsState) : (t.setKs f).bootView = (s.setKs f).bootView := by
  have hk : ∀ x : State, (x.setKs f).bootView = x.bootView.setKs f := fun _ => (rfl)
  rw [hk, hk, h]

theorem sysHeld_view (s : State) (cause : Nat) : (s.sysHeld cause).bootView = (s.sysKept.setKs s.sysServo).bootView := by
  have h1 := bootView_setKs (bootView_setF s.sysKept F.PWR_RESET_CAUSE_cause cause) fun k => { k with hold := s.getB F.TRN_CTRL_hold }
  unfold State.sysHeld State.sysServo
  by_cases hservo : s.key.ks.servo = .disabled
  · simp only [if_pos hservo]
    exact h1
  · simp only [if_neg hservo]
    have hrate : ∀ (t : State) (i : Int), (t.setRate i).showServo.bootView = t.bootView := fun t i => by
      unfold State.showServo State.setRate
      rw [bootView_setF, bootView_setF, bootView_setF, bootView_setF]
    rw [bootView_raiseIf, hrate]
    exact bootView_setKs h1 _

theorem bootView_bootCounted {s t : State} (h : t.bootView = s.bootView) : t.bootCounted.bootView = s.bootCounted.bootView := by
  have hc : ∀ x : State, x.bootCounted.bootView
      = { x.bootView with mram := { x.bootView.mram with bootCount := (x.bootView.mram.bootCount + 1) % 2 ^ 32 } } := fun _ => (rfl)
  rw [hc, hc, h]

/-- Registers of TRN lie in one page. -/
theorem reg_setRate_showServo (s : State) (i : Int) {a : Nat} (h : ¬(0x70000 ≤ a ∧ a < 0x80000)) : (s.setRate i).showServo.reg a = s.reg a := by
  have haddr : ∀ (t : State) (f : Fld) (v : Nat), 0x70000 ≤ f.addr ∧ f.addr < 0x80000 → (t.setF f v).reg a = t.reg a := fun t f v hf =>
    reg_setF_other t f (by rintro rfl; exact h hf) v
  unfold State.showServo State.setRate
  rw [haddr _ _ _ (by decide), haddr _ _ _ (by decide), haddr _ _ _ (by decide), haddr _ _ _ (by decide)]

theorem reg_raiseIf (s : State) (c : Bool) (f : Fld) (a : Nat) : (s.raiseIf c f).reg a = s.reg a := by
  cases c <;> rfl

theorem reg_setKs (s : State) (f : KsState → KsState) (a : Nat) : (s.setKs f).reg a = s.reg a := (rfl)

theorem sysHeld_reg {s : State} {cause a : Nat} (h : s.key.ks.servo = .disabled ∨ ¬(0x70000 ≤ a ∧ a < 0x80000)) :
    (s.sysHeld cause).reg a = (s.sysKept.setF F.PWR_RESET_CAUSE_cause cause).reg a := by
  unfold State.sysHeld
  by_cases hservo : s.key.ks.servo = .disabled
  · simp only [if_pos hservo]
    exact reg_setKs ..
  · simp only [if_neg hservo]
    rw [reg_raiseIf, reg_setRate_showServo _ _ (h.resolve_left hservo), reg_setKs, reg_setKs]

/-- A register of the block after a reset that keeps TRN, where the boot does not write it. -/
theorem sysReset_reg {s : State} {cause a : Nat} (hboot : bootReg a = false) (h : s.key.ks.servo = .disabled ∨ ¬(0x70000 ≤ a ∧ a < 0x80000)) :
    (s.sysReset cause).reg a = (s.sysKept.setF F.PWR_RESET_CAUSE_cause cause).reg a :=
  ((sysReset_boots s cause).reg a hboot).trans ((show _ = (s.sysHeld cause).reg a from rfl).trans (sysHeld_reg h))

theorem sysReset_kept {s : State} {cause a : Nat} (hkept : keptBySys a = true) (hboot : bootReg a = false) (hcause : a ≠ Addr.PWR_RESET_CAUSE)
    (h : s.key.ks.servo = .disabled ∨ ¬(0x70000 ≤ a ∧ a < 0x80000)) : (s.sysReset cause).reg a = s.reg a := by
  rw [sysReset_reg hboot h, reg_setF_other _ _ hcause, sysKept_reg hkept]

theorem resetWord_domains (p : Part) : resetWord p Addr.PWR_DOMAIN_ON_LO = 1 ∧ resetWord p Addr.PWR_DOMAIN_ON_HI = 0
    ∧ resetWord p Addr.PLB_STATUS = 0 := by
  obtain ⟨en, x, y, z⟩ := p
  cases en <;> exact ⟨rfl, rfl, rfl⟩

theorem acc_range {t e : Nat} (ht : t < 152) (he : e < 32) : 0xC1000 ≤ Addr.ACC_TABLE t e ∧ Addr.ACC_TABLE t e < 0xC1000 + 0x80 * 152
    ∧ Addr.ACC_TABLE t e % 4 = 0 ∧ (Addr.ACC_TABLE t e - 0xC1000) / 0x80 = t ∧ (Addr.ACC_TABLE t e - 0xC1000) % 0x80 / 4 = e := by
  unfold Addr.ACC_TABLE
  omega

theorem resetWord_acc (p : Part) {t e : Nat} (ht : t < 152) (he : e < 32) :
    resetWord p (Addr.ACC_TABLE t e) = BitVec.ofNat 32 (resetGrant t e) := by
  obtain ⟨h1, h2, h3, h4, h5⟩ := acc_range ht he
  unfold resetWord
  rw [if_neg (by unfold Addr.SYS_ID; omega), if_neg (by unfold Addr.SYS_SERIAL_LO; omega), if_neg (by unfold Addr.SYS_SERIAL_HI; omega),
    if_pos ⟨h1, h2, h3⟩, h4, h5]

theorem bootReg_other {a : Nat} (h : 0x60000 ≤ a ∧ a < 0xA0000 ∨ 0xB0000 ≤ a) : bootReg a = false := by
  unfold bootReg Addr.PWR_STATUS Addr.PWR_DOMAIN_ON_LO Addr.PWR_DOMAIN_ON_HI
  simp only [Bool.or_eq_false_iff, Bool.and_eq_false_iff, decide_eq_false_iff_not]
  omega

/-- Of the domains below D34 the reset values of PWR.DOMAIN_ON show D0 alone. -/
theorem resetDomains_off : ∀ d, d < 34 → 1 ≤ d →
    (if d < 32 then bitAt (BitVec.toNat (1 : Word)) d else bitAt (BitVec.toNat (0 : Word)) (d - 32)) = false := by decide

/-- A domain that the boot leaves is off after a reset. -/
theorem sysReset_domainOff (s : State) (cause : Nat) {d : Nat} (h1 : 1 ≤ d) (h2 : d < 34) (h25 : d ≠ 25) (h26 : d ≠ 26) :
    (s.sysReset cause).domainOn d = false := by
  obtain ⟨hlo, hhi, -⟩ := resetWord_domains s.part
  have hreg : ∀ a, keptBySys a = false → a ≠ Addr.PWR_RESET_CAUSE → ¬(0x70000 ≤ a ∧ a < 0x80000) →
      (s.sysHeld cause).bootCounted.reg a = resetWord s.part a := fun a ha hc ht => by
    rw [show (s.sysHeld cause).bootCounted.reg a = (s.sysHeld cause).reg a from rfl, sysHeld_reg (.inr ht), reg_setF_other _ _ hc, sysKept_cleared ha]
  rw [(sysReset_boots s cause).domain d h1 h2 h25 h26]
  unfold State.domainOn
  rw [hreg _ (by decide) (by decide) (by decide), hreg _ (by decide) (by decide) (by decide), hlo, hhi]
  exact resetDomains_off d h2 h1

theorem powerOn_rests (s : State) : s.powerOnReset.Rests 0 :=
  ⟨rfl, rfl, rfl, rfl, by
    have h : s.powerOnReset.getF F.PLB_STATUS_plb_state = 0 :=
      congrArg (fun w => fldOf w F.PLB_STATUS_plb_state.lo F.PLB_STATUS_plb_state.width)
        ((majority_self (resetWord s.part Addr.PLB_STATUS)).trans (resetWord_domains s.part).2.2)
    unfold State.groupTested
    rw [h]
    rfl, rfl, fun e he => absurd he (List.not_mem_nil), Nat.le.refl⟩

theorem askReset_free {s : State} (cause : Nat) (hnone : s.pwr.pendingReset = none) (hphase : s.pwr.phase ≠ .held) :
    s.askReset cause = { s with pwr := { s.pwr with pendingReset := some (s.now + 64, cause) } } := by
  unfold State.askReset
  rw [if_neg (by rw [hnone]; exact fun h => h.elim (fun h => absurd h (by decide)) hphase)]

theorem stored_pwr (s : State) (m a : Nat) (v : Word) : (s.stored m a v).pwr = s.pwr :=
  stored_beside State.pwr (fun _ _ _ _ => rfl) s m a v

theorem boots_rests {s t : State} (h : Boots s t) (hs : s.Rests 0) (hplumb : s.getF F.PLB_STATUS_plb_state ≠ 2) : t.Rests 0 := by
  have hkey : t.key = s.key := (congrArg State.key h.view :)
  have hhif : t.hif = s.hif := (congrArg State.hif h.view :)
  refine ⟨hkey ▸ hs.queue, hhif ▸ hs.flight, hhif ▸ hs.fenced, hhif ▸ hs.rings, if_neg (h.plumb hplumb), hkey ▸ hs.due, fun e he => ?_,
    hkey ▸ hs.log⟩
  exact (h.raised e he).elim (hs.raised e) id

theorem bootStart_release {s : State} {straps : BitVec 16} (h : s.pwr.phase = .held) : s.release_ straps =
    State.bootStart { s.powerOnReset with part := { s.part with straps := straps } } := if_pos h

/-- The block with the straps that the release of PWRON_RST_N samples. -/
def State.released (s : State) (straps : BitVec 16) : State := { s.powerOnReset with part := { s.part with straps := straps } }

theorem released_plumb (s : State) (straps : BitVec 16) : (s.released straps).bootCounted.getF F.PLB_STATUS_plb_state = 0 :=
  congrArg (fun w => fldOf w F.PLB_STATUS_plb_state.lo F.PLB_STATUS_plb_state.width)
    ((majority_self (resetWord { s.part with straps := straps } Addr.PLB_STATUS)).trans (resetWord_domains { s.part with straps := straps }).2.2)

theorem released_rests (s : State) (straps : BitVec 16) : (s.released straps).bootCounted.Rests 0 :=
  ⟨rfl, rfl, rfl, rfl, by
    unfold State.groupTested
    rw [released_plumb]
    rfl, rfl, fun e he => absurd he (List.not_mem_nil), Nat.le.refl⟩

/-- Settles O21: a reset that keeps TRN is the boot of the state it leaves, and the boot writes none of the parts that the statement
names; PWRON_RST_N leaves the state after reset. -/
theorem resets : Obligations.Resets := by
  refine ⟨?_, ?_, ?_, ?_, ?_⟩
  · intro s hcalm hnone hphase
    exact takes_of_agenda (f := fun s => s.askReset 1) rfl hcalm (askReset_free 1 hnone hphase) rfl
  · intro s m v hcalm hadmits hnone hphase t
    have hask : t.askReset 2 = { t with pwr := { t.pwr with pendingReset := some (s.now + 64, 2) } } := by
      rw [askReset_free 2 (by rw [stored_pwr]; exact hnone) (by rw [stored_pwr]; exact hphase), show t.now = s.now from stored_now s m _ v]
    refine takes_write rfl hcalm hadmits (canonAddr_self (by decide)) (by decide) ?_ ?_
    · rw [after_softwareReset, hask]
    · split <;> rfl
  · intro s cause hcause u
    have hboots : Boots (s.sysHeld cause).bootCounted u := sysReset_boots s cause
    have hheld : (s.sysHeld cause).bootView = (s.sysKept.setKs s.sysServo).bootView := sysHeld_view s cause
    have hview : u.bootView = (s.sysKept.setKs s.sysServo).bootCounted.bootView :=
      hboots.view.trans (bootView_bootCounted hheld)
    have hks : u.key.ks = s.sysServo s.sysKept.key.ks := (congrArg (fun x : State => x.key.ks) hview :)
    have hfab : u.fab = s.sysKept.fab := (congrArg State.fab hview :)
    refine ⟨(congrArg State.dev hview :), (congrArg State.trn hview :), (congrArg (fun x : State => x.fly.slot) hview :),
      (congrArg (fun x : State => x.fly.cycleStart) hview :), ?_, (congrArg State.eph hview :), (congrArg State.ash hview :),
      (congrArg State.tabs hview :), (congrArg State.tcam hview :), (congrArg State.hr hview :), (congrArg State.ctrs hview :),
      (congrArg (fun x : State => x.hif.log) hview :), (congrArg State.dma hview :), (congrArg (fun x : State => x.saf.causes) hview :), ?_,
      (congrArg State.ports hview :), (congrArg State.pending hview :), (congrArg State.host hview :), (congrArg State.pins hview :), ?_,
      fun d h1 h2 => sysReset_domainOff s cause h1 (by omega) (by omega) (by omega),
      fun d h1 h2 => sysReset_domainOff s cause (by omega) h2 (by omega) (by omega), ?_,
      (congrArg (fun x : State => x.mram.faults) hview :), (congrArg (fun x : State => x.mram.bootCount) hview :), ?_, ?_⟩
    · exact getF_of_reg (f := F.PWR_BUDGET_budget) (sysReset_kept (by decide) (by decide) (by decide) (.inr (by decide)))
    · rw [hfab]
      rfl
    · rw [getF_of_reg (f := F.PWR_RESET_CAUSE_cause) (sysReset_reg (s := s) (cause := cause) (by decide) (.inr (by decide))),
        getF_setF _ _ _ (by decide)]
      exact Nat.mod_eq_of_lt hcause
    · intro t e ht he
      obtain ⟨h1, h2, -, -, -⟩ := acc_range ht he
      have hkept : keptBySys (Addr.ACC_TABLE t e) = false := by
        unfold keptBySys
        simp only [Bool.or_eq_false_iff, Bool.and_eq_false_iff, decide_eq_false_iff_not]
        unfold Addr.PWR_BUDGET
        omega
      rw [show u.reg _ = _ from sysReset_reg (bootReg_other (.inr (by omega))) (.inr (by omega)),
        reg_setF_other _ _ (by show _ ≠ Addr.PWR_RESET_CAUSE; unfold Addr.PWR_RESET_CAUSE; omega), sysKept_cleared hkept, resetWord_acc _ ht he]
    · intro hservo
      refine ⟨?_, fun a h1 h2 => ?_⟩
      · rw [hks, State.sysServo, if_pos hservo]
        rfl
      · refine sysReset_kept ?_ (bootReg_other (.inl (by omega))) (by unfold Addr.PWR_RESET_CAUSE; omega) (.inl hservo)
        unfold keptBySys
        rw [decide_eq_true h1, decide_eq_true h2]
        rfl
    · intro hservo
      rw [hks, State.sysServo, if_neg hservo]
      exact ⟨rfl, rfl, rfl⟩
  · intro s u
    have hrests : u.Rests 0 := powerOn_rests s
    refine ⟨takes_intro (show exec .pwronRstN s = .next (State.conclude s u) from rfl)
      (due_parts u hrests.queue hrests.flight hrests.rings hrests.group hrests.due hrests.fenced) hrests.raised, ?_⟩
    exact ⟨rfl, rfl, rfl, rfl, rfl, rfl, rfl, rfl, rfl, rfl, rfl, rfl, rfl⟩
  · intro s straps hcalm hheld u
    have hboots : Boots (s.released straps).bootCounted u := boots_bootStart (s.released straps)
    refine ⟨takes_of_rests (f := fun s => s.release_ straps) rfl hcalm (bootStart_release hheld)
      (boots_rests hboots (released_rests s straps) (by rw [released_plumb]; decide)), ?_, ?_⟩
    · exact (congrArg (fun x : State => x.mram.bootCount) hboots.view :)
    · exact (congrArg (fun x : State => x.part.straps) hboots.view :)

end Sys2Proof.Machine
end

/-! ### SAF.STATUS beside the operations that SAFE_HOLD runs (R300, R312) -/

section
namespace Sys2Proof.Machine

/-- SAF.STATUS and the events raised in it, which are none. -/
def State.safView (s : State) : Word × List (Nat × Nat) :=
  (s.reg Addr.SAF_STATUS, s.raised.filter fun e => decide (e.1 = Addr.SAF_STATUS))

@[simp] theorem saf_setReg (s : State) {a : Nat} (w : Word) (h : a ≠ Addr.SAF_STATUS) : (s.setReg a w).safView = s.safView := by
  unfold State.safView
  rw [reg_setReg_other s h.symm]
  rfl

@[simp] theorem saf_setF (s : State) {f : Fld} (v : Nat) (h : f.addr ≠ Addr.SAF_STATUS) : (s.setF f v).safView = s.safView :=
  saf_setReg s _ h

@[simp] theorem saf_raiseBit (s : State) {f : Fld} (i : Nat) (h : f.addr ≠ Addr.SAF_STATUS) : (s.raiseBit f i).safView = s.safView := by
  unfold State.safView State.raiseBit
  rw [filter_set]
  · rfl
  · exact fun _ => decide_eq_false h

@[simp] theorem saf_raise (s : State) {f : Fld} (h : f.addr ≠ Addr.SAF_STATUS) : (s.raise f).safView = s.safView := saf_raiseBit s 0 h

@[simp] theorem saf_raiseIf (s : State) (c : Bool) {f : Fld} (h : f.addr ≠ Addr.SAF_STATUS) : (s.raiseIf c f).safView = s.safView := by
  cases c
  · rfl
  · exact saf_raise s h

@[simp] theorem saf_doIf (s : State) (c : Bool) (f : State → State) (h : ∀ t, (f t).safView = t.safView) : (s.doIf c f).safView = s.safView := by
  cases c
  · rfl
  · exact h s

@[simp] theorem saf_each {α : Type} (s : State) (l : List α) (f : State → α → State) (h : ∀ t x, (f t x).safView = t.safView) :
    (s.each l f).safView = s.safView :=
  each_keeps (fun t => t.safView = s.safView) f l (fun t x _ c => (h t x).trans c) s rfl

@[simp] theorem saf_count (s : State) (g i c : Nat) : (s.count g i c).safView = s.safView := (rfl)
@[simp] theorem saf_countN (s : State) (g i c n : Nat) : (s.countN g i c n).safView = s.safView := (rfl)
@[simp] theorem saf_setPort (s : State) (p : Nat) (r : PortRun) : (s.setPort p r).safView = s.safView := (rfl)
@[simp] theorem saf_setQueue (s : State) (x : Nat) (q : Queue) : (s.setQueue x q).safView = s.safView := (rfl)
@[simp] theorem saf_setFrame (s : State) (i : Nat) (f : Option Frame) : (s.setFrame i f).safView = s.safView := (rfl)
@[simp] theorem saf_setPool (s : State) (k : Nat) (p : Pool) : (s.setPool k p).safView = s.safView := (rfl)
@[simp] theorem saf_setCell (s : State) (a : Nat) (c : Option Cell) : (s.setCell a c).safView = s.safView := (rfl)
@[simp] theorem saf_setSched (s : State) (p : Nat) (x : PortSched) : (s.setSched p x).safView = s.safView := (rfl)
@[simp] theorem saf_chargeMove (s : State) (p k : Nat) (d : Int) : (s.chargeMove p k d).safView = s.safView := (rfl)
@[simp] theorem saf_hostPut (s : State) (a : Nat) (b : Byte) : (s.hostPut a b).safView = s.safView := (rfl)

@[simp] theorem saf_hostWrite (l : List Byte) : ∀ (s : State) (a : Nat), (s.hostWrite a l).safView = s.safView := by
  induction l with
  | nil => intro s a; rfl
  | cons b r ih => intro s a; exact (ih (s.hostPut a b) (a + 1)).trans (saf_hostPut s a b)

/-! Cells and frames -/

@[simp] theorem saf_poolMove (s : State) (k : Nat) (d e : Int) : (s.poolMove k d e).safView = s.safView := by
  unfold State.poolMove
  extract_lets p l p1 p2 up ev s1
  have h1 : s1.safView = s.safView := by
    simp only [s1]
    rw [saf_raiseIf _ _ (by decide), saf_raiseIf _ _ (by decide), saf_raiseIf _ _ (by decide), saf_setPool]
  split
  · rw [saf_raiseBit _ _ (by decide), h1]
  · exact h1

@[simp] theorem saf_freeCell (s : State) (req a : Nat) : (s.freeCell req a).safView = s.safView := by
  unfold State.freeCell
  split
  · rfl
  · dsimp only
    split
    · split
      · exact saf_raise _ (by decide)
      · rfl
    · rfl

@[simp] theorem saf_freeRefused (s : State) (a req reason master : Nat) : (s.freeRefused a req reason master).safView = s.safView := by
  unfold State.freeRefused
  extract_lets owner s1
  have h1 : s1.safView = s.safView := by
    simp only [s1]
    rw [saf_setF _ _ (by decide), saf_setF _ _ (by decide), saf_count]
  rw [saf_raise _ (by decide), saf_setF _ _ (by decide), saf_setF _ _ (by decide), saf_setF _ _ (by decide), h1]

@[simp] theorem saf_releaseCell (s : State) (req master a : Nat) : (s.releaseCell req master a).safView = s.safView := by
  unfold State.releaseCell
  split
  · exact saf_freeRefused ..
  · split
    · exact saf_freeRefused ..
    · split
      · exact saf_freeCell ..
      · rfl

@[simp] theorem saf_endFrame (s : State) (i : Nat) (f : Frame) : (s.endFrame i f).safView = s.safView := by
  unfold State.endFrame State.dropFrame State.unchargeFrame
  extract_lets s1
  have h1 : s1.safView = s.safView := by
    simp only [s1]
    split <;> exact saf_poolMove ..
  clear_value s1
  split <;> split <;> exact h1

@[simp] theorem saf_release (s : State) (i : Nat) : (s.release i).safView = s.safView := by
  unfold State.release
  split
  · rfl
  · dsimp only
    split <;> simp

@[simp] theorem saf_txReport (s : State) (i status : Nat) (ts : List Byte) : (s.txReport i status ts).safView = s.safView := by
  unfold State.txReport
  split
  · rfl
  · split
    · rfl
    · dsimp only
      split <;> simp

@[simp] theorem saf_loseShare (s : State) (i : Nat) : (s.loseShare i).safView = s.safView := by
  unfold State.loseShare
  split <;> simp

/-! The end of a transmission -/

@[simp] theorem saf_fixSpill (s : State) (x : Nat) : (s.fixSpill x).safView = s.safView := by
  unfold State.fixSpill
  split <;> rfl

@[simp] theorem saf_flushQueue (s : State) (x : Nat) : (s.flushQueue x).safView = s.safView := by
  unfold State.flushQueue
  simp

@[simp] theorem saf_verifyDue (s : State) (p : Nat) : (s.verifyDue p).safView = s.safView := by
  have hrestart : (s.restartVerify p).safView = s.safView := by
    unfold State.restartVerify
    extract_lets m i en ve
    rw [saf_setPort, saf_setF _ _ (by unfold F.PORT_MAC_STATUS_preempt_active Addr.PORT_MAC_STATUS Addr.SAF_STATUS; dsimp only; omega),
      saf_setF _ _ (by unfold F.PORT_MAC_STATUS_verify_status Addr.PORT_MAC_STATUS Addr.SAF_STATUS; dsimp only; omega)]
  unfold State.verifyDue
  dsimp only
  split
  · exact hrestart
  · rfl

@[simp] theorem saf_syncQ (s : State) (x : Nat) : (s.syncQ x).safView = s.safView := (rfl)
@[simp] theorem saf_syncP (s : State) (p : Nat) : (s.syncP p).safView = s.safView := (rfl)

@[simp] theorem saf_settleTx (s : State) (p : Nat) (t : TxFrame) (n : Nat) : (s.settleTx p t n).safView = s.safView := by
  have htags : ∀ (u : State) (x : Nat) (b : Bill), (u.correctTags p x b n).safView = u.safView := fun u x b => by
    unfold State.correctTags
    dsimp only
    split <;> split <;> rfl
  unfold State.settleTx State.settleBill
  simp [htags]

@[simp] theorem saf_endTx (s : State) (p : Nat) (t : TxFrame) (c : Option Stomp) (l : List Byte) (n : Nat) :
    (s.endTx p t c l n).safView = s.safView := by
  unfold State.endTx
  cases c with
  | none =>
    dsimp only
    split
    · simp
    · split
      · split <;> simp
      · simp
  | some c =>
    dsimp only
    split
    · simp
    · split
      · simp
      · simp

@[simp] theorem saf_hardEnd (s : State) (i : Nat) : (s.hardEnd i).safView = s.safView := by
  have hstomp : ∀ (u : State) (p : Nat) (t : TxFrame) (c : Stomp) (n : Nat), (u.stompAt p t c true n).safView = u.safView := fun u p t c n => by
    unfold State.stompAt
    dsimp only
    split <;> simp
  have hcross : ∀ (u : State) (p : Nat) (f : TxFrame → TxFrame), (u.onCrossing p i f).safView = u.safView := fun u p f => by
    unfold State.onCrossing
    dsimp only
    split
    · split <;> rfl
    · rfl
  have hover : ∀ (u : State) (p n : Nat), (u.overrunAt p i n).safView = u.safView := fun u p n => by
    unfold State.overrunAt
    dsimp only
    split
    · split
      · exact hstomp ..
      · exact hcross ..
    · exact hcross ..
  unfold State.hardEnd
  split
  · extract_lets n src s1
    have h1 : s1.safView = s.safView := by
      simp only [s1]
      rw [saf_raise _ (by decide), saf_countN, saf_count, saf_setPort]
    split
    · exact h1
    · exact (hover ..).trans h1
  · rfl

/-! SAFE_HOLD -/

@[simp] theorem saf_endTest (s : State) : s.endTest.safView = s.safView := by
  unfold State.endTest
  split
  · exact (saf_raise _ (by decide)).trans rfl
  · rfl

theorem saf_shut (s : State) : s.shut.safView = s.safView := by
  have hrefuse : ∀ (t : State) (c : Nat), (t.refusePending c).safView = t.safView := fun t c => by
    unfold State.refusePending
    split
    · rfl
    · rw [saf_setF _ _ (by decide), saf_setF _ _ (by decide)]
      rfl
  have hgone : ∀ t : State, t.plumbGone.safView = t.safView := fun t => by
    unfold State.plumbGone
    extract_lets drop k
    rw [saf_setF _ _ (by decide), saf_setF _ _ (by decide), saf_setF _ _ (by decide)]
    rfl
  have hstop : ∀ t : State, t.plumbStopped.safView = t.safView := fun t => by
    unfold State.plumbStopped
    split
    · exact hgone t
    · exact hgone t
    · rfl
  unfold State.shut
  extract_lets s1
  rw [hstop, saf_each _ _ _ fun t x => saf_flushQueue t x]
  exact (hrefuse _ _).trans (saf_each _ _ _ fun t p => saf_hardEnd t p)

theorem saf_enterSafeHold {s : State} (h : s.canHold) : s.enterSafeHold.safView = s.safView := by
  rw [enterSafeHold_eq h]
  unfold State.held
  rw [saf_raise _ (by decide)]
  exact (saf_endTest s.shut).trans (saf_shut s)

theorem saf_ksLog (s : State) (kind : LogKind) : (s.ksLog kind).safView = s.safView := by
  unfold State.ksLog
  split
  · rfl
  · dsimp only
    split
    · exact (saf_setF _ _ (by decide)).trans rfl
    · rfl

theorem saf_react_safe {s : State} (h : s.canHold) (diag inst a : Nat) : (s.react diag 4 inst a).safView = s.safView := by
  have hpersist : ∀ t : State, (t.persist diag 4 inst).safView = t.safView := fun t => by
    unfold State.persist
    extract_lets time e l again
    split <;> rfl
  have hinfo : ∀ t : State, (t.faultInfo diag 4 inst).safView = t.safView := fun t => by
    unfold State.faultInfo
    extract_lets time w
    split
    · rfl
    · rw [saf_setReg _ _ (by decide), saf_setReg _ _ (by decide), saf_setReg _ _ (by decide), saf_setReg _ _ (by decide)]
  rw [react_safe, saf_ksLog, saf_enterSafeHold (canHold_safeNoted h diag inst)]
  unfold State.safeNoted
  rw [hinfo, hpersist, saf_endTest]

end Sys2Proof.Machine
end

/-! ### Reports to the safety monitor (R300 to R308) -/

section
namespace Sys2Proof.Machine

/-- A fault repeats the newest entry of the record (R310). -/
def State.persistAgain (s : State) (diag inst : Nat) : Bool :=
  match s.mram.faults.getLast? with
  | some x =>
    let at_ := x.sec * 10 ^ 9 + x.ns
    decide (x.diag = diag) && decide (x.inst = inst) && decide (s.timeNs ≤ at_ + 10 ^ 9) && decide (at_ ≤ s.timeNs + 10 ^ 9)
  | none => false

/-- The record with one fault more, after the entries of the same core cycle with lower diagnostics. -/
def State.persistNew (s : State) (diag cls inst : Nat) : List FaultRec :=
  let l := s.mram.faults
  let n := s.cycleRecords
  let new := l.drop (l.length - n)
  let l' := l.take (l.length - n) ++ new.filter (fun x => decide (x.diag ≤ diag))
    ++ [⟨diag, cls, inst, secOf s.trn.time, nsOf s.trn.time, 0⟩] ++ new.filter fun x => decide (diag < x.diag)
  l'.drop (l'.length - 256)

theorem persist_faults (s : State) (diag cls inst : Nat) : (s.persist diag cls inst).mram =
    { s.mram with faults := if s.persistAgain diag inst then
        s.mram.faults.dropLast ++ s.mram.faults.getLast?.toList.map fun x => { x with rep := (x.rep + 1) % 65536 }
      else s.persistNew diag cls inst } := by
  have hpersist : s.persist diag cls inst = if s.persistAgain diag inst then
      { s with mram := { s.mram with faults := s.mram.faults.dropLast ++ s.mram.faults.getLast?.toList.map fun x =>
        { x with rep := (x.rep + 1) % 65536 } } }
      else { s with mram := { s.mram with faults := s.persistNew diag cls inst },
                    saf := { s.saf with recorded := (s.now, s.cycleRecords + 1) } } := rfl
  rw [hpersist]
  cases s.persistAgain diag inst
  · rw [if_neg Bool.false_ne_true, if_neg Bool.false_ne_true]
  · rw [if_pos rfl, if_pos rfl]

/-- The record of a fault depends on the time, MRAM and what the core cycle has recorded. -/
theorem persist_mram {s t : State} (htrn : t.trn = s.trn) (hmram : t.mram = s.mram) (hnow : t.now = s.now)
    (hrecorded : t.saf.recorded = s.saf.recorded) (diag cls inst : Nat) : (t.persist diag cls inst).mram = (s.persist diag cls inst).mram := by
  have hagain : t.persistAgain diag inst = s.persistAgain diag inst := by
    unfold State.persistAgain State.timeNs
    rw [hmram, htrn]
  have hnew : t.persistNew diag cls inst = s.persistNew diag cls inst := by
    unfold State.persistNew State.cycleRecords
    rw [hmram, htrn, hrecorded, hnow]
  rw [persist_faults, persist_faults, hagain, hnew, hmram]

theorem endTest_fields (s : State) : s.endTest.trn = s.trn ∧ s.endTest.mram = s.mram ∧ s.endTest.now = s.now
    ∧ s.endTest.saf.recorded = s.saf.recorded := by
  unfold State.endTest
  split <;> exact ⟨rfl, rfl, rfl, rfl⟩

theorem safeNoted_mram (s : State) (diag inst : Nat) : (s.safeNoted diag inst).mram = (s.persist diag 4 inst).mram := by
  have hinfo : ∀ t : State, (t.faultInfo diag 4 inst).mram = t.mram := fun t => by
    unfold State.faultInfo
    extract_lets time w
    split <;> rfl
  obtain ⟨htrn, hmram, hnow, hrecorded⟩ := endTest_fields s
  exact (hinfo _).trans (persist_mram htrn hmram hnow hrecorded diag 4 inst)

/-- In SAFE_HOLD both outputs are asserted, but in a gap, in which they hold their levels. -/
theorem alarm_safeHold {s t : State} (hdev : t.dev = .safeHold) (htest : t.saf.testing = none) (hend : t.key.gapEnd = s.key.gapEnd)
    (hgap : t.key.gapAlarm = s.key.gapAlarm) (u : Unit2) : t.alarm u = if s.inGap then s.alarm u else true := by
  have hfree : t.alarmFree = false := by
    unfold State.alarmFree
    rw [hdev]
    rfl
  have hin : t.inGap = s.inGap := by
    unfold State.inGap
    rw [hend]
  have horder : t.alarmOrder u = true := by
    unfold State.alarmOrder
    rw [hfree]
    rfl
  unfold State.alarm
  rw [hin, htest, horder, hgap]
  cases s.inGap
  · rfl
  · rfl

/-- What a command with an effect in SAFE_HOLD leaves of SAF.STATUS. -/
theorem takes_safStatus {c : Instr} {s u : State} (h : Takes c s u) (hdev : u.dev = .safeHold) {w : Word} (hview : u.safView = (w, [])) :
    ∃ t, exec c s = .next t ∧ t.dev = .safeHold ∧ t.saf = u.saf ∧ t.key = u.key ∧ t.mram = u.mram ∧ t.stopped = u.stopped
      ∧ t.reg Addr.SAF_STATUS = w := by
  obtain ⟨t, ht, htdev, hsaf, hkey, hmram, hstopped, -⟩ := takes_safeHold h hdev
  obtain ⟨t', ht', -, hreg, -⟩ := h
  obtain rfl : t = t' := Host.Outcome.next.inj (ht.symm.trans ht')
  refine ⟨t, ht, htdev, hsaf, hkey, hmram, hstopped, ?_⟩
  rw [devUpdate_safeHold hdev] at hreg
  refine (hreg _ (by decide) fun hmem => ?_).trans (congrArg Prod.fst hview)
  obtain ⟨e, he, hea⟩ := List.mem_map.mp hmem
  have hin : e ∈ u.raised.filter fun e => decide (e.1 = Addr.SAF_STATUS) := List.mem_filter.mpr ⟨he, decide_eq_true hea⟩
  rw [show (u.raised.filter fun e => decide (e.1 = Addr.SAF_STATUS)) = [] from congrArg Prod.snd hview] at hin
  exact absurd hin (List.not_mem_nil)

theorem safView_setF {s : State} (h : s.calm = true) (f : Fld) (v : Nat) : (s.setF f v).safView = ((s.setF f v).reg Addr.SAF_STATUS, []) := by
  obtain ⟨-, -, -, -, hraised, -, -⟩ := calm_parts h
  unfold State.safView
  rw [show (s.setF f v).raised = s.raised from rfl, hraised]
  rfl

theorem canHold_of_plan {s t : State} (h : s.canHold) (hp : t.plan = s.plan) : t.canHold :=
  ⟨by rw [show t.dev = s.dev from (congrArg State.dev hp :)]; exact h.1, by rw [show t.dev = s.dev from (congrArg State.dev hp :)]; exact h.2.1,
    by rw [show t.pwr = s.pwr from (congrArg State.pwr hp :)]; exact h.2.2⟩

/-! Reports by diagnostic -/

theorem diagnose_masked {s : State} {d : Nat} (hphase : s.pwr.phase ≠ .held) (hd : d ∈ [0x0A, 0x0B, 0x15, 0x1A]) (i x : Nat) :
    s.diagnose ⟨d, i, x⟩ = ((s.endTest.count 16 0 0).raise F.SAF_EVENT_fault_masked).ksLog .safety := by
  rw [← react_masked s d i 0]
  unfold State.diagnose
  dsimp only
  rw [if_neg hphase]
  simp only [List.mem_cons, List.not_mem_nil, or_false] at hd
  rcases hd with rfl | rfl | rfl | rfl <;> simp

theorem diagnose_safe {s : State} {d : Nat} (hphase : s.pwr.phase ≠ .held) (hd : d ∈ [0x06, 0x08, 0x18]) (i x : Nat) :
    s.diagnose ⟨d, i, x⟩ = (s.react d 4 i 0).doIf (decide (d = 0x18) && decide (x = 1)) fun t => { t with stopped := true } := by
  unfold State.diagnose
  dsimp only
  rw [if_neg hphase]
  simp only [List.mem_cons, List.not_mem_nil, or_false] at hd
  rcases hd with rfl | rfl | rfl <;> simp [State.doIf]

theorem diagnose_timeAlarm {s : State} (hphase : s.pwr.phase ≠ .held) (i x : Nat) : s.diagnose ⟨0x0E, i, x⟩ =
    if s.getF F.SAF_TIME_ALARM_time_alarm_threshold = 0 then s else (s.raise F.SAF_EVENT_time_alarm).react 0x0E 0 i 0 := by
  unfold State.diagnose
  dsimp only
  rw [if_neg hphase]
  simp

theorem diagnose_redundancy {s : State} (hphase : s.pwr.phase ≠ .held) (i x : Nat) : s.diagnose ⟨0x11, i, x⟩ = s.react 0x11 1 i 0 := by
  unfold State.diagnose
  dsimp only
  rw [if_neg hphase]
  simp

theorem diagnose_port {s : State} {i x : Nat} (hphase : s.pwr.phase ≠ .held) (hport : s.portExists i = true) (hx : x ≠ 1) :
    s.diagnose ⟨0x14, i, x⟩ = s.react 0x14 2 i i := by
  unfold State.diagnose
  dsimp only
  rw [if_neg hphase]
  simp [hport, hx]

theorem diagnose_pipeline {s : State} {i x : Nat} (hphase : s.pwr.phase ≠ .held) (hi : i < 8) :
    s.diagnose ⟨0x13, i, x⟩ = s.react 0x13 3 i i := by
  unfold State.diagnose
  dsimp only
  rw [if_neg hphase]
  simp [hi]

theorem diagnose_channels {s : State} (hphase : s.pwr.phase ≠ .held) : s.diagnose ⟨0x19, 0, 0⟩ =
    ((s.setF F.SAF_STATUS_channels_agree 0).raise F.SAF_EVENT_channel_disagree).react 0x19 4 0 0 := by
  unfold State.diagnose
  dsimp only
  rw [if_neg hphase]
  simp

/-- Reports of one class: MASKED. -/
theorem maskedReports {s : State} (i x : Nat) (hcalm : s.calm = true) (hphase : s.pwr.phase ≠ .held) (hlog : s.key.log.length < 767) :
    let masked := fun (t : State) => (((t.endTest).count 16 0 0).raise F.SAF_EVENT_fault_masked).ksLog .safety
    (∀ d ∈ [0x0A, 0x0B, 0x15, 0x1A], Takes (.faultReport ⟨d, i, x⟩) s (masked s))
    ∧ (s.getF F.SAF_TIME_ALARM_time_alarm_threshold ≠ 0 → Takes (.faultReport ⟨0x0E, i, x⟩) s (masked (s.raise F.SAF_EVENT_time_alarm)))
    ∧ (s.getF F.SAF_TIME_ALARM_time_alarm_threshold = 0 → Idles (.faultReport ⟨0x0E, i, x⟩) s) := by
  have hmasked : ∀ t : State, (((t.endTest).count 16 0 0).raise F.SAF_EVENT_fault_masked).agenda = t.agenda := fun t =>
    (agenda_raise _ (by decide)).trans ((agenda_count ..).trans (agenda_endTest t))
  refine ⟨fun d hd => ?_, fun h => ?_, fun h => ?_⟩
  · exact takes_ksLog_of_agenda (f := fun s => s.diagnose ⟨d, i, x⟩) rfl hcalm hlog (diagnose_masked hphase hd i x) (hmasked s)
  · refine takes_ksLog_of_agenda (f := fun s => s.diagnose ⟨0x0E, i, x⟩) rfl hcalm hlog ?_ ((hmasked _).trans (agenda_raise _ (by decide)))
    exact (diagnose_timeAlarm hphase i x).trans ((if_neg h).trans (react_masked ..))
  · exact idles_of (f := fun s => s.diagnose ⟨0x0E, i, x⟩) rfl hcalm ((diagnose_timeAlarm hphase i x).trans (if_pos h))

/-- Reports of the classes REDUNDANCY, PORT and PIPELINE. -/
theorem degradingReports {s : State} (i x : Nat) (hcalm : s.calm = true) (hphase : s.pwr.phase ≠ .held) (hlog : s.key.log.length < 767) :
    let t := fun (d c : Nat) => (((((s.endTest).persist d c i).faultInfo d c i).count 16 0 1).raise F.SAF_EVENT_fault_degraded)
    Takes (.faultReport ⟨0x11, i, x⟩) s (((t 0x11 1).addCause (.redundancy 0x11 i)).ksLog .safety)
    ∧ (i < 512 → s.portExists i → x ≠ 1 →
      Takes (.faultReport ⟨0x14, i, x⟩) s (((((t 0x14 2).addCause (.port i)).holdDown i).portDown i false).ksLog .safety))
    ∧ (i < 8 →
      Takes (.faultReport ⟨0x13, i, x⟩) s ((((t 0x13 3).addCause (.pipeline i)).faultOff (17 + i)).ksLog .safety)) := by
  intro t
  have ht : ∀ d c, (t d c).agenda = s.agenda := fun d c => agenda_faultNoted s d c i
  refine ⟨?_, fun _ hport hx => ?_, fun hi => ?_⟩
  · refine takes_ksLog_of_agenda (f := fun s => s.diagnose ⟨0x11, i, x⟩) rfl hcalm hlog ?_ ((agenda_addCause ..).trans (ht 0x11 1))
    exact (diagnose_redundancy hphase i x).trans (react_redundancy ..)
  · refine takes_ksLog_of_agenda (f := fun s => s.diagnose ⟨0x14, i, x⟩) rfl hcalm hlog ((diagnose_port hphase hport hx).trans ?_)
      ((agenda_portDown ..).trans ((agenda_holdDown ..).trans ((agenda_addCause ..).trans (ht 0x14 2))))
    exact congrArg (fun u => State.ksLog u .safety)
      ((if_neg (by decide)).trans ((if_neg (by decide)).trans ((if_neg (by decide)).trans ((if_pos rfl).trans (if_neg (by decide))))))
  · refine takes_ksLog_of_agenda (f := fun s => s.diagnose ⟨0x13, i, x⟩) rfl hcalm hlog ((diagnose_pipeline hphase hi).trans ?_)
      ((agenda_faultOff _ (by omega)).trans ((agenda_addCause ..).trans (ht 0x13 3)))
    exact congrArg (fun u => State.ksLog u .safety)
      ((if_neg (by decide)).trans ((if_neg (by decide)).trans ((if_neg (by decide)).trans (if_neg (by decide)))))

/-- A SAFE report that may stop the core die. -/
theorem safeReport {s : State} {d : Nat} (i x : Nat) (hcalm : s.calm = true) (hd : d ∈ [0x06, 0x08, 0x18]) (hold : s.canHold)
    (hlog : s.key.log.length < 767) :
    ∃ t, exec (.faultReport ⟨d, i, x⟩) s = .next t ∧ t.dev = .safeHold ∧ t.saf.safeA ∧ t.saf.safeB
      ∧ (∀ u, t.alarm u = if s.inGap then s.alarm u else true) ∧ t.mram.faults = (s.persist d 4 i).mram.faults
      ∧ t.stopped = (decide (d = 0x18) && decide (x = 1)) := by
  have hne : d = 0x16 → (0 : Nat) ≠ 0 := by
    rintro rfl
    exact absurd hd (by decide)
  obtain ⟨hdev, hA, hB, htest, hheld⟩ := react_safe_holds hold d i 0
  obtain ⟨-, -, hkey, hstop, -⟩ := safeNoted_fields s d i
  have hreact := (rests_of_calm hcalm).react d 4 i hne hlog
  have hstopped : (s.react d 4 i 0).stopped = false := hheld.stopped.trans (hstop.trans (calm_runs hcalm))
  have hmram : (s.react d 4 i 0).mram = (s.persist d 4 i).mram := hheld.mram.trans (safeNoted_mram s d i)
  have hend : (s.react d 4 i 0).key.gapEnd = s.key.gapEnd := by rw [hheld.gapEnd, hkey]
  have hgap : (s.react d 4 i 0).key.gapAlarm = s.key.gapAlarm := by rw [hheld.gapAlarm, hkey]
  have htakes : ∀ u : State, s.diagnose ⟨d, i, x⟩ = u → u.Rests (s.key.log.length + 1) → Takes (.faultReport ⟨d, i, x⟩) s u := fun u hu hr =>
    takes_of_rests (f := fun s => s.diagnose ⟨d, i, x⟩) rfl hcalm hu hr
  have hdiag := diagnose_safe hold.2.2 hd i x
  cases hc : decide (d = 0x18) && decide (x = 1) with
  | false =>
    rw [hc] at hdiag
    obtain ⟨t, ht, htdev, hsaf, htkey, htmram, htstop, -⟩ := takes_safeHold (htakes (s.react d 4 i 0) hdiag hreact) hdev
    exact ⟨t, ht, htdev, hsaf ▸ hA, hsaf ▸ hB, alarm_safeHold htdev (hsaf ▸ htest) (htkey ▸ hend) (htkey ▸ hgap),
      by rw [htmram, hmram], htstop.trans hstopped⟩
  | true =>
    rw [hc] at hdiag
    obtain ⟨t, ht, htdev, hsaf, htkey, htmram, htstop, -⟩ :=
      takes_safeHold (htakes { s.react d 4 i 0 with stopped := true } hdiag { hreact with }) hdev
    exact ⟨t, ht, htdev, hsaf ▸ hA, hsaf ▸ hB, alarm_safeHold htdev (hsaf ▸ htest) (htkey ▸ hend) (htkey ▸ hgap),
      by rw [htmram]; exact congrArg Mram.faults hmram, htstop⟩

/-- Settles O40: a report's diagnostic gives its class, and the class the reaction. -/
theorem faultReports : Obligations.FaultReports := by
  refine ⟨⟨?_, ?_, ?_⟩, ?_, ?_, ?_⟩
  · intro s r hcalm hphase
    exact idles_of (f := fun s => s.diagnose r) rfl hcalm (if_pos hphase)
  · exact fun s i x hcalm hphase hlog => maskedReports i x hcalm hphase hlog
  · exact fun s i x hcalm hphase hlog => degradingReports i x hcalm hphase hlog
  · exact fun s d i x hcalm hd hdev hoff hphase hlog => safeReport i x hcalm hd ⟨hdev, hoff, hphase⟩ hlog
  · intro s hcalm hdev hoff hphase
    have hold : (s.setF F.SAF_STATUS_backstop_fired 1).canHold := canHold_of_plan ⟨hdev, hoff, hphase⟩ (plan_setF ..)
    obtain ⟨hsafe, -, -, htest, hheld⟩ := enterSafeHold_holds hold
    have hrests : (s.setF F.SAF_STATUS_backstop_fired 1).enterSafeHold.Rests s.key.log.length :=
      ((rests_of_calm hcalm).of_agenda (agenda_setF _ _ (by decide))).enterSafeHold
    have htakes : Takes .backstopFired s (s.setF F.SAF_STATUS_backstop_fired 1).enterSafeHold :=
      takes_of_rests (f := fun s => s.backstop) rfl hcalm rfl hrests
    obtain ⟨t, ht, htdev, hsaf, htkey, -, -, hreg⟩ := takes_safStatus htakes hsafe ((saf_enterSafeHold hold).trans (safView_setF hcalm _ _))
    refine ⟨t, ht, htdev, ?_, alarm_safeHold htdev (hsaf ▸ htest) (htkey ▸ hheld.gapEnd) (htkey ▸ hheld.gapAlarm)⟩
    rw [getF_of_reg (f := F.SAF_STATUS_backstop_fired) hreg, getF_setF _ _ _ (by decide)]
    rfl
  · intro s hcalm hdev hoff hphase hlog
    have hold : ((s.setF F.SAF_STATUS_channels_agree 0).raise F.SAF_EVENT_channel_disagree).canHold :=
      canHold_of_plan ⟨hdev, hoff, hphase⟩ ((plan_raise ..).trans (plan_setF ..))
    obtain ⟨hsafe, -, -, htest, hheld⟩ := react_safe_holds hold 0x19 0 0
    obtain ⟨-, -, hkey, -⟩ := safeNoted_fields ((s.setF F.SAF_STATUS_channels_agree 0).raise F.SAF_EVENT_channel_disagree) 0x19 0
    have hrests : ((s.setF F.SAF_STATUS_channels_agree 0).raise F.SAF_EVENT_channel_disagree).Rests s.key.log.length :=
      (rests_of_calm hcalm).of_agenda ((agenda_raise _ (by decide)).trans (agenda_setF _ _ (by decide)))
    have htakes := takes_of_rests (c := .channelDisagree) (f := fun s => s.diagnose ⟨0x19, 0, 0⟩) rfl hcalm (diagnose_channels hphase)
      (hrests.react 0x19 4 0 (by decide) hlog)
    obtain ⟨t, ht, htdev, hsaf, htkey, -, -, hreg⟩ := takes_safStatus htakes hsafe
      ((saf_react_safe hold 0x19 0 0).trans ((saf_raise _ (by decide)).trans (safView_setF hcalm _ _)))
    refine ⟨t, ht, htdev, ?_, alarm_safeHold htdev (hsaf ▸ htest) ?_ ?_⟩
    · rw [getF_of_reg (f := F.SAF_STATUS_channels_agree) hreg, getF_setF _ _ _ (by decide)]
      rfl
    · rw [htkey, hheld.gapEnd, hkey]
      rfl
    · rw [htkey, hheld.gapAlarm, hkey]
      rfl

end Sys2Proof.Machine
end

/-! ### The channels of the DMA engine (R345 to R360) -/

section
namespace Sys2Proof.Machine

/-! Registers of a channel -/

theorem channelAt_cfg {c : Nat} (h : c < 32) : channelAt (Addr.DMA_CH_CFG c) = some c := by
  unfold channelAt Addr.DMA_CH_CFG
  rw [if_pos (by omega)]
  congr 1
  omega

theorem channelAt_ctrl {c : Nat} (h : c < 32) : channelAt (Addr.DMA_CH_CTRL c) = some c := by
  unfold channelAt Addr.DMA_CH_CTRL
  rw [if_pos (by omega)]
  congr 1
  omega

/-- The registers of a channel lie in the page of DMA. -/
theorem channel_page {c : Nat} (h : c < 32) : (0x30000 ≤ Addr.DMA_CH_CFG c ∧ Addr.DMA_CH_CFG c < 0x40000)
    ∧ (0x30000 ≤ Addr.DMA_CH_CTRL c ∧ Addr.DMA_CH_CTRL c < 0x40000) ∧ (0x30000 ≤ Addr.DMA_CH_HEAD c ∧ Addr.DMA_CH_HEAD c < 0x40000)
    ∧ (0x30000 ≤ Addr.DMA_CH_TAIL c ∧ Addr.DMA_CH_TAIL c < 0x40000) ∧ (0x30000 ≤ Addr.DMA_CH_STATUS c ∧ Addr.DMA_CH_STATUS c < 0x40000) := by
  unfold Addr.DMA_CH_CFG Addr.DMA_CH_CTRL Addr.DMA_CH_HEAD Addr.DMA_CH_TAIL Addr.DMA_CH_STATUS
  omega

theorem page_ne_plb {a : Nat} (h : 0x30000 ≤ a ∧ a < 0x40000) : a ≠ Addr.PLB_STATUS := by
  unfold Addr.PLB_STATUS
  omega

theorem channel_ne_plb {c : Nat} (h : c < 32) : Addr.DMA_CH_CFG c ≠ Addr.PLB_STATUS ∧ Addr.DMA_CH_CTRL c ≠ Addr.PLB_STATUS
    ∧ Addr.DMA_CH_HEAD c ≠ Addr.PLB_STATUS ∧ Addr.DMA_CH_TAIL c ≠ Addr.PLB_STATUS ∧ Addr.DMA_CH_STATUS c ≠ Addr.PLB_STATUS := by
  obtain ⟨h1, h2, h3, h4, h5⟩ := channel_page h
  exact ⟨page_ne_plb h1, page_ne_plb h2, page_ne_plb h3, page_ne_plb h4, page_ne_plb h5⟩

theorem channel_ne_armed (c : Nat) : Addr.DMA_CH_CFG c ≠ Addr.SYS_ARMED ∧ Addr.DMA_CH_HEAD c ≠ Addr.SYS_ARMED
    ∧ Addr.DMA_CH_TAIL c ≠ Addr.SYS_ARMED ∧ Addr.DMA_CH_STATUS c ≠ Addr.SYS_ARMED := by
  unfold Addr.DMA_CH_CFG Addr.DMA_CH_HEAD Addr.DMA_CH_TAIL Addr.DMA_CH_STATUS Addr.SYS_ARMED
  omega

/-- The write of a channel's configuration switches it on or off. -/
theorem dmaAfter_cfg (s : State) {c : Nat} (h : c < 32) (v : Word) (old : State) : s.dmaAfter (Addr.DMA_CH_CFG c) v old =
    if s.getB (F.DMA_CH_CFG_enable c) && !old.getB (F.DMA_CH_CFG_enable c) then s.chEnable c
    else if !s.getB (F.DMA_CH_CFG_enable c) && old.getB (F.DMA_CH_CFG_enable c) then s.chDisable c else s := by
  unfold State.dmaAfter
  rw [channelAt_cfg h]
  exact if_pos rfl

theorem dmaAfter_ctrl (s : State) {c : Nat} (h : c < 32) (v : Word) (old : State) : s.dmaAfter (Addr.DMA_CH_CTRL c) v old =
    if fldOf v 0 1 = 1 then s.chRestart c else s := by
  have hne : Addr.DMA_CH_CTRL c ≠ Addr.DMA_CH_CFG c := by
    unfold Addr.DMA_CH_CTRL Addr.DMA_CH_CFG
    omega
  unfold State.dmaAfter
  rw [channelAt_ctrl h]
  exact (if_neg hne).trans (if_pos rfl)

theorem stored_ch (s : State) (m a : Nat) (v : Word) (c : Nat) : (s.stored m a v).ch c = s.ch c :=
  stored_beside (fun t => t.ch c) (fun _ _ _ _ => rfl) s m a v

/-! Staging cells beside the channels -/

/-- The state with other DMA channels. -/
def State.withDma (s : State) (d : SMap DmaCh) : State := { s with dma := d }

theorem setCell_withDma (s : State) (d : SMap DmaCh) (a : Nat) (c : Option Cell) : (s.withDma d).setCell a c = (s.setCell a c).withDma d := (rfl)
theorem setF_withDma (s : State) (d : SMap DmaCh) (f : Fld) (v : Nat) : (s.withDma d).setF f v = (s.setF f v).withDma d := (rfl)
theorem raiseBit_withDma (s : State) (d : SMap DmaCh) (f : Fld) (i : Nat) : (s.withDma d).raiseBit f i = (s.raiseBit f i).withDma d := (rfl)
theorem raise_withDma (s : State) (d : SMap DmaCh) (f : Fld) : (s.withDma d).raise f = (s.raise f).withDma d := (rfl)
theorem count_withDma (s : State) (d : SMap DmaCh) (g i c : Nat) : (s.withDma d).count g i c = (s.count g i c).withDma d := (rfl)
theorem setPool_withDma (s : State) (d : SMap DmaCh) (k : Nat) (p : Pool) : (s.withDma d).setPool k p = (s.setPool k p).withDma d := (rfl)

theorem raiseIf_withDma (s : State) (d : SMap DmaCh) (c : Bool) (f : Fld) : (s.withDma d).raiseIf c f = (s.raiseIf c f).withDma d := by
  cases c <;> rfl

theorem freeRefused_withDma (s : State) (d : SMap DmaCh) (a req reason master : Nat) :
    (s.withDma d).freeRefused a req reason master = (s.freeRefused a req reason master).withDma d := by
  have hcell : (s.withDma d).cell a = s.cell a := rfl
  have hfab : (s.withDma d).fab = s.fab := rfl
  unfold State.freeRefused
  rw [hcell, hfab, count_withDma, setF_withDma, setF_withDma]
  dsimp only
  rw [setF_withDma, setF_withDma, setF_withDma, raise_withDma]

theorem freeCell_withDma (s : State) (d : SMap DmaCh) (req a : Nat) : (s.withDma d).freeCell req a = (s.freeCell req a).withDma d := by
  have hcell : (s.withDma d).cell a = s.cell a := rfl
  unfold State.freeCell
  rw [hcell]
  cases s.cell a with
  | none => rfl
  | some c =>
    dsimp only
    cases c.bad && decide (a < 2 ^ 27) with
    | false => rfl
    | true =>
      rw [if_pos rfl, if_pos rfl]
      unfold State.free
      dsimp only
      rw [show ((s.withDma d).setCell a none).freeCtr = (s.setCell a none).freeCtr from rfl]
      by_cases hfree : Config.freeNat (s.setCell a none).freeCtr % 2 = 1
      · rw [if_pos hfree, if_pos hfree]
        rfl
      · rw [if_neg hfree, if_neg hfree]
        rfl

theorem releaseCell_withDma (s : State) (d : SMap DmaCh) (req master a : Nat) :
    (s.withDma d).releaseCell req master a = (s.releaseCell req master a).withDma d := by
  have hcell : (s.withDma d).cell a = s.cell a := rfl
  have hfreed : (s.withDma d).freedNow = s.freedNow := rfl
  unfold State.releaseCell
  rw [hcell]
  cases s.cell a with
  | none =>
    dsimp only
    rw [hfreed, freeRefused_withDma]
  | some c =>
    dsimp only
    split
    · exact freeRefused_withDma ..
    · split
      · exact freeCell_withDma ..
      · exact setCell_withDma ..

theorem each_withDma {α : Type} (f : State → α → State) (h : ∀ (t : State) (d : SMap DmaCh) (x : α), f (t.withDma d) x = (f t x).withDma d)
    (l : List α) (d : SMap DmaCh) : ∀ s : State, (s.withDma d).each l f = (s.each l f).withDma d := by
  induction l with
  | nil => intro s; rfl
  | cons x r ih =>
    intro s
    refine Eq.trans (b := (f (s.withDma d) x).each r f) rfl ?_
    rw [h, ih]
    rfl

theorem poolMove_withDma (s : State) (d : SMap DmaCh) (k : Nat) (x y : Int) : (s.withDma d).poolMove k x y = (s.poolMove k x y).withDma d := by
  have hpool : (s.withDma d).pool k = s.pool k := rfl
  have hnow : (s.withDma d).now = s.now := rfl
  unfold State.poolMove
  rw [hpool, hnow]
  extract_lets p l p1 p2 up ev s1 s1'
  have h1 : s1 = s1'.withDma d := by
    simp only [s1, s1']
    rw [setPool_withDma, raiseIf_withDma, raiseIf_withDma, raiseIf_withDma]
  clear_value s1 s1'
  rw [h1]
  split
  · exact raiseBit_withDma ..
  · rfl

/-- The cells of a channel go back to pool 15. -/
def State.cellsBack (s : State) (l : List Nat) : State :=
  (s.each l fun t a => t.releaseCell 10 0x11 a).poolMove 15 (-(l.length : Int)) 0

theorem cellsBack_withDma (s : State) (d : SMap DmaCh) (l : List Nat) : (s.withDma d).cellsBack l = (s.cellsBack l).withDma d := by
  unfold State.cellsBack
  rw [each_withDma _ (fun t d a => releaseCell_withDma t d 10 0x11 a), poolMove_withDma]

theorem cellsBack_dma (s : State) (l : List Nat) : (s.cellsBack l).dma = s.dma :=
  (congrArg State.dma (cellsBack_withDma s s.dma l) :)

theorem agenda_cellsBack (s : State) (l : List Nat) : (s.cellsBack l).agenda = s.agenda := by
  unfold State.cellsBack
  rw [agenda_poolMove, agenda_each _ _ _ fun t a _ => agenda_releaseCell ..]

theorem del_del {α : Type} (k : Nat) (m : SMap α) : SMap.del k (SMap.del k m) = SMap.del k m := by
  induction m with
  | nil => rfl
  | cons e r ih =>
    obtain ⟨j, v⟩ := e
    by_cases hj : k = j
    · simp only [SMap.del, if_pos hj, ih]
    · simp only [SMap.del, if_neg hj, ih]

theorem del_put {α : Type} (k : Nat) (v : α) (m : SMap α) : SMap.del k (SMap.put k v m) = SMap.del k m := by
  induction m with
  | nil => simp [SMap.put, SMap.del]
  | cons e r ih =>
    obtain ⟨j, w⟩ := e
    unfold SMap.put
    split
    · simp [SMap.del]
    · split
      next hj => simp [SMap.del, hj]
      next hj => simp only [SMap.del, if_neg hj, ih]

theorem put_put {α : Type} (k : Nat) (v w : α) (m : SMap α) : SMap.put k v (SMap.put k w m) = SMap.put k v m := by
  induction m with
  | nil => simp [SMap.put]
  | cons e r ih =>
    obtain ⟨j, x⟩ := e
    by_cases hlt : k < j
    · simp [SMap.put, hlt]
    · by_cases hj : k = j
      · simp [SMap.put, hj]
      · simp [SMap.put, hlt, hj, ih]

/-- A channel set to its reset state is what it was set to before no longer. -/
theorem set_default_set {α : Type} [DecidableEq α] (d : Nat → α) (k : Nat) (v : α) (m : SMap α) :
    SMap.set d k (d k) (SMap.set d k v m) = SMap.set d k (d k) m := by
  unfold SMap.set
  rw [if_pos rfl, if_pos rfl]
  split
  · exact del_del k m
  · exact del_put k v m

theorem set_set {α : Type} [DecidableEq α] (d : Nat → α) (k : Nat) {v w : α} (hv : v ≠ d k) (hw : w ≠ d k) (m : SMap α) :
    SMap.set d k v (SMap.set d k w m) = SMap.set d k v m := by
  unfold SMap.set
  rw [if_neg hv, if_neg hw, if_neg hv]
  exact put_put k v w m

/-! Halt and disable -/

theorem dropWaiting_none {s : State} {c : Nat} (h : (s.ch c).waiting = none) : s.dropWaiting c = s := by
  unfold State.dropWaiting
  rw [h]

theorem agenda_returnGrant (s : State) (requester key : Nat) : (s.returnGrant requester key).agenda = s.agenda := agenda_allKs _ _ rfl

theorem agenda_msix (s : State) (fn vec : Nat) : (s.msix fn vec).agenda = s.agenda := (rfl)

/-- The channel's outstanding work is discarded, its cells go back, and its registers show it DISABLED. -/
def State.chDisabled (s : State) (c : Nat) : State :=
  ((((s.cellsBack (s.ch c).cells).setCh c .init).setF (F.DMA_CH_STATUS_state c) 0).setF (F.DMA_CH_STATUS_cause c) 0).setF
    (F.DMA_CH_CFG_enable c) 0

theorem agenda_chDisabled (s : State) {c : Nat} (h : c < 32) : (s.chDisabled c).agenda = s.agenda := by
  obtain ⟨hcfg, -, -, -, hstatus⟩ := channel_ne_plb h
  unfold State.chDisabled
  rw [agenda_setF _ _ hcfg, agenda_setF _ _ hstatus, agenda_setF _ _ hstatus, agenda_setCh, agenda_cellsBack]

/-- Nothing is started: the channel's work is its flags alone. -/
theorem chAbandon_idle {s : State} {c : Nat} (hwait : (s.ch c).waiting = none) (hactive : (s.ch c).active = []) :
    s.chAbandon c = s.setCh c { s.ch c with active := [], reads := [], staged := [], stagedB := [] } := by
  unfold State.chAbandon
  rw [dropWaiting_none hwait]
  dsimp only
  rw [hactive]
  rfl

theorem setCh_withDma (s : State) (c : Nat) (x : DmaCh) : s.setCh c x = s.withDma (SMap.set (fun _ => DmaCh.init) c x s.dma) := (rfl)

/-- Whatever the channel is set to before, once it is DISABLED its state is that after reset. -/
theorem cellsBack_setCh_init (s : State) (c : Nat) (x : DmaCh) (l : List Nat) :
    ((s.setCh c x).cellsBack l).setCh c .init = (s.cellsBack l).setCh c .init := by
  have hw : ∀ (t : State) (d : SMap DmaCh), (t.withDma d).setCh c .init = t.withDma (SMap.set (fun _ => DmaCh.init) c .init d) := fun _ _ => (rfl)
  rw [setCh_withDma s, cellsBack_withDma, hw, setCh_withDma (s.cellsBack l), cellsBack_dma]
  exact congrArg (s.cellsBack l).withDma (set_default_set (fun _ => DmaCh.init) c x s.dma)

theorem chOff_idle {s : State} {c : Nat} (x : DmaCh) (hwait : x.waiting = none) (hactive : x.active = []) (hcells : x.cells = (s.ch c).cells) :
    (s.setCh c x).chOff c = s.chDisabled c := by
  have habandon := chAbandon_idle (s := s.setCh c x) (c := c) (by rw [ch_setCh]; exact hwait) (by rw [ch_setCh]; exact hactive)
  have hback : ∀ y : DmaCh, y.cells = (s.ch c).cells →
      ((((s.setCh c x).setCh c y).each y.cells fun t a => t.releaseCell 10 0x11 a).poolMove 15 (-(y.cells.length : Int)) 0).setCh c .init
        = (s.cellsBack (s.ch c).cells).setCh c .init := fun y hy => by
    rw [hy]
    exact (cellsBack_setCh_init (s.setCh c x) c y _).trans (cellsBack_setCh_init s c x _)
  unfold State.chOff
  rw [habandon]
  dsimp only
  rw [ch_setCh, ch_setCh]
  exact congrArg (fun u : State => ((u.setF (F.DMA_CH_STATUS_state c) 0).setF (F.DMA_CH_STATUS_cause c) 0).setF (F.DMA_CH_CFG_enable c) 0)
    (hback _ hcells)

/-! The rules of a channel's registers -/

/-- With nothing started the channel stands at a boundary. -/
theorem chSettle_boundary {s : State} {c : Nat} (n : Nat) (h : (s.ch c).active = []) : s.chSettle c (n + 1) = s.chBoundary c := by
  rw [State.chSettle, h]

/-- The leading descriptor has work left. -/
theorem chSettle_waits {s : State} {c : Nat} {d : DmaDesc} {l : List DmaDesc} (n : Nat) (h : (s.ch c).active = d :: l)
    (hdone : (s.ch c).done d = false) : s.chSettle c (n + 1) = s := by
  rw [State.chSettle, h]
  exact if_neg (by rw [hdone]; exact Bool.false_ne_true)

theorem chBoundary_disabling {s : State} {c : Nat} (hactive : (s.ch c).active = []) (h : (s.ch c).disabling = true) :
    s.chBoundary c = s.chOff c := by
  unfold State.chBoundary
  dsimp only
  rw [hactive, h]
  rfl

theorem chDisable_idle {s : State} {c : Nat} (hstate : s.chState c ≠ 0) (hwait : (s.ch c).waiting = none) (hactive : (s.ch c).active = []) :
    s.chDisable c = s.chDisabled c := by
  unfold State.chDisable
  rw [if_neg hstate, chSettle_boundary 7 (by rw [ch_setCh]; exact hactive),
    chBoundary_disabling (by rw [ch_setCh]; exact hactive) (by rw [ch_setCh])]
  exact chOff_idle _ hwait hactive rfl

theorem chDisable_running {s : State} {c : Nat} {d : DmaDesc} {l : List DmaDesc} (hstate : s.chState c ≠ 0) (hactive : (s.ch c).active = d :: l)
    (hdone : (s.ch c).done d = false) : s.chDisable c = s.setCh c { s.ch c with disabling := true } := by
  unfold State.chDisable
  rw [if_neg hstate, chSettle_waits 7 (by rw [ch_setCh]; exact hactive) (by rw [ch_setCh]; exact hdone)]

/-- Nothing falls due between two states, requests for leave being withdrawn at most. -/
structure Mild (s t : State) : Prop where
  queue : s.key.ks.queue = [] → t.key.ks.queue = []
  flight : t.hif.inflight = s.hif.inflight
  rings : (s.hif.rings.all fun e => !e.2.stopping) = true → (t.hif.rings.all fun e => !e.2.stopping) = true
  group : t.groupTested = s.groupTested
  raised : ∀ e ∈ t.raised, e ∈ s.raised ∨ guardReg e.1 = false
  due : t.key.logDue = s.key.logDue
  fenced : t.hif.fenced = s.hif.fenced
  log : t.key.log.length = s.key.log.length

namespace Mild

theorem of_keep {s t : State} (k : Keep s t) (hlog : t.key.log.length = s.key.log.length) : Mild s t :=
  ⟨fun h => k.queue.trans h, k.flight, k.rings, groupTested_reg k.group, k.raised, k.log, k.fenced, hlog⟩

theorem of_agenda {s t : State} (h : t.agenda = s.agenda) : Mild s t := of_keep (Keep.of_agenda h) (logLength_of_agenda h)

theorem refl (s : State) : Mild s s := of_agenda rfl

theorem trans {s t u : State} (h : Mild s t) (g : Mild t u) : Mild s u :=
  ⟨g.queue ∘ h.queue, g.flight.trans h.flight, g.rings ∘ h.rings, g.group.trans h.group, fun e m => (g.raised e m).elim (h.raised e) .inr,
    g.due.trans h.due, g.fenced.trans h.fenced, g.log.trans h.log⟩

theorem each {α : Type} (s : State) (l : List α) (f : State → α → State) (h : ∀ t, ∀ x ∈ l, Mild t (f t x)) : Mild s (s.each l f) :=
  each_keeps (Mild s) f l (fun t x m k => k.trans (h t x m)) s (refl s)

theorem dropWaiting (s : State) (c : Nat) : Mild s (s.dropWaiting c) := by
  unfold State.dropWaiting
  split
  · exact refl s
  next d _ => exact { refl s with queue := fun hq => (congrArg (List.filter _) hq).trans rfl }

theorem chAbandon (s : State) (c : Nat) : Mild s (s.chAbandon c) := by
  unfold State.chAbandon
  extract_lets s1 s2
  have hgrants : Mild s1 s2 := each s1 _ _ fun t d _ => by
    split
    · exact of_agenda (agenda_returnGrant ..)
    · exact refl t
  exact ((dropWaiting s c).trans hgrants).trans (of_agenda (agenda_setCh ..))

theorem chHalt (s : State) {c : Nat} (hc : c < 32) (cause : Nat) : Mild s (s.chHalt c cause) := by
  obtain ⟨-, -, -, -, hstatus⟩ := channel_ne_plb hc
  unfold State.chHalt
  extract_lets s1 src s2
  have hinfo : s1.agenda = (s.chAbandon c).agenda := by
    simp only [s1]
    unfold State.haltInfo
    rw [agenda_setF _ _ (by decide), agenda_setF _ _ (by decide), agenda_setF _ _ hstatus, agenda_setF _ _ hstatus]
  have hch : s2.agenda = s1.agenda := agenda_setCh ..
  refine (chAbandon s c).trans (of_agenda (Eq.trans ?_ (hch.trans hinfo)))
  unfold State.chSignal
  rw [agenda_msix, agenda_raiseIf _ _ (by decide), agenda_raise _ (by decide), agenda_count]

theorem chOff (s : State) {c : Nat} (hc : c < 32) : Mild s (s.chOff c) := by
  obtain ⟨hcfg, -, -, -, hstatus⟩ := channel_ne_plb hc
  unfold State.chOff
  extract_lets s2 x s3
  have hback : s3.agenda = s2.agenda := agenda_cellsBack s2 x.cells
  exact (chAbandon s c).trans (of_agenda (by
    rw [agenda_setF _ _ hcfg, agenda_setF _ _ hstatus, agenda_setF _ _ hstatus, agenda_setCh, hback]))

end Mild

theorem Rests.of_mild {s t : State} {n : Nat} (h : s.Rests n) (k : Mild s t) : t.Rests n :=
  ⟨k.queue h.queue, k.flight.trans h.flight, k.fenced.trans h.fenced, k.rings h.rings, k.group.trans h.group, k.due.trans h.due,
    fun e he => (k.raised e he).elim (h.raised e) id, Nat.le_trans (Nat.le_of_eq k.log) h.log⟩

theorem Rests.dropWaiting {s : State} {n : Nat} (h : s.Rests n) (c : Nat) : (s.dropWaiting c).Rests n := Rests.of_mild h (Mild.dropWaiting s c)

theorem Rests.chHalt {s : State} {n c : Nat} (h : s.Rests n) (hc : c < 32) (cause : Nat) : (s.chHalt c cause).Rests n :=
  Rests.of_mild h (Mild.chHalt s hc cause)

theorem Rests.chOff {s : State} {n c : Nat} (h : s.Rests n) (hc : c < 32) : (s.chOff c).Rests n := Rests.of_mild h (Mild.chOff s hc)

theorem chEnable_granted {s x : State} {c : Nat} {l : List Nat} (h : (s.poolGrants 15 16 && s.quotaLeft false 15 16) = true)
    (hdraw : s.drawCells false ⟨0, false, 0, 1, 10, 15, false, 0⟩ 16 = (l, x)) : s.chEnable c =
    ((((x.poolMove 15 16 0).setCh c { DmaCh.init with cells := l }).setReg (Addr.DMA_CH_HEAD c) 0).setReg (Addr.DMA_CH_TAIL c)
      0).setReg (Addr.DMA_CH_STATUS c) 1 := by
  unfold State.chEnable
  rw [if_pos h, hdraw]

theorem chEnable_refused {s : State} {c : Nat} (h : (s.poolGrants 15 16 && s.quotaLeft false 15 16) = false) : s.chEnable c =
    ((((s.poolFail 15).setF (F.DMA_CH_CFG_enable c) 0).setF F.DMA_HALT_INFO_channel c).setF F.DMA_HALT_INFO_cause 8).raise
      F.DMA_EVENT_cells_refused := by
  unfold State.chEnable
  rw [if_neg (by rw [h]; decide)]
  rfl

/-- A doorbell that reaches the channel. -/
theorem chDoorbell_low {s : State} {m c : Nat} {part : DoorbellPart} (v : BitVec 64)
    (hpermitted : s.permitted m (0x101000 + 8 * c + (match part with | .high => 4 | _ => 0)) 2 = true) (hlow : part ≠ .high)
    (howner : m < 16 → m = s.getF (F.DMA_CH_CFG_owner_fn c)) (hon : (s.setArmed m false).domainOn 34 = true) :
    s.chDoorbell m c part v = (s.setArmed m false).chBell c (v.toNat % 2 ^ 17) := by
  have hmine : (decide (m < 16) && decide (m ≠ s.getF (F.DMA_CH_CFG_owner_fn c))) = false := by
    by_cases hm : m < 16
    · rw [decide_eq_false (not_not_intro (howner hm)), Bool.and_false]
    · rw [decide_eq_false hm, Bool.false_and]
  unfold State.chDoorbell State.bellWrite
  cases part with
  | high => exact absurd rfl hlow
  | low =>
    dsimp only at hpermitted ⊢
    rw [Nat.add_zero] at hpermitted
    rw [hpermitted, hmine, if_neg (by decide), if_neg (by rw [hon]; decide)]
  | whole =>
    dsimp only at hpermitted ⊢
    rw [Nat.add_zero] at hpermitted
    rw [hpermitted, hmine, if_neg (by decide), if_neg (by rw [hon]; decide)]

theorem chDoorbell_high {s : State} {m c : Nat} (v : BitVec 64) (hpermitted : s.permitted m (0x101000 + 8 * c + 4) 2 = true)
    (howner : m < 16 → m = s.getF (F.DMA_CH_CFG_owner_fn c)) (hon : (s.setArmed m false).domainOn 34 = true) :
    s.chDoorbell m c .high v = s.setArmed m false := by
  have hmine : (decide (m < 16) && decide (m ≠ s.getF (F.DMA_CH_CFG_owner_fn c))) = false := by
    by_cases hm : m < 16
    · rw [decide_eq_false (not_not_intro (howner hm)), Bool.and_false]
    · rw [decide_eq_false hm, Bool.false_and]
  unfold State.chDoorbell State.bellWrite
  dsimp only
  rw [hpermitted, hmine, if_neg (by decide), if_neg (by rw [hon]; decide)]

theorem disarmed_domainOn (s : State) (m d : Nat) : (s.setArmed m false).domainOn d = s.domainOn d :=
  domainOn_of_reg (reg_setReg_other s (by decide) _) (reg_setReg_other s (by decide) _) d

/-- Settles O46: what a write of a channel's registers and its doorbell start, by the channel's state. -/
theorem dmaChannels : Obligations.DmaChannels := by
  refine ⟨?_, ?_, ?_⟩
  · intro s m c v hcalm hc hadmits t
    obtain ⟨hpage, -, -, -, -⟩ := channel_page hc
    obtain ⟨hcfg, -, hhead, htail, hstatus⟩ := channel_ne_plb hc
    obtain ⟨harmcfg, -, -, harmstatus⟩ := channel_ne_armed c
    have hown : canonAddr (Addr.DMA_CH_CFG c) = Addr.DMA_CH_CFG c := canonAddr_self (.inl (by omega))
    have hold : (s.setArmed m false).getB (F.DMA_CH_CFG_enable c) = s.getB (F.DMA_CH_CFG_enable c) := disarmed_getB s m harmcfg
    have hch : t.ch c = s.ch c := stored_ch s m _ v c
    have hstate : t.chState c = s.chState c :=
      stored_getF hown (by show Addr.DMA_CH_STATUS c ≠ Addr.DMA_CH_CFG c; unfold Addr.DMA_CH_STATUS Addr.DMA_CH_CFG; omega) harmstatus
    have hafter : t.after m (Addr.DMA_CH_CFG c) (s.armed m) v (s.setArmed m false) =
        if t.getB (F.DMA_CH_CFG_enable c) && !s.getB (F.DMA_CH_CFG_enable c) then t.chEnable c
        else if !t.getB (F.DMA_CH_CFG_enable c) && s.getB (F.DMA_CH_CFG_enable c) then t.chDisable c else t := by
      rw [after_dma hpage, dmaAfter_cfg _ hc, hold]
    have hwrite : ∀ {i : Instr} {u : State}, exec i s = run (fun s => s.regWord m (Addr.DMA_CH_CFG c) v) s →
        t.after m (Addr.DMA_CH_CFG c) (s.armed m) v (s.setArmed m false) = u → u.agenda = t.agenda → Takes i s u := fun hexec heffect hagenda =>
      takes_write hexec hcalm hadmits hown hcfg heffect hagenda
    refine ⟨fun hoff hon hgrants l x hdraw => ?_, fun hoff hon hrefused => ?_, fun hon hoff hne hactive hwait => ?_,
      fun hon hoff hne d l hactive hdone => ?_⟩
    · refine hwrite rfl (hafter.trans ((if_pos (by rw [hon, hoff]; rfl)).trans (chEnable_granted hgrants hdraw))) ?_
      rw [agenda_setReg _ _ hstatus, agenda_setReg _ _ htail, agenda_setReg _ _ hhead, agenda_setCh, agenda_poolMove]
      exact (congrArg (fun r : List Nat × State => r.2.agenda) hdraw.symm).trans (agenda_drawCells ..)
    · refine hwrite rfl (hafter.trans ((if_pos (by rw [hon, hoff]; rfl)).trans (chEnable_refused hrefused))) ?_
      rw [agenda_raise _ (by decide), agenda_setF _ _ (by decide), agenda_setF _ _ (by decide), agenda_setF _ _ hcfg, agenda_poolFail]
    · have hdisabled := chDisable_idle (s := t) (c := c) (by rw [hstate]; exact hne) (by rw [hch]; exact hwait) (by rw [hch]; exact hactive)
      have htarget : t.chDisabled c = ((((((t.each (s.ch c).cells fun u a => u.releaseCell 10 0x11 a).poolMove 15
          (-((s.ch c).cells.length : Int)) 0).setCh c .init).setF (F.DMA_CH_STATUS_state c) 0).setF (F.DMA_CH_STATUS_cause c) 0).setF
          (F.DMA_CH_CFG_enable c) 0) := by
        unfold State.chDisabled State.cellsBack
        rw [hch]
      refine hwrite rfl ?_ ((congrArg State.agenda htarget.symm).trans (agenda_chDisabled t hc))
      exact hafter.trans ((if_neg (by rw [hoff, Bool.false_and]; exact Bool.false_ne_true)).trans ((if_pos (by rw [hon, hoff]; rfl)).trans (hdisabled.trans htarget)))
    · refine hwrite rfl (hafter.trans ((if_neg (by rw [hoff, Bool.false_and]; exact Bool.false_ne_true)).trans ((if_pos (by rw [hon, hoff]; rfl)).trans ?_))) (agenda_setCh ..)
      rw [chDisable_running (s := t) (by rw [hstate]; exact hne) (by rw [hch]; exact hactive) (by rw [hch]; exact hdone), hch]
  · intro s m c v hcalm hc hadmits hrestart hhalted t
    obtain ⟨-, hpage, -, -, -⟩ := channel_page hc
    obtain ⟨-, hctrl, -, -, hstatus⟩ := channel_ne_plb hc
    obtain ⟨-, -, -, harmstatus⟩ := channel_ne_armed c
    have hown : canonAddr (Addr.DMA_CH_CTRL c) = Addr.DMA_CH_CTRL c := canonAddr_self (.inl (by omega))
    have hstate : t.chState c = 5 :=
      (stored_getF hown (by show Addr.DMA_CH_STATUS c ≠ Addr.DMA_CH_CTRL c; unfold Addr.DMA_CH_STATUS Addr.DMA_CH_CTRL; omega) harmstatus).trans hhalted
    refine takes_write rfl hcalm hadmits hown hctrl ?_ ((agenda_setReg _ _ hstatus).trans (agenda_setCh ..))
    rw [after_dma hpage, dmaAfter_ctrl _ hc, if_pos hrestart]
    unfold State.chRestart
    rw [if_pos hstate, show (s.stored m (Addr.DMA_CH_CTRL c) v).ch c = s.ch c from stored_ch s m _ v c]
  · intro s m c part v hcalm hc hpermitted howner hon t n i span
    obtain ⟨-, -, -, htail, hstatus⟩ := channel_ne_plb hc
    obtain ⟨harmcfg, harmhead, harmtail, harmstatus⟩ := channel_ne_armed c
    have ht : t.agenda = s.agenda := agenda_setArmed ..
    have hdomain : t.domainOn 34 = true := (disarmed_domainOn s m 34).trans hon
    have hstate : t.chState c = s.chState c := disarmed_getF s m harmstatus
    have hsize : t.chSize c = s.chSize c := congrArg (2 ^ ·) (disarmed_getF s m (f := F.DMA_CH_CFG_log2_size c) harmcfg)
    have hhead : t.getF (F.DMA_CH_HEAD_head c) = s.getF (F.DMA_CH_HEAD_head c) := disarmed_getF s m harmhead
    have hspan : t.chSpan c = s.chSpan c := by
      unfold State.chSpan
      rw [hsize, hhead, show t.getF (F.DMA_CH_TAIL_tail c) = s.getF (F.DMA_CH_TAIL_tail c) from disarmed_getF s m harmtail]
    have hch : t.ch c = s.ch c := rfl
    refine ⟨fun hhigh => ?_, fun hlow hidle hin hmore hsome => ?_, fun hlow hidle hout => ?_⟩
    · subst hhigh
      exact takes_of_agenda (f := fun s => s.chDoorbell m c .high v) rfl hcalm (chDoorbell_high v hpermitted howner hdomain) ht
    · refine takes_of_agenda (f := fun s => s.chDoorbell m c part v) rfl hcalm ((chDoorbell_low v hpermitted hlow howner hdomain).trans ?_)
        ((agenda_setF _ _ hstatus).trans ((agenda_setF _ _ htail).trans ht))
      unfold State.chBell
      dsimp only
      rw [hstate, hsize, hhead, hspan, hidle, if_neg (by decide), if_neg (fun h => h.elim (fun h => absurd hin (Nat.not_le.mpr h)) fun h => absurd hmore (Nat.not_le.mpr h)),
        if_pos (.inr ⟨rfl, hsome⟩)]
    · have hhalt : (t.chHalt c 6).Rests s.key.log.length := Rests.chHalt ((rests_of_calm hcalm).of_agenda ht) hc 6
      refine takes_of_rests (f := fun s => s.chDoorbell m c part v) rfl hcalm ((chDoorbell_low v hpermitted hlow howner hdomain).trans ?_)
        (n := s.key.log.length) ?_
      · unfold State.chBell
        dsimp only
        rw [hstate, hsize, hhead, hspan, hidle, if_neg (by decide), if_pos hout, if_neg (by decide), hch]
        rfl
      · split
        · exact Rests.chOff hhalt hc
        · exact hhalt

end Sys2Proof.Machine
end

/-! ### The work of the DMA engine (R346, R350 to R355) -/

section
namespace Sys2Proof.Machine

/-! Descriptor boundaries -/

theorem agenda_writeBack (s : State) {c : Nat} (hc : c < 32) (d : DmaDesc) : (s.writeBack c d).agenda = s.agenda := by
  obtain ⟨-, -, hhead, -, -⟩ := channel_ne_plb hc
  have hgrant : ∀ t : State, (if d.leave then t.returnGrant 5 (dmaKey c d.index) else t).agenda = t.agenda := fun t => by
    split
    · exact agenda_returnGrant ..
    · rfl
  have hsignal : ∀ t : State, (if d.irq then t.chSignal c else t).agenda = t.agenda := fun t => by
    split
    · exact agenda_msix ..
    · rfl
  have hcount : ∀ (t : State) (st : Nat), (if st = 0 then t.countN 22 c 1 d.length else t).agenda = t.agenda := fun t st => by
    split <;> rfl
  unfold State.writeBack
  dsimp only
  rw [agenda_setCh, hsignal, hgrant, hcount, agenda_count, agenda_setF _ _ hhead, agenda_hostWrite]

theorem Mild.chBoundary (s : State) {c : Nat} (hc : c < 32) : Mild s (s.chBoundary c) := by
  obtain ⟨-, -, -, -, hstatus⟩ := channel_ne_plb hc
  unfold State.chBoundary
  dsimp only
  split
  · exact Mild.refl s
  · split
    · exact Mild.chOff s hc
    · split
      · exact Mild.chHalt s hc _
      · split
        · exact Mild.of_agenda (agenda_setF _ _ hstatus)
        · exact Mild.refl s

theorem Mild.chSettle {c : Nat} (hc : c < 32) (k : Nat) : ∀ s : State, Mild s (s.chSettle c k) := by
  induction k with
  | zero => intro s; exact Mild.refl s
  | succ k ih =>
    intro s
    rw [State.chSettle]
    split
    · split
      · exact (Mild.of_agenda (agenda_writeBack s hc _)).trans (ih _)
      · exact Mild.refl s
    · exact Mild.chBoundary s hc

theorem Mild.chDisable (s : State) {c : Nat} (hc : c < 32) : Mild s (s.chDisable c) := by
  unfold State.chDisable
  split
  · exact Mild.refl s
  · exact (Mild.of_agenda (agenda_setCh ..)).trans (Mild.chSettle hc 8 _)

theorem Rests.chBoundary {s : State} {n c : Nat} (h : s.Rests n) (hc : c < 32) : (s.chBoundary c).Rests n :=
  Rests.of_mild h (Mild.chBoundary s hc)

theorem Rests.chSettle {n c : Nat} (hc : c < 32) (k : Nat) {s : State} (h : s.Rests n) : (s.chSettle c k).Rests n :=
  Rests.of_mild h (Mild.chSettle hc k s)

theorem Rests.chFail {s : State} {n c : Nat} (h : s.Rests n) (hc : c < 32) (d : DmaDesc) (status : Nat) : (s.chFail c d status).Rests n := by
  unfold State.chFail
  exact Rests.chSettle hc 8 (h.of_agenda (agenda_setCh ..))

/-! Descriptors -/

/-- A channel that may read its next descriptor. -/
theorem dmaDescriptor_reads {s : State} {c : Nat} (hc : c < 32) (hruns : s.dmaRuns = true) (hon : s.domainOn 34 = true)
    (hstate : s.chState c = 1 ∨ s.chState c = 2) (hdis : (s.ch c).disabling = false) (hhalt : (s.ch c).haltAfter = none)
    (hwait : (s.ch c).waiting = none) (h4 : (s.ch c).active.length < 4) (hspan : (s.ch c).active.length < s.chSpan c) :
    s.dmaDescriptor c false =
      (let ix := s.chIndex c (s.ch c).active.length
       let r := dmaRaw ix (s.hostRead (s.chAddr c ix) 32)
       if !r.own then (((s.setF (F.DMA_CH_STATUS_state c) 4).count 22 c 3).raise F.DMA_EVENT_own_stall)
       else if ((s.ch c).active.any fun d => decide (d.count ≠ 0)) || (r.fence && !(s.ch c).reads.isEmpty) then s
       else
         match r.check with
         | 0 =>
           if r.desc.length < s.getF F.DMA_LEAVE_THRESHOLD_leave_threshold then s.chStart c r.desc
           else
             let s1 := s.setCh c { s.ch c with waiting := some r.desc }
             (match s1.askLeave ⟨5, dmaKey c ix, s1.getF F.DMA_LEAVE_COST_leave_cost⟩ with
               | (.granted, s2) => s2.dmaGranted (dmaKey c ix)
               | (.queued, s2) => s2.setF (F.DMA_CH_STATUS_state c) 3
               | (.refused _, s2) => s2.dmaRefused (dmaKey c ix))
         | status => s.chFail c r.desc status) := by
  have hstops : (decide (s.chState c ≠ 1) && decide (s.chState c ≠ 2)) = false := by
    rcases hstate with h | h
    · rw [decide_eq_false (not_not_intro h), Bool.false_and]
    · rw [decide_eq_false (p := s.chState c ≠ 2) (not_not_intro h), Bool.and_false]
  have hblocked : (!s.dmaRuns || !s.domainOn 34 || decide (32 ≤ c) || (decide (s.chState c ≠ 1) && decide (s.chState c ≠ 2))
      || (s.ch c).disabling || (s.ch c).haltAfter.isSome || (s.ch c).waiting.isSome || decide (4 ≤ (s.ch c).active.length)
      || decide (s.chSpan c ≤ (s.ch c).active.length)) = false := by
    rw [hruns, hon, hstops, hdis, hhalt, hwait, decide_eq_false (Nat.not_le.mpr hc), decide_eq_false (Nat.not_le.mpr h4), decide_eq_false (Nat.not_le.mpr hspan)]
    rfl
  have hif : ∀ {x y z : State}, (if (!s.dmaRuns || !s.domainOn 34 || decide (32 ≤ c) || (decide (s.chState c ≠ 1) && decide (s.chState c ≠ 2))
      || (s.ch c).disabling || (s.ch c).haltAfter.isSome || (s.ch c).waiting.isSome || decide (4 ≤ (s.ch c).active.length)
      || decide (s.chSpan c ≤ (s.ch c).active.length)) = true then x else if false = true then y else z) = z := by
    intro x y z
    rw [hblocked, if_neg Bool.false_ne_true, if_neg Bool.false_ne_true]
  exact hif

theorem dmaDescriptors {s : State} {c : Nat} (hcalm : s.calm = true) (hc : c < 32) (hruns : s.dmaRuns = true) (hon : s.domainOn 34 = true)
    (hstate : s.chState c = 1 ∨ s.chState c = 2) (hdis : (s.ch c).disabling = false) (hhalt : (s.ch c).haltAfter = none)
    (hwait : (s.ch c).waiting = none) :
    let n := (s.ch c).active.length
    n < 4 → n < s.chSpan c →
    let ix := s.chIndex c n
    let r := dmaRaw ix (s.hostRead (s.chAddr c ix) 32)
    (r.own = false →
      Takes (.dmaDescriptor c false) s (((s.setF (F.DMA_CH_STATUS_state c) 4).count 22 c 3).raise F.DMA_EVENT_own_stall))
    ∧ (r.own → (∀ e ∈ (s.ch c).active, e.count = 0) → (r.fence → (s.ch c).reads = []) →
      (r.check = 0 → r.desc.length < s.getF F.DMA_LEAVE_THRESHOLD_leave_threshold →
        Takes (.dmaDescriptor c false) s
          ((s.setCh c { s.ch c with active := (s.ch c).active ++ [r.desc] }).setF (F.DMA_CH_STATUS_state c) 2))
      ∧ (r.check ≠ 0 → Takes (.dmaDescriptor c false) s (s.chFail c r.desc r.check))) := by
  intro n h4 hspan ix r
  obtain ⟨-, -, -, -, hstatus⟩ := channel_ne_plb hc
  have hreads := dmaDescriptor_reads hc hruns hon hstate hdis hhalt hwait h4 hspan
  refine ⟨fun hown => ?_, fun hown hcounts hfence => ?_⟩
  · refine takes_of_agenda (f := fun s => s.dmaDescriptor c false) rfl hcalm (hreads.trans (if_pos (by rw [show DmaRaw.own _ = false from hown]; rfl))) ?_
    rw [agenda_raise _ (by decide), agenda_count, agenda_setF _ _ hstatus]
  · have hfree : (((s.ch c).active.any fun d => decide (d.count ≠ 0)) || (r.fence && !(s.ch c).reads.isEmpty)) = false := by
      have h1 : ((s.ch c).active.any fun d => decide (d.count ≠ 0)) = false :=
        List.any_eq_false.mpr fun e he => by rw [hcounts e he]; decide
      rw [h1, Bool.false_or]
      cases hf : r.fence with
      | false => rfl
      | true => rw [hfence hf]; rfl
    have hstart := hreads.trans ((if_neg (by rw [show DmaRaw.own _ = true from hown]; decide)).trans (if_neg (by rw [hfree]; exact Bool.false_ne_true)))
    refine ⟨fun hcheck hsmall => ?_, fun hcheck => ?_⟩
    · refine takes_of_agenda (f := fun s => s.dmaDescriptor c false) rfl hcalm (hstart.trans ?_) ((agenda_setF _ _ hstatus).trans (agenda_setCh ..))
      rw [show DmaRaw.check _ = 0 from hcheck]
      refine (if_pos hsmall).trans ?_
      unfold State.chStart
      rw [← hwait]
    · refine takes_of_rests (f := fun s => s.dmaDescriptor c false) (n := s.key.log.length) rfl hcalm (hstart.trans ?_)
        (Rests.chFail (rests_of_calm hcalm) hc r.desc r.check)
      obtain ⟨k, hk⟩ := Nat.exists_eq_succ_of_ne_zero hcheck
      rewrite [show DmaRaw.check _ = k + 1 from hk]
      rfl

/-! Beats -/

/-- The state when the engine serves channel `c`. -/
def State.served (s : State) (c : Nat) : State :=
  let q := s.dmaServed.1
  let prio := fun (k : Nat) => s.getF (F.DMA_CH_CFG_prio k)
  let lost := q ≠ c ∧ (s.ch q).ready ∧ (s.ch q).ended = false ∧ prio q < prio c
  { (if lost then s.count 22 q 4 else s) with dmaServed := (c, SMap.set (fun _ => 31) (prio c) c s.dmaServed.2) }

theorem served_dma (s : State) (c : Nat) : (s.served c).dma = s.dma := by
  unfold State.served
  dsimp only
  split <;> rfl

theorem agenda_served (s : State) (c : Nat) : (s.served c).agenda = s.agenda := by
  unfold State.served
  extract_lets q prio lost
  refine Eq.trans (b := (if lost then s.count 22 q 4 else s).agenda) rfl ?_
  split <;> rfl

/-- The beat that the channel served issues. -/
theorem dmaIssue_picked {s : State} {c : Nat} (hon : s.domainOn 34 = true) (hpick : s.dmaPick = some c) :
    s.dmaIssue =
      (let t := (s.served c).setCh c { s.ch c with ended := false }
       match (s.ch c).active.find? fun d => (s.ch c).canWrite d with
       | some d => (t.issueWrite c d).chSettle c 8
       | none => match (s.ch c).active.find? fun d => (s.ch c).canRead d with
         | some d => t.issueRead c d
         | none => t) := by
  have hlost : ∀ q : Nat, (if (decide (q ≠ c) && (s.ch q).ready && !(s.ch q).ended
        && decide (s.getF (F.DMA_CH_CFG_prio q) < s.getF (F.DMA_CH_CFG_prio c))) = true then s.count 22 q 4 else s)
      = if q ≠ c ∧ (s.ch q).ready ∧ (s.ch q).ended = false ∧ s.getF (F.DMA_CH_CFG_prio q) < s.getF (F.DMA_CH_CFG_prio c) then s.count 22 q 4 else s :=
    fun q => ite_congr (propext (by simp only [Bool.and_eq_true, decide_eq_true_eq, Bool.not_eq_true', and_assoc])) (fun _ => rfl) fun _ => rfl
  unfold State.dmaIssue
  rw [hon, hpick, if_neg (by decide)]
  dsimp only
  rw [hlost]
  have hserved : ∀ (b : Prop) [Decidable b] (y : State), y = (if b then s.count 22 s.dmaServed.1 4 else s) →
      ({ y.setCh c { y.ch c with ended := false } with
          dmaServed := (c, SMap.set (fun _ => 31) (y.getF (F.DMA_CH_CFG_prio c)) c y.dmaServed.2) } : State)
        = ({ y with dmaServed := (c, SMap.set (fun _ => 31) (s.getF (F.DMA_CH_CFG_prio c)) c s.dmaServed.2) } : State).setCh c
          { s.ch c with ended := false } := by
    intro b _ y hy
    by_cases hb : b
    · rw [if_pos hb] at hy
      subst hy
      rfl
    · rw [if_neg hb] at hy
      subst hy
      rfl
  rw [hserved _ _ rfl]
  refine Eq.trans (b := (let t := (s.served c).setCh c { s.ch c with ended := false }
       match (t.ch c).active.find? fun d => (t.ch c).canWrite d with
       | some d => (t.issueWrite c d).chSettle c 8
       | none => match (t.ch c).active.find? fun d => (t.ch c).canRead d with
         | some d => t.issueRead c d
         | none => t)) rfl ?_
  dsimp only
  rw [ch_setCh]
  rfl

theorem hostPut_withDma (s : State) (d : SMap DmaCh) (a : Nat) (b : Byte) : (s.withDma d).hostPut a b = (s.hostPut a b).withDma d := (rfl)

theorem hostWrite_withDma (d : SMap DmaCh) (l : List Byte) : ∀ (s : State) (a : Nat), (s.withDma d).hostWrite a l = (s.hostWrite a l).withDma d := by
  induction l with
  | nil => intro s a; rfl
  | cons b r ih =>
    intro s a
    exact (congrArg (fun t : State => t.hostWrite (a + 1) r) (hostPut_withDma s d a b)).trans (ih (s.hostPut a b) (a + 1))

theorem hostWrite_dma (s : State) (a : Nat) (l : List Byte) : (s.hostWrite a l).dma = s.dma :=
  (congrArg State.dma (hostWrite_withDma s.dma l s a) :)

/-- A channel with a descriptor started is not in its reset state. -/
theorem active_ne_init {x : DmaCh} {d : DmaDesc} {l : List DmaDesc} (h : x.active = d :: l) : x ≠ DmaCh.init := by
  rintro rfl
  exact absurd h (by rintro ⟨⟩)

theorem setCh_setCh (s : State) (c : Nat) {x y : DmaCh} (hx : x ≠ DmaCh.init) (hy : y ≠ DmaCh.init) :
    (s.setCh c x).setCh c y = s.setCh c y :=
  congrArg s.withDma (set_set (fun _ => DmaCh.init) c hy hx s.dma)

theorem setCh_hostWrite_setCh (s : State) (c a : Nat) (l : List Byte) {x y : DmaCh} (hx : x ≠ DmaCh.init) (hy : y ≠ DmaCh.init) :
    ((s.setCh c x).hostWrite a l).setCh c y = (s.hostWrite a l).setCh c y := by
  have h : (s.setCh c x).hostWrite a l = (s.hostWrite a l).setCh c x := by
    rw [setCh_withDma s, hostWrite_withDma, setCh_withDma (s.hostWrite a l), hostWrite_dma]
  rw [h, setCh_setCh _ _ hx hy]

theorem update_single {x : DmaCh} {d e : DmaDesc} (h : x.active = [d]) : x.update e = { x with active := [if d.index = e.index then e else d] } := by
  unfold DmaCh.update
  rw [h]
  rfl

theorem find_single {d : DmaDesc} {p : DmaDesc → Bool} {l : List DmaDesc} (h : l = [d]) (hp : p d = true) : l.find? p = some d := by
  rw [h, List.find?_cons_of_pos hp]

theorem find_single_none {d : DmaDesc} {p : DmaDesc → Bool} {l : List DmaDesc} (h : l = [d]) (hp : p d = false) : l.find? p = none := by
  rw [h, List.find?_cons_of_neg (by rw [hp]; exact Bool.false_ne_true), List.find?_nil]

theorem canWrite_err {x : DmaCh} {d : DmaDesc} (h : x.canWrite d = true) : d.err = none := by
  unfold DmaCh.canWrite at h
  exact Option.isNone_iff_eq_none.mp (Bool.and_eq_true .. ▸ h).1

theorem done_waits {x : DmaCh} {d : DmaDesc} (herr : d.err = none) (hop : d.op ≠ 3) (h : d.written ≠ d.length) : x.done d = false := by
  unfold DmaCh.done
  dsimp only
  rw [herr, if_neg (by decide), if_neg hop, decide_eq_false h]

/-- A beat of a FILL. -/
theorem fillBeat {s : State} {c : Nat} {d : DmaDesc} (hcalm : s.calm = true) (hon : s.domainOn 34 = true) (hpick : s.dmaPick = some c)
    (hactive : (s.ch c).active = [d]) (hop : d.op = 2) (hwrite : (s.ch c).canWrite d = true) (hrest : d.written + 64 ≠ d.length) :
    let p := leBytes 8 d.src
    let x := { s.ch c with ended := false, active := [{ d with written := d.written + 64, count := d.count - 64 }] }
    Takes .dmaBeatIssue s (((s.served c).hostWrite (d.dst + d.written) (p ++ p ++ p ++ p ++ p ++ p ++ p ++ p)).setCh c x) := by
  intro p x
  refine takes_of_agenda (f := fun s => s.dmaIssue) rfl hcalm ((dmaIssue_picked hon hpick).trans ?_)
    ((agenda_setCh ..).trans ((agenda_hostWrite ..).trans (agenda_served ..)))
  dsimp only
  rw [find_single hactive hwrite]
  dsimp only
  have hissue : ((s.served c).setCh c { s.ch c with ended := false }).issueWrite c d
      = ((s.served c).hostWrite (d.dst + d.written) (p ++ p ++ p ++ p ++ p ++ p ++ p ++ p)).setCh c x := by
    unfold State.issueWrite
    dsimp only
    rw [if_pos hop, ch_setCh, update_single (by exact hactive), if_pos rfl]
    exact setCh_hostWrite_setCh _ _ _ _ (active_ne_init hactive) (active_ne_init rfl)
  rw [hissue]
  refine chSettle_waits 7 (by rw [ch_setCh]) ?_
  rw [ch_setCh]
  exact done_waits (show d.err = none from canWrite_err hwrite) (by show d.op ≠ 3; rw [hop]; decide) hrest

/-- A read request of a COPY. -/
theorem copyRequest {s : State} {c : Nat} {d : DmaDesc} (hcalm : s.calm = true) (hon : s.domainOn 34 = true) (hpick : s.dmaPick = some c)
    (hactive : (s.ch c).active = [d]) (hop : d.op = 1) (hwrite : (s.ch c).canWrite d = false) (hread : (s.ch c).canRead d = true) :
    let n := min (min 4096 d.count) (4096 - (d.src + (d.length - d.count)) % 4096)
    let l : List DmaRead := (s.ch c).reads ++ [⟨d.index, false, d.length - d.count, n / 64⟩]
    let x := { s.ch c with ended := false, active := [{ d with count := d.count - n }], reads := l }
    Takes .dmaBeatIssue s ((s.served c).setCh c x) := by
  intro n l x
  have hne : d.op ≠ 3 := by
    rw [hop]
    decide
  have hrequest : d.request = n := by
    unfold DmaDesc.request
    dsimp only
    rw [if_neg hne]
  refine takes_of_agenda (f := fun s => s.dmaIssue) rfl hcalm ((dmaIssue_picked hon hpick).trans ?_) ((agenda_setCh ..).trans (agenda_served ..))
  dsimp only
  rw [find_single_none hactive hwrite]
  dsimp only
  rw [find_single hactive hread]
  dsimp only
  unfold State.issueRead
  dsimp only
  rw [if_neg hne, ch_setCh, update_single (by exact hactive), if_pos rfl, hrequest]
  exact setCh_setCh _ _ (active_ne_init hactive) (active_ne_init rfl)

/-! Answers -/

theorem dataAnswer {s : State} {c : Nat} {d : DmaDesc} {r : DmaRead} {l : List DmaRead} (hcalm : s.calm = true)
    (hactive : (s.ch c).active = [d]) (hreads : (s.ch c).reads = r :: l) (hindex : r.index = d.index) (hfirst : r.second = false)
    (hop : d.op = 1) (herr : d.err = none) (hmis : d.mismatch = none) (hrest : d.written ≠ d.length) :
    let g := (s.ch c).staged ++ beatsOf r.index r.off (s.hostRead (d.src + r.off) (64 * r.beats)) r.beats
    Takes (.beatAnswer c .data) s (s.setCh c { s.ch c with reads := l, staged := g }) := by
  intro g
  refine takes_of_agenda (f := fun s => s.dmaAnswer c .data) rfl hcalm ?_ (agenda_setCh ..)
  have hne : d.op ≠ 3 := by
    rw [hop]
    decide
  have hbeats : DmaCh.answered { s.ch c with reads := l } d r (s.beatData d r r.beats) = { s.ch c with reads := l, staged := g } := by
    unfold DmaCh.answered State.beatData
    dsimp only
    rw [hfirst, if_neg hne]
    rfl
  unfold State.dmaAnswer
  dsimp only
  rw [hreads]
  dsimp only
  rw [find_single hactive (decide_eq_true hindex.symm)]
  dsimp only
  rw [if_neg (by rw [herr, hmis]; decide), hbeats]
  refine chSettle_waits 7 (by rw [ch_setCh]; exact hactive) ?_
  rw [ch_setCh]
  exact done_waits herr hne hrest

theorem stagingAnswer {s : State} {c : Nat} (hcalm : s.calm = true) (hcells : (s.ch c).cells ≠ []) (hlog : s.key.log.length < 767) :
    Takes (.beatAnswer c .stagingEcc) s
      (((((((s.setCh c (s.ch c).refetch).count 23 0 0).raise F.DMA_EVENT_staging_ecc).endTest).count 16 0 0).raise F.SAF_EVENT_fault_masked).ksLog
        .safety) := by
  refine takes_ksLog_of_agenda (f := fun s => s.dmaAnswer c .stagingEcc) rfl hcalm hlog ?_ ?_
  · have herror : s.dmaAnswer c .stagingEcc = s.stagingError c := by
      unfold State.dmaAnswer
      dsimp only
      split
      · exact if_pos rfl
      · rfl
    rw [herror]
    unfold State.stagingError
    rw [if_neg (by simpa using hcells)]
    exact react_masked ..
  · rw [agenda_raise _ (by decide), agenda_count, agenda_endTest, agenda_raise _ (by decide), agenda_count, agenda_setCh]

/-- Settles O47: descriptors, beats, and the answers to read requests. -/
theorem dmaEngine : Obligations.DmaEngine := by
  refine ⟨?_, ?_, ?_, ?_⟩
  · intro s c hcalm hc hruns hon hstate hdis hhalt hwait
    exact dmaDescriptors hcalm hc hruns hon hstate hdis hhalt hwait
  · intro s c d hcalm hon hpick hactive q prio lost y
    exact ⟨fun hop hwrite _ hrest => fillBeat hcalm hon hpick hactive hop hwrite hrest,
      fun hop hwrite hread => copyRequest hcalm hon hpick hactive hop hwrite hread⟩
  · intro s c d r l hcalm hactive hreads hindex hfirst hop herr hmis hrest
    exact dataAnswer hcalm hactive hreads hindex hfirst hop herr hmis hrest
  · intro s c hcalm hcells _ hlog
    exact stagingAnswer hcalm hcells hlog

end Sys2Proof.Machine
end

/-! ### Function-level and hot resets (R313, R314) -/

section
namespace Sys2Proof.Machine

/-! Registers that the resets leave -/

theorem reg_msix (s : State) (fn vec a : Nat) : (s.msix fn vec).reg a = s.reg a := (rfl)
theorem reg_setRingRun (s : State) (r : Nat) (x : RingRun) (a : Nat) : (s.setRingRun r x).reg a = s.reg a := (rfl)
theorem reg_setCell (s : State) (k : Nat) (c : Option Cell) (a : Nat) : (s.setCell k c).reg a = s.reg a := (rfl)
theorem reg_setCh (s : State) (c : Nat) (x : DmaCh) (a : Nat) : (s.setCh c x).reg a = s.reg a := (rfl)
theorem reg_setPool (s : State) (k : Nat) (p : Pool) (a : Nat) : (s.setPool k p).reg a = s.reg a := (rfl)
theorem reg_returnGrant (s : State) (requester key a : Nat) : (s.returnGrant requester key).reg a = s.reg a := (rfl)
theorem reg_noteEntry (s : State) (q : Nat) (taken : Option Nat) (l : List Byte) (a : Nat) : (s.noteEntry q taken l).reg a = s.reg a := by
  unfold State.noteEntry
  exact reg_same rfl rfl rfl rfl a

theorem reg_orphan (s : State) (r a : Nat) : (s.orphan r).reg a = s.reg a := by
  unfold State.orphan
  exact reg_same rfl rfl rfl rfl a

theorem reg_hostWrite (l : List Byte) (a : Nat) : ∀ (s : State) (b : Nat), (s.hostWrite b l).reg a = s.reg a := by
  induction l with
  | nil => intro s b; rfl
  | cons x r ih => intro s b; exact ih (s.hostPut b x) (b + 1)

theorem reg_entryPass (s : State) (r a : Nat) : (s.entryPass r).reg a = s.reg a := by
  unfold State.entryPass State.ringSignal
  dsimp only
  split
  · rw [reg_setRingRun, reg_msix]
  · exact reg_setRingRun ..

theorem reg_ringPass (r a n : Nat) : ∀ s : State, (s.ringPass r n).reg a = s.reg a := by
  induction n with
  | zero => intro s; rfl
  | succ n ih => intro s; exact (ih (s.entryPass r)).trans (reg_entryPass s r a)

theorem reg_putEntry (s : State) (q : Nat) (l : List Byte) {a : Nat} (h : a ≠ Addr.HIF_RING_HEAD q) : (s.putEntry q l).reg a = s.reg a := by
  unfold State.putEntry State.ringAdvance
  rw [reg_ringPass, reg_setF_other _ _ h, reg_hostWrite]

/-- A ring's last entry is taken back: the bytes and the head, then the moderation and the signal. -/
def State.unput (s : State) (w : Written) : State := (s.hostWrite w.addr w.before).setF (F.HIF_RING_HEAD_head w.q) w.head

def State.unsignal (s : State) (w : Written) (k : Nat) : State :=
  { s with hif := { s.hif with msix := SMap.set (fun _ => 0) k w.sent s.hif.msix } }

theorem takeBackEntry_eq (s : State) (w : Written) : s.takeBackEntry w =
    if s.ringHead w.q = (w.head + 1) % (2 * s.ringSize w.q) then
      ((s.unput w).setRingRun w.q { s.ringRun w.q with unsignalled := w.unsignalled }).unsignal w
        (s.getF (F.HIF_RING_CFG_owner_fn w.q) * 64 + s.getF (F.HIF_RING_CFG_msix_vector w.q))
    else s := (rfl)

theorem reg_unput (s : State) (w : Written) {a : Nat} (h : a ≠ Addr.HIF_RING_HEAD w.q) : (s.unput w).reg a = s.reg a :=
  (reg_setF_other _ (F.HIF_RING_HEAD_head w.q) h _).trans (reg_hostWrite ..)

theorem reg_unsignal (s : State) (w : Written) (k a : Nat) : (s.unsignal w k).reg a = s.reg a := (rfl)

theorem reg_takeBackEntry (s : State) (w : Written) {a : Nat} (h : a ≠ Addr.HIF_RING_HEAD w.q) : (s.takeBackEntry w).reg a = s.reg a := by
  rw [takeBackEntry_eq]
  split
  · rw [reg_unsignal, reg_setRingRun, reg_unput s w h]
  · rfl

/-- What is done for each element of a list leaves a register that each step leaves. -/
theorem reg_each {α : Type} (l : List α) (f : State → α → State) {a : Nat} (h : ∀ t, ∀ x ∈ l, (f t x).reg a = t.reg a) (s : State) :
    (s.each l f).reg a = s.reg a :=
  each_keeps (fun t => t.reg a = s.reg a) f l (fun t x hx ht => (h t x hx).trans ht) s rfl

/-- Taking completions back moves heads of rings alone. -/
theorem reg_unwrite (s : State) (f : Nat) {a : Nat} (h : ∀ q, a ≠ Addr.HIF_RING_HEAD q) : (s.unwrite f).reg a = s.reg a := by
  unfold State.unwrite
  extract_lets l gone hit s1 src s2
  split
  · have hagain : ∀ (t : State) (w : Written), ((t.noteEntry w.q w.taken w.bytes).putEntry w.q w.bytes).reg a = t.reg a :=
      fun t w => (reg_putEntry _ _ _ (h w.q)).trans (reg_noteEntry ..)
    refine (reg_each _ _ (fun t w _ => hagain t w) s2).trans ?_
    refine (reg_same (t := s1) rfl rfl rfl rfl a).trans ?_
    exact reg_each _ _ (fun t w _ => reg_takeBackEntry t w (h w.q)) s
  · rfl

theorem reg_freeRefused (s : State) (k req reason master : Nat) {a : Nat} (h : a ≠ Addr.BUF_FREE_ERR ∧ a ≠ Addr.BUF_FREE_ERR_INFO) :
    (s.freeRefused k req reason master).reg a = s.reg a := by
  unfold State.freeRefused
  dsimp only
  rw [reg_raise, reg_setF_other _ _ h.2, reg_setF_other _ _ h.2, reg_setF_other _ _ h.2, reg_setF_other _ _ h.1, reg_setF_other _ _ h.1,
    reg_count]

theorem reg_freeCell (s : State) (req k a : Nat) : (s.freeCell req k).reg a = s.reg a := by
  unfold State.freeCell State.free
  split
  · rfl
  · dsimp only
    split
    · split <;> rfl
    · rfl

theorem reg_releaseCell (s : State) (req master k : Nat) {a : Nat} (h : a ≠ Addr.BUF_FREE_ERR ∧ a ≠ Addr.BUF_FREE_ERR_INFO) :
    (s.releaseCell req master k).reg a = s.reg a := by
  unfold State.releaseCell
  split
  · exact reg_freeRefused _ _ _ _ _ h
  · split
    · exact reg_freeRefused _ _ _ _ _ h
    · split
      · exact reg_freeCell ..
      · exact reg_setCell ..

theorem reg_poolMove (s : State) (k : Nat) (x y : Int) (a : Nat) : (s.poolMove k x y).reg a = s.reg a := by
  unfold State.poolMove
  extract_lets p l p1 p2 up ev s1
  have h1 : s1.reg a = s.reg a := by
    simp only [s1]
    rw [reg_raiseIf, reg_raiseIf, reg_raiseIf, reg_setPool]
  split
  · exact h1
  · exact h1

theorem reg_cellsBack (s : State) (l : List Nat) {a : Nat} (h : a ≠ Addr.BUF_FREE_ERR ∧ a ≠ Addr.BUF_FREE_ERR_INFO) :
    (s.cellsBack l).reg a = s.reg a := by
  unfold State.cellsBack
  rw [reg_poolMove, reg_each _ _ fun t k _ => reg_releaseCell t 10 0x11 k h]

theorem reg_dropWaiting (s : State) (c a : Nat) : (s.dropWaiting c).reg a = s.reg a := by
  unfold State.dropWaiting
  split <;> rfl

theorem reg_chAbandon (s : State) (c a : Nat) : (s.chAbandon c).reg a = s.reg a := by
  unfold State.chAbandon
  rw [reg_setCh, reg_each _ _ fun t d _ => ?_, reg_dropWaiting]
  split
  · exact reg_returnGrant ..
  · rfl

/-- A channel that goes off writes registers of the DMA engine and of a refused free alone. -/
theorem reg_chOff (s : State) {c a : Nat} (hc : c < 32) (h : a < 0x30000) (hfree : a ≠ Addr.BUF_FREE_ERR ∧ a ≠ Addr.BUF_FREE_ERR_INFO) :
    (s.chOff c).reg a = s.reg a := by
  obtain ⟨hcfg, -, -, -, hstatus⟩ := channel_page hc
  have hne1 : a ≠ Addr.DMA_CH_CFG c := by omega
  have hne2 : a ≠ Addr.DMA_CH_STATUS c := by omega
  unfold State.chOff
  dsimp only
  rw [reg_setF_other _ _ hne1, reg_setF_other _ _ hne2, reg_setF_other _ _ hne2, reg_setCh]
  exact (reg_cellsBack _ _ hfree).trans (reg_chAbandon s c a)

/-! The steps of a reset -/

/-- The rings of function `f` that a reset stops. -/
def State.flrRings (s : State) (f : Nat) : List Nat :=
  (List.range 0x102).filter fun r =>
    decide (s.ownerFn r = f) && (s.getB (F.HIF_RING_CFG_enable r) || decide (s.getF (F.HIF_RING_STATUS_state r) ≠ 0))

/-- A reset stops a ring. -/
def State.flrRing (t : State) (r : Nat) : State :=
  (((t.orphan r).setF (F.HIF_RING_CFG_enable r) 0).setReg (Addr.HIF_RING_STATUS r) 0).setRingRun r .init

/-- The rings of function `f` stop; its channels are off. -/
def State.flrStopped (s : State) (f : Nat) : State := (s.unwrite f).each (s.flrRings f) State.flrRing

def State.flrIdle (s : State) (f : Nat) : State :=
  (s.flrStopped f).each ((List.range 32).filter fun c => decide ((s.flrStopped f).getF (F.DMA_CH_CFG_owner_fn c) = f)
    && decide ((s.flrStopped f).chState c ≠ 0)) State.chOff

/-- A function's vectors are cleared. -/
def State.clearVectors (s : State) (f : Nat) : State :=
  { s with hif := { s.hif with msix := s.hif.msix.filter fun e => decide (e.1 / 64 ≠ f) } }

theorem flrOf_eq (s : State) (f : Nat) : s.flrOf f = ((s.flrIdle f).closeFn f).clearVectors f := (rfl)

theorem reg_clearVectors (s : State) (f a : Nat) : (s.clearVectors f).reg a = s.reg a := (rfl)
theorem agenda_clearVectors (s : State) (f : Nat) : (s.clearVectors f).agenda = s.agenda := (rfl)

theorem reg_flrOf_closed (s : State) (f a : Nat) : (s.flrOf f).reg a = ((s.flrIdle f).closeFn f).reg a := by
  rw [flrOf_eq]
  exact reg_clearVectors ..

/-! A reset leaves nothing due -/

theorem ringRegs_ne_plb {r : Nat} (h : r ≤ 0x101) : Addr.HIF_RING_CFG r ≠ Addr.PLB_STATUS ∧ Addr.HIF_RING_STATUS r ≠ Addr.PLB_STATUS
    ∧ Addr.HIF_RING_HEAD r ≠ Addr.PLB_STATUS ∧ Addr.HIF_RING_TAIL r ≠ Addr.PLB_STATUS := by
  unfold Addr.HIF_RING_CFG Addr.HIF_RING_STATUS Addr.HIF_RING_HEAD Addr.HIF_RING_TAIL Addr.PLB_STATUS
  omega

theorem fnVersion_ne_plb {f : Nat} (h : f < 16) : Addr.HIF_FN_VERSION f ≠ Addr.PLB_STATUS := by
  unfold Addr.HIF_FN_VERSION Addr.PLB_STATUS
  omega

theorem ringRun_hostWrite (l : List Byte) (r : Nat) : ∀ (s : State) (a : Nat), (s.hostWrite a l).ringRun r = s.ringRun r := by
  induction l with
  | nil => intro s a; rfl
  | cons b l ih => intro s a; exact ih (s.hostPut a b) (a + 1)

theorem Keep.unput {s t : State} (k : Keep s t) (w : Written) : Keep s (t.unput w) :=
  (k.hostWrite _ _).setF (F.HIF_RING_HEAD_head w.q) _ (ne_ringHead (r := w.q) (by decide)).symm

theorem Keep.takeBackEntry {s t : State} (k : Keep s t) (w : Written) : Keep s (t.takeBackEntry w) := by
  rw [takeBackEntry_eq]
  split
  · have hstop : (t.ringRun w.q).stopping = ((t.unput w).ringRun w.q).stopping :=
      congrArg RingRun.stopping (ringRun_hostWrite w.before w.q t w.addr).symm
    have hput := (k.unput w).setRingRun w.q { t.ringRun w.q with unsignalled := w.unsignalled } hstop
    exact hput.upd rfl rfl rfl rfl rfl rfl rfl rfl rfl rfl
  · exact k

theorem Keep.unwrite {s t : State} (k : Keep s t) (f : Nat) : Keep s (t.unwrite f) := by
  unfold State.unwrite
  extract_lets l gone hit s1 src s2
  split
  · have h1 : Keep s s1 := k.each _ _ fun u w _ => (Keep.refl u).takeBackEntry w
    have h2 : Keep s s2 := h1.upd rfl rfl rfl rfl rfl rfl rfl rfl rfl rfl
    exact h2.each _ _ fun u w _ => ((Keep.refl u).noteEntry _ _ _).putEntry _ _
  · exact k

theorem key_hostWrite (s : State) (a : Nat) (l : List Byte) : (s.hostWrite a l).key = s.key := (congrArg State.key (hostWrite_core l s a) :)

theorem key_putEntry (s : State) (q : Nat) (l : List Byte) : (s.putEntry q l).key = s.key := by
  rw [← core_key, State.putEntry, ringPass_core, ringAdvance_core, hostWrite_core, core_key]

theorem key_noteEntry (s : State) (q : Nat) (taken : Option Nat) (l : List Byte) : (s.noteEntry q taken l).key = s.key := by
  unfold State.noteEntry
  rfl

theorem key_takeBackEntry (s : State) (w : Written) : (s.takeBackEntry w).key = s.key := by
  rw [takeBackEntry_eq]
  split
  · exact (key_hostWrite s w.addr w.before :)
  · rfl

/-- Taking completions back leaves the Keystone pair. -/
theorem key_unwrite (s : State) (f : Nat) : (s.unwrite f).key = s.key := by
  unfold State.unwrite
  extract_lets l gone hit s1 src s2
  split
  · have h1 : s1.key = s.key := each_keeps (fun t => t.key = s.key) _ _ (fun t w _ h => (key_takeBackEntry t w).trans h) s rfl
    have h2 : s2.key = s1.key := rfl
    exact each_keeps (fun t => t.key = s.key) _ _ (fun t w _ h => (key_putEntry ..).trans ((key_noteEntry ..).trans h)) s2 (h2.trans h1)
  · rfl

theorem Rests.flrRing {s : State} {n r : Nat} (h : s.Rests n) (hr : r ≤ 0x101) : (s.flrRing r).Rests n := by
  obtain ⟨hcfg, hstatus, -, -⟩ := ringRegs_ne_plb hr
  have horphan : (s.orphan r).Rests n := by
    have hreserve : (s.reserve (s.compRing r) (-((((s.runningOn r).filter fun e => !e.noComp && decide (e.parent = 0)).length
        + (s.hif.fenced.filter fun x => decide (x.2.ring = r)).length : Nat) : Int))).Rests n :=
      h.of_keep ((Keep.refl s).reserve _ _) h.log
    exact { hreserve with
      flight := (congrArg (List.map _) hreserve.flight :)
      fenced := (congrArg (List.filter _) hreserve.fenced :) }
  have hregs : (((s.orphan r).setF (F.HIF_RING_CFG_enable r) 0).setReg (Addr.HIF_RING_STATUS r) 0).Rests n :=
    horphan.of_agenda (by rw [agenda_setReg _ _ hstatus, agenda_setF _ _ hcfg])
  refine { hregs with rings := ?_ }
  refine List.all_eq_true.mpr fun e he => ?_
  rcases mem_set (fun _ => RingRun.init) r .init _ e he with rfl | hmem
  · rfl
  · exact List.all_eq_true.mp hregs.rings e hmem

theorem agenda_closeFn (s : State) {f : Nat} (h : f < 16) : (s.closeFn f).agenda = s.agenda := by
  unfold State.closeFn
  rw [agenda_setF _ _ (fnVersion_ne_plb h), agenda_setF _ _ (fnVersion_ne_plb h)]

/-- A function that is reset leaves nothing due. -/
theorem Rests.flrOf {s : State} {n f : Nat} (h : s.Rests n) (hf : f < 16) : (s.flrOf f).Rests n := by
  have hunwrite : (s.unwrite f).Rests n := h.of_keep ((Keep.refl s).unwrite f) (by rw [key_unwrite]; exact h.log)
  have hstopped : (s.flrStopped f).Rests n := hunwrite.each _ _ fun t r hr ht => by
    have hlt := List.mem_range.mp (List.mem_filter.mp hr).1
    exact Rests.flrRing ht (by omega)
  have hidle : (s.flrIdle f).Rests n := hstopped.each _ _ fun t c hc ht =>
    Rests.chOff ht (List.mem_range.mp (List.mem_filter.mp hc).1)
  rw [flrOf_eq]
  exact hidle.of_agenda ((agenda_clearVectors ..).trans (agenda_closeFn _ hf))

/-! What a reset shows -/

/-- The registers of a ring say that it is disabled. -/
def State.ringOff (s : State) (r : Nat) : Prop :=
  s.getB (F.HIF_RING_CFG_enable r) = false ∧ s.getF (F.HIF_RING_STATUS_state r) = 0

theorem ringOff_of_reg {s t : State} {r : Nat} (hcfg : t.reg (Addr.HIF_RING_CFG r) = s.reg (Addr.HIF_RING_CFG r))
    (hstatus : t.reg (Addr.HIF_RING_STATUS r) = s.reg (Addr.HIF_RING_STATUS r)) (h : s.ringOff r) : t.ringOff r :=
  ⟨(getB_of_reg (f := F.HIF_RING_CFG_enable r) hcfg).trans h.1, (getF_of_reg (f := F.HIF_RING_STATUS_state r) hstatus).trans h.2⟩

/-- Rings that are stopped: the ring itself shows it, every other shows what it showed. -/
theorem flrRing_ringOff (s : State) (r : Nat) : (s.flrRing r).ringOff r := by
  have hne : Addr.HIF_RING_CFG r ≠ Addr.HIF_RING_STATUS r := by unfold Addr.HIF_RING_CFG Addr.HIF_RING_STATUS; omega
  constructor
  · have hcfg : (s.flrRing r).reg (Addr.HIF_RING_CFG r) = ((s.orphan r).setF (F.HIF_RING_CFG_enable r) 0).reg (Addr.HIF_RING_CFG r) := by
      unfold State.flrRing
      rw [reg_setRingRun, reg_setReg_other _ hne]
    rw [getB_of_reg (f := F.HIF_RING_CFG_enable r) hcfg]
    unfold State.getB
    rw [getF_setF _ _ _ (show (5 : Nat) + 1 ≤ 32 by decide)]
    rfl
  · have hstatus : (s.flrRing r).reg (Addr.HIF_RING_STATUS r) = 0 := by
      unfold State.flrRing
      rw [reg_setRingRun, reg_setReg]
    unfold State.getF
    rw [show (F.HIF_RING_STATUS_state r).addr = Addr.HIF_RING_STATUS r from rfl, hstatus]
    exact (show fldOf 0 0 2 = 0 by decide)

theorem reg_flrRing_other (s : State) {r a : Nat} (hcfg : a ≠ Addr.HIF_RING_CFG r) (hstatus : a ≠ Addr.HIF_RING_STATUS r) :
    (s.flrRing r).reg a = s.reg a := by
  unfold State.flrRing
  rw [reg_setRingRun, reg_setReg_other _ hstatus, reg_setF_other _ _ hcfg, reg_orphan]

theorem flrRing_keeps_ringOff {s : State} {r : Nat} (k : Nat) (h : s.ringOff r) : (s.flrRing k).ringOff r := by
  by_cases hk : k = r
  · subst hk; exact flrRing_ringOff s k
  · have hne : Addr.HIF_RING_CFG r ≠ Addr.HIF_RING_CFG k ∧ Addr.HIF_RING_CFG r ≠ Addr.HIF_RING_STATUS k
        ∧ Addr.HIF_RING_STATUS r ≠ Addr.HIF_RING_CFG k ∧ Addr.HIF_RING_STATUS r ≠ Addr.HIF_RING_STATUS k := by
      unfold Addr.HIF_RING_CFG Addr.HIF_RING_STATUS
      omega
    obtain ⟨h1, h2, h3, h4⟩ := hne
    exact ringOff_of_reg (reg_flrRing_other s h1 h2) (reg_flrRing_other s h3 h4) h

theorem each_cons {α : Type} (f : State → α → State) (x : α) (l : List α) (s : State) : s.each (x :: l) f = (f s x).each l f := (rfl)

/-- Once one of the steps has stopped it, a ring stays stopped. -/
theorem each_flrRing_ringOff {r : Nat} : ∀ (l : List Nat) (s : State), (r ∈ l ∨ s.ringOff r) → (s.each l State.flrRing).ringOff r := by
  intro l
  induction l with
  | nil => intro s h; exact h.resolve_left (List.not_mem_nil)
  | cons k l ih =>
    intro s h
    rw [each_cons]
    refine ih (s.flrRing k) ?_
    rcases h with hmem | hoff
    · rcases List.mem_cons.mp hmem with rfl | hmem
      · exact .inr (flrRing_ringOff s r)
      · exact .inl hmem
    · exact .inr (flrRing_keeps_ringOff k hoff)

theorem flrOf_ringOff {s : State} {f r : Nat} (hf : f < 16) (hr : r ≤ 0x101) (howner : s.ownerFn r = f) : (s.flrOf f).ringOff r := by
  have hheads : (∀ q, Addr.HIF_RING_CFG r ≠ Addr.HIF_RING_HEAD q) ∧ ∀ q, Addr.HIF_RING_STATUS r ≠ Addr.HIF_RING_HEAD q := by
    unfold Addr.HIF_RING_CFG Addr.HIF_RING_HEAD Addr.HIF_RING_STATUS
    constructor <;> intro q <;> omega
  obtain ⟨hcfghead, hstatushead⟩ := hheads
  have hlow : Addr.HIF_RING_CFG r < 0x30000 ∧ Addr.HIF_RING_STATUS r < 0x30000 ∧ Addr.HIF_RING_CFG r ≠ Addr.HIF_FN_VERSION f
      ∧ Addr.HIF_RING_STATUS r ≠ Addr.HIF_FN_VERSION f := by
    unfold Addr.HIF_RING_CFG Addr.HIF_RING_STATUS Addr.HIF_FN_VERSION
    omega
  obtain ⟨hcfglow, hstatuslow, hcfgfn, hstatusfn⟩ := hlow
  have hfree : (Addr.HIF_RING_CFG r ≠ Addr.BUF_FREE_ERR ∧ Addr.HIF_RING_CFG r ≠ Addr.BUF_FREE_ERR_INFO)
      ∧ Addr.HIF_RING_STATUS r ≠ Addr.BUF_FREE_ERR ∧ Addr.HIF_RING_STATUS r ≠ Addr.BUF_FREE_ERR_INFO := by
    unfold Addr.HIF_RING_CFG Addr.HIF_RING_STATUS Addr.BUF_FREE_ERR Addr.BUF_FREE_ERR_INFO
    omega
  obtain ⟨hcfgfree, hstatusfree⟩ := hfree
  have hstopped : (s.flrStopped f).ringOff r := by
    refine each_flrRing_ringOff _ _ ?_
    by_cases hmem : r ∈ s.flrRings f
    · exact .inl hmem
    · refine .inr (ringOff_of_reg (s := s) (reg_unwrite s f hcfghead) (reg_unwrite s f hstatushead) ?_)
      simpa [State.flrRings, howner, show r < 0x102 by omega, State.ringOff] using hmem
  have hidle : (s.flrIdle f).ringOff r :=
    ringOff_of_reg (reg_each _ _ (fun t c hc => reg_chOff t (List.mem_range.mp (List.mem_filter.mp hc).1) hcfglow hcfgfree) _)
      (reg_each _ _ (fun t c hc => reg_chOff t (List.mem_range.mp (List.mem_filter.mp hc).1) hstatuslow hstatusfree) _) hstopped
  have hclose : ∀ {a : Nat}, a ≠ Addr.HIF_FN_VERSION f → ((s.flrIdle f).closeFn f).reg a = (s.flrIdle f).reg a := fun h => by
    unfold State.closeFn
    rw [reg_setF_other _ _ h, reg_setF_other _ _ h]
  rw [flrOf_eq]
  exact ringOff_of_reg ((reg_clearVectors ..).trans (hclose hcfgfn)) ((reg_clearVectors ..).trans (hclose hstatusfn)) hidle

theorem closeFn_open (s : State) (f : Nat) : (s.closeFn f).fnOpen f = false := by
  unfold State.fnOpen State.closeFn State.getB
  rw [getF_setF _ _ _ (show (16 : Nat) + 1 ≤ 32 by decide)]
  rfl

theorem closeFn_version (s : State) (f : Nat) : (s.closeFn f).fnVersion f = 0 := by
  unfold State.fnVersion State.closeFn
  rw [getF_setF_other _ _ _ _ (show (16 : Nat) + 1 ≤ 32 by decide) (.inr (.inl (show (0 : Nat) + 16 ≤ 16 by decide))),
    getF_setF _ _ _ (show (0 : Nat) + 16 ≤ 32 by decide)]
  rfl

/-- Settles O44: a reset stops what the function owns, and leaves nothing due. -/
theorem functionResets : Obligations.FunctionResets := by
  refine ⟨fun s f hcalm hf => ⟨?_, ?_, ?_, fun r hr howner => flrOf_ringOff hf hr howner⟩, fun s hcalm => ?_,
    fun s v w hcalm hon hv1 hv5 hw hstraps => ?_⟩
  · refine takes_of_rests (f := fun s => s.flrAt f) rfl hcalm (if_pos hf) (n := s.key.log.length) ?_
    exact (Rests.flrOf (rests_of_calm hcalm) hf).of_agenda (agenda_raise _ (by decide))
  · exact (getB_of_reg (f := F.HIF_FN_VERSION_open f) (reg_flrOf_closed s f _)).trans (closeFn_open ..)
  · exact (getF_of_reg (f := F.HIF_FN_VERSION_version f) (reg_flrOf_closed s f _)).trans (closeFn_version ..)
  · have hresets : (s.each (List.range 16) State.flrOf).Rests s.key.log.length :=
      (rests_of_calm hcalm).each _ _ fun t f hf ht => Rests.flrOf ht (List.mem_range.mp hf)
    refine takes_of_rests (f := fun s => s.hotResetAt) rfl hcalm rfl (n := s.key.log.length) (hresets.of_agenda ?_)
    rw [agenda_raise _ (by decide), agenda_setF _ _ (by decide), agenda_setF _ _ (by decide), agenda_setF _ _ (by decide)]
  · refine takes_of_agenda (f := fun s => s.linkTrained v w) rfl hcalm ?_ ?_
    · unfold State.linkTrained
      rw [if_pos]
      simp [hon, hv1, hv5, hw, hstraps]
    · rw [agenda_setF _ _ (by decide), agenda_setF _ _ (by decide), agenda_setF _ _ (by decide)]

end Sys2Proof.Machine
end

/-! ### Rings: enable, doorbell, moderation and polling (R317 to R326) -/

section
namespace Sys2Proof.Machine

/-! The registers of a ring -/

theorem ringAt_cfg {r : Nat} (h : r ≤ 0x101) : ringAt (Addr.HIF_RING_CFG r) = some r := by
  unfold ringAt Addr.HIF_RING_CFG
  rw [if_pos (by omega)]
  congr 1
  omega

theorem ring_page {r : Nat} (h : r ≤ 0x101) : 0x10000 ≤ Addr.HIF_RING_CFG r ∧ Addr.HIF_RING_CFG r < 0x20000 := by
  unfold Addr.HIF_RING_CFG
  omega

theorem ring_ne_armed (r : Nat) : Addr.HIF_RING_CFG r ≠ Addr.SYS_ARMED ∧ Addr.HIF_RING_HEAD r ≠ Addr.SYS_ARMED
    ∧ Addr.HIF_RING_TAIL r ≠ Addr.SYS_ARMED ∧ Addr.HIF_RING_STATUS r ≠ Addr.SYS_ARMED := by
  unfold Addr.HIF_RING_CFG Addr.HIF_RING_HEAD Addr.HIF_RING_TAIL Addr.HIF_RING_STATUS Addr.SYS_ARMED
  omega

/-- The write of a ring's configuration starts or stops it. -/
theorem hifAfter_cfg (s : State) {r : Nat} (h : r ≤ 0x101) (old : State) : s.hifAfter (Addr.HIF_RING_CFG r) old =
    if s.getB (F.HIF_RING_CFG_enable r) && !old.getB (F.HIF_RING_CFG_enable r) then s.ringStart r
    else if old.getB (F.HIF_RING_CFG_enable r) && !s.getB (F.HIF_RING_CFG_enable r) then s.ringStop r else s := by
  unfold State.hifAfter
  rw [ringAt_cfg h]
  exact if_pos rfl

/-! Start and stop with no command in progress -/

theorem Rests.setRingRun {s : State} {n : Nat} (h : s.Rests n) (r : Nat) {x : RingRun} (hx : x.stopping = false) : (s.setRingRun r x).Rests n := by
  refine { h with rings := ?_ }
  refine List.all_eq_true.mpr fun e he => ?_
  rcases mem_set (fun _ => RingRun.init) r x _ e he with rfl | hmem
  · exact (congrArg Bool.not hx).trans rfl
  · exact List.all_eq_true.mp h.rings e hmem

theorem ringStart_idle {s : State} {n r : Nat} (h : s.Rests n) : s.ringStart r =
    (((s.setReg (Addr.HIF_RING_HEAD r) 0).setReg (Addr.HIF_RING_TAIL r) 0).setReg (Addr.HIF_RING_STATUS r) 1).setRingRun r .init := by
  unfold State.ringStart
  dsimp only
  rw [h.flight, h.fenced]
  rfl

theorem ringStop_idle {s : State} {n r : Nat} (h : s.Rests n) :
    s.ringStop r = ((s.orphan r).setReg (Addr.HIF_RING_STATUS r) 0).setRingRun r .init := by
  have hrunning : s.runningOn r = [] := by
    unfold State.runningOn
    rw [h.flight]
    rfl
  unfold State.ringStop
  rw [hrunning]
  rfl

theorem Rests.orphan {s : State} {n : Nat} (h : s.Rests n) (r : Nat) : (s.orphan r).Rests n := by
  have hreserve : (s.reserve (s.compRing r) (-((((s.runningOn r).filter fun e => !e.noComp && decide (e.parent = 0)).length
      + (s.hif.fenced.filter fun x => decide (x.2.ring = r)).length : Nat) : Int))).Rests n :=
    h.of_keep ((Keep.refl s).reserve _ _) h.log
  exact { hreserve with
    flight := (congrArg (List.map _) hreserve.flight :)
    fenced := (congrArg (List.filter _) hreserve.fenced :) }

/-! The entries that a ring passes over -/

theorem key_violation (s : State) (m kind target addr opcode : Nat) : (s.violation m kind target addr opcode).key = s.key := by
  unfold State.violation State.doIf
  cases !s.recordStays m addr <;> rfl

theorem key_reject (s : State) (op fn : Nat) (d : CmdDesc) (code : Nat) : (s.reject op fn d code).key = s.key := by
  unfold State.reject State.noteReject
  rw [writeCompletion_key]
  refine Eq.trans (b := (if code = 5 then s.violation fn 2 (match cmdInfo op with | some i => cmdTarget i d | none => 0)
    (targetBase (match cmdInfo op with | some i => cmdTarget i d | none => 0)) op else s).key) rfl ?_
  split
  · exact key_violation ..
  · rfl

theorem Rests.reject {s : State} {n : Nat} (h : s.Rests n) (op fn : Nat) (d : CmdDesc) (code : Nat) : (s.reject op fn d code).Rests n :=
  h.of_keep ((Keep.refl s).reject op fn d code) (by rw [key_reject]; exact h.log)

theorem Rests.taking {s : State} {n : Nat} (h : s.Rests n) (d : CmdDesc) : (s.taking d).Rests n := h.of_keep (keep_taking s d) h.log

/-- An entry with an opcode that the device does not know is taken and rejected. -/
theorem Rests.takeUnknown {s : State} {n op : Nat} {c : CmdDef} {d : CmdDesc} (h : s.Rests n) (hop : cmdInfo op = none) :
    (s.takeEntry c op d).Rests n := by
  have htaken := Rests.taking h d
  have hfree : (bitAt d.flags.toNat 0 && (s.taking d).fnBusy ((s.taking d).ownerFn d.ring)) = false := by
    unfold State.fnBusy
    rw [htaken.flight]
    exact Bool.and_false _
  have hcode : (s.taking d).checkCommand c op ((s.taking d).ownerFn d.ring) d = 1 := by
    unfold State.checkCommand
    rw [hop]
  have htake : s.takeEntry c op d = (s.taking d).reject op ((s.taking d).ownerFn d.ring) d 1 := by
    refine Eq.trans (b := if bitAt d.flags.toNat 0 && (s.taking d).fnBusy ((s.taking d).ownerFn d.ring) then
      { s.taking d with hif := { (s.taking d).hif with fenced := (s.taking d).hif.fenced ++ [(op, d)] } }
      else (s.taking d).admitCommand c op d) rfl ?_
    rw [hfree, if_neg Bool.false_ne_true]
    unfold State.admitCommand
    dsimp only
    rewrite [hcode]
    rfl
  rw [htake]
  exact Rests.reject htaken ..

theorem Rests.passUnknown (r : Nat) {n : Nat} : ∀ (k : Nat) {s : State}, s.Rests n → (s.passUnknown r k).Rests n := by
  intro k
  induction k with
  | zero => intro s h; exact h
  | succ k ih =>
    intro s h
    unfold State.passUnknown
    dsimp only
    split
    next hgo =>
      simp only [Bool.and_eq_true, Option.isNone_iff_eq_none] at hgo
      exact ih (Rests.takeUnknown h hgo.2)
    · exact h

theorem agenda_ownStall (s : State) {r : Nat} (h : r ≤ 0x101) : (s.ownStall r).agenda = s.agenda := by
  unfold State.ownStall
  rw [agenda_raise _ (by decide), agenda_count, agenda_setF _ _ (ringRegs_ne_plb h).2.1]

theorem agenda_ringFault (s : State) {r : Nat} (h : r ≤ 0x101) (cause : Nat) : (s.ringFault r cause).agenda = s.agenda := by
  have hstatus := (ringRegs_ne_plb h).2.1
  unfold State.ringFault
  rw [agenda_raise _ (by decide), agenda_setF _ _ (by decide), agenda_setF _ _ (by decide), agenda_setF _ _ hstatus, agenda_setF _ _ hstatus]

/-- A command ring that reads on meets what leaves nothing due. -/
theorem Rests.readHead {s : State} {n r : Nat} (h : s.Rests n) (hr : r ≤ 0x101) : (s.readHead r).Rests n := by
  unfold State.readHead
  split
  · exact h
  · have hpass := Rests.passUnknown r (s.ringSpan r) h
    extract_lets s1
    split
    · unfold State.headStop
      split
      · exact hpass.of_agenda (agenda_raise _ (by decide))
      · split
        · exact hpass.of_agenda (agenda_ringFault _ hr 2)
        · split
          · exact hpass.of_agenda (agenda_ownStall _ hr)
          · exact hpass
    · exact hpass

/-! Doorbells -/

/-- A doorbell that reaches the ring. -/
theorem ringDoorbell_low {s : State} {m r : Nat} {part : DoorbellPart} (v : BitVec 64)
    (hpermitted : s.permitted m (0x100000 + 8 * r + (match part with | .high => 4 | _ => 0)) 2 = true) (hlow : part ≠ .high)
    (howner : m < 16 → m = s.ownerFn r) (hon : (s.setArmed m false).domainOn 34 = true) :
    s.ringDoorbell m r part v = (s.setArmed m false).ringBell r (v.toNat % 2 ^ 17) := by
  have hmine : (decide (m < 16) && decide (m ≠ s.ownerFn r)) = false := by
    by_cases hm : m < 16
    · rw [decide_eq_false (not_not_intro (howner hm)), Bool.and_false]
    · rw [decide_eq_false hm, Bool.false_and]
  unfold State.ringDoorbell State.bellWrite
  cases part with
  | high => exact absurd rfl hlow
  | low =>
    dsimp only at hpermitted ⊢
    rw [Nat.add_zero] at hpermitted
    rw [hpermitted, hmine, if_neg (by decide), if_neg (by rw [hon]; decide)]
  | whole =>
    dsimp only at hpermitted ⊢
    rw [Nat.add_zero] at hpermitted
    rw [hpermitted, hmine, if_neg (by decide), if_neg (by rw [hon]; decide)]

theorem ringDoorbell_high {s : State} {m r : Nat} (v : BitVec 64) (hpermitted : s.permitted m (0x100000 + 8 * r + 4) 2 = true)
    (howner : m < 16 → m = s.ownerFn r) (hon : (s.setArmed m false).domainOn 34 = true) :
    s.ringDoorbell m r .high v = s.setArmed m false := by
  have hmine : (decide (m < 16) && decide (m ≠ s.ownerFn r)) = false := by
    by_cases hm : m < 16
    · rw [decide_eq_false (not_not_intro (howner hm)), Bool.and_false]
    · rw [decide_eq_false hm, Bool.false_and]
  unfold State.ringDoorbell State.bellWrite
  dsimp only
  rw [hpermitted, hmine, if_neg (by decide), if_neg (by rw [hon]; decide)]

theorem Rests.bellRead {s : State} {n r : Nat} (h : s.Rests n) (hr : r ≤ 0x101) : (s.bellRead r).Rests n := by
  unfold State.bellRead
  split
  · exact Rests.readHead h hr
  · split
    · split
      · exact h.each _ _ fun t c hc ht => Rests.readHead ht (by have := List.mem_range.mp (List.mem_filter.mp hc).1; omega)
      · exact h
    · split
      · exact h.of_agenda (agenda_ownStall _ hr)
      · exact h

/-- What a ring reads on a doorbell, by the kind of the ring. -/
theorem bellRead_eq (x : State) (r : Nat) : x.bellRead r =
    if r < 0x40 then x.readHead r
    else if 0x40 ≤ r ∧ r < 0x80 ∧ x.entryFree r = true then
      x.each ((List.range 64).filter fun c => x.readsHead c && decide (x.compRing c = r)) State.readHead
    else if 0xC0 ≤ r ∧ r < 0x100 ∧ x.txStalls r = true then ((x.setF (F.HIF_RING_STATUS_state r) 2).count 18 r 0).raise F.HIF_EVENT_own_stall
    else x := by
  unfold State.bellRead
  by_cases hcmd : r < 0x40
  · rw [if_pos hcmd, if_pos hcmd]
  · rw [if_neg hcmd, if_neg hcmd]
    by_cases hcomp : r < 0x80
    · rw [if_pos hcomp]
      by_cases hfree : x.entryFree r = true
      · rw [if_pos hfree, if_pos ⟨by omega, hcomp, hfree⟩]
      · rw [if_neg hfree, if_neg (fun h => hfree h.2.2), if_neg (fun h => absurd h.1 (by omega))]
    · rw [if_neg hcomp]
      exact (if_neg (fun h => hcomp h.2.1)).symm

/-! Polls -/

theorem devReads_lt {s : State} {r : Nat} (h : s.devReads r = true) : r ≤ 0x101 := by
  unfold State.devReads State.ringRuns at h
  simp only [Bool.and_eq_true, decide_eq_true_eq] at h
  omega

/-- The device writes no entry of a command ring or of a TX ring. -/
theorem devReads_eq_false {s : State} {r : Nat} (h : r < 0x40 ∨ 0xC0 ≤ r ∧ r ≤ 0xFF) : s.devReads r = false := by
  unfold State.devReads
  by_cases hlow : 0x40 ≤ r
  · rw [decide_eq_false (p := r < 0xC0 ∨ 0x100 ≤ r) (by omega), Bool.and_false]
    rfl
  · rw [decide_eq_false hlow, Bool.false_and]
    rfl

theorem pollAt_cmd {s : State} {r : Nat} {e : Bool} (hr : r < 0x40) (hpoll : s.getB (F.HIF_RING_CFG_polling r) = true) : s.pollAt r e =
    s.takeCommand (cmdOf (s.headDesc r).1) (s.headDesc r).1 { (s.headDesc r).2 with ringErr := e } := by
  unfold State.pollAt
  rw [devReads_eq_false (.inl hr), Bool.and_false, if_neg Bool.false_ne_true, hpoll, if_neg (by decide), if_pos hr]

/-- A polled command ring that runs takes the entry at its head, where there is one. -/
theorem takeCommand_polled {s : State} {c : CmdDef} {op : Nat} {d : CmdDesc} (hcalm : s.calm = true) (hr : d.ring < 0x40)
    (hruns : s.ringRuns d.ring = true) (hpoll : s.getB (F.HIF_RING_CFG_polling d.ring) = true) : s.takeCommand c op d =
    if d.ringErr then s.ringFault d.ring 2
    else if !s.ringOwn d.ring 0 then s
    else if !s.entryFree (s.compRing d.ring) then s.raise F.HIF_EVENT_cq_stall
    else s.takeEntry c op d := by
  obtain ⟨-, hflight, -, -, -, -, hfenced⟩ := calm_parts hcalm
  have hidle : s.ringBusy d.ring = false := by simp [State.ringBusy, hflight, hfenced]
  unfold State.takeCommand
  dsimp only
  rw [if_neg (by simp [hr, hruns, hidle]), if_pos hpoll]

/-- Settles O43: a start and a stop in a calm state find no command in progress; a doorbell and a poll read what the ring's head holds. -/
theorem hostRings : Obligations.HostRings := by
  refine ⟨?_, ?_, ?_, ?_, ?_⟩
  · intro s m r v hcalm hr hadmits t
    have hown : canonAddr (Addr.HIF_RING_CFG r) = Addr.HIF_RING_CFG r := canonAddr_self (.inl (by have := ring_page hr; omega))
    obtain ⟨hcfg, hstatus, hhead, htail⟩ := ringRegs_ne_plb hr
    have hold : (s.setArmed m false).getB (F.HIF_RING_CFG_enable r) = s.getB (F.HIF_RING_CFG_enable r) := disarmed_getB s m (ring_ne_armed r).1
    have hrests : t.Rests s.key.log.length := (rests_of_calm hcalm).stored (by rw [hown]; exact hcfg)
    have hafter : t.after m (Addr.HIF_RING_CFG r) (s.armed m) v (s.setArmed m false) =
        if t.getB (F.HIF_RING_CFG_enable r) && !s.getB (F.HIF_RING_CFG_enable r) then t.ringStart r
        else if s.getB (F.HIF_RING_CFG_enable r) && !t.getB (F.HIF_RING_CFG_enable r) then t.ringStop r else t := by
      rw [after_hif (ring_page hr), hifAfter_cfg _ hr, hold]
    refine ⟨fun hoff hon => ?_, fun hon hoff => ?_⟩
    · refine takes_write_of_rests rfl hcalm hadmits hown (hafter.trans ((if_pos (by rw [hon, hoff]; rfl)).trans (ringStart_idle hrests)))
        (Rests.setRingRun (hrests.of_agenda ?_) r rfl)
      rw [agenda_setReg _ _ hstatus, agenda_setReg _ _ htail, agenda_setReg _ _ hhead]
    · refine takes_write_of_rests rfl hcalm hadmits hown (hafter.trans ((if_neg (by rw [hoff, Bool.false_and]; exact Bool.false_ne_true)).trans
        ((if_pos (by rw [hon, hoff]; rfl)).trans (ringStop_idle hrests)))) (Rests.setRingRun (n := s.key.log.length) ?_ r rfl)
      exact (Rests.orphan hrests r).of_agenda (agenda_setReg _ _ hstatus)
  · intro s m r part v hcalm hr hpermitted howner hon t n i span
    obtain ⟨hcfg, hstatus, hhead, htail⟩ := ringRegs_ne_plb hr
    obtain ⟨harmcfg, harmhead, harmtail, harmstatus⟩ := ring_ne_armed r
    have ht : t.agenda = s.agenda := agenda_setArmed ..
    have hrests : t.Rests s.key.log.length := (rests_of_calm hcalm).of_agenda ht
    have hdomain : t.domainOn 34 = true := (disarmed_domainOn s m 34).trans hon
    have hstate : t.getF (F.HIF_RING_STATUS_state r) = s.getF (F.HIF_RING_STATUS_state r) := disarmed_getF s m harmstatus
    have hsize : t.ringSize r = s.ringSize r := congrArg (2 ^ ·) (disarmed_getF s m (f := F.HIF_RING_CFG_log2_size r) harmcfg)
    have hthead : t.ringHead r = s.ringHead r := disarmed_getF s m (f := F.HIF_RING_HEAD_head r) harmhead
    have hspan : t.ringSpan r = s.ringSpan r := by
      unfold State.ringSpan
      rw [hsize, hthead, show t.getF (F.HIF_RING_TAIL_tail r) = s.getF (F.HIF_RING_TAIL_tail r) from disarmed_getF s m harmtail]
    have hpolling : t.getB (F.HIF_RING_CFG_polling r) = s.getB (F.HIF_RING_CFG_polling r) := disarmed_getB s m harmcfg
    refine ⟨fun hhigh => ?_, fun hlow hstates hdoorbell => ⟨fun hin hmore => ?_, fun hout => ?_⟩⟩
    · subst hhigh
      exact takes_of_agenda (f := fun s => s.ringDoorbell m r .high v) rfl hcalm (ringDoorbell_high v hpermitted howner hdomain) ht
    · intro u x
      have hopen : ¬(0x101 < r ∨ t.getF (F.HIF_RING_STATUS_state r) = 0 ∨ t.getF (F.HIF_RING_STATUS_state r) = 3
          ∨ t.getB (F.HIF_RING_CFG_polling r) = true) := by
        rw [hstate, hpolling, hdoorbell]
        rintro (h | h | h | h)
        · omega
        · omega
        · omega
        · exact Bool.false_ne_true h
      have hbell : t.ringBell r (v.toNat % 2 ^ 17) = x.bellRead r := by
        unfold State.ringBell
        dsimp only
        rw [if_neg hopen, hsize, hthead, hspan, if_neg (fun h => h.elim (fun h => absurd hin (Nat.not_le.mpr h)) fun h => absurd hmore (Nat.not_le.mpr h))]
        refine congrArg (State.bellRead · r) ?_
        unfold State.doIf
        by_cases hevent : r = 0x100 ∧ span ≠ 0
        · rw [if_pos (decide_eq_true hevent)]
          exact (if_pos hevent).symm
        · rw [decide_eq_false hevent, if_neg Bool.false_ne_true]
          exact (if_neg hevent).symm
      have hx : x.Rests s.key.log.length := by
        have hu : u.Rests s.key.log.length := hrests.of_agenda ((agenda_setF _ _ hstatus).trans (agenda_setF _ _ htail))
        simp only [x]
        split
        · exact hu.of_agenda (agenda_setF _ _ (by decide))
        · exact hu
      rw [← bellRead_eq]
      exact takes_of_rests (f := fun s => s.ringDoorbell m r part v) rfl hcalm
        ((ringDoorbell_low v hpermitted hlow howner hdomain).trans hbell) (Rests.bellRead hx hr)
    · refine takes_of_agenda (f := fun s => s.ringDoorbell m r part v) rfl hcalm ((ringDoorbell_low v hpermitted hlow howner hdomain).trans ?_)
        ((agenda_ringFault t hr 1).trans ht)
      have hopen : ¬(0x101 < r ∨ t.getF (F.HIF_RING_STATUS_state r) = 0 ∨ t.getF (F.HIF_RING_STATUS_state r) = 3
          ∨ t.getB (F.HIF_RING_CFG_polling r) = true) := by
        rw [hstate, hpolling, hdoorbell]
        rintro (h | h | h | h)
        · omega
        · omega
        · omega
        · exact Bool.false_ne_true h
      unfold State.ringBell
      dsimp only
      rw [if_neg hopen, hsize, hthead, hspan, if_pos hout]
      rfl
  · intro s r hcalm hr htime hunsignalled
    have hkeep : Keep s (s.ringSignal r) := by
      unfold State.ringSignal
      refine Keep.setRingRun (Keep.of_agenda (agenda_msix ..)) r _ rfl
    refine takes_keep hcalm ?_ hkeep
    refine (run_calm hcalm (fun s => s.modExpiry r)).trans ?_
    rw [show s.modExpiry r = s.ringSignal r from if_pos ⟨htime, hunsignalled⟩]
    rfl
  · intro s r e hcalm
    refine ⟨fun hdoorbell hquiet => ?_, fun hreads => ?_, fun hpoll hlow hhigh => ?_⟩
    · refine idles_of (f := fun s => s.pollAt r e) rfl hcalm ?_
      have hno : (e && s.devReads r) = false := by
        rcases hquiet with h | h
        · rw [h, Bool.false_and]
        · rw [h, Bool.and_false]
      unfold State.pollAt
      rw [hno, if_neg Bool.false_ne_true, hdoorbell]
      rfl
    · refine takes_of_agenda (f := fun s => s.pollAt r true) rfl hcalm ?_ (agenda_ringFault s (devReads_lt hreads) 2)
      unfold State.pollAt
      rw [hreads]
      rfl
    · have hserve : s.pollAt r e = s.txServe r e := by
        unfold State.pollAt
        rw [devReads_eq_false (.inr ⟨hlow, hhigh⟩), Bool.and_false, if_neg Bool.false_ne_true, hpoll, if_neg (by decide), if_neg (by omega),
          if_pos ⟨hlow, by omega⟩]
      refine (run_calm hcalm (fun s => s.pollAt r e)).trans ?_
      rw [hserve]
      exact (run_calm hcalm (fun s => s.txServe r e)).symm
  · intro s r hcalm hr hpoll hruns
    have htake : ∀ e : Bool, s.pollAt r e =
        if e then s.ringFault r 2 else if !s.ringOwn r 0 then s
        else if !s.entryFree (s.compRing r) then s.raise F.HIF_EVENT_cq_stall
        else s.takeEntry (cmdOf (s.headDesc r).1) (s.headDesc r).1 { (s.headDesc r).2 with ringErr := e } := fun e =>
      (pollAt_cmd hr hpoll).trans (takeCommand_polled (d := { (s.headDesc r).2 with ringErr := e }) hcalm hr hruns hpoll)
    refine ⟨fun hown => ?_, ?_, fun hown hfull => ?_, fun d hdesc haccepts => ?_⟩
    · refine idles_of (f := fun s => s.pollAt r false) rfl hcalm ((htake false).trans ?_)
      rw [hown]
      rfl
    · exact takes_of_agenda (f := fun s => s.pollAt r true) rfl hcalm (htake true) (agenda_ringFault s (by omega) 2)
    · refine takes_of_agenda (f := fun s => s.pollAt r false) rfl hcalm ((htake false).trans ?_) (agenda_raise _ (by decide))
      rw [hown, hfull]
      rfl
    · have hhead : s.headDesc r = (3, d) := hdesc
      have hreaches := reaches_of_accepts haccepts
      obtain ⟨-, -, -, -, herr, -, -, -⟩ := reaches_parts hreaches
      have hd : { d with ringErr := false } = d := by rw [← herr]
      have hended : Keep s (s.ended 3 d (fun t => t) 0 0 0) := keep_ended hcalm (.refl _) 0 0 0
      refine takes_keep hcalm ((run_calm hcalm (fun s => s.pollAt r false)).trans ?_) hended
      rw [pollAt_cmd hr hpoll, hhead]
      dsimp only
      rw [hd, takeCommand_of_accepts haccepts]
      rfl

end Sys2Proof.Machine
end

/-! ### The core cycle that an empty queue passes (R20, R69, R82, R211, R224, R253, R285, R397) -/

section
namespace Sys2Proof.Machine

/-! What counting, waking and sweeping leave due -/

theorem ovf_ne_plb {k : Nat} (h : k < 0x802) : (F.CNT_PC_OVF_ovf (k / 32)).addr ≠ Addr.PLB_STATUS := by
  unfold F.CNT_PC_OVF_ovf Addr.CNT_PC_OVF Addr.PLB_STATUS
  dsimp only
  omega

theorem agenda_pcIncr (n : Nat) : ∀ (s : State) (k : Nat), k + n ≤ 0x802 → (s.pcIncr k n).agenda = s.agenda := by
  induction n with
  | zero => intro s k _; rfl
  | succ n ih =>
    intro s k hk
    unfold State.pcIncr
    dsimp only
    split
    · rfl
    · split
      · exact agenda_setCtr ..
      · split
        · exact (ih _ _ (by omega)).trans (agenda_setCtr ..)
        · rw [agenda_raise _ (by decide), agenda_setFBit _ _ _ (ovf_ne_plb (by omega)), agenda_setCtr]

theorem agenda_pcLevels (s : State) : s.pcLevels.agenda = s.agenda := by
  unfold State.pcLevels State.pcCount
  refine agenda_each _ _ _ fun t k hk => agenda_pcIncr 2 t k ?_
  have hlt : k < 0x800 := pcOn_lt (List.mem_filter.mp (List.mem_filter.mp hk).1).1
  omega

theorem agenda_wakeCpu (s : State) : s.wakeCpu.agenda = s.agenda := by
  unfold State.wakeCpu
  refine agenda_each _ _ _ fun t x _ => ?_
  unfold State.wakeCpuQueue
  dsimp only
  split
  · simp
  · split <;> simp

theorem agenda_visitWay (s : State) (n w : Nat) : (s.visitWay n w).agenda = s.agenda := by
  unfold State.visitWay
  split
  · rfl
  · dsimp only
    split <;> simp

theorem agenda_sweeps (s : State) : s.sweeps.agenda = s.agenda := by
  unfold State.sweeps
  refine agenda_each _ _ _ fun t n _ => ?_
  unfold State.sweepStep
  split
  · rfl
  · split
    · rfl
    · rw [agenda_setTab, agenda_each _ _ _ fun u w _ => agenda_visitWay ..]

theorem agenda_enterHoldover (s : State) : s.enterHoldover.agenda = s.agenda := by
  unfold State.enterHoldover
  dsimp only
  rw [agenda_raiseIf _ _ (by decide), agenda_raise _ (by decide), agenda_showServo, agenda_setRate, agenda_setKs _ _ rfl]

/-! What waking and sweeping change -/

/-- The state without its fabric. -/
def State.offFab (s : State) : State := { s with fab := State.reset.fab }

theorem offFab_setQueue (s : State) (x : Nat) (q : Queue) : (s.setQueue x q).offFab = s.offFab := (rfl)
theorem offFab_setSched (s : State) (p : Nat) (x : PortSched) : (s.setSched p x).offFab = s.offFab := (rfl)

theorem offFab_wakeQueue (s : State) (p q : Nat) : (s.wakeQueue p q).offFab = s.offFab := by
  unfold State.wakeQueue
  dsimp only
  split
  · exact offFab_setQueue ..
  · split
    · exact offFab_setQueue ..
    · rfl

theorem offFab_wakeGroup (s : State) (p g : Nat) : (s.wakeGroup p g).offFab = s.offFab := by
  unfold State.wakeGroup
  dsimp only
  split
  · exact offFab_setSched ..
  · split
    · exact offFab_setSched ..
    · rfl

theorem offFab_wakeCpuQueue (s : State) (c : Nat) : (s.wakeCpuQueue c).offFab = s.offFab := by
  unfold State.wakeCpuQueue
  dsimp only
  split
  · exact offFab_setQueue ..
  · split
    · exact offFab_setQueue ..
    · rfl

theorem offFab_each {α : Type} (l : List α) (f : State → α → State) (h : ∀ t x, (f t x).offFab = t.offFab) (s : State) :
    (s.each l f).offFab = s.offFab :=
  each_keeps (fun t => t.offFab = s.offFab) f l (fun t x _ ht => (h t x).trans ht) s rfl

/-- The wakes of a core cycle change the fabric alone. -/
theorem offFab_wakes (s : State) : s.wakePorts.wakeCpu.offFab = s.offFab := by
  have hport : ∀ (t : State) (p : Nat), (t.wakePort p).offFab = t.offFab := fun t p =>
    (offFab_each _ _ (fun u g => offFab_wakeGroup u p g) _).trans (offFab_each _ _ (fun u q => offFab_wakeQueue u p q) _)
  exact (offFab_each _ _ (fun t x => offFab_wakeCpuQueue t (x - 4096)) _).trans (offFab_each _ _ hport _)

/-- The state without its tables and counters. -/
def State.offTabs (s : State) : State := { s with tabs := State.reset.tabs, ctrs := State.reset.ctrs }

theorem offTabs_setTab (s : State) (n : Nat) (p : PipeTab) : (s.setTab n p).offTabs = s.offTabs := (rfl)
theorem offTabs_count (s : State) (g i c : Nat) : (s.count g i c).offTabs = s.offTabs := (rfl)

theorem offTabs_each {α : Type} (l : List α) (f : State → α → State) (h : ∀ t x, (f t x).offTabs = t.offTabs) (s : State) :
    (s.each l f).offTabs = s.offTabs :=
  each_keeps (fun t => t.offTabs = s.offTabs) f l (fun t x _ ht => (h t x).trans ht) s rfl

/-- A sweep changes tables and counters alone. -/
theorem offTabs_sweeps (s : State) : s.sweeps.offTabs = s.offTabs := by
  have hvisit : ∀ (t : State) (n w : Nat), (t.visitWay n w).offTabs = t.offTabs := fun t n w => by
    unfold State.visitWay
    split
    · rfl
    · dsimp only
      split
      · rw [offTabs_count, offTabs_setTab]
      · exact offTabs_setTab ..
  refine offTabs_each _ _ (fun t n => ?_) s
  unfold State.sweepStep
  split
  · rfl
  · split
    · rfl
    · exact (offTabs_setTab ..).trans (offTabs_each _ _ (fun u w => hvisit u n w) t)

/-! What counting and including change -/

/-- The state without registers, counters, events and the snapshot. -/
def State.offCounts (s : State) : State := { s.core with snap := State.reset.snap }

theorem offCounts_of_core {s t : State} (h : t.core = s.core) : t.offCounts = s.offCounts :=
  congrArg (fun x : State => { x with snap := State.reset.snap }) h

theorem offCounts_captureCtr (s : State) (v : Nat) : (s.captureCtr v).offCounts = s.offCounts := by
  refine offCounts_of_core ?_
  unfold State.captureCtr
  dsimp only
  rw [setF_core, setF_core, setReg_core, setReg_core]

/-- The state with another snapshot. -/
theorem offCounts_snap (s : State) (x : Snapshot) : ({ s with snap := x } : State).offCounts = s.offCounts := (rfl)

theorem offCounts_includeEvents (s : State) : s.includeEvents.offCounts = s.offCounts := by
  unfold State.includeEvents
  extract_lets keep src old bw s1
  have h1 : s1.offCounts = s.offCounts := by
    simp only [s1]
    split
    · exact offCounts_snap ..
    · rfl
  rw [← h1]
  split
  · exact offCounts_captureCtr ..
  · rfl

theorem offCounts_counted (s : State) : s.pcLevels.includeEvents.offCounts = s.offCounts :=
  (offCounts_includeEvents _).trans (offCounts_of_core (pcCount_core s _))

/-- Counting writes the registers of overflow, and inclusion those of a capture. -/
theorem counted_reg (s : State) {a : Nat} (hplain : plainReg a = true)
    (h : a ≠ Addr.CNT_RD_VAL_LO ∧ a ≠ Addr.CNT_RD_VAL_HI ∧ a ≠ Addr.CNT_RD_STATUS) : s.pcLevels.includeEvents.reg a = s.reg a := by
  rw [includeEvents_reg _ h]
  refine (calmer_pcCount s _ fun k hk => ?_).reg a hplain
  exact pcOn_lt (List.mem_filter.mp (List.mem_filter.mp hk).1).1

/-! An expiry of holdover_timeout -/

theorem expire_quiet {s : State} (h : s.trn.expired = false) : s.expire = s := by
  unfold State.expire
  rw [h]
  rfl

/-- The Keystone pair after an entry to HOLDOVER. -/
theorem enterHoldover_key (s : State) :
    s.enterHoldover.key = { s.key with ks := { s.key.ks with servo := .holdover, f := s.key.ks.i } } := by
  have hraise : ∀ (t : State) (c : Bool) (f : Fld), (t.raiseIf c f).key = t.key := fun t c f => by cases c <;> rfl
  unfold State.enterHoldover
  dsimp only
  rw [hraise]
  rfl

/-- The Keystone pair after an entry in the conductor log. -/
def Keystone.logged (k : Keystone) (kind : LogKind) : Keystone :=
  if !k.logOn || decide (1024 ≤ k.log.length) then k
  else { k with log := k.log ++ [⟨kind, k.ks⟩],
                logDue := k.logDue || decide ((k.log ++ [(⟨kind, k.ks⟩ : LogRec)]).length = 768)
                  || decide ((k.log ++ [(⟨kind, k.ks⟩ : LogRec)]).length = 1024) }

theorem ksLog_key (s : State) (kind : LogKind) : (s.ksLog kind).key = s.key.logged kind := by
  unfold State.ksLog Keystone.logged
  split
  · rfl
  · dsimp only
    split <;> rfl

/-- The expiry is no longer noted. -/
def State.expiryOver (s : State) : State := { s with trn := { s.trn with expired := false } }

/-- The expiry waits as an input. -/
def State.deferTimeout (s : State) : State := { s with key := { s.key with deferred := s.key.deferred ++ [.holdTimeout] } }

theorem expire_eq (s : State) : s.expire =
    if !s.trn.expired then s
    else if s.key.doubleFault then s.expiryOver
    else if !s.ksBusy then s.expiryOver.serveTimeout
    else if s.key.deferred.any Deferred.isTheta then s.expiryOver
    else s.expiryOver.deferTimeout := (rfl)

/-- The Keystone pair after the expiry. -/
def Keystone.expired (k : Keystone) : Keystone :=
  if k.doubleFault then k
  else if !(k.gapEnd.isSome || k.replay) then
    if k.ks.servo = .acquiring ∨ k.ks.servo = .locked then
      ({ k with ks := { k.ks with servo := .holdover, f := k.ks.i } } : Keystone).logged .timer
    else k
  else if k.deferred.any Deferred.isTheta then k
  else { k with deferred := k.deferred ++ [.holdTimeout] }

theorem serveTimeout_key (s : State) : s.serveTimeout.key =
    if s.key.ks.servo = .acquiring ∨ s.key.ks.servo = .locked then
      ({ s.key with ks := { s.key.ks with servo := .holdover, f := s.key.ks.i } } : Keystone).logged .timer else s.key := by
  unfold State.serveTimeout
  split
  · rw [ksLog_key, enterHoldover_key]
  · rfl

theorem expire_key (s : State) : s.expire.key = if s.trn.expired then s.key.expired else s.key := by
  rw [expire_eq]
  unfold Keystone.expired
  cases s.trn.expired with
  | false => rfl
  | true =>
    rw [if_neg (by decide), if_pos rfl]
    by_cases hdouble : s.key.doubleFault = true
    · rw [if_pos hdouble, if_pos hdouble]
      rfl
    · rw [if_neg hdouble, if_neg hdouble]
      by_cases hbusy : (!s.ksBusy) = true
      · rw [if_pos hbusy]
        refine (serveTimeout_key _).trans (Eq.symm (if_pos ?_))
        exact hbusy
      · rw [if_neg hbusy]
        refine Eq.trans ?_ (Eq.symm (if_neg ?_))
        · split <;> rfl
        · exact hbusy

/-- What the expiry does to the Keystone pair depends on it alone. -/
theorem expire_key_of_key {s t : State} (hkey : t.key = s.key) (htrn : t.trn = s.trn) : t.expire.key = s.expire.key := by
  rw [expire_key, expire_key, htrn, hkey]

theorem logged_gapEnd (k : Keystone) (kind : LogKind) : (k.logged kind).gapEnd = k.gapEnd ∧ (k.logged kind).commit = k.commit := by
  unfold Keystone.logged
  split <;> exact ⟨rfl, rfl⟩

theorem expired_gapEnd (k : Keystone) : k.expired.gapEnd = k.gapEnd ∧ k.expired.commit = k.commit := by
  unfold Keystone.expired
  split
  · exact ⟨rfl, rfl⟩
  · split
    · split
      · exact logged_gapEnd ..
      · exact ⟨rfl, rfl⟩
    · split <;> exact ⟨rfl, rfl⟩

/-- The expiry leaves the end of a gap and the committed checkpoint. -/
theorem expire_gapEnd (s : State) : s.expire.key.gapEnd = s.key.gapEnd ∧ s.expire.key.commit = s.key.commit := by
  rw [expire_key]
  split
  · exact expired_gapEnd ..
  · exact ⟨rfl, rfl⟩

/-- The state without registers, events, the time counter and the Keystone pair. -/
def State.offServo (s : State) : State :=
  { s with regs := State.reset.regs, tmrB := State.reset.tmrB, tmrC := State.reset.tmrC, sqc := State.reset.sqc,
           raised := State.reset.raised, trn := State.reset.trn, key := State.reset.key }

theorem offServo_setF (s : State) (f : Fld) (v : Nat) : (s.setF f v).offServo = s.offServo := (rfl)
theorem offServo_raise (s : State) (f : Fld) : (s.raise f).offServo = s.offServo := (rfl)
theorem offServo_setKs (s : State) (f : KsState → KsState) : (s.setKs f).offServo = s.offServo := (rfl)
theorem offServo_expiryOver (s : State) : s.expiryOver.offServo = s.offServo := (rfl)
theorem offServo_deferTimeout (s : State) : s.deferTimeout.offServo = s.offServo := (rfl)
theorem offServo_key (s : State) (k : Keystone) : ({ s with key := k } : State).offServo = s.offServo := (rfl)

theorem offServo_raiseIf (s : State) (c : Bool) (f : Fld) : (s.raiseIf c f).offServo = s.offServo := by
  cases c <;> rfl

theorem offServo_ksLog (s : State) (kind : LogKind) : (s.ksLog kind).offServo = s.offServo := by
  unfold State.ksLog
  split
  · rfl
  · dsimp only
    split
    · exact (offServo_setF ..).trans (offServo_key ..)
    · exact offServo_key ..

/-- The expiry changes TRN, the Keystone pair and its events alone. -/
theorem offServo_expire (s : State) : s.expire.offServo = s.offServo := by
  have hserve : ∀ t : State, t.serveTimeout.offServo = t.offServo := fun t => by
    unfold State.serveTimeout
    split
    · rw [offServo_ksLog]
      unfold State.enterHoldover State.showServo State.setRate
      dsimp only
      rw [offServo_raiseIf, offServo_raise, offServo_setF, offServo_setF, offServo_setF, offServo_setF, offServo_setKs]
    · rfl
  rw [expire_eq]
  split
  · rfl
  · split
    · rfl
    · split
      · exact (hserve _).trans (offServo_expiryOver s)
      · split
        · rfl
        · exact (offServo_deferTimeout _).trans (offServo_expiryOver s)

theorem Rests.serveTimeout {s : State} {n : Nat} (h : s.Rests n) (hn : n < 767) : s.serveTimeout.Rests (n + 1) := by
  unfold State.serveTimeout
  split
  · exact (h.of_agenda (agenda_enterHoldover s)).ksLog .timer hn
  · exact h.mono (Nat.le_succ n)

/-- The expiry writes at most one entry of the conductor log. -/
theorem Rests.expire {s : State} {n : Nat} (h : s.Rests n) (hn : n < 767) : s.expire.Rests (n + 1) := by
  have hover : s.expiryOver.Rests n := h.of_agenda rfl
  rw [expire_eq]
  split
  · exact h.mono (Nat.le_succ n)
  · split
    · exact hover.mono (Nat.le_succ n)
    · split
      · exact Rests.serveTimeout hover hn
      · split
        · exact hover.mono (Nat.le_succ n)
        · exact State.Rests.mono (m := n) (hover.of_agenda rfl) (Nat.le_succ n)

/-- In a gap or a replay it writes none. -/
theorem Rests.expire_busy {s : State} {n : Nat} (h : s.Rests n) (hbusy : s.ksBusy = true) : s.expire.Rests n := by
  have hover : s.expiryOver.Rests n := h.of_agenda rfl
  rw [expire_eq, hbusy]
  split
  · exact h
  · split
    · exact hover
    · rw [if_neg (by decide)]
      split
      · exact hover
      · exact hover.of_agenda rfl

end Sys2Proof.Machine
end

/-! ### The empty queue (R20, R69, R211, R224, R285, R397) -/

section
namespace Sys2Proof.Machine

/-! The block with its counter advanced -/

/-- What is counted, included, expired, woken and swept in a core cycle. -/
def State.passed (s : State) : State := s.pcLevels.includeEvents.expire.wakePorts.wakeCpu.sweeps

theorem fields_of_offTabs {s t : State} (h : t.offTabs = s.offTabs) : t.now = s.now ∧ t.pwr = s.pwr ∧ t.ports = s.ports ∧ t.fly = s.fly
    ∧ t.key = s.key ∧ t.fab = s.fab ∧ t.trn = s.trn ∧ ∀ a, t.reg a = s.reg a :=
  ⟨(congrArg State.now h :), (congrArg State.pwr h :), (congrArg State.ports h :), (congrArg State.fly h :), (congrArg State.key h :),
    (congrArg State.fab h :), (congrArg State.trn h :), fun a => (congrArg (State.reg · a) h :)⟩

theorem fields_of_offFab {s t : State} (h : t.offFab = s.offFab) : t.now = s.now ∧ t.pwr = s.pwr ∧ t.ports = s.ports ∧ t.fly = s.fly
    ∧ t.key = s.key ∧ t.trn = s.trn ∧ ∀ a, t.reg a = s.reg a :=
  ⟨(congrArg State.now h :), (congrArg State.pwr h :), (congrArg State.ports h :), (congrArg State.fly h :), (congrArg State.key h :),
    (congrArg State.trn h :), fun a => (congrArg (State.reg · a) h :)⟩

theorem fields_of_offServo {s t : State} (h : t.offServo = s.offServo) : t.now = s.now ∧ t.pwr = s.pwr ∧ t.ports = s.ports ∧ t.fly = s.fly :=
  ⟨(congrArg State.now h :), (congrArg State.pwr h :), (congrArg State.ports h :), (congrArg State.fly h :)⟩

theorem fields_of_offCounts {s t : State} (h : t.offCounts = s.offCounts) : t.now = s.now ∧ t.pwr = s.pwr ∧ t.ports = s.ports ∧ t.fly = s.fly
    ∧ t.key = s.key ∧ t.trn = s.trn :=
  ⟨(congrArg State.now h :), (congrArg State.pwr h :), (congrArg State.ports h :), (congrArg State.fly h :), (congrArg State.key h :),
    (congrArg State.trn h :)⟩

/-- What is counted and included before the expiry. -/
def State.countedIn (s : State) : State := s.pcLevels.includeEvents

theorem passed_eq (s : State) : s.passed = s.countedIn.expire.wakePorts.wakeCpu.sweeps := (rfl)

/-- Parts that none of it changes. -/
theorem passed_parts (s : State) : s.passed.now = s.now ∧ s.passed.pwr = s.pwr ∧ s.passed.ports = s.ports ∧ s.passed.fly = s.fly
    ∧ s.passed.key = s.expire.key ∧ s.passed.fab = (s.countedIn.expire.wakePorts.wakeCpu).fab := by
  obtain ⟨hnow1, hpwr1, hports1, hfly1, hkey1, htrn1⟩ := fields_of_offCounts (t := s.countedIn) (offCounts_counted s)
  have hexpired : s.countedIn.expire.key = s.expire.key := expire_key_of_key hkey1 htrn1
  rw [passed_eq]
  generalize s.countedIn = u at *
  obtain ⟨hnow2, hpwr2, hports2, hfly2⟩ := fields_of_offServo (offServo_expire u)
  generalize u.expire = v at *
  obtain ⟨hnow3, hpwr3, hports3, hfly3, hkey3, -, -⟩ := fields_of_offFab (offFab_wakes v)
  generalize v.wakePorts.wakeCpu = w at *
  obtain ⟨hnow4, hpwr4, hports4, hfly4, hkey4, hfab4, -, -⟩ := fields_of_offTabs (offTabs_sweeps w)
  exact ⟨hnow4.trans (hnow3.trans (hnow2.trans hnow1)), hpwr4.trans (hpwr3.trans (hpwr2.trans hpwr1)),
    hports4.trans (hports3.trans (hports2.trans hports1)), hfly4.trans (hfly3.trans (hfly2.trans hfly1)),
    hkey4.trans (hkey3.trans hexpired), hfab4⟩

theorem passed_quiet {s : State} (h : s.trn.expired = false) : s.passed.trn = s.trn ∧ s.passed.rateNow = s.rateNow := by
  obtain ⟨-, -, -, -, -, htrn1⟩ := fields_of_offCounts (t := s.countedIn) (offCounts_counted s)
  have hreg1 : ∀ a, plainReg a = true → a ≠ Addr.CNT_RD_VAL_LO ∧ a ≠ Addr.CNT_RD_VAL_HI ∧ a ≠ Addr.CNT_RD_STATUS →
      s.countedIn.reg a = s.reg a := fun a => counted_reg s
  rw [passed_eq, expire_quiet (s := s.countedIn) (by rw [htrn1]; exact h)]
  generalize s.countedIn = u at *
  obtain ⟨-, -, -, -, -, htrn3, hreg3⟩ := fields_of_offFab (offFab_wakes u)
  generalize u.wakePorts.wakeCpu = w at *
  obtain ⟨-, -, -, -, -, -, htrn4, hreg4⟩ := fields_of_offTabs (offTabs_sweeps w)
  refine ⟨htrn4.trans (htrn3.trans htrn1), ?_⟩
  have hlo : w.sweeps.reg Addr.TRN_RATE_NOW_LO = s.reg Addr.TRN_RATE_NOW_LO :=
    (hreg4 _).trans ((hreg3 _).trans (hreg1 _ (by decide) (by decide)))
  have hhi : w.sweeps.getF F.TRN_RATE_NOW_HI_now_hi = s.getF F.TRN_RATE_NOW_HI_now_hi :=
    getF_of_reg ((hreg4 _).trans ((hreg3 _).trans (hreg1 _ (by decide) (by decide))))
  unfold State.rateNow
  rw [hlo, hhi]

/-- Time advances by one core cycle. -/
def State.ticked (s : State) : State :=
  let u : State := { s with now := s.now + 1 }
  { u with trn := { u.trn with time := (u.trn.time + u.rateNow) % timeRange, pulse := u.trn.pulse - u.rateNow } }

/-- The same, with the number of the core cycle given. -/
def State.tickedTo (s : State) (n : Nat) : State :=
  let u : State := { s with now := n }
  { u with trn := { u.trn with time := (u.trn.time + u.rateNow) % timeRange, pulse := u.trn.pulse - u.rateNow } }

theorem clocked_eq (s : State) : s.clocked = s.passed.ticked := by
  have hnow := (passed_parts s).1
  have hto : s.clocked = s.passed.tickedTo (s.now + 1) := by
    unfold State.clocked State.tickedTo State.passed
    rfl
  have hat : ∀ x : State, x.ticked = x.tickedTo (x.now + 1) := fun _ => (rfl)
  rw [hto, hat, hnow]

theorem Rests.ticked {s : State} {n : Nat} (h : s.Rests n) : s.ticked.Rests n := { h with }

theorem ticked_fields (s : State) : s.ticked.now = s.now + 1 ∧ s.ticked.ports = s.ports ∧ s.ticked.key = s.key ∧ s.ticked.fab = s.fab
    ∧ s.ticked.pwr = s.pwr ∧ s.ticked.fly = s.fly
    ∧ s.ticked.trn = { s.trn with time := (s.trn.time + s.rateNow) % timeRange, pulse := s.trn.pulse - s.rateNow } :=
  ⟨rfl, rfl, rfl, rfl, rfl, rfl, rfl⟩

theorem clocked_fields (s : State) : s.clocked.now = s.now + 1 ∧ s.clocked.ports = s.ports ∧ s.clocked.key = s.expire.key
    ∧ s.clocked.fab = (s.countedIn.expire.wakePorts.wakeCpu).fab ∧ s.clocked.pwr = s.pwr ∧ s.clocked.fly = s.fly := by
  obtain ⟨hnow, hpwr, hports, hfly, hkey, hfab⟩ := passed_parts s
  obtain ⟨hnowT, hportsT, hkeyT, hfabT, hpwrT, hflyT, -⟩ := ticked_fields s.passed
  rw [clocked_eq]
  exact ⟨hnowT.trans (congrArg (· + 1) hnow), hportsT.trans hports, hkeyT.trans hkey, hfabT.trans hfab, hpwrT.trans hpwr, hflyT.trans hfly⟩

theorem clocked_quiet {s : State} (h : s.trn.expired = false) :
    s.clocked.trn = { s.trn with time := (s.trn.time + s.rateNow) % timeRange, pulse := s.trn.pulse - s.rateNow } := by
  obtain ⟨htrn, hrate⟩ := passed_quiet h
  obtain ⟨-, -, -, -, -, -, htrnT⟩ := ticked_fields s.passed
  rw [clocked_eq, htrnT, htrn, hrate]

theorem Rests.countedIn {s : State} {n : Nat} (h : s.Rests n) : s.countedIn.Rests n :=
  h.of_agenda ((agenda_includeEvents _).trans (agenda_pcLevels s))

theorem Rests.swept {s : State} {n : Nat} (h : s.Rests n) : s.wakePorts.wakeCpu.sweeps.Rests n :=
  h.of_agenda ((agenda_sweeps _).trans ((agenda_wakeCpu _).trans (agenda_wakePorts _)))

theorem Rests.clocked {s : State} {n : Nat} (h : s.Rests n) (hn : n < 767) : s.clocked.Rests (n + 1) := by
  rw [clocked_eq, passed_eq]
  exact Rests.ticked (Rests.swept (Rests.expire (Rests.countedIn h) hn))

theorem Rests.clocked_busy {s : State} {n : Nat} (h : s.Rests n) (hbusy : s.ksBusy = true) : s.clocked.Rests n := by
  obtain ⟨-, -, -, -, hkey, -⟩ := fields_of_offCounts (t := s.countedIn) (offCounts_counted s)
  have hcountbusy : s.countedIn.ksBusy = true := by
    rw [← hbusy]
    unfold State.ksBusy State.inGap
    rw [hkey]
  rw [clocked_eq, passed_eq]
  exact Rests.ticked (Rests.swept (Rests.expire_busy (Rests.countedIn h) hcountbusy))

/-! What the cycle's end does on the egress side -/

theorem expandStall_guard (n : Nat) : guardReg (F.PIPE_REP_EVENT_expand_stall n).addr = false := by
  refine guard_high ?_
  unfold F.PIPE_REP_EVENT_expand_stall Addr.PIPE_REP_EVENT
  dsimp only
  omega

theorem agenda_expandStalls (s : State) : s.expandStalls.agenda = s.agenda :=
  agenda_each _ _ _ fun _ n _ => (agenda_raise _ (expandStall_guard n)).trans (agenda_count ..)

theorem agenda_cycled (s : State) : s.cycled.agenda = s.clocked.agenda := by
  unfold State.cycled State.holdCuts State.skids
  rw [agenda_expandStalls, agenda_each _ _ _ fun t p _ => agenda_holdCut t p, agenda_each _ _ _ fun t p _ => agenda_skidCheck t p,
    agenda_flushCycle]

/-- The cycle's end on the egress side. -/
def State.egressEnds (s : State) : State := s.flushCycle.skids.holdCuts.expandStalls

theorem cycled_eq (s : State) : s.cycled = s.clocked.egressEnds := (rfl)

theorem plan_egressEnds (s : State) : s.egressEnds.plan = s.plan := by
  unfold State.egressEnds State.expandStalls State.holdCuts State.skids
  rw [plan_each _ _ _ fun t n _ => (plan_raise _ _).trans (plan_count ..), plan_each _ _ _ fun t p _ => plan_holdCut t p,
    plan_each _ _ _ fun t p _ => plan_skidCheck t p, plan_flushCycle]

theorem fields_of_plan {s t : State} (h : t.plan = s.plan) : t.now = s.now ∧ t.pwr = s.pwr ∧ t.key = s.key :=
  ⟨(congrArg State.now h :), (congrArg State.pwr h :), (congrArg State.key h :)⟩

theorem cycled_fields (s : State) : s.cycled.now = s.now + 1 ∧ s.cycled.pwr = s.pwr ∧ s.cycled.key = s.expire.key := by
  obtain ⟨hnow, -, hkey, -, hpwr, -⟩ := clocked_fields s
  obtain ⟨hnow', hpwr', hkey'⟩ := fields_of_plan (plan_egressEnds s.clocked)
  rw [cycled_eq]
  exact ⟨hnow'.trans hnow, hpwr'.trans hpwr, hkey'.trans hkey⟩

/-- With nothing to flush, to discard, to interrupt or to stall, the cycle's end does nothing on the egress side. -/
theorem cycled_quiet {s : State} (hflush : ∀ e ∈ s.clocked.fab.queues, e.2.flush = []) (hports : ∀ e ∈ s.ports, e.2.skid = [] ∧ e.2.holdNow = false)
    (hexpand : ∀ n, n < 8 → (s.clocked.expandQ n).length < 64) : s.cycled = s.clocked := by
  have hclocked := (clocked_fields s).2.1
  rw [cycled_eq]
  generalize s.clocked = t at hflush hexpand hclocked ⊢
  have hnone : ∀ {α : Type} (l : List α) (f : State → α → State), l = [] → ∀ u : State, u.each l f = u := fun l f h u => by rw [h]; rfl
  have hflushed : t.flushCycle = t := by
    have hempty : (t.fab.queues.filter fun e => e.2.flush.any fun c => !t.copyInHbm c) = [] :=
      List.filter_eq_nil_iff.mpr fun e he => by rw [hflush e he]; exact Bool.false_ne_true
    unfold State.flushCycle
    rw [hempty]
    rfl
  have hskids : t.skids = t := by
    refine hnone _ _ ?_ t
    rw [List.filter_eq_nil_iff.mpr fun e he => by rw [hclocked] at he; rw [(hports e he).1]; exact Bool.false_ne_true]
    rfl
  have hholds : t.holdCuts = t := by
    refine hnone _ _ ?_ t
    rw [List.filter_eq_nil_iff.mpr fun e he => by rw [hclocked] at he; rw [(hports e he).2]; exact Bool.false_ne_true]
    rfl
  have hstalls : t.expandStalls = t := by
    refine hnone _ _ (List.filter_eq_nil_iff.mpr fun n hn => ?_) t
    unfold State.expandFull
    rw [decide_eq_false (Nat.not_le.mpr (hexpand n (List.mem_range.mp hn)))]
    exact Bool.false_ne_true
  unfold State.egressEnds
  rw [hflushed, hskids, hholds, hstalls]

/-! The core cycle -/

/-- What ends with a core cycle: a gap, and the wait for a reset. -/
def State.gapEnds (t : State) : State :=
  match t.key.gapEnd with
  | some g => if g ≤ t.now then t.endGap else t
  | none => t

def State.resetComes (t : State) : State :=
  match t.pwr.pendingReset with
  | some (at_, cause) => if at_ ≤ t.now then t.sysReset cause else t
  | none => t

theorem each_nil {α : Type} (f : State → α → State) (s : State) : s.each [] f = s := (rfl)

/-- The core cycle once everything has been counted, woken and swept. -/
def State.cycleEnds (x : State) : State :=
  let s0 : State := { x with now := x.now + 1 }
  if s0.pwr.phase = .held then s0 else x.ticked.egressEnds.flashes.gapEnds.resetComes

theorem coreCycle_passed (s : State) : s.coreCycle = s.passed.cycleEnds := by
  unfold State.coreCycle
  extract_lets x s0 src t s1 s2 s3
  have hx : s.passed = x := rfl
  clear_value x
  have h1 : x.ticked = s1 := rfl
  clear_value s1
  have h2 : s1.egressEnds.flashes = s2 := rfl
  clear_value s2
  have h3 : s2.gapEnds = s3 := rfl
  clear_value s3
  rw [hx]
  unfold State.cycleEnds
  rw [h1, h2, h3]
  rfl

theorem coreCycle_eq {s : State} {n : Nat} (hphase : s.pwr.phase ≠ .held) (h : s.cycled.Rests n) :
    s.coreCycle = s.cycled.gapEnds.resetComes := by
  have hflashes : s.cycled.flashes = s.cycled := by
    unfold State.flashes
    rw [h.flight]
    exact each_nil _ _
  have hpwr := (passed_parts s).2.1
  rw [coreCycle_passed]
  rw [cycled_eq, clocked_eq] at hflashes ⊢
  generalize s.passed = x at *
  refine (if_neg (by rw [show ({ x with now := x.now + 1 } : State).pwr = x.pwr from rfl, hpwr]; exact hphase)).trans ?_
  rw [hflashes]

theorem yields_idle {s u : State} {n : Nat} (hpending : s.pending = []) (hcalm : s.calm = true) (heffect : s.coreCycle = u) (h : u.Rests n) :
    Yields (step s) u := by
  have hstep : step s = idle s := by
    unfold step
    rw [hpending]
  rw [hstep]
  exact yields_intro (by unfold idle; rw [run_calm hcalm, heffect]) (due_parts u h.queue h.flight h.rings h.group h.due h.fenced) h.raised

/-! The end of a gap and a reset -/

/-- The state at another counter time. -/
def State.atTime (s : State) (t : Nat) : State := { s with trn := { s.trn with time := t } }

theorem agenda_atTime (s : State) (t : Nat) : (s.atTime t).agenda = s.agenda := (rfl)

theorem asOf_eq (s : State) (t : Nat) (f : State → State) : s.asOf t f = (f (s.atTime t)).atTime s.trn.time := (rfl)

/-- The unit that has conducted until the gap. -/
def State.formerUnit (s : State) : Unit2 := if s.key.forced then (s.activeUnit.getD .a) else (if s.unitState .a = 3 then .b else .a)

/-- The states of the units at a gap's end. -/
def State.unitsChange (s : State) (old : Unit2) : State := (s.setUnit (other old) 4).doIf s.key.forced fun t => t.setUnit old 3

/-- The committed checkpoint conducts, with the flywheel's switch. -/
def State.takesOver (s : State) : State :=
  let ks := { s.key.commit with pend := s.fly.armed }
  let work := !s.key.log.isEmpty || !s.key.deferred.isEmpty
  { s with key := { s.key with gapEnd := none, ks := ks, commit := ks, replay := work, logOn := s.key.forced } }

/-- The switchover is shown and counted. -/
def State.switchShown (s : State) (old : Unit2) : State :=
  ((((s.keyGrants old false).keyGrants (other old) true).setF F.KEY_STATUS_active_unit (unitCode (other old))).count 15 0 0).raise
    F.KEY_EVENT_switchover

/-- A planned switchover is over. -/
def State.forcedOver (s : State) : State := { s with key := { s.key with forced := false } }

/-- The fault that began the gap is reported. -/
def State.gapReported (s : State) (old : Unit2) : State :=
  if s.key.forced then s.forcedOver
  else (s.asOf s.key.faultTime fun t => t.react (causeDiag (t.getF F.KEY_FAULT_INFO_cause)) 1 (unitCode old) 0).autoResync old

theorem endGap_eq {s : State} {g : Nat} (h : s.key.gapEnd = some g) :
    s.endGap = (((s.unitsChange s.formerUnit).takesOver).switchShown s.formerUnit).gapReported s.formerUnit := by
  unfold State.endGap
  rw [h]
  rfl

theorem key_setUnit (s : State) (u : Unit2) (v : Nat) : (s.setUnit u v).key = s.key := by
  cases u <;> rfl

theorem key_unitsChange (s : State) (old : Unit2) : (s.unitsChange old).key = s.key := by
  unfold State.unitsChange State.doIf
  split
  · rw [key_setUnit, key_setUnit]
  · exact key_setUnit ..

theorem agenda_unitsChange (s : State) (old : Unit2) : (s.unitsChange old).agenda = s.agenda := by
  unfold State.unitsChange State.doIf
  split
  · rw [agenda_setUnit, agenda_setUnit]
  · exact agenda_setUnit ..

theorem Rests.takesOver {s : State} {n : Nat} (h : s.Rests n) (hcommit : s.key.commit.queue = []) : s.takesOver.Rests n :=
  { h with queue := hcommit }

theorem agenda_switchShown (s : State) (old : Unit2) : (s.switchShown old).agenda = s.agenda := by
  unfold State.switchShown
  rw [agenda_raise _ (by decide), agenda_count, agenda_setF _ _ (by decide), agenda_keyGrants, agenda_keyGrants]

theorem agenda_forcedOver (s : State) : s.forcedOver.agenda = s.agenda := (rfl)

theorem react_eq_redundancy (s : State) (diag inst : Nat) :
    s.react diag 1 inst 0 = ((s.faultNoted diag 1 inst).addCause (.redundancy diag inst)).ksLog .safety := (rfl)

theorem Rests.gapReported {s : State} {n : Nat} (h : s.Rests n) (old : Unit2) (hn : n < 767) : (s.gapReported old).Rests (n + 1) := by
  have hreact : ∀ t : State, t.Rests n → ∀ d i : Nat, (t.react d 1 i 0).Rests (n + 1) := fun t ht d i => by
    rw [react_eq_redundancy]
    exact State.Rests.ksLog (ht.of_agenda (by simp)) .safety hn
  unfold State.gapReported
  split
  · exact State.Rests.mono (m := n) (h.of_agenda (agenda_forcedOver s)) (Nat.le_succ n)
  · rw [asOf_eq]
    have hasof := State.Rests.of_agenda (hreact (s.atTime s.key.faultTime) (h.of_agenda (agenda_atTime ..))
      (causeDiag ((s.atTime s.key.faultTime).getF F.KEY_FAULT_INFO_cause)) (unitCode old)) (agenda_atTime _ s.trn.time)
    unfold State.autoResync
    split
    · refine hasof.of_agenda ?_
      unfold State.resyncStart
      rw [agenda_raise _ (by decide), agenda_setUnit]
    · exact hasof

theorem Rests.endGap {s : State} {n : Nat} (h : s.Rests n) (hcommit : s.key.commit.queue = []) (hn : n < 767) : s.endGap.Rests (n + 1) := by
  cases hgap : s.key.gapEnd with
  | none =>
    unfold State.endGap
    rw [hgap]
    exact h.mono (Nat.le_succ n)
  | some g =>
    rw [endGap_eq hgap]
    have hunits : (s.unitsChange s.formerUnit).Rests n := h.of_agenda (agenda_unitsChange ..)
    have htakes := Rests.takesOver hunits (by rw [key_unitsChange]; exact hcommit)
    exact Rests.gapReported (htakes.of_agenda (agenda_switchShown ..)) _ hn

theorem sysHeld_rests (s : State) (cause : Nat) : (s.sysHeld cause).Rests 0 ∧ (s.sysHeld cause).getF F.PLB_STATUS_plb_state = 0 := by
  have hplb : s.sysKept.getF F.PLB_STATUS_plb_state = 0 := by
    unfold State.getF
    rw [show F.PLB_STATUS_plb_state.addr = Addr.PLB_STATUS from rfl, sysKept_cleared (by decide), (resetWord_domains s.part).2.2]
    decide
  have hkept : s.sysKept.Rests 0 :=
    ⟨rfl, rfl, rfl, rfl, by unfold State.groupTested; rw [hplb]; rfl, rfl, fun e he => absurd he (List.not_mem_nil), Nat.le.refl⟩
  have h1 : ((s.sysKept.setF F.PWR_RESET_CAUSE_cause cause).setKs fun k => { k with hold := s.getB F.TRN_CTRL_hold }).Rests 0 :=
    hkept.of_agenda ((agenda_setKs _ _ rfl).trans (agenda_setF _ _ (by decide)))
  have hreg : (s.sysHeld cause).getF F.PLB_STATUS_plb_state = 0 := by
    refine (getF_of_reg (f := F.PLB_STATUS_plb_state) (s := s.sysKept) ?_).trans hplb
    exact (sysHeld_reg (.inr (by decide))).trans (reg_setF_other _ _ (by decide) _)
  refine ⟨?_, hreg⟩
  unfold State.sysHeld
  extract_lets k1 i
  split
  · exact h1
  · refine State.Rests.of_agenda h1 ?_
    rw [agenda_raiseIf _ _ (by decide), agenda_showServo, agenda_setRate, agenda_setKs _ _ rfl]

theorem sysReset_rests (s : State) (cause : Nat) : (s.sysReset cause).Rests 0 := by
  obtain ⟨hrests, hplb⟩ := sysHeld_rests s cause
  have hcounted : ∀ t : State, t.bootCounted.getF F.PLB_STATUS_plb_state = t.getF F.PLB_STATUS_plb_state ∧ t.bootCounted.agenda = t.agenda :=
    fun _ => ⟨rfl, rfl⟩
  obtain ⟨hsame, hagenda⟩ := hcounted (s.sysHeld cause)
  exact boots_rests (sysReset_boots s cause) (hrests.of_agenda hagenda) (by rw [hsame, hplb]; decide)

/-! What the end of a gap leaves -/

/-- The power domains and the number of the core cycle. -/
def State.cycleView (s : State) : Power × Nat := (s.pwr, s.now)

theorem cycleView_setF (s : State) (f : Fld) (v : Nat) : (s.setF f v).cycleView = s.cycleView := (rfl)
theorem cycleView_setReg (s : State) (a : Nat) (v : Word) : (s.setReg a v).cycleView = s.cycleView := (rfl)
theorem cycleView_count (s : State) (g i c : Nat) : (s.count g i c).cycleView = s.cycleView := (rfl)
theorem cycleView_raise (s : State) (f : Fld) : (s.raise f).cycleView = s.cycleView := (rfl)
theorem cycleView_setUnit (s : State) (u : Unit2) (v : Nat) : (s.setUnit u v).cycleView = s.cycleView := by
  cases u <;> rfl

theorem cycleView_atTime (s : State) (t : Nat) : (s.atTime t).cycleView = s.cycleView := (rfl)

theorem cycleView_keyGrants (s : State) (u : Unit2) (on : Bool) : (s.keyGrants u on).cycleView = s.cycleView := by
  unfold State.keyGrants
  refine each_keeps (fun t => t.cycleView = s.cycleView) _ _ (fun t n _ h => (cycleView_setReg ..).trans h) _ ?_
  exact each_keeps (fun t => t.cycleView = s.cycleView) _ _ (fun t n _ h => (cycleView_setReg ..).trans h) s rfl

theorem cycleView_ksLog (s : State) (kind : LogKind) : (s.ksLog kind).cycleView = s.cycleView := by
  obtain ⟨hnow, hpwr, -, -⟩ := fields_of_offServo (offServo_ksLog s kind)
  exact Prod.ext hpwr hnow

theorem cycleView_faultNoted (s : State) (diag cls inst : Nat) : (s.faultNoted diag cls inst).cycleView = s.cycleView := by
  have hpersist : ∀ t : State, (t.persist diag cls inst).cycleView = t.cycleView := fun t => by
    unfold State.persist
    extract_lets at_ e l again n old new
    split <;> rfl
  have hinfo : ∀ t : State, (t.faultInfo diag cls inst).cycleView = t.cycleView := fun t => by
    unfold State.faultInfo
    dsimp only
    split <;> rfl
  have htest : s.endTest.cycleView = s.cycleView := by
    unfold State.endTest
    split <;> rfl
  unfold State.faultNoted
  rw [cycleView_raise, cycleView_count, hinfo, hpersist, htest]

theorem cycleView_react (s : State) (diag inst : Nat) : (s.react diag 1 inst 0).cycleView = s.cycleView := by
  have hcause : ∀ (t : State) (c : Cause), (t.addCause c).cycleView = t.cycleView := fun t c => by
    unfold State.addCause
    split <;> rfl
  refine Eq.trans (b := (((s.faultNoted diag 1 inst).addCause (.redundancy diag inst)).ksLog .safety).cycleView) rfl ?_
  rw [cycleView_ksLog, hcause, cycleView_faultNoted]

theorem cycleView_unitsChange (s : State) (old : Unit2) : (s.unitsChange old).cycleView = s.cycleView := by
  unfold State.unitsChange State.doIf
  split
  · rw [cycleView_setUnit, cycleView_setUnit]
  · exact cycleView_setUnit ..

theorem cycleView_takesOver (s : State) : s.takesOver.cycleView = s.cycleView := (rfl)

theorem cycleView_switchShown (s : State) (old : Unit2) : (s.switchShown old).cycleView = s.cycleView := by
  unfold State.switchShown
  rw [cycleView_raise, cycleView_count, cycleView_setF, cycleView_keyGrants, cycleView_keyGrants]

theorem cycleView_forcedOver (s : State) : s.forcedOver.cycleView = s.cycleView := (rfl)

theorem cycleView_gapReported (s : State) (old : Unit2) : (s.gapReported old).cycleView = s.cycleView := by
  unfold State.gapReported
  split
  · exact cycleView_forcedOver s
  · rw [asOf_eq]
    have hasof : ((((s.atTime s.key.faultTime).react (causeDiag ((s.atTime s.key.faultTime).getF F.KEY_FAULT_INFO_cause)) 1 (unitCode old)
        0)).atTime s.trn.time).cycleView = s.cycleView := by
      rw [cycleView_atTime, cycleView_react, cycleView_atTime]
    unfold State.autoResync
    split
    · exact (cycleView_raise ..).trans ((cycleView_setUnit ..).trans hasof)
    · exact hasof

theorem cycleView_endGap (s : State) : s.endGap.cycleView = s.cycleView := by
  cases hgap : s.key.gapEnd with
  | none =>
    unfold State.endGap
    rw [hgap]
  | some g => rw [endGap_eq hgap, cycleView_gapReported, cycleView_switchShown, cycleView_takesOver, cycleView_unitsChange]

end Sys2Proof.Machine
end

/-! ### Flushes and stalls of a core cycle, and the empty queue as a whole (R211, R224) -/

section
namespace Sys2Proof.Machine

/-! What the release of a flushed copy leaves -/

/-- The queues, the mirror queues' ports and the frames. -/
def State.copyView (s : State) : SMap Queue × SMap (Option Nat) × SMap (Option Frame) := (s.fab.queues, s.fab.mirrorPort, s.fab.frames)

theorem copyView_setCell (s : State) (a : Nat) (c : Option Cell) : (s.setCell a c).copyView = s.copyView := (rfl)
theorem copyView_setPool (s : State) (k : Nat) (p : Pool) : (s.setPool k p).copyView = s.copyView := (rfl)
theorem copyView_chargeMove (s : State) (p k : Nat) (d : Int) : (s.chargeMove p k d).copyView = s.copyView := (rfl)
theorem copyView_hostPut (s : State) (a : Nat) (b : Byte) : (s.hostPut a b).copyView = s.copyView := (rfl)
theorem copyView_setF (s : State) (f : Fld) (v : Nat) : (s.setF f v).copyView = s.copyView := (rfl)
theorem copyView_raise (s : State) (f : Fld) : (s.raise f).copyView = s.copyView := (rfl)
theorem copyView_raiseBit (s : State) (f : Fld) (i : Nat) : (s.raiseBit f i).copyView = s.copyView := (rfl)
theorem copyView_count (s : State) (g i c : Nat) : (s.count g i c).copyView = s.copyView := (rfl)

theorem copyView_raiseIf (s : State) (c : Bool) (f : Fld) : (s.raiseIf c f).copyView = s.copyView := by
  cases c <;> rfl

theorem copyView_hostWrite (l : List Byte) : ∀ (s : State) (a : Nat), (s.hostWrite a l).copyView = s.copyView := by
  induction l with
  | nil => intro s a; rfl
  | cons b r ih => intro s a; exact (ih (s.hostPut a b) (a + 1)).trans (copyView_hostPut ..)

theorem copyView_freeRefused (s : State) (a req reason master : Nat) : (s.freeRefused a req reason master).copyView = s.copyView := by
  unfold State.freeRefused
  dsimp only
  rw [copyView_raise, copyView_setF, copyView_setF, copyView_setF, copyView_setF, copyView_setF, copyView_count]

theorem copyView_freeCell (s : State) (req a : Nat) : (s.freeCell req a).copyView = s.copyView := by
  unfold State.freeCell State.free
  split
  · rfl
  · dsimp only
    split
    · split <;> rfl
    · rfl

theorem copyView_releaseCell (s : State) (req master a : Nat) : (s.releaseCell req master a).copyView = s.copyView := by
  unfold State.releaseCell
  split
  · exact copyView_freeRefused ..
  · split
    · exact copyView_freeRefused ..
    · split
      · exact copyView_freeCell ..
      · exact copyView_setCell ..

theorem copyView_poolMove (s : State) (k : Nat) (x y : Int) : (s.poolMove k x y).copyView = s.copyView := by
  unfold State.poolMove
  extract_lets p l p1 p2 up ev s1
  have h1 : s1.copyView = s.copyView := by
    simp only [s1]
    rw [copyView_raiseIf, copyView_raiseIf, copyView_raiseIf, copyView_setPool]
  split
  · exact (copyView_raiseBit ..).trans h1
  · exact h1

theorem copyView_unchargeFrame (s : State) (f : Frame) (n : Nat) : (s.unchargeFrame f n).copyView = s.copyView := by
  unfold State.unchargeFrame
  extract_lets s1
  have h1 : s1.copyView = s.copyView := by
    simp only [s1]
    split
    · exact copyView_poolMove ..
    · exact copyView_poolMove ..
  split
  · exact h1
  · exact (copyView_chargeMove ..).trans h1

/-- From `s` to `t` no queue and no mirror port changes, and no frame comes to lie in HBM. -/
structure Releases (s t : State) : Prop where
  queues : t.fab.queues = s.fab.queues
  ports : t.fab.mirrorPort = s.fab.mirrorPort
  onChip : ∀ i g, t.frame i = some g → ∃ f, s.frame i = some f ∧ g.inHbm = f.inHbm

namespace Releases

theorem of_view {s t : State} (h : t.copyView = s.copyView) : Releases s t := by
  obtain ⟨hqueues, hports, hframes⟩ : t.fab.queues = s.fab.queues ∧ t.fab.mirrorPort = s.fab.mirrorPort ∧ t.fab.frames = s.fab.frames := by
    simpa only [State.copyView, Prod.mk.injEq] using h
  refine ⟨hqueues, hports, fun i g hg => ⟨g, ?_, rfl⟩⟩
  rw [← hg]
  unfold State.frame
  rw [hframes]

theorem refl (s : State) : Releases s s := of_view rfl

theorem trans {s t u : State} (h : Releases s t) (g : Releases t u) : Releases s u :=
  ⟨g.queues.trans h.queues, g.ports.trans h.ports, fun i x hx => by
    obtain ⟨y, hy, hxy⟩ := g.onChip i x hx
    obtain ⟨z, hz, hyz⟩ := h.onChip i y hy
    exact ⟨z, hz, hxy.trans hyz⟩⟩

/-- A frame is removed, or changed but not moved. -/
theorem setFrame (s : State) {i : Nat} {f : Frame} (hf : s.frame i = some f) {x : Option Frame} (hx : ∀ g, x = some g → g.inHbm = f.inHbm) :
    Releases s (s.setFrame i x) := by
  refine ⟨rfl, rfl, fun j g hg => ?_⟩
  by_cases hj : j = i
  · subst hj
    rw [frame_setFrame] at hg
    exact ⟨f, hf, hx g hg⟩
  · rw [frame_setFrame_other _ hj] at hg
    exact ⟨g, hg, rfl⟩

theorem frame_of_view {s t : State} (h : t.copyView = s.copyView) (i : Nat) : t.frame i = s.frame i := by
  have hframes : t.fab.frames = s.fab.frames := congrArg (fun x => x.2.2) h
  unfold State.frame
  rw [hframes]

theorem release (s : State) (i : Nat) : Releases s (s.release i) := by
  unfold State.release
  cases hf : s.frame i with
  | none => exact refl s
  | some f =>
    dsimp only
    have hcells : (s.each f.cells fun t a => t.releaseCell 8 0x1F a).copyView = s.copyView :=
      each_keeps (fun t => t.copyView = s.copyView) _ _ (fun t a _ h => (copyView_releaseCell ..).trans h) s rfl
    generalize (s.each f.cells fun t a => t.releaseCell 8 0x1F a) = u at hcells
    split
    · unfold State.endFrame State.dropFrame
      have hcharge := (copyView_unchargeFrame u f f.charge).trans hcells
      generalize u.unchargeFrame f f.charge = v at hcharge
      have hv : v.frame i = some f := (frame_of_view hcharge i).trans hf
      split
      · exact (of_view hcharge).trans (setFrame v hv fun g hg => absurd hg (by simp))
      · exact (of_view hcharge).trans (setFrame v hv fun g hg => by rw [← Option.some.inj hg])
    · exact (of_view hcells).trans (setFrame u ((frame_of_view hcells i).trans hf) fun g hg => by rw [← Option.some.inj hg])

theorem txReport (s : State) (i status : Nat) (ts : List Byte) : Releases s (s.txReport i status ts) := by
  unfold State.txReport
  split
  · exact refl s
  next f hf =>
    split
    · exact refl s
    next ring addr htag =>
      dsimp only
      have hset := setFrame s hf (x := some { f with tsSlot := none }) fun g hg => by rw [← Option.some.inj hg]
      split
      · exact hset.trans (of_view ((copyView_hostPut ..).trans ((copyView_hostPut ..).trans (copyView_hostWrite ..))))
      · exact hset

theorem loseCopy (s : State) (c : Copy) : Releases s (s.loseCopy c) := by
  unfold State.loseCopy State.loseShare
  split
  · exact refl s
  · unfold State.doIf
    split
    · exact (txReport s _ _ _).trans (release _ _)
    · exact release _ _

end Releases

/-! One flushed copy of a queue -/

theorem copyInHbm_of_releases {s t : State} (h : Releases s t) {c : Copy} (hc : s.copyInHbm c = false) : t.copyInHbm c = false := by
  unfold State.copyInHbm at hc ⊢
  cases ht : t.frame c.frame with
  | none => rfl
  | some g =>
    obtain ⟨f, hf, hhbm⟩ := h.onChip _ _ ht
    rw [hf] at hc
    dsimp only at hc ⊢
    rw [hhbm]
    exact hc

/-- A queue's flush list once its spilled flag has been looked at. -/
theorem fixSpill_flush (s : State) (x y : Nat) : ((s.fixSpill x).queue y).flush = (s.queue y).flush := by
  unfold State.fixSpill
  split
  · by_cases hy : y = x
    · subst hy
      rw [queue_setQueue]
    · rw [queue_setQueue_other _ hy]
  · rfl

theorem frame_fixSpill (s : State) (x i : Nat) : (s.fixSpill x).frame i = s.frame i := by
  unfold State.fixSpill
  split <;> rfl

theorem frame_setQueue (s : State) (x : Nat) (q : Queue) (i : Nat) : (s.setQueue x q).frame i = s.frame i := (rfl)

theorem mirrorPort_setQueue (s : State) (x : Nat) (q : Queue) : (s.setQueue x q).fab.mirrorPort = s.fab.mirrorPort := (rfl)

theorem mirrorPort_fixSpill (s : State) (x : Nat) : (s.fixSpill x).fab.mirrorPort = s.fab.mirrorPort := by
  unfold State.fixSpill
  split <;> rfl

/-- What the flush of one queue leaves for another: its port, its flush list, and its copies on chip. -/
structure FlushLeaves (x : Nat) (s t : State) : Prop where
  ports : t.fab.mirrorPort = s.fab.mirrorPort
  flush : (t.queue x).flush = (s.queue x).flush
  onChip : ∀ c, s.copyInHbm c = false → t.copyInHbm c = false

theorem FlushLeaves.refl (x : Nat) (s : State) : FlushLeaves x s s := ⟨rfl, rfl, fun _ h => h⟩

theorem FlushLeaves.trans {x : Nat} {s t u : State} (h : FlushLeaves x s t) (g : FlushLeaves x t u) : FlushLeaves x s u :=
  ⟨g.ports.trans h.ports, g.flush.trans h.flush, fun c hc => g.onChip c (h.onChip c hc)⟩

theorem copyInHbm_of_frame {s t : State} (h : ∀ i, t.frame i = s.frame i) (c : Copy) : t.copyInHbm c = s.copyInHbm c := by
  unfold State.copyInHbm
  rw [h]

theorem queue_of_releases {s t : State} (h : Releases s t) (x : Nat) : t.queue x = s.queue x := by
  unfold State.queue
  rw [h.queues]

/-- A copy is taken from the flush list of queue `y` and released. -/
def State.flushedAt (s : State) (y : Nat) (q : Queue) (c : Copy) : State := ((s.setQueue y q).loseCopy c).fixSpill y

theorem flushedAt_leaves (s : State) {x y : Nat} (h : x ≠ y) (q : Queue) (c : Copy) : FlushLeaves x s (s.flushedAt y q c) := by
  have hlose := Releases.loseCopy (s.setQueue y q) c
  refine ⟨(mirrorPort_fixSpill ..).trans (hlose.ports.trans (mirrorPort_setQueue ..)), ?_, fun c' hc' => ?_⟩
  · unfold State.flushedAt
    rw [fixSpill_flush, queue_of_releases hlose, queue_setQueue_other _ h]
  · unfold State.flushedAt
    rw [copyInHbm_of_frame (frame_fixSpill _ y)]
    exact copyInHbm_of_releases hlose ((copyInHbm_of_frame (frame_setQueue s y q) c').trans hc')

theorem flushOne_leaves (s : State) {x y : Nat} (h : x ≠ y) (hbm : Bool) : FlushLeaves x s (s.flushOne hbm y) := by
  unfold State.flushOne
  dsimp only
  split
  · exact .refl x s
  · split
    · exact .refl x s
    · exact flushedAt_leaves s h _ _

theorem flushOne_first {s : State} {x : Nat} {c : Copy} {l : List Copy} (hflush : (s.queue x).flush = c :: l) (hchip : s.copyInHbm c = false) :
    ((s.flushOne false x).queue x).flush = l ∧ (s.flushOne false x).fab.mirrorPort = s.fab.mirrorPort := by
  have hone : s.flushOne false x = s.flushedAt x { s.queue x with flush := l } c := by
    have hfind : ((s.queue x).flush.findIdx? fun c => s.copyInHbm c == false) = some 0 := by
      rw [hflush, List.findIdx?_cons, hchip]
      rfl
    unfold State.flushOne
    dsimp only
    rw [hfind, hflush]
    rfl
  have hlose := Releases.loseCopy (s.setQueue x { s.queue x with flush := l }) c
  rw [hone]
  refine ⟨?_, (mirrorPort_fixSpill ..).trans (hlose.ports.trans (mirrorPort_setQueue ..))⟩
  unfold State.flushedAt
  rw [fixSpill_flush, queue_of_releases hlose, queue_setQueue]

/-! The egress pipelines one after the other -/

/-- Egress pipeline `u` releases a copy of the first of the queues `l` that is its own. -/
def State.unitFlush (l : SMap Queue) (t : State) (u : Nat) : State :=
  match l.find? fun e => decide (t.queueUnit e.1 = u) with
  | none => t
  | some e => t.flushOne false e.1

theorem queueUnit_of_ports {s t : State} (h : t.fab.mirrorPort = s.fab.mirrorPort) (x : Nat) : t.queueUnit x = s.queueUnit x := by
  unfold State.queueUnit State.queuePort
  rw [h]

/-- A pipeline leaves the queues of another. -/
theorem unitFlush_leaves (l : SMap Queue) (t : State) {x u : Nat} (h : t.queueUnit x ≠ u) : FlushLeaves x t (t.unitFlush l u) := by
  unfold State.unitFlush
  cases hfind : l.find? fun e => decide (t.queueUnit e.1 = u) with
  | none => exact .refl x t
  | some e =>
    have hunit : t.queueUnit e.1 = u := of_decide_eq_true (List.find?_some (p := fun e : Nat × Queue => decide (t.queueUnit e.1 = u)) hfind)
    exact flushOne_leaves t (fun hx => h (by rw [hx]; exact hunit)) false

theorem each_unitFlush_leaves (l : SMap Queue) (x : Nat) : ∀ (us : List Nat) (t : State), t.queueUnit x ∉ us → FlushLeaves x t (t.each us (State.unitFlush l)) := by
  intro us
  induction us with
  | nil => intro t _; exact .refl x t
  | cons u us ih =>
    intro t hmem
    rw [List.mem_cons, not_or] at hmem
    have hone := unitFlush_leaves l t hmem.1
    rw [each_cons]
    exact hone.trans (ih _ (by rw [queueUnit_of_ports hone.ports]; exact hmem.2))

/-- An entry of a map in canonical form is what its key reads as. -/
theorem SMap.get_of_mem {α : Type} [DecidableEq α] (d : Nat → α) {k : Nat} {v : α} : ∀ (m : SMap α) (lo : Nat), SMap.wfFrom d lo m = true →
    (k, v) ∈ m → lo ≤ k ∧ SMap.get d k m = v := by
  intro m
  induction m with
  | nil => intro lo _ hmem; exact absurd hmem List.not_mem_nil
  | cons e r ih =>
    obtain ⟨j, w⟩ := e
    intro lo hwf hmem
    simp only [SMap.wfFrom, Bool.and_eq_true, decide_eq_true_eq] at hwf
    obtain ⟨⟨hlo, -⟩, hr⟩ := hwf
    rcases List.mem_cons.mp hmem with heq | hmem
    · obtain ⟨rfl, rfl⟩ := Prod.mk.inj heq
      exact ⟨hlo, by simp [SMap.get]⟩
    · obtain ⟨hj, hget⟩ := ih _ hr hmem
      refine ⟨by omega, ?_⟩
      rw [SMap.get, if_neg (by omega), hget]

theorem flushCycle_eq (s : State) : s.flushCycle =
    if (s.fab.queues.filter fun e => e.2.flush.any fun c => !s.copyInHbm c).isEmpty then s
    else s.each (List.range 9) (State.unitFlush (s.fab.queues.filter fun e => e.2.flush.any fun c => !s.copyInHbm c)) := (rfl)

/-- The one queue of its pipeline that is being flushed loses its first copy. -/
theorem flushCycle_releases {s : State} {x : Nat} {c : Copy} {l : List Copy} (hwf : SMap.wf (fun _ => Queue.init) s.fab.queues = true)
    (hflush : (s.queue x).flush = c :: l) (hchip : s.copyInHbm c = false) (hunit : s.queueUnit x < 9)
    (halone : ∀ y, y ≠ x → s.queueUnit y = s.queueUnit x → (s.queue y).flush = []) : (s.flushCycle.queue x).flush = l := by
  rw [flushCycle_eq]
  generalize hm : (s.fab.queues.filter fun e => e.2.flush.any fun c => !s.copyInHbm c) = m
  have hmem : (x, s.queue x) ∈ m := by
    have hin : (x, s.queue x) ∈ s.fab.queues := by
      rcases SMap.get_eq_default_or_mem (fun _ => Queue.init) x s.fab.queues with hinit | hin
      · have hempty : (s.queue x).flush = [] := congrArg Queue.flush hinit
        rw [hflush] at hempty
        exact absurd hempty (by simp)
      · exact hin
    rw [← hm]
    refine List.mem_filter.mpr ⟨hin, ?_⟩
    rw [hflush, List.any_cons, hchip]
    rfl
  have honly : ∀ e ∈ m, s.queueUnit e.1 = s.queueUnit x → e.1 = x := fun e he hsame => by
    refine Decidable.byContradiction fun hne => ?_
    rw [← hm] at he
    obtain ⟨hin, hany⟩ := List.mem_filter.mp he
    have hget : s.queue e.1 = e.2 := (SMap.get_of_mem (fun _ => Queue.init) s.fab.queues 0 hwf hin).2
    rw [← hget, halone e.1 hne hsame] at hany
    exact Bool.false_ne_true hany
  rw [if_neg (by rw [List.isEmpty_iff]; exact List.ne_nil_of_mem hmem)]
  obtain ⟨before, after, hsplit⟩ := List.append_of_mem (List.mem_range.mpr hunit)
  have hnodup := hsplit ▸ List.nodup_range (n := 9)
  rw [List.nodup_append, List.nodup_cons] at hnodup
  obtain ⟨-, ⟨hafter, -⟩, hdisjoint⟩ := hnodup
  have hbefore : s.queueUnit x ∉ before := fun h => hdisjoint _ h _ (List.mem_cons_self ..) rfl
  have happend : s.each (List.range 9) (State.unitFlush m)
      = ((s.each before (State.unitFlush m)).unitFlush m (s.queueUnit x)).each after (State.unitFlush m) := by
    rw [hsplit]
    unfold State.each
    rw [List.foldl_append, List.foldl_cons]
  rw [happend]
  have hleaves := each_unitFlush_leaves m x before s hbefore
  generalize s.each before (State.unitFlush m) = t at hleaves
  have hfirst : t.unitFlush m (s.queueUnit x) = t.flushOne false x := by
    have hunits : (fun e : Nat × Queue => decide (t.queueUnit e.1 = s.queueUnit x)) = fun e => decide (s.queueUnit e.1 = s.queueUnit x) :=
      funext fun e => by rw [queueUnit_of_ports hleaves.ports]
    unfold State.unitFlush
    rw [hunits]
    cases hfind : m.find? fun e => decide (s.queueUnit e.1 = s.queueUnit x) with
    | none => exact absurd (List.find?_eq_none.mp hfind _ hmem) (by simp)
    | some e =>
      have hx := honly e (List.mem_of_find?_eq_some hfind)
        (of_decide_eq_true (List.find?_some (p := fun e : Nat × Queue => decide (s.queueUnit e.1 = s.queueUnit x)) hfind))
      dsimp only
      rw [hx]
  obtain ⟨hl, hports⟩ := flushOne_first (hleaves.flush.trans hflush) (hleaves.onChip c hchip)
  rw [hfirst]
  refine (each_unitFlush_leaves m x after _ ?_).flush.trans hl
  rw [queueUnit_of_ports (hports.trans hleaves.ports)]
  exact hafter

/-! The stalls -/

/-- Steps that each count in a place of their own. -/
theorem stalls_ctr (n : Nat) : ∀ (l : List Nat) (s : State), l.Nodup → (∀ k ∈ l, k < 8) → n < 8 →
    (s.each l fun t n => (t.count 9 n 0).raise (F.PIPE_REP_EVENT_expand_stall n)).ctr (ctrKey 9 n 0)
      = if n ∈ l then (s.ctr (ctrKey 9 n 0) + 1) % 2 ^ 64 else s.ctr (ctrKey 9 n 0) := by
  intro l
  induction l with
  | nil => intro s _ _ _; rw [each_nil, if_neg List.not_mem_nil]
  | cons k l ih =>
    intro s hnodup hlt hn
    rw [List.nodup_cons] at hnodup
    have hcount : ((s.count 9 k 0).raise (F.PIPE_REP_EVENT_expand_stall k)).ctr (ctrKey 9 n 0)
        = if n = k then (s.ctr (ctrKey 9 n 0) + 1) % 2 ^ 64 else s.ctr (ctrKey 9 n 0) := by
      by_cases hk : n = k
      · subst hk
        rw [if_pos rfl]
        exact ctr_setCtr ..
      · rw [if_neg hk]
        exact ctr_setCtr_other s (by unfold ctrKey; omega) _
    rw [each_cons, ih _ hnodup.2 (fun j hj => hlt j (List.mem_cons_of_mem _ hj)) hn, hcount]
    by_cases hk : n = k
    · subst hk
      rw [if_neg hnodup.1, if_pos rfl, if_pos (List.mem_cons_self ..)]
    · rw [if_neg hk]
      simp only [List.mem_cons, hk, false_or]

theorem expandStalls_ctr (s : State) {n : Nat} (hn : n < 8) : s.expandStalls.ctr (ctrKey 9 n 0) =
    if 64 ≤ (s.expandQ n).length then (s.ctr (ctrKey 9 n 0) + 1) % 2 ^ 64 else s.ctr (ctrKey 9 n 0) := by
  unfold State.expandStalls
  rw [stalls_ctr n _ s (List.nodup_range.filter _) (fun k hk => List.mem_range.mp (List.mem_filter.mp hk).1) hn]
  refine ite_congr (propext ?_) (fun _ => rfl) fun _ => rfl
  rw [List.mem_filter, List.mem_range]
  exact ⟨fun h => of_decide_eq_true h.2, fun h => ⟨hn, decide_eq_true h⟩⟩

/-! The cycle's end -/

theorem gapEnds_none {t : State} (h : ∀ g, t.key.gapEnd = some g → t.now < g) : t.gapEnds = t := by
  unfold State.gapEnds
  split
  next g hg => exact if_neg (Nat.not_le.mpr (h g hg))
  · rfl

theorem gapEnds_some {t : State} {g : Nat} (hg : t.key.gapEnd = some g) (h : g ≤ t.now) : t.gapEnds = t.endGap := by
  unfold State.gapEnds
  rw [hg]
  exact if_pos h

theorem resetComes_none {t : State} (h : ∀ r, t.pwr.pendingReset = some r → t.now < r.1) : t.resetComes = t := by
  unfold State.resetComes
  split
  next a c hr => exact if_neg (Nat.not_le.mpr (h (a, c) hr))
  · rfl

theorem resetComes_some {t : State} {r : Nat × Nat} (hr : t.pwr.pendingReset = some r) (h : r.1 ≤ t.now) : t.resetComes = t.sysReset r.2 := by
  unfold State.resetComes
  rw [hr]
  exact if_pos h

theorem fields_of_cycleView {s t : State} (h : t.cycleView = s.cycleView) : t.pwr = s.pwr ∧ t.now = s.now :=
  ⟨(congrArg Prod.fst h :), (congrArg Prod.snd h :)⟩

/-- Settles O17: a core cycle counts, wakes, sweeps and ticks, flushes and stalls, and then ends a gap or begins a reset where one is due. -/
theorem emptyQueuePassesACycle : Obligations.EmptyQueuePassesACycle := by
  refine ⟨fun s hpending hcalm hphase hlog => ?_, fun s => ?_, fun s => cycled_quiet, fun s x c l => flushCycle_releases,
    fun s n hn => expandStalls_ctr s hn, fun s hpending hstopped => ?_⟩
  · intro early
    obtain ⟨hnow, hpwr, hkey⟩ := cycled_fields s
    have hgapEnd : s.cycled.key.gapEnd = s.key.gapEnd := by rw [hkey]; exact (expire_gapEnd s).1
    have hcommit : s.cycled.key.commit = s.key.commit := by rw [hkey]; exact (expire_gapEnd s).2
    have hcycled : s.cycled.Rests (s.key.log.length + 1) := (Rests.clocked (rests_of_calm hcalm) hlog).of_agenda (agenda_cycled s)
    have hcycle := coreCycle_eq hphase hcycled
    have hnoGap : (∀ t, s.key.gapEnd = some t → s.now + 1 < t) → s.cycled.gapEnds = s.cycled := fun h =>
      gapEnds_none fun g hg => by rw [hnow]; exact h g (hgapEnd.symm.trans hg)
    refine ⟨fun hgap hearly => ?_, fun g hgap hreached hearly hqueue => ?_, fun r hreset hreached hgap => ?_⟩
    · refine yields_idle hpending hcalm (hcycle.trans ?_) hcycled
      rw [hnoGap hgap]
      exact resetComes_none fun r hr => by rw [hnow]; exact hearly r (by rw [← hpwr]; exact hr)
    · have hbusy : s.ksBusy = true := by
        unfold State.ksBusy State.inGap
        rw [hgap]
        rfl
      have hrests : s.cycled.Rests s.key.log.length := (Rests.clocked_busy (rests_of_calm hcalm) hbusy).of_agenda (agenda_cycled s)
      obtain ⟨hpwrEnd, hnowEnd⟩ := fields_of_cycleView (cycleView_endGap s.cycled)
      rw [hpwr] at hpwrEnd
      rw [hnow] at hnowEnd
      refine yields_idle hpending hcalm (hcycle.trans ?_) (Rests.endGap hrests (by rw [hcommit]; exact hqueue) hlog)
      rw [gapEnds_some (hgapEnd.trans hgap) (by rw [hnow]; exact hreached)]
      exact resetComes_none fun r hr => by rw [hnowEnd]; exact hearly r (by rw [← hpwrEnd]; exact hr)
    · refine yields_idle hpending hcalm (hcycle.trans ?_) (sysReset_rests ..)
      rw [hnoGap hgap]
      exact resetComes_some (by rw [hpwr]; exact hreset) (by rw [hnow]; exact hreached)
  · obtain ⟨hnow, hports, hkey, hfab, -, hfly⟩ := clocked_fields s
    exact ⟨hnow, hports, hkey, hfab, fun hquiet => ⟨expire_quiet hquiet, clocked_quiet hquiet, hfly⟩⟩
  · unfold step
    rw [hpending]
    exact if_pos hstopped

end Sys2Proof.Machine
end

/-! ### Commands of the host: their end and their wait (R324 to R334, R383) -/

section
namespace Sys2Proof.Machine

/-! The end of a command -/

theorem agenda_logResult (s : State) (seq status : Nat) : (s.logResult seq status).agenda = s.agenda := (rfl)

theorem Rests.writeCompletion {s : State} {n : Nat} (h : s.Rests n) (ring op status tag seq r0 r1 : Nat) :
    (s.writeCompletion ring op status tag seq r0 r1).Rests n :=
  h.of_keep ((Keep.refl s).writeCompletion ring op status tag seq r0 r1) (by rw [writeCompletion_key]; exact h.log)

/-- A command of a ring ends: nothing is due where nothing was beside the command. -/
theorem Rests.complete {t : State} {e : InFlight} {n : Nat} (h : (t.retire e).Rests n) (hring : e.parent = 0) (status r0 r1 : Nat) :
    (t.complete e status r0 r1).Rests n := by
  have hlogged : ∀ ep : Bool, (((t.retire e).doIf ep State.bumpEpoch).logResult e.seq status).Rests n := fun ep =>
    State.Rests.of_agenda (h.doIf ep (h.of_agenda (agenda_bumpEpoch _))) (agenda_logResult ..)
  rw [complete_of_ring t hring]
  split
  · exact hlogged _
  · exact Rests.writeCompletion (hlogged _) ..

theorem key_begun (s : State) (op : Nat) (d : CmdDesc) : (s.begun op d).2.key = s.key := (rfl)

/-- What keeps the state of an accepted command leaves nothing due beside the command. -/
theorem rests_retire_of_keep {s t : State} {op : Nat} {d : CmdDesc} {n : Nat} (hcalm : s.calm = true) (k : Keep (s.begun op d).2 t)
    (hlog : t.key.log.length ≤ n) : (t.retire (s.begun op d).1).Rests n :=
  (rests_of_calm hcalm).of_keep ((keep_begun_retire hcalm op d).trans (k.retire _)) hlog

theorem rests_retire_of_agenda {s t : State} {op : Nat} {d : CmdDesc} (hcalm : s.calm = true) (h : t.agenda = (s.begun op d).2.agenda) :
    (t.retire (s.begun op d).1).Rests s.key.log.length :=
  rests_retire_of_keep hcalm (Keep.of_agenda h) (Nat.le_of_eq ((logLength_of_agenda h).trans
    (congrArg (fun k : Keystone => k.log.length) (key_begun s op d))))

/-- A body that neither is a Keystone's work nor is recorded as its input. -/
theorem runBody_plain {s : State} {c : CmdDef} {e : InFlight} (hbound : keystoneBound e.opcode = false) (hinput : keystoneInput e.opcode = false) :
    s.runBody c e = (c.body e s).2.answer e (c.body e s).1 := by
  unfold State.runBody
  rw [hbound, hinput]
  rfl

theorem answer_done (t : State) (e : InFlight) (st r0 r1 : Nat) : t.answer e (.done st r0 r1) = t.complete e st r0 r1 := (rfl)

/-- The effect of an accepted command. -/
theorem exec_of_accepts {i : Instr} {s : State} {op : Nat} {d : CmdDesc} (hexec : exec i s = run (fun t => t.takeCommand (cmdOf op) op d) s)
    (h : s.accepts op d = true) : exec i s = .next (State.conclude s ((s.begun op d).2.runBody (cmdOf op) (s.begun op d).1)) := by
  rw [hexec, run_calm (calm_of_reaches (reaches_of_accepts h)), takeCommand_of_accepts h]

/-- The outcome of an accepted command that leaves nothing due. -/
theorem takes_of_accepts {i : Instr} {s u : State} {op n : Nat} {d : CmdDesc} (hexec : exec i s = run (fun t => t.takeCommand (cmdOf op) op d) s)
    (h : s.accepts op d = true) (heffect : (s.begun op d).2.runBody (cmdOf op) (s.begun op d).1 = u) (hrests : u.Rests n) : Takes i s u :=
  takes_intro (by rw [exec_of_accepts hexec h, heffect])
    (due_parts u hrests.queue hrests.flight hrests.rings hrests.group hrests.due hrests.fenced) hrests.raised

/-- An accepted command that ends at once. -/
theorem takes_ended {i : Instr} {s : State} {op st r0 r1 n : Nat} {d : CmdDesc} {f : State → State}
    (hexec : exec i s = run (fun t => t.takeCommand (cmdOf op) op d) s) (h : s.accepts op d = true)
    (hbound : keystoneBound op = false) (hinput : keystoneInput op = false)
    (hbody : (cmdOf op).body (s.begun op d).1 (s.begun op d).2 = (.done st r0 r1, f (s.begun op d).2))
    (hrests : ((f (s.begun op d).2).retire (s.begun op d).1).Rests n) : Takes i s (s.ended op d f st r0 r1) := by
  refine takes_of_accepts hexec h ?_ (Rests.complete hrests rfl st r0 r1)
  rw [runBody_plain hbound hinput, hbody]
  exact answer_done ..

/-- An accepted Keystone command that ends at once, logged as an input. -/
theorem takes_ended_logged {i : Instr} {s : State} {op st r0 r1 n : Nat} {d : CmdDesc} {f : State → State}
    (hexec : exec i s = run (fun t => t.takeCommand (cmdOf op) op d) s) (h : s.accepts op d = true)
    (hfree : s.ksBusy = false) (hinput : keystoneInput op = true)
    (hbody : (cmdOf op).body (s.begun op d).1 (s.begun op d).2 = (.done st r0 r1, f (s.begun op d).2))
    (hrests : ((f (s.begun op d).2).retire (s.begun op d).1).Rests n) (hn : n < 767) :
    Takes i s ((s.ended op d f st r0 r1).ksLog .command) := by
  have hended := Rests.complete hrests rfl st r0 r1
  refine takes_of_accepts hexec h ?_ (hended.ksLog .command hn)
  have hinput' : keystoneInput (s.begun op d).1.opcode = true := hinput
  unfold State.runBody
  rw [begun_ksBusy, hfree, Bool.and_false, if_neg Bool.false_ne_true, hbody]
  dsimp only
  rw [hinput']
  rfl

/-! The wait of a command -/

/-- Nothing is due from state `s` but its events, one command `e` being in flight. -/
structure State.Holds (s : State) (e : InFlight) (n : Nat) : Prop where
  queue : s.key.ks.queue = []
  flight : s.hif.inflight = [e]
  fenced : s.hif.fenced = []
  rings : (s.hif.rings.all fun x => !x.2.stopping) = true
  group : s.groupTested = 0 ∨ s.dev ≠ .safeHold
  due : s.key.logDue = false
  raised : ∀ x ∈ s.raised, guardReg x.1 = false
  log : s.key.log.length ≤ n

/-- A wait that nothing ends at once. -/
def State.stays (s : State) (e : InFlight) : Prop :=
  (e.wait = .flush → s.flushPending e.seq = true) ∧ s.bundleDue e = false ∧ s.upLost e.wait = false ∧ e.wait ≠ .security

theorem Holds.tailDue {s : State} {e : InFlight} {n : Nat} (h : s.Holds e n) (hstays : s.stays e) : s.tailDue = false := by
  obtain ⟨hflush, hbundle, hup, hsecurity⟩ := hstays
  have hrings : (s.hif.rings.any fun x => x.2.stopping && (s.runningOn x.1).isEmpty) = false := by
    rw [List.any_eq_false]
    intro x hx
    have hx' := List.all_eq_true.mp h.rings x hx
    simp at hx'
    simp [hx']
  have hflushed : (decide (e.wait = .flush) && !s.flushPending e.seq) = false := by
    by_cases hw : e.wait = .flush
    · rw [hflush hw, Bool.not_true, Bool.and_false]
    · rw [decide_eq_false hw, Bool.false_and]
  have hgroup : (decide (s.dev = .safeHold) && decide (s.groupTested ≠ 0)) = false := by
    rcases h.group with hg | hg
    · rw [hg, Bool.and_comm]; rfl
    · rw [decide_eq_false hg, Bool.false_and]
  have hleave : s.leaveHead = none := by unfold State.leaveHead; rw [h.queue]; rfl
  have hunit : s.unitNext = none := by
    unfold State.unitNext
    rw [h.flight, List.find?_cons, decide_eq_false hsecurity]
    rfl
  unfold State.tailDue
  rw [hleave, hunit, h.flight, h.fenced, hrings, hgroup, h.due]
  simp [hflushed, hbundle, hup]

theorem Holds.of_keep {s t : State} {e : InFlight} {n m : Nat} (h : s.Holds e n) (k : Keep s t) (hdev : t.dev = s.dev) (hlog : t.key.log.length ≤ m) :
    t.Holds e m :=
  ⟨k.queue.trans h.queue, k.flight.trans h.flight, k.fenced.trans h.fenced, k.rings h.rings,
    h.group.imp (fun hg => (groupTested_reg k.group).trans hg) (fun hd => by rw [hdev]; exact hd), k.log.trans h.due,
    fun x hx => (k.raised x hx).elim (h.raised x) id, hlog⟩

/-- The command in flight waits. -/
theorem Holds.answer {t : State} {e : InFlight} {n : Nat} (h : t.Holds e n) (w : Wait) : (t.answer e (.wait w)).Holds { e with wait := w } n := by
  have hflight : (t.answer e (.wait w)).hif.inflight = [{ e with wait := w }] := by
    unfold State.answer
    refine (congrArg (List.map fun f => if f.seq = e.seq then { f with wait := w } else f) h.flight).trans ?_
    rw [List.map_cons, if_pos rfl]
    rfl
  exact { h with flight := hflight }

/-- An accepted command is the one in flight. -/
theorem begun_holds {s : State} (hcalm : s.calm = true) (op : Nat) (d : CmdDesc) : (s.begun op d).2.Holds (s.begun op d).1 s.key.log.length := by
  have k := keep_taking s d
  have h := rests_of_calm hcalm
  have hgroup : (s.taking d).groupTested = 0 := (groupTested_reg k.group).trans h.group
  refine ⟨k.queue.trans h.queue, ?_, k.fenced.trans h.fenced, k.rings h.rings, .inl hgroup, k.log.trans h.due,
    fun x hx => (k.raised x hx).elim (h.raised x) id, Nat.le.refl⟩
  have hflown : (s.begun op d).2.hif.inflight = (s.taking d).hif.inflight ++ [(s.begun op d).1] := rfl
  rw [hflown, k.flight, h.flight, List.nil_append]

/-- The outcome of an accepted command that waits. -/
theorem takes_waits_of {i : Instr} {s u : State} {op n : Nat} {d : CmdDesc} {e : InFlight}
    (hexec : exec i s = run (fun t => t.takeCommand (cmdOf op) op d) s) (h : s.accepts op d = true)
    (heffect : (s.begun op d).2.runBody (cmdOf op) (s.begun op d).1 = u) (hholds : u.Holds e n) (hstays : u.stays e) : Takes i s u :=
  takes_intro (by rw [exec_of_accepts hexec h, heffect]) (Holds.tailDue hholds hstays) hholds.raised

theorem takes_waits {i : Instr} {s : State} {op n : Nat} {d : CmdDesc} {f : State → State} {w : Wait}
    (hexec : exec i s = run (fun t => t.takeCommand (cmdOf op) op d) s) (h : s.accepts op d = true)
    (hbound : keystoneBound op = false) (hinput : keystoneInput op = false)
    (hbody : (cmdOf op).body (s.begun op d).1 (s.begun op d).2 = (.wait w, f (s.begun op d).2))
    (hholds : (f (s.begun op d).2).Holds (s.begun op d).1 n) (hstays : (s.waits op d f w).stays { (s.begun op d).1 with wait := w }) :
    Takes i s (s.waits op d f w) := by
  refine takes_waits_of hexec h ?_ (Holds.answer hholds w) hstays
  rw [runBody_plain hbound hinput, hbody]
  unfold State.waits
  dsimp only

/-! The commands of the host interface -/

theorem fldOf_lt (w : Word) (lo width : Nat) : fldOf w lo width < 2 ^ width := Nat.mod_lt _ (Nat.two_pow_pos width)

theorem ownerFn_lt (s : State) (r : Nat) : s.ownerFn r < 16 := fldOf_lt _ _ 4

theorem dev_latch (s : State) (periodic command : Bool) : (s.latch periodic command).dev = s.dev := (rfl)
theorem keyLog_latch (s : State) (periodic command : Bool) : (s.latch periodic command).key = s.key := (rfl)

/-- A command that writes its output block, or ends with an error of host memory. -/
theorem takes_output {i : Instr} {s : State} {op r0 r1 : Nat} {d : CmdDesc} (l : State → List Byte)
    (hexec : exec i s = run (fun t => t.takeCommand (cmdOf op) op d) s) (h : s.accepts op d = true)
    (hbound : keystoneBound op = false) (hinput : keystoneInput op = false)
    (hbody : (cmdOf op).body (s.begun op d).1 (s.begun op d).2 = (s.begun op d).2.output d (l (s.begun op d).2) r0 r1) :
    (d.memErr = false → Takes i s (s.ended op d (fun t => t.hostWrite d.argAddr (l t)) 0 r0 r1))
    ∧ (d.memErr = true → Takes i s (s.ended op d (fun t => t) 0x0E 0 0)) := by
  have hcalm := calm_of_reaches (reaches_of_accepts h)
  refine ⟨fun hmem => ?_, fun hmem => ?_⟩
  · refine takes_ended (n := s.key.log.length) hexec h hbound hinput ?_ (rests_retire_of_keep hcalm ((Keep.refl _).hostWrite _ _) ?_)
    · rw [hbody]
      unfold State.output
      rw [hmem]
      rfl
    · exact Nat.le_of_eq (congrArg (fun k : Keystone => k.log.length) (key_hostWrite _ _ _))
  · refine takes_ended (n := s.key.log.length) (f := fun t => t) hexec h hbound hinput ?_ (rests_retire_of_agenda hcalm rfl)
    rw [hbody]
    unfold State.output
    rw [hmem]
    rfl

/-- The entries that a READ_LOG answers. -/
def State.logAsked (t : State) (d : CmdDesc) : List LogEntry := (t.hif.log.filter fun x => decide (argLe d 24 6 ≤ x.seq)).take (argLe d 32 4)

theorem readLog_body {e : InFlight} {d : CmdDesc} (h : e.desc = d) (t : State) : (cmdOf 0x31).body e t =
    t.output d ((t.logAsked d).flatMap logBytes) (((t.logAsked d).head?.map LogEntry.seq).getD 0) (t.logAsked d).length := by
  subst h
  rfl

/-- Settles O48: each of these commands runs its body at once, and ends or waits. -/
theorem hostCommands : Obligations.HostCommands := by
  intro s d
  have hversion : ∀ (t : State) (v o : Nat),
      ((t.setF (F.HIF_FN_VERSION_version (s.ownerFn d.ring)) v).setF (F.HIF_FN_VERSION_open (s.ownerFn d.ring)) o).agenda = t.agenda := fun t v o =>
    (agenda_setF _ _ (fnVersion_ne_plb (ownerFn_lt s d.ring))).trans (agenda_setF _ _ (fnVersion_ne_plb (ownerFn_lt s d.ring)))
  have hfn : ∀ op : Nat, (s.begun op d).1.fn = s.ownerFn d.ring := fun op => rfl
  have hstate : ∀ h : s.accepts 4 d = true, _ := fun h =>
    takes_output (i := .getState d) (r0 := 0) (r1 := 0) (fun t => t.stateBlock (s.ownerFn d.ring)) rfl h (by decide) (by decide) rfl
  have htable : ∀ h : s.accepts 0x20 d = true, _ := fun h =>
    takes_output (i := .tableRead d) (r0 := min (argLe d 32 4) (262144 - argLe d 28 4)) (r1 := 0)
      (fun _ => (List.range (min (argLe d 32 4) (262144 - argLe d 28 4))).flatMap fun i =>
        wayBytes (argLe d 28 4 + i) ((s.tab (argLe d 24 1)).way (argLe d 28 4 + i))) rfl h (by decide) (by decide) rfl
  have hfaults : ∀ h : s.accepts 0x30 d = true, _ := fun h =>
    takes_output (i := .readFaultRecord d) (r0 := s.mram.faults.length) (r1 := 0)
      (fun _ => s.mram.faults.reverse.flatMap faultBytes) rfl h (by decide) (by decide) rfl
  have hlog : ∀ h : s.accepts 0x31 d = true, _ := fun h =>
    takes_output (i := .readLog d) (fun _ => ((s.begun 0x31 d).2.logAsked d).flatMap logBytes) rfl h (by decide) (by decide)
      (readLog_body rfl (s.begun 0x31 d).2)
  refine ⟨fun h => ?_, fun code h hcode hne => takes_reject rfl h hcode hne, fun h => ?_, fun h => ?_, fun h hmem => (hstate h).1 hmem,
    fun h hmem => (htable h).1 hmem, fun h hmem => (hfaults h).1 hmem, fun h hmem => (hlog h).1 hmem,
    fun hmem => ⟨fun h => (hstate h).2 hmem, fun h => (htable h).2 hmem, fun h => (hfaults h).2 hmem, fun h => (hlog h).2 hmem⟩,
    fun h hfree => ?_⟩
  · exact takes_ended (f := fun t => t) rfl h (by decide) (by decide) rfl (rests_retire_of_agenda (calm_of_reaches (reaches_of_accepts h)) rfl)
  · have hcalm := calm_of_reaches (reaches_of_accepts h)
    have hbody : (cmdOf 1).body (s.begun 1 d).1 (s.begun 1 d).2 = (s.begun 1 d).2.openBody (s.begun 1 d).1 := rfl
    intro f
    cases hchosen : chosenVersion f (argLe d 24 2) (argLe d 26 2) with
    | none =>
      refine takes_ended (f := fun t => t) rfl h (by decide) (by decide) (hbody.trans ?_) (rests_retire_of_agenda hcalm rfl)
      unfold State.openBody
      rw [hfn, show (s.begun 1 d).1.desc = d from rfl, hchosen]
      rfl
    | some v =>
      refine takes_ended (f := fun t => (t.setF (F.HIF_FN_VERSION_version f) v).setF (F.HIF_FN_VERSION_open f) 1) rfl h (by decide) (by decide)
        (hbody.trans ?_) (rests_retire_of_agenda hcalm (hversion _ v 1))
      unfold State.openBody
      rw [hfn, show (s.begun 1 d).1.desc = d from rfl, hchosen]
  · have hcalm := calm_of_reaches (reaches_of_accepts h)
    intro f
    exact takes_ended (f := fun t => (t.setF (F.HIF_FN_VERSION_version f) 0).setF (F.HIF_FN_VERSION_open f) 0) rfl h (by decide) (by decide) rfl
      (rests_retire_of_agenda hcalm (hversion _ 0 0))
  · have hcalm := calm_of_reaches (reaches_of_accepts h)
    have hbody : (cmdOf 0x70).body (s.begun 0x70 d).1 (s.begun 0x70 d).2 = (.wait .snapshot, (s.begun 0x70 d).2.latch false true) := by
      show (s.begun 0x70 d).2.snapshotBody = _
      unfold State.snapshotBody
      rw [show (s.begun 0x70 d).2.snap = s.snap from rfl, hfree]
      rfl
    have hholds := Holds.of_keep (begun_holds hcalm 0x70 d) (Keep.of_agenda (agenda_latch _ false true)) (dev_latch _ false true)
      (m := s.key.log.length) (Nat.le_of_eq (by rw [keyLog_latch, key_begun]))
    exact takes_waits (f := fun t => t.latch false true) rfl h (by decide) (by decide) hbody hholds
      ⟨fun hw => Wait.noConfusion hw, rfl, rfl, fun hw => Wait.noConfusion hw⟩

end Sys2Proof.Machine
end

/-! ### Commands that change power (R389 to R401, R430) -/

section
namespace Sys2Proof.Machine

/-! What acceptance shows, and what it leaves -/

/-- A chain of checks that finds nothing: the first one does not, and neither does what follows it. -/
theorem of_ite_eq_zero {c : Prop} [Decidable c] {k r : Nat} (h : (if c then k + 1 else r) = 0) : ¬ c ∧ r = 0 := by
  by_cases hc : c
  · rw [if_pos hc] at h
    exact absurd h (Nat.succ_ne_zero k)
  · rw [if_neg hc] at h
    exact ⟨hc, h⟩

/-- An accepted command is legal in the device's state, and its arguments and its busy check pass (R327). -/
theorem accepts_parts {s : State} {op : Nat} {d : CmdDesc} {i : CmdInfo} (hinfo : cmdInfo op = some i) (h : s.accepts op d = true) :
    s.dev.code ∈ i.legal ∧ (cmdOf op).args d (s.taking d) = 0 ∧ (cmdOf op).busy d (s.taking d) = 0 := by
  obtain ⟨-, hcheck⟩ := (Bool.and_eq_true _ _).mp h
  have hcheck := of_decide_eq_true hcheck
  have hdev : (s.taking d).dev = s.dev := rfl
  unfold State.checkCommand at hcheck
  rw [hinfo] at hcheck
  dsimp only at hcheck
  obtain ⟨-, hversion⟩ := of_ite_eq_zero hcheck
  obtain ⟨-, hpermitted⟩ := of_ite_eq_zero hversion
  obtain ⟨-, hlegal⟩ := of_ite_eq_zero hpermitted
  obtain ⟨hcode, hargs⟩ := of_ite_eq_zero hlegal
  have hzero : (cmdOf op).args d (s.taking d) = 0 := Decidable.byContradiction fun hne => hne ((if_pos hne).symm.trans hargs)
  obtain ⟨-, hbusy⟩ := of_ite_eq_zero ((if_neg (not_not_intro hzero)).symm.trans hargs)
  exact ⟨hdev ▸ Classical.not_not.mp hcode, hzero, hbusy⟩

/-- The commands that change power are legal in CONFIG, READY and DEGRADED alone. -/
theorem dev_of_accepts {s : State} {op : Nat} {d : CmdDesc} {i : CmdInfo} (hinfo : cmdInfo op = some i) (hlegal : i.legal = [1, 2, 3])
    (h : s.accepts op d = true) : s.dev ≠ .parking ∧ s.dev ≠ .off ∧ s.dev ≠ .safeHold := by
  obtain ⟨hmem, -, -⟩ := accepts_parts hinfo h
  rw [hlegal] at hmem
  refine ⟨?_, ?_, ?_⟩ <;> intro hdev <;> rw [hdev] at hmem <;> exact absurd hmem (by decide)

/-- Acceptance changes the head of the command's ring and no other register. -/
theorem begun_reg (s : State) (op : Nat) (d : CmdDesc) {a : Nat} (h : a % 0x20 ≠ 0x10) : (s.begun op d).2.reg a = s.reg a := taking_reg s d h

theorem begun_getF (s : State) (op : Nat) (d : CmdDesc) {f : Fld} (h : f.addr % 0x20 ≠ 0x10) : (s.begun op d).2.getF f = s.getF f := by
  unfold State.getF
  rw [begun_reg s op d h]

theorem begun_getB (s : State) (op : Nat) (d : CmdDesc) {f : Fld} (h : f.addr % 0x20 ≠ 0x10) : (s.begun op d).2.getB f = s.getB f := by
  unfold State.getB
  rw [begun_getF s op d h]

theorem begun_requires (s : State) (op : Nat) (d : CmdDesc) (x : Nat) : (s.begun op d).2.requires x = s.requires x := (rfl)

theorem begun_pwr (s : State) (op : Nat) (d : CmdDesc) : (s.begun op d).2.pwr = s.pwr := (rfl)

theorem begun_part (s : State) (op : Nat) (d : CmdDesc) : (s.begun op d).2.part = s.part := (rfl)

theorem begun_dev (s : State) (op : Nat) (d : CmdDesc) : (s.begun op d).2.dev = s.dev := (rfl)

/-- The permanent charges follow the domains that are on or rising. -/
theorem permanent_congr {s t : State} (hon : ∀ x, t.domainOn x = s.domainOn x) (hrising : t.pwr.rising = s.pwr.rising) (hpart : t.part = s.part) :
    t.permanent = s.permanent := by
  unfold State.permanent
  simp only [hon, hrising, hpart]

theorem begun_permanent (s : State) (op : Nat) (d : CmdDesc) : (s.begun op d).2.permanent = s.permanent :=
  permanent_congr (begun_domainOn s op d) rfl rfl

theorem begun_transient (s : State) (op : Nat) (d : CmdDesc) : (s.begun op d).2.transient = s.transient := (rfl)

theorem begun_budget (s : State) (op : Nat) (d : CmdDesc) : (s.begun op d).2.budget = s.budget :=
  begun_getF s op d (f := F.PWR_BUDGET_budget) (by decide)

theorem begun_dependants (s : State) (op : Nat) (d : CmdDesc) (x : Nat) : (s.begun op d).2.dependants x = s.dependants x := by
  unfold State.dependants
  dsimp only
  simp only [begun_domainOn, begun_pwr]
  rfl

theorem begun_offRefusal (s : State) (op : Nat) (d : CmdDesc) (x : Nat) : (s.begun op d).2.offRefusal x = s.offRefusal x := by
  unfold State.offRefusal
  rw [begun_getB s op d (f := F.EPH_CTRL_meridian_en) (by decide)]
  rfl

/-! The decision on a request for leave -/

/-- Outside the states of reason 8 a request is decided by its domains and the budget. -/
theorem leaveClosed_eq_false {s : State} (hfault : s.key.doubleFault = false) (hdev : s.dev ≠ .parking ∧ s.dev ≠ .off ∧ s.dev ≠ .safeHold)
    (g : Grant) : s.leaveClosed g = false := by
  obtain ⟨hparking, hoff, -⟩ := hdev
  unfold State.leaveClosed
  rw [hfault, decide_eq_false hparking, decide_eq_false hoff]
  rfl

theorem decideLeave_granted {s : State} {g : Grant} (hclosed : s.leaveClosed g = false)
    (hdomains : g.requester < 2 → (s.requires g.key).all s.domainOn = true) (hfits : s.permanent + s.transient + g.cost ≤ s.budget) :
    s.decideLeave g 0 = .granted := by
  unfold State.decideLeave
  rw [if_neg (by rw [hclosed]; decide), if_neg (fun ⟨hreq, hoff⟩ => by rw [hdomains hreq] at hoff; exact absurd hoff (by decide)),
    if_neg (by omega), if_pos ⟨hfits, rfl⟩]

theorem decideLeave_dependency {s : State} {g : Grant} (hclosed : s.leaveClosed g = false) (hreq : g.requester < 2)
    (hdomains : (s.requires g.key).all s.domainOn = false) : s.decideLeave g 0 = .refused 4 := by
  unfold State.decideLeave
  rw [if_neg (by rw [hclosed]; decide), if_pos ⟨hreq, by rw [hdomains]; rfl⟩]

theorem decideLeave_never {s : State} {g : Grant} (hclosed : s.leaveClosed g = false)
    (hdomains : g.requester < 2 → (s.requires g.key).all s.domainOn = true) (hover : s.budget < s.permanent + g.cost) :
    s.decideLeave g 0 = .refused 5 := by
  unfold State.decideLeave
  rw [if_neg (by rw [hclosed]; decide), if_neg (fun ⟨hreq, hoff⟩ => by rw [hdomains hreq] at hoff; exact absurd hoff (by decide)), if_pos hover]

/-! Power-down -/

theorem powerDown_done {s : State} {x : Nat} (hfault : s.key.doubleFault = false) (hdev : s.dev ≠ .parking)
    (h : ∀ y ∈ s.dependants x ++ [x], s.offRefusal y = 0) : s.powerDown x = (0, s.each (s.dependants x ++ [x]) State.switchOff) := by
  have hfind : ((s.dependants x ++ [x]).find? fun y => decide (s.offRefusal y ≠ 0)) = none :=
    List.find?_eq_none.mpr fun y hy => by rw [h y hy]; decide
  unfold State.powerDown State.offPlan
  dsimp only
  rw [hfind, hfault, decide_eq_false hdev]
  exact if_neg fun hne => hne rfl

theorem powerDown_refused {s : State} {x y : Nat} {l r : List Nat} (hfault : s.key.doubleFault = false) (hdev : s.dev ≠ .parking)
    (hlist : s.dependants x ++ [x] = l ++ y :: r) (hbefore : ∀ z ∈ l, s.offRefusal z = 0) (hne : s.offRefusal y ≠ 0) :
    s.powerDown x = (s.offRefusal y, s.noteRefusal 0 x (chargeOf s.part x) (s.offRefusal y)) := by
  have hfind : ((s.dependants x ++ [x]).find? fun y => decide (s.offRefusal y ≠ 0)) = some y := by
    rw [hlist, List.find?_append, List.find?_eq_none.mpr (fun z hz => by rw [hbefore z hz]; decide), Option.none_or, List.find?_cons,
      decide_eq_true hne]
  unfold State.powerDown State.offPlan
  dsimp only
  rw [hfind, hfault, decide_eq_false hdev]
  exact if_pos hne

theorem refusalCode_offRefusal {s : State} {y : Nat} : refusalCode (s.offRefusal y) = 7 := by
  have hle : s.offRefusal y ≤ 3 := by
    unfold State.offRefusal
    split
    · decide
    · split
      · decide
      · split
        · decide
        · split <;> decide
  exact if_pos hle

/-! PARK -/

theorem Mild.retire {s t : State} (k : Mild s t) (e : InFlight) : Mild (s.retire e) (t.retire e) :=
  ⟨k.queue, (congrArg (List.filter _) k.flight).trans rfl, k.rings, k.group, k.raised, k.due, k.fenced, k.log⟩

theorem agenda_withdrawAct (s : State) : s.withdrawAct.agenda = s.agenda := by
  unfold State.withdrawAct
  split
  · rfl
  · rw [agenda_setF _ _ (by decide), agenda_allKs _ _ rfl]
    rfl

/-- The pipelines and the Meridian plane forward no longer. -/
def State.forwardsNone (s : State) : State := (s.each (List.range 8) fun u n => u.setTmr (F.PIPE_CTRL_fwd_en n) 0).setTmr F.EPH_CTRL_meridian_en 0

theorem agenda_forwardsNone (s : State) : s.forwardsNone.agenda = s.agenda := by
  unfold State.forwardsNone
  rw [agenda_setTmr _ _ (by decide), agenda_each]
  intro t n hn
  have hlt := List.mem_range.mp hn
  refine agenda_setTmr _ _ ?_
  unfold F.PIPE_CTRL_fwd_en Addr.PIPE_CTRL Addr.PLB_STATUS
  dsimp only
  omega

/-! The wait of a Keystone command -/

theorem ksLog_dev (s : State) (kind : LogKind) : (s.ksLog kind).dev = s.dev := by
  unfold State.ksLog
  split
  · rfl
  · dsimp only
    split <;> rfl

theorem Holds.ksLog {s : State} {e : InFlight} {n : Nat} (h : s.Holds e n) (kind : LogKind) (hn : n < 767) : (s.ksLog kind).Holds e (n + 1) :=
  Holds.of_keep h ((Keep.refl s).ksLog kind (Nat.lt_of_le_of_lt h.log hn)) (ksLog_dev s kind)
    (Nat.le_trans (State.Rests.ksLog_length s kind) (Nat.succ_le_succ h.log))

theorem Holds.of_agenda {s t : State} {e : InFlight} {n : Nat} (h : s.Holds e n) (ha : t.agenda = s.agenda) : t.Holds e n :=
  Holds.of_keep h (Keep.of_agenda ha) (dev_of_agenda ha) (logLength_of_agenda ha ▸ h.log)

/-- An accepted Keystone command that waits, logged as an input. -/
theorem takes_waits_logged {i : Instr} {s : State} {op n : Nat} {d : CmdDesc} {f : State → State} {w : Wait}
    (hexec : exec i s = run (fun t => t.takeCommand (cmdOf op) op d) s) (h : s.accepts op d = true)
    (hfree : s.ksBusy = false) (hinput : keystoneInput op = true)
    (hbody : (cmdOf op).body (s.begun op d).1 (s.begun op d).2 = (.wait w, f (s.begun op d).2))
    (hholds : (f (s.begun op d).2).Holds (s.begun op d).1 n) (hn : n < 767)
    (hstays : ((s.waits op d f w).ksLog .command).stays { (s.begun op d).1 with wait := w }) :
    Takes i s ((s.waits op d f w).ksLog .command) := by
  refine takes_waits_of hexec h ?_ (Holds.ksLog (Holds.answer hholds w) .command hn) hstays
  have hinput' : keystoneInput (s.begun op d).1.opcode = true := hinput
  unfold State.runBody
  rw [begun_ksBusy, hfree, Bool.and_false, if_neg Bool.false_ne_true, hbody]
  dsimp only
  rw [hinput']
  rfl

theorem ksLog_rising (s : State) (kind : LogKind) : (s.ksLog kind).pwr = s.pwr := by
  unfold State.ksLog
  split
  · rfl
  · dsimp only
    split <;> rfl

/-- A power-up that has begun is not lost. -/
theorem upLost_of_rising {s : State} {x : Nat} (h : x ∈ s.pwr.rising) : s.upLost (.domainOn x) = false := by
  unfold State.upLost
  dsimp only
  rw [decide_eq_true h, Bool.not_true, Bool.and_false]

/-! The bodies -/

/-- A group that is tested has a number. -/
theorem groupStart_holds {s : State} {e : InFlight} {n g : Nat} (h : s.Holds e n) (hdev : s.dev ≠ .safeHold) : (s.groupStart g).Holds e n := by
  have hdown : (s.each ((domainPorts g).filter s.portExists) fun t p => t.portDown p true).agenda = s.agenda :=
    agenda_each _ _ _ fun t p _ => agenda_portDown t p true
  have h1 := Holds.of_agenda h hdown
  unfold State.groupStart
  exact { h1 with group := .inr (by rw [← dev_of_agenda hdown] at hdev; exact hdev) }

theorem powerBody_granted {s : State} {x : Nat} (hoff : s.domainOn x = false) (hrising : x ∉ s.pwr.rising) (hbusy : s.ksBusy = false)
    (hqueue : s.key.ks.queue = []) (h : s.decideLeave ⟨0, x, chargeOf s.part x⟩ 0 = .granted) :
    s.powerBody x 1 = (.wait (.domainOn x), State.ksLog { s with pwr := { s.pwr with rising := s.pwr.rising ++ [x] } } .power) := by
  unfold State.powerBody
  rw [if_pos rfl, hoff, if_neg Bool.false_ne_true, askPowerUp_of_down hrising, askLeave_granted hbusy hqueue h]
  rfl

theorem powerBody_refused {s : State} {x r : Nat} (hoff : s.domainOn x = false) (hrising : x ∉ s.pwr.rising) (hbusy : s.ksBusy = false)
    (hqueue : s.key.ks.queue = []) (h : s.decideLeave ⟨0, x, chargeOf s.part x⟩ 0 = .refused r) :
    s.powerBody x 1 = (.fail (refusalCode r), (s.noteRefusal 0 x (chargeOf s.part x) r).ksLog .power) := by
  unfold State.powerBody
  rw [if_pos rfl, hoff, if_neg Bool.false_ne_true, askPowerUp_of_down hrising, askLeave_refused hbusy hqueue h]
  rfl

theorem powerBody_off {s : State} {x : Nat} (hon : s.domainOn x = true) : s.powerBody x 0 =
    (if (s.powerDown x).1 = 0 then .ok else .fail (refusalCode (s.powerDown x).1), (s.powerDown x).2) := by
  unfold State.powerBody
  rw [if_neg (by decide), hon]
  rfl

theorem groupBody_granted {s : State} {g : Nat} (hbusy : s.ksBusy = false) (hqueue : s.key.ks.queue = [])
    (h : s.decideLeave (groupLeave g) 0 = .granted) : s.groupBody g =
      (.wait (.group g), ((s.setKs fun k => { k with grants := k.grants ++ [groupLeave g] }).ksLog .power).groupStart g) := by
  unfold State.groupBody
  rw [askLeave_granted hbusy hqueue h]
  rfl

/-- A command whose arguments fail, the checks before them passing, is rejected with their code (R327 step 6). -/
theorem checkCommand_of_args {s : State} {op fn : Nat} {d : CmdDesc} {i : CmdInfo} (hinfo : cmdInfo op = some i) (hclean : descClean d = true)
    (hversion : op ≠ 1 → s.fnOpen fn = true ∧ i.since ≤ s.fnVersion fn) (hpermitted : s.cmdPermitted i fn d = true)
    (hlegal : s.dev.code ∈ i.legal) (hargs : (cmdOf op).args d s ≠ 0) : s.checkCommand (cmdOf op) op fn d = (cmdOf op).args d s := by
  unfold State.checkCommand
  rw [hinfo]
  dsimp only
  rw [if_neg (by rw [hclean]; decide), if_neg, if_neg (by rw [hpermitted]; decide), if_neg fun hnot => hnot hlegal, if_pos hargs]
  rintro ⟨hop, hnot⟩
  obtain ⟨hopen, hsince⟩ := hversion hop
  rcases hnot with hclosed | hold
  · rw [hopen] at hclosed
    exact absurd hclosed (by decide)
  · omega

theorem legal_of_dev {s : State} (h : s.dev = .config ∨ s.dev = .ready ∨ s.dev = .degraded) : s.dev.code ∈ [1, 2, 3] := by
  rcases h with h | h | h <;> rw [h] <;> decide

theorem budgetArgs_eq (s : State) (d : CmdDesc) : (cmdOf 0x40).args d s = if 210 ≤ argLe d 24 4 ∧ argLe d 24 4 ≤ 10000 then 0 else 2 := by
  show (if argLe d 24 4 < 210 ∨ 10000 < argLe d 24 4 then 0x02 else 0) = _
  by_cases h : 210 ≤ argLe d 24 4 ∧ argLe d 24 4 ≤ 10000
  · rw [if_pos h, if_neg (by omega)]
  · rw [if_neg h, if_pos (by omega)]

theorem setBudget_eq (t : State) {v n : Nat} (h : t.permanent + t.transient = n) :
    t.setBudget v = (t.setF F.PWR_BUDGET_budget v).raiseIf (decide (v < n)) F.PWR_EVENT_over_budget := by
  have hreg : ∀ a, a ≠ Addr.PWR_BUDGET → (t.setF F.PWR_BUDGET_budget v).reg a = t.reg a := fun a ha => reg_setReg_other t ha _
  have hsum : (t.setF F.PWR_BUDGET_budget v).permanent = t.permanent :=
    permanent_congr (domainOn_of_reg (hreg _ (by decide)) (hreg _ (by decide))) rfl rfl
  unfold State.setBudget
  dsimp only
  rw [hsum, show (t.setF F.PWR_BUDGET_budget v).transient = t.transient from rfl, h]

/-- SET_POWER_BUDGET sets the budget. -/
theorem setPowerBudget {s : State} {d : CmdDesc} (h : s.accepts 0x40 d = true) (hfree : s.ksBusy = false) (hlog : s.key.log.length < 766) :
    Takes (.setPowerBudget d) s ((s.ended 0x40 d (fun t => (t.setF F.PWR_BUDGET_budget (argLe d 24 4)).raiseIf
      (decide (argLe d 24 4 < s.permanent + s.transient)) F.PWR_EVENT_over_budget) 0 0 0).ksLog .command) := by
  have hsum : (s.begun 0x40 d).2.permanent + (s.begun 0x40 d).2.transient = s.permanent + s.transient := by
    rw [begun_permanent, begun_transient]
  have hbody : (cmdOf 0x40).body (s.begun 0x40 d).1 (s.begun 0x40 d).2 = (.ok, (s.begun 0x40 d).2.setBudget (argLe d 24 4)) := rfl
  rw [setBudget_eq _ hsum] at hbody
  refine takes_ended_logged rfl h hfree (by decide) hbody
    (rests_retire_of_agenda (t := ((s.begun 0x40 d).2.setF F.PWR_BUDGET_budget (argLe d 24 4)).raiseIf
      (decide (argLe d 24 4 < s.permanent + s.transient)) F.PWR_EVENT_over_budget) (calm_of_reaches (reaches_of_accepts h)) ?_) (by omega)
  rw [agenda_raiseIf _ _ (by decide), agenda_setF _ _ (by decide)]

/-- POWER_DOMAIN to on. -/
theorem powerDomain_on {s : State} {d : CmdDesc} (h : s.accepts 0x41 d = true) (hfree : s.ksBusy = false) (hfault : s.key.doubleFault = false)
    (hlog : s.key.log.length < 766) (hop : argLe d 25 1 = 1) (hoff : s.domainOn (argLe d 24 1) = false) (hrising : argLe d 24 1 ∉ s.pwr.rising) :
    ((s.requires (argLe d 24 1)).all s.domainOn = true → s.permanent + s.transient + chargeOf s.part (argLe d 24 1) ≤ s.budget →
      Takes (.powerDomain d) s ((s.waits 0x41 d (fun t => State.ksLog { t with pwr := { t.pwr with rising := t.pwr.rising ++ [argLe d 24 1] } } .power)
        (.domainOn (argLe d 24 1))).ksLog .command))
    ∧ ((s.requires (argLe d 24 1)).all s.domainOn = false → Takes (.powerDomain d) s
      ((s.ended 0x41 d (fun t => (t.noteRefusal 0 (argLe d 24 1) (chargeOf s.part (argLe d 24 1)) 4).ksLog .power) 2 0 0).ksLog .command))
    ∧ ((s.requires (argLe d 24 1)).all s.domainOn = true → s.budget < s.permanent + chargeOf s.part (argLe d 24 1) → Takes (.powerDomain d) s
      ((s.ended 0x41 d (fun t => (t.noteRefusal 0 (argLe d 24 1) (chargeOf s.part (argLe d 24 1)) 5).ksLog .power) 6 0 0).ksLog .command)) := by
  have hcalm := calm_of_reaches (reaches_of_accepts h)
  have hdev : s.dev ≠ .parking ∧ s.dev ≠ .off ∧ s.dev ≠ .safeHold := dev_of_accepts (show cmdInfo 0x41 = some _ from rfl) rfl h
  have hqueue : (s.begun 0x41 d).2.key.ks.queue = [] := (rests_of_calm hcalm).queue
  have hbody : (cmdOf 0x41).body (s.begun 0x41 d).1 (s.begun 0x41 d).2 = (s.begun 0x41 d).2.powerBody (argLe d 24 1) 1 :=
    congrArg ((s.begun 0x41 d).2.powerBody (argLe d 24 1)) hop
  have hoff' := (begun_domainOn s 0x41 d (argLe d 24 1)).trans hoff
  have hall : ∀ b, (s.requires (argLe d 24 1)).all s.domainOn = b → ((s.begun 0x41 d).2.requires (argLe d 24 1)).all (s.begun 0x41 d).2.domainOn = b :=
    fun b hb => by rw [begun_requires, funext (begun_domainOn s 0x41 d)]; exact hb
  have hclosed : (s.begun 0x41 d).2.leaveClosed ⟨0, argLe d 24 1, chargeOf s.part (argLe d 24 1)⟩ = false := leaveClosed_eq_false hfault hdev _
  have hrefused : ∀ r : Nat, (((s.begun 0x41 d).2.noteRefusal 0 (argLe d 24 1) (chargeOf s.part (argLe d 24 1)) r).ksLog .power |>.retire
      (s.begun 0x41 d).1).Rests (s.key.log.length + 1) := fun r => by
    have hnote := agenda_noteRefusal (s.begun 0x41 d).2 0 (argLe d 24 1) (chargeOf s.part (argLe d 24 1)) r
    have hlen : ((s.begun 0x41 d).2.noteRefusal 0 (argLe d 24 1) (chargeOf s.part (argLe d 24 1)) r).key.log.length = s.key.log.length :=
      (logLength_of_agenda hnote).trans rfl
    exact rests_retire_of_keep hcalm (Keep.ksLog (Keep.of_agenda hnote) .power (by rw [hlen]; omega))
      (Nat.le_trans (State.Rests.ksLog_length _ _) (Nat.succ_le_succ (Nat.le_of_eq hlen)))
  refine ⟨fun hrequires hfits => ?_, fun hrequires => ?_, fun hrequires hover => ?_⟩
  · have hgranted : (s.begun 0x41 d).2.decideLeave ⟨0, argLe d 24 1, chargeOf s.part (argLe d 24 1)⟩ 0 = .granted :=
      decideLeave_granted hclosed (fun _ => hall true hrequires) (by rw [begun_permanent, begun_transient, begun_budget]; exact hfits)
    have hholds := Holds.ksLog (Holds.of_agenda (t := { (s.begun 0x41 d).2 with
      pwr := { (s.begun 0x41 d).2.pwr with rising := (s.begun 0x41 d).2.pwr.rising ++ [argLe d 24 1] } }) (begun_holds hcalm 0x41 d) rfl) .power
      (by omega)
    refine takes_waits_logged rfl h hfree (by decide) (hbody.trans (powerBody_granted hoff' hrising hfree hqueue hgranted)) hholds (by omega)
      ⟨fun hw => Wait.noConfusion hw, rfl, upLost_of_rising ?_, fun hw => Wait.noConfusion hw⟩
    rw [ksLog_rising]
    refine Eq.mpr (congrArg (fun p : Power => argLe d 24 1 ∈ p.rising) (ksLog_rising _ LogKind.power)) ?_
    exact List.mem_append_right _ (List.mem_singleton_self _)
  · have hno : (s.begun 0x41 d).2.decideLeave ⟨0, argLe d 24 1, chargeOf s.part (argLe d 24 1)⟩ 0 = .refused 4 :=
      decideLeave_dependency hclosed Nat.zero_lt_two (hall false hrequires)
    exact takes_ended_logged rfl h hfree (by decide) (hbody.trans (powerBody_refused hoff' hrising hfree hqueue hno)) (hrefused 4) (by omega)
  · have hno : (s.begun 0x41 d).2.decideLeave ⟨0, argLe d 24 1, chargeOf s.part (argLe d 24 1)⟩ 0 = .refused 5 :=
      decideLeave_never hclosed (fun _ => hall true hrequires) (by rw [begun_permanent, begun_budget]; exact hover)
    exact takes_ended_logged rfl h hfree (by decide) (hbody.trans (powerBody_refused hoff' hrising hfree hqueue hno)) (hrefused 5) (by omega)

/-- POWER_DOMAIN to off. -/
theorem powerDomain_off {s : State} {d : CmdDesc} (h : s.accepts 0x41 d = true) (hfree : s.ksBusy = false) (hfault : s.key.doubleFault = false)
    (hlog : s.key.log.length < 766) (hop : argLe d 25 1 = 0) (hon : s.domainOn (argLe d 24 1) = true) :
    ((∀ y ∈ s.dependants (argLe d 24 1) ++ [argLe d 24 1], s.offRefusal y = 0) → Takes (.powerDomain d) s
      ((s.ended 0x41 d (fun t => t.each (s.dependants (argLe d 24 1) ++ [argLe d 24 1]) State.switchOff) 0 0 0).ksLog .command))
    ∧ ∀ (l : List Nat) (y : Nat) (r : List Nat), s.dependants (argLe d 24 1) ++ [argLe d 24 1] = l ++ y :: r → (∀ z ∈ l, s.offRefusal z = 0) →
      s.offRefusal y ≠ 0 → Takes (.powerDomain d) s
        ((s.ended 0x41 d (fun t => t.noteRefusal 0 (argLe d 24 1) (chargeOf s.part (argLe d 24 1)) (s.offRefusal y)) 7 0 0).ksLog .command) := by
  have hcalm := calm_of_reaches (reaches_of_accepts h)
  obtain ⟨hparking, -, -⟩ := dev_of_accepts (show cmdInfo 0x41 = some _ from rfl) rfl h
  obtain ⟨-, hargs, -⟩ := accepts_parts (show cmdInfo 0x41 = some _ from rfl) h
  have hx : argLe d 24 1 ≠ 0 := by
    rintro hzero
    obtain ⟨hswitchable, -⟩ := (powerArgs_eq_zero_iff _ _).mp hargs
    rw [hzero] at hswitchable
    exact absurd hswitchable (by simp [State.switchable])
  have hbody : (cmdOf 0x41).body (s.begun 0x41 d).1 (s.begun 0x41 d).2 = (s.begun 0x41 d).2.powerBody (argLe d 24 1) 0 :=
    congrArg ((s.begun 0x41 d).2.powerBody (argLe d 24 1)) hop
  rw [powerBody_off ((begun_domainOn s 0x41 d _).trans hon)] at hbody
  refine ⟨fun hall => ?_, fun l y r hlist hbefore hne => ?_⟩
  · rw [powerDown_done (s := (s.begun 0x41 d).2) hfault hparking (fun y hy => by
      rw [begun_offRefusal]; rw [begun_dependants] at hy; exact hall y hy), begun_dependants] at hbody
    refine takes_ended_logged rfl h hfree (by decide) hbody
      (rests_retire_of_agenda (t := (s.begun 0x41 d).2.each (s.dependants (argLe d 24 1) ++ [argLe d 24 1]) State.switchOff) hcalm ?_) (by omega)
    refine agenda_each _ _ _ fun t y hy => agenda_switchOff t ?_
    rcases List.mem_append.mp hy with hy | hy
    · exact dependants_ne_zero hy
    · rw [List.mem_singleton.mp hy]
      exact hx
  · rw [powerDown_refused (s := (s.begun 0x41 d).2) (l := l) (y := y) (r := r) hfault hparking (by rw [begun_dependants]; exact hlist)
      (fun z hz => by rw [begun_offRefusal]; exact hbefore z hz) (by rw [begun_offRefusal]; exact hne), begun_offRefusal, begun_part] at hbody
    dsimp only at hbody
    rw [if_neg hne, refusalCode_offRefusal] at hbody
    exact takes_ended_logged rfl h hfree (by decide) hbody (rests_retire_of_agenda hcalm (agenda_noteRefusal ..)) (by omega)

/-- PARK. -/
theorem parkCommand {s : State} {d : CmdDesc} (h : s.accepts 0x42 d = true) :
    Takes (.park d) s (s.ended 0x42 d (fun t => (t.parkBody (decide (argLe d 24 1 = 1))).2) 0 0 0) := by
  have hcalm := calm_of_reaches (reaches_of_accepts h)
  refine takes_ended rfl h (by decide) (by decide) rfl ?_ (n := s.key.log.length)
  have hdisabled : Mild (s.begun 0x42 d).2 ((s.begun 0x42 d).2.withdrawAct.each (List.range 32) State.chDisable) :=
    (Mild.of_agenda (agenda_withdrawAct _)).trans (Mild.each _ _ _ fun t c hc => Mild.chDisable t (List.mem_range.mp hc))
  have hended : ∀ t : State, Mild (s.begun 0x42 d).2 t → ((t.forwardsNone.each (t.forwardsNone.ports.map Prod.fst) State.hardEnd).retire
      (s.begun 0x42 d).1).Rests s.key.log.length := fun t ht => by
    refine Rests.of_mild ((rests_of_calm hcalm).of_keep (keep_begun_retire hcalm 0x42 d) Nat.le.refl) (Mild.retire (ht.trans (Mild.of_agenda ?_)) _)
    rw [agenda_each _ _ _ fun u p _ => agenda_hardEnd u p, agenda_forwardsNone]
  exact { hended _ hdisabled with }

/-- The group's test starts: its ports go down, and PLB.STATUS shows it. -/
def State.groupStarted (s : State) (g from_ : Nat) (l : List Nat) : State :=
  let v := s.each l fun v p => v.portDown p true
  let w : State := { v with pwr := { v.pwr with plumbFrom := from_ } }
  ((w.setF F.PLB_STATUS_plb_state 2).setF F.PLB_STATUS_group g).setF F.PLB_STATUS_abandoned 0

theorem groupStart_eq {s : State} {g n : Nat} {l : List Nat} (hlist : (domainPorts g).filter s.portExists = l) (hnow : s.now = n) :
    s.groupStart g = s.groupStarted g n l := by
  have hkept := now_of_agenda (agenda_each s l (fun t p => t.portDown p true) fun t p _ => agenda_portDown t p true)
  unfold State.groupStart State.groupStarted
  rw [hlist]
  dsimp only
  rw [hkept, hnow]

theorem ksLog_macros (s : State) (kind : LogKind) : (s.ksLog kind).macros = s.macros ∧ (s.ksLog kind).now = s.now := by
  unfold State.ksLog
  split
  · exact ⟨rfl, rfl⟩
  · dsimp only
    split <;> exact ⟨rfl, rfl⟩

theorem portExists_congr {s t : State} (h : t.macros = s.macros) : t.portExists = s.portExists := by
  funext p
  unfold State.portExists State.mac
  rw [h]

/-- The lease of a group test is entered in the ledger. -/
def State.groupLeased (s : State) (g : Nat) : State := (s.setKs fun k => { k with grants := k.grants ++ [groupLeave g] }).ksLog .power

theorem groupLeased_fields (s : State) (g : Nat) : (s.groupLeased g).macros = s.macros ∧ (s.groupLeased g).now = s.now
    ∧ (s.groupLeased g).dev = s.dev := by
  obtain ⟨hmacros, hnow⟩ := ksLog_macros (s.setKs fun k => { k with grants := k.grants ++ [groupLeave g] }) .power
  exact ⟨hmacros, hnow, ksLog_dev _ _⟩

theorem groupLeased_holds {s : State} {e : InFlight} {n : Nat} (h : s.Holds e n) (g : Nat) (hn : n < 767) : (s.groupLeased g).Holds e (n + 1) :=
  Holds.ksLog (Holds.of_agenda h (agenda_setKs _ _ rfl)) .power hn

/-- PLUMB_GROUP with its leave granted. -/
theorem plumbGroup {s : State} {d : CmdDesc} (h : s.accepts 0x60 d = true) (hfree : s.ksBusy = false) (hfault : s.key.doubleFault = false)
    (hlog : s.key.log.length < 766) (hfits : s.permanent + s.transient + 60 ≤ s.budget) :
    Takes (.plumbGroup d) s (s.waits 0x60 d (fun t => (t.groupLeased (argLe d 24 1)).groupStarted (argLe d 24 1) s.now
      ((domainPorts (argLe d 24 1)).filter s.portExists)) (.group (argLe d 24 1))) := by
  have hcalm := calm_of_reaches (reaches_of_accepts h)
  have hdev : s.dev ≠ .parking ∧ s.dev ≠ .off ∧ s.dev ≠ .safeHold := dev_of_accepts (show cmdInfo 0x60 = some _ from rfl) rfl h
  have hqueue : (s.begun 0x60 d).2.key.ks.queue = [] := (rests_of_calm hcalm).queue
  have hgranted : (s.begun 0x60 d).2.decideLeave (groupLeave (argLe d 24 1)) 0 = .granted :=
    decideLeave_granted (leaveClosed_eq_false hfault hdev _) (fun hreq => absurd hreq (by decide : ¬ (3 : Nat) < 2))
      (by rw [begun_permanent, begun_transient, begun_budget]; exact hfits)
  have hbody : (cmdOf 0x60).body (s.begun 0x60 d).1 (s.begun 0x60 d).2 =
      (.wait (.group (argLe d 24 1)), ((s.begun 0x60 d).2.groupLeased (argLe d 24 1)).groupStart (argLe d 24 1)) :=
    groupBody_granted hfree hqueue hgranted
  have hheld := groupLeased_holds (begun_holds hcalm 0x60 d) (argLe d 24 1) (by omega)
  obtain ⟨hmacros, hnow, hdev1⟩ := groupLeased_fields (s.begun 0x60 d).2 (argLe d 24 1)
  have hsafe : ((s.begun 0x60 d).2.groupLeased (argLe d 24 1)).dev ≠ .safeHold := by
    rw [hdev1, begun_dev]
    exact hdev.2.2
  have hexists : ((s.begun 0x60 d).2.groupLeased (argLe d 24 1)).portExists = s.portExists := portExists_congr (hmacros.trans rfl)
  have hstart := groupStart_eq (s := (s.begun 0x60 d).2.groupLeased (argLe d 24 1)) (g := argLe d 24 1) (n := s.now)
    (l := (domainPorts (argLe d 24 1)).filter s.portExists) (by rw [hexists]) (hnow.trans rfl)
  have hheld' := groupStart_holds (g := argLe d 24 1) hheld hsafe
  rw [hstart] at hbody hheld'
  exact takes_waits (f := fun t => (t.groupLeased (argLe d 24 1)).groupStarted (argLe d 24 1) s.now
    ((domainPorts (argLe d 24 1)).filter s.portExists)) rfl h (by decide) (by decide) hbody hheld'
    ⟨fun hw => Wait.noConfusion hw, rfl, rfl, fun hw => Wait.noConfusion hw⟩

/-- Settles O50: each of these commands decides from the domains, the budget and the states of the domains concerned, which its acceptance
leaves as they are. -/
theorem powerCommands : Obligations.PowerCommands := by
  refine ⟨by decide +kernel, fun s d => ⟨budgetArgs_eq s d, fun hreach hclean hopen hversion haccess hdev hrange => ?_⟩, fun s d hlog =>
    ⟨fun h hfree => setPowerBudget h hfree hlog, fun h hfree hfault => ?_, fun h => parkCommand h,
      fun h hfree hfault hfits => plumbGroup h hfree hfault hlog hfits⟩⟩
  · have hargs : (cmdOf 0x40).args d (s.taking d) = 2 := by rw [budgetArgs_eq, if_neg (by omega)]
    refine takes_reject rfl hreach ((checkCommand_of_args (show cmdInfo 0x40 = some _ from rfl) hclean (fun _ => ⟨hopen, hversion⟩) ?_
      (legal_of_dev hdev) (by rw [hargs]; decide)).trans hargs) (by decide)
    simp [State.cmdPermitted, cmdTarget, haccess]
  · refine ⟨fun hop hoff hrising hrequires hfits => ?_, fun hop hoff hrising => ?_, fun hop hon hall => ?_, fun hop hon l y r hlist hbefore hne => ?_⟩
    · exact (powerDomain_on h hfree hfault hlog hop hoff hrising).1 hrequires hfits
    · exact (powerDomain_on h hfree hfault hlog hop hoff hrising).2
    · exact (powerDomain_off h hfree hfault hlog hop hon).1 hall
    · exact (powerDomain_off h hfree hfault hlog hop hon).2 l y r hlist hbefore hne

end Sys2Proof.Machine
end

/-! ### Activation, flushing and the commands of the security unit (R108, R109, R175, R405 to R419) -/

section
namespace Sys2Proof.Machine

/-! The object of an accepted command -/

/-- The input block of an accepted command is what host memory holds (R405). -/
theorem begun_obj {s : State} {op : Nat} {d : CmdDesc} {i : CmdInfo} (hinfo : cmdInfo op = some i) (hinput : i.input = true)
    (hmem : d.memErr = false) (haddr : d.argAddr ≠ 0) : (s.begun op d).1.obj = (s.begun op d).2.hostBlob d.argAddr d.argLen := by
  have hobj : (s.begun op d).1.obj = (s.taking d).inputBlock op d := rfl
  have hhost : (s.begun op d).2.hostBlob d.argAddr d.argLen = (s.taking d).hostBlob d.argAddr d.argLen := rfl
  rw [hobj, hhost]
  unfold State.inputBlock
  rw [hinfo, hmem, decide_eq_true haddr]
  dsimp only
  rw [hinput]
  rfl

/-- A command whose input block is required has one. -/
theorem argAddr_of_inArgs {d : CmdDesc} (h : inArgs d = 0) : d.argAddr ≠ 0 := by
  unfold inArgs at h
  obtain ⟨hnone, -⟩ := of_ite_eq_zero h
  exact fun haddr => hnone (.inl haddr)

theorem begun_verifyAt (s : State) (op : Nat) (d : CmdDesc) (b : Blob) (typ p : Nat) :
    (s.begun op d).2.verifyAt b typ p = s.verifyAt b typ p := (rfl)

theorem verify_error {s : State} {b : Blob} {typ p c : Nat} (hat : sigBlockAt b = some p) (hc : s.verifyAt b typ p = c) (hne : c ≠ 0) :
    s.verify b typ = (.error (reasonCode c), s.noteVerify typ c (b.le (p + 0x0C) 1)) := by
  unfold State.verify
  rw [hat]
  dsimp only
  rewrite [hc]
  split
  · exact absurd rfl hne
  · rfl

theorem verify_ok {s : State} {b : Blob} {typ p : Nat} (hat : sigBlockAt b = some p) (hc : s.verifyAt b typ p = 0) :
    s.verify b typ = (.ok p, s) := by
  unfold State.verify
  rw [hat]
  dsimp only
  rewrite [hc]
  rfl

/-- A verification answers where the block stands and changes nothing, or ends with the code of its reason and notes it. -/
theorem verify_cases (s : State) (b : Blob) (typ : Nat) : (∃ p, s.verify b typ = (.ok p, s))
    ∨ ∃ c ∈ [0x08, 0x0B, 0x0D], ∃ r cls, s.verify b typ = (.error c, s.noteVerify typ r cls) := by
  have hreason : ∀ r : Nat, reasonCode r ∈ [0x08, 0x0B, 0x0D] := fun r => by
    unfold reasonCode
    split <;> decide
  cases hat : sigBlockAt b with
  | none => exact .inr ⟨0x08, by decide, 1, 0, by unfold State.verify; rw [hat]⟩
  | some p =>
    by_cases hc : s.verifyAt b typ p = 0
    · exact .inl ⟨p, verify_ok hat hc⟩
    · exact .inr ⟨_, hreason _, _, _, verify_error hat rfl hc⟩

theorem agenda_noteVerify (s : State) (typ reason cls : Nat) : (s.noteVerify typ reason cls).agenda = s.agenda := by
  unfold State.noteVerify
  rw [agenda_raise, agenda_setF _ _ (by decide), agenda_setF _ _ (by decide), agenda_setF _ _ (by decide)]
  split <;> decide

theorem agenda_useHssIndex (s : State) : s.useHssIndex.agenda = s.agenda := by
  unfold State.useHssIndex State.hssMoved
  dsimp only
  rw [agenda_raiseIf _ _ (by decide)]
  rfl

/-- The security unit is at no earlier command's work where the command is alone in flight. -/
theorem unitTaken_alone {s : State} {e : InFlight} (h : s.hif.inflight = [e]) : s.unitTaken e = false := by
  unfold State.unitTaken
  rw [h, List.any_cons, decide_eq_false (Nat.lt_irrefl _)]
  simp

theorem begun_unitTaken {s : State} (hcalm : s.calm = true) (op : Nat) (d : CmdDesc) : (s.begun op d).2.unitTaken (s.begun op d).1 = false :=
  unitTaken_alone (begun_holds hcalm op d).flight

/-- A command of the security unit does its work at once. -/
theorem unitWork_free {s : State} {e : InFlight} (h : s.unitTaken e = false) (w : InFlight → State → CmdRes × State) : s.unitWork e w = w e s := by
  unfold State.unitWork
  rw [h]
  rfl

/-! ACTIVATE and CANCEL_ACTIVATE -/

/-- A refused request changes what reports it at most. -/
theorem requestSwitch_refused {s x : State} {sel tReq c : Nat} (h : s.requestSwitch sel tReq = (c, none, x)) : x.agenda = s.agenda := by
  have hroll : ∀ y : State, s.activationRollback sel = some y → y.agenda = s.agenda := fun y hy => by
    unfold State.activationRollback at hy
    split at hy
    · rw [← Option.some.inj hy, agenda_noteVerify]
    · split at hy
      · rw [← Option.some.inj hy, agenda_noteVerify]
      · exact nomatch hy
  have hsame : ∀ n : Nat, (n, (none : Option PendAct), s) = (c, none, x) → x.agenda = s.agenda := fun n hn => by
    rw [← (Prod.mk.inj (Prod.mk.inj hn).2).2]
  unfold State.requestSwitch at h
  split at h
  · exact hsame _ h
  · split at h
    · exact hsame _ h
    · split at h
      next y hy =>
        rw [← (Prod.mk.inj (Prod.mk.inj h).2).2]
        exact hroll y hy
      · split at h
        · exact hsame _ h
        · dsimp only at h
          split at h
          · exact hsame _ h
          · split at h
            · exact hsame _ h
            · exact absurd (Prod.mk.inj (Prod.mk.inj h).2).1 (by simp)

theorem activate_accepted {s x : State} {d : CmdDesc} {c : Nat} {a : PendAct} (h : s.accepts 0x13 d = true) (hfree : s.ksBusy = false)
    (hlog : s.key.log.length < 767)
    (hreq : (s.begun 0x13 d).2.requestSwitch (argLe d 36 1) (argLe d 24 6 * 10 ^ 9 + argLe d 32 4) = (c, some a, x)) :
    Takes (.activate d) s ((s.ended 0x13 d (fun _ => x.showAct 1 c (argLe d 36 1) (decide (c = 0x0C)) a.predicted) c
      (a.tEff / 10 ^ 9 % 2 ^ 48 + (b2n (decide (c = 0x0C)) + 2 * b2n a.predicted) * 2 ^ 48) (a.tEff % 10 ^ 9)).ksLog .command)
    ∧ x.fly.armed = some a ∧ x.key.ks.pend = some a := by
  have hcalm := calm_of_reaches (reaches_of_accepts h)
  obtain ⟨hx, -, -⟩ := requestSwitch_accepted hreq
  refine ⟨?_, by rw [hx]; rfl, by rw [hx]; rfl⟩
  refine takes_ended_logged rfl h hfree (by decide) ?_ (rests_retire_of_agenda hcalm ?_) hlog
  · show (s.begun 0x13 d).2.activateBody d = _
    unfold State.activateBody State.activateReq
    rw [hreq]
  · rw [agenda_showAct, hx, agenda_showEff]
    exact agenda_setKs (s.begun 0x13 d).2 (fun k => { k with pend := some a }) rfl

theorem activate_refused {s x : State} {d : CmdDesc} {c : Nat} (h : s.accepts 0x13 d = true) (hfree : s.ksBusy = false)
    (hlog : s.key.log.length < 767)
    (hreq : (s.begun 0x13 d).2.requestSwitch (argLe d 36 1) (argLe d 24 6 * 10 ^ 9 + argLe d 32 4) = (c, none, x)) :
    Takes (.activate d) s ((s.ended 0x13 d (fun _ => x) c 0 0).ksLog .command) := by
  refine takes_ended_logged rfl h hfree (by decide) ?_
    (rests_retire_of_agenda (calm_of_reaches (reaches_of_accepts h)) (requestSwitch_refused hreq)) hlog
  show (s.begun 0x13 d).2.activateBody d = _
  unfold State.activateBody State.activateReq
  rw [hreq]
  rfl

theorem cancelPending_late {s : State} (h : ∀ a : PendAct, s.key.ks.pend = some a → a.tEff < s.nsCeil + 1000) : s.cancelPending = (false, s) := by
  unfold State.cancelPending
  split
  · rfl
  next a hpend => exact if_neg (by have := h a hpend; omega)

theorem cancelPending_done {s : State} {a : PendAct} (hpend : s.key.ks.pend = some a) (hearly : s.nsCeil + 1000 ≤ a.tEff) :
    s.cancelPending = (true, ({ s.setKs (fun k => { k with pend := none }) with fly := { s.fly with armed := none } } : State).setF
      F.EPH_ACT_STATUS_act_state 0) := by
  refine Prod.ext ?_ (cancelPending_in_time hpend hearly)
  unfold State.cancelPending
  rw [hpend]
  dsimp only
  rw [if_pos hearly]

theorem cancelActivate {s : State} {d : CmdDesc} (h : s.accepts 0x14 d = true) (hfree : s.ksBusy = false) (hlog : s.key.log.length < 767) :
    ((∀ a : PendAct, s.key.ks.pend = some a → a.tEff < s.nsCeil + 1000) →
      Takes (.cancelActivate d) s ((s.ended 0x14 d (fun t => t) 0 0 0).ksLog .command))
    ∧ ∀ a : PendAct, s.key.ks.pend = some a → s.nsCeil + 1000 ≤ a.tEff →
      Takes (.cancelActivate d) s ((s.ended 0x14 d (fun t => State.setF { t.setKs fun k => { k with pend := none } with
        fly := { t.fly with armed := none } } F.EPH_ACT_STATUS_act_state 0) 0 1 0).ksLog .command) := by
  have hcalm := calm_of_reaches (reaches_of_accepts h)
  have hbody : (cmdOf 0x14).body (s.begun 0x14 d).1 (s.begun 0x14 d).2 = (s.begun 0x14 d).2.cancelBody := rfl
  refine ⟨fun hlate => ?_, fun a hpend hearly => ?_⟩
  · refine takes_ended_logged (f := fun t => t) rfl h hfree (by decide) (hbody.trans ?_) (rests_retire_of_agenda hcalm rfl) hlog
    unfold State.cancelBody
    rw [cancelPending_late (s := (s.begun 0x14 d).2) hlate]
    rfl
  · refine takes_ended_logged (f := fun t => State.setF { t.setKs fun k => { k with pend := none } with fly := { t.fly with armed := none } }
      F.EPH_ACT_STATUS_act_state 0) rfl h hfree (by decide) (hbody.trans ?_) (rests_retire_of_agenda hcalm ?_) hlog
    · unfold State.cancelBody
      rw [cancelPending_done (s := (s.begun 0x14 d).2) hpend hearly]
      rfl
    · rw [agenda_setF _ _ (by decide)]
      exact agenda_setKs (s.begun 0x14 d).2 (fun k => { k with pend := none }) rfl

/-! TABLE_FLUSH -/

theorem ksLog_ctl (s : State) (kind : LogKind) : (s.ksLog kind).key.ks = s.key.ks := by
  unfold State.ksLog
  split
  · rfl
  · dsimp only
    split <;> rfl

/-- A flush event that the Keystone holds keeps its command waiting. -/
theorem flushPending_of_ctl {s : State} {t v p m c : Nat} (h : BusEvent.flush t v p m c ∈ s.key.ks.ctl) : s.flushPending c = true := by
  unfold State.flushPending
  dsimp only
  rw [Bool.or_eq_true, Bool.or_eq_true]
  exact .inl (.inl (List.any_eq_true.mpr ⟨_, h, decide_eq_true rfl⟩))

theorem ksBusy_parts {s : State} (h : s.ksBusy = false) : s.inGap = false ∧ s.key.replay = false := by
  unfold State.ksBusy at h
  exact Bool.or_eq_false_iff.mp h

theorem issueCtl_free {s : State} {e : BusEvent} (hfree : s.ksBusy = false) (hunit : s.activeUnit.isSome = true) :
    s.issueCtl e = s.setKs fun k => { k with ctl := k.ctl ++ [e] } := by
  obtain ⟨hgap, hreplay⟩ := ksBusy_parts hfree
  have hsome : s.activeUnit.isNone = false := by rw [Option.isNone_eq_false_iff]; exact hunit
  unfold State.issueCtl
  rw [hgap, hsome, hreplay]
  rfl

theorem begun_activeUnit (s : State) (op : Nat) (d : CmdDesc) : (s.begun op d).2.activeUnit = s.activeUnit := by
  have hunit : ∀ u, (s.begun op d).2.unitState u = s.unitState u := fun u => by
    cases u
    · exact begun_getF s op d (f := F.KEY_STATUS_state_a) (by decide)
    · exact begun_getF s op d (f := F.KEY_STATUS_state_b) (by decide)
  unfold State.activeUnit
  simp only [hunit]

/-- What a wait for the flush pass or for anything else but a power-up leaves to be said: where it is a flush, its event is there. -/
theorem tableFlush {s : State} {d : CmdDesc} (h : s.accepts 0x21 d = true) (hfree : s.ksBusy = false) (hunit : s.activeUnit.isSome = true)
    (hlog : s.key.log.length < 767) :
    Takes (.tableFlush d) s ((s.waits 0x21 d (fun t => t.setKs fun k => { k with
      ctl := k.ctl ++ [.flush (argLe d 24 1) (argLe d 26 2) (argLe d 28 2) (argBe d 30 6) s.hif.nextSeq] }) .flush).ksLog .command) := by
  have hcalm := calm_of_reaches (reaches_of_accepts h)
  have hbody : (cmdOf 0x21).body (s.begun 0x21 d).1 (s.begun 0x21 d).2 = (.wait .flush, (s.begun 0x21 d).2.issueCtl
      (.flush (argLe d 24 1) (argLe d 26 2) (argLe d 28 2) (argBe d 30 6) s.hif.nextSeq)) := rfl
  rw [issueCtl_free (s := (s.begun 0x21 d).2) hfree (by rw [begun_activeUnit]; exact hunit)] at hbody
  refine takes_waits_logged rfl h hfree (by decide) hbody (Holds.of_agenda (begun_holds hcalm 0x21 d) (agenda_setKs _ _ rfl)) hlog
    ⟨fun _ => flushPending_of_ctl (t := argLe d 24 1) (v := argLe d 26 2) (p := argLe d 28 2) (m := argBe d 30 6) ?_, rfl, rfl,
      fun hw => Wait.noConfusion hw⟩
  rw [ksLog_ctl]
  exact List.mem_append_right _ (List.mem_singleton_self _)

/-! ATTEST -/

/-- The command keeps the object that its work reads. -/
def State.keepObj (s : State) (e : InFlight) (b : Blob) : State :=
  { s with hif := { s.hif with inflight := s.hif.inflight.map fun f => if f.seq = e.seq then { f with obj := b } else f } }

/-- The end of the command drops what it kept. -/
theorem retire_keepObj (s : State) (e : InFlight) (b : Blob) : (s.keepObj e b).retire e = s.retire e := by
  have hlist : ∀ l : List InFlight, (l.map fun f => if f.seq = e.seq then { f with obj := b } else f).filter (fun f => decide (f.seq ≠ e.seq))
      = l.filter fun f => decide (f.seq ≠ e.seq) := fun l => by
    induction l with
    | nil => rfl
    | cons f r ih =>
      rw [List.map_cons, List.filter_cons, List.filter_cons, ih]
      by_cases hf : f.seq = e.seq
      · rw [if_pos hf, decide_eq_false (not_not_intro hf)]
        exact if_neg (by simp)
      · rw [if_neg hf]
  exact congrArg (fun l => ({ s with hif := { s.hif with inflight := l } } : State)) (hlist s.hif.inflight)

theorem complete_keepObj (s : State) {e : InFlight} (hring : e.parent = 0) (b : Blob) (st r0 r1 : Nat) :
    (s.keepObj e b).complete e st r0 r1 = s.complete e st r0 r1 := by
  have hfind : ∀ l : List InFlight, ((l.map fun f => if f.seq = e.seq then { f with obj := b } else f).find? fun f =>
      decide (f.seq = e.seq)).elim e.noComp InFlight.noComp = (l.find? fun f => decide (f.seq = e.seq)).elim e.noComp InFlight.noComp := fun l => by
    induction l with
    | nil => rfl
    | cons f r ih =>
      rw [List.map_cons, List.find?_cons, List.find?_cons]
      by_cases hf : f.seq = e.seq
      · rw [if_pos hf, decide_eq_true hf]
        rfl
      · rw [if_neg hf, decide_eq_false hf]
        exact ih
  rw [complete_of_ring _ hring, complete_of_ring _ hring, retire_keepObj]
  rw [show (s.keepObj e b).hif.inflight = s.hif.inflight.map fun f => if f.seq = e.seq then { f with obj := b } else f from rfl, hfind]

theorem hostWrite_keepObj (l : List Byte) : ∀ (s : State) (a : Nat) (e : InFlight) (b : Blob),
    (s.keepObj e b).hostWrite a l = (s.hostWrite a l).keepObj e b := by
  induction l with
  | nil => intro s a e b; rfl
  | cons x r ih => intro s a e b; exact ih (s.hostPut a x) (a + 1) e b

theorem attestReport_keepObj (s : State) (e : InFlight) (b msg : Blob) :
    (s.keepObj e b).attestReport msg = ((s.attestReport msg).1, (s.attestReport msg).2.keepObj e b) := (rfl)

/-- The state that has spent a credit and an index on a report. -/
def State.attestSpent (s : State) : State := State.useHssIndex { s with sec := { s.sec with credits := s.sec.credits - 1 } }

/-- The report of this moment, signed, and the state that has signed it. -/
def State.attested (s : State) (d : CmdDesc) : List Byte × State := s.attestSpent.attestReport (Blob.ofList (s.attestHead (d.inl.take 32)))

theorem agenda_attested (s : State) (d : CmdDesc) : (s.attested d).2.agenda = s.agenda := by
  have hspent : s.attestSpent.agenda = s.agenda := agenda_useHssIndex _
  rw [← hspent]
  rfl

theorem hssIndex_useHssIndex (s : State) : s.useHssIndex.sec.hssIndex = s.sec.hssIndex + 1 := by
  unfold State.useHssIndex State.hssMoved State.raiseIf
  dsimp only
  split <;> rfl

theorem attestArgs {s : State} {d : CmdDesc} (h : s.accepts 0x50 d = true) : ¬ (d.argLen < 3956 ∨ d.argAddr = 0) := by
  obtain ⟨-, hargs, -⟩ := accepts_parts (show cmdInfo 0x50 = some _ from rfl) h
  have hout : outArgs d 3956 = 0 := hargs
  unfold outArgs at hout
  obtain ⟨hnone, -⟩ := of_ite_eq_zero hout
  exact fun hor => hnone hor.symm

theorem attestBody_busy {s : State} {e : InFlight} (hargs : ¬ (e.desc.argLen < 3956 ∨ e.desc.argAddr = 0))
    (h : s.sec.credits = 0 ∨ s.sec.rngOk = false) : s.attestBody e = (.fail 7, s) := by
  unfold State.attestBody
  rw [if_neg hargs, if_pos (by simpa using h)]

theorem attestBody_exhausted {s : State} {e : InFlight} (hargs : ¬ (e.desc.argLen < 3956 ∨ e.desc.argAddr = 0))
    (hcredits : s.sec.credits ≠ 0) (hrng : s.sec.rngOk = true) (hindex : 2 ^ 30 ≤ s.sec.hssIndex) : s.attestBody e = (.fail 0x0B, s) := by
  unfold State.attestBody
  rw [if_neg hargs, if_neg (by rw [hrng]; simpa using hcredits), if_pos hindex]

/-- ATTEST with a credit, a healthy random source and an index left. -/
theorem attestBody_signs {s : State} {e : InFlight} {d : CmdDesc} (hdesc : e.desc = d) (hargs : ¬ (d.argLen < 3956 ∨ d.argAddr = 0))
    (hcredits : s.sec.credits ≠ 0) (hrng : s.sec.rngOk = true) (hindex : s.sec.hssIndex < 2 ^ 30)
    (hflight : s.hif.inflight = [e]) : s.attestBody e =
    if d.memErr then (.fail 0x0E, (s.attested d).2.keepObj e (Blob.ofList (s.attestHead (d.inl.take 32))))
    else (.done 0 3956 0, ((s.attested d).2.hostWrite d.argAddr (s.attested d).1).keepObj e (Blob.ofList (s.attestHead (d.inl.take 32)))) := by
  subst hdesc
  have hspent : s.attestSpent.hif.inflight = [e] := (Keep.of_agenda (agenda_useHssIndex _)).flight.trans hflight
  have hfree : (s.attestSpent.keepObj e (Blob.ofList (s.attestHead (e.desc.inl.take 32)))).unitTaken
      { e with obj := Blob.ofList (s.attestHead (e.desc.inl.take 32)) } = false := by
    refine unitTaken_alone ((congrArg (List.map _) hspent).trans ?_)
    rw [List.map_cons, if_pos rfl]
    rfl
  have hbody : s.attestBody e = (s.attestSpent.keepObj e (Blob.ofList (s.attestHead (e.desc.inl.take 32)))).unitWork
      { e with obj := Blob.ofList (s.attestHead (e.desc.inl.take 32)) } State.attestWork := by
    unfold State.attestBody
    rw [if_neg hargs, if_neg (by rw [hrng]; simpa using hcredits), if_neg (by omega)]
    rfl
  rw [hbody, unitWork_free hfree]
  unfold State.attestWork
  dsimp only
  rw [attestReport_keepObj]
  dsimp only
  rw [hostWrite_keepObj]
  rfl

theorem attestCommand {s : State} {d : CmdDesc} (h : s.accepts 0x50 d = true) :
    (s.sec.credits = 0 ∨ s.sec.rngOk = false → Takes (.attest d) s (s.ended 0x50 d (fun t => t) 7 0 0))
    ∧ (s.sec.credits ≠ 0 → s.sec.rngOk = true → 2 ^ 30 ≤ s.sec.hssIndex → Takes (.attest d) s (s.ended 0x50 d (fun t => t) 0x0B 0 0))
    ∧ (s.sec.credits ≠ 0 → s.sec.rngOk = true → s.sec.hssIndex < 2 ^ 30 →
      (d.memErr = false →
        Takes (.attest d) s (s.ended 0x50 d (fun t => (t.attested d).2.hostWrite d.argAddr (t.attested d).1) 0 3956 0))
      ∧ (d.memErr = true → Takes (.attest d) s (s.ended 0x50 d (fun t => (t.attested d).2) 0x0E 0 0))) := by
  have hcalm := calm_of_reaches (reaches_of_accepts h)
  have hargs := attestArgs h
  have hbody : (cmdOf 0x50).body (s.begun 0x50 d).1 (s.begun 0x50 d).2 = (s.begun 0x50 d).2.attestBody (s.begun 0x50 d).1 := rfl
  have hends : ∀ (st : Nat), (s.begun 0x50 d).2.attestBody (s.begun 0x50 d).1 = (.fail st, (s.begun 0x50 d).2) →
      Takes (.attest d) s (s.ended 0x50 d (fun t => t) st 0 0) := fun st hst =>
    takes_ended (f := fun t => t) rfl h (by decide) (by decide) (hbody.trans hst) (rests_retire_of_agenda hcalm rfl)
  have hkept : ∀ (u : State) (b : Blob) (st r0 : Nat), u.agenda = (s.begun 0x50 d).2.agenda →
      (s.begun 0x50 d).2.attestBody (s.begun 0x50 d).1 = (.done st r0 0, u.keepObj (s.begun 0x50 d).1 b) →
      Takes (.attest d) s (u.complete (s.begun 0x50 d).1 st r0 0) := fun u b st r0 hu hst => by
    refine takes_of_accepts rfl h ?_ (Rests.complete (rests_retire_of_agenda hcalm hu) rfl st r0 0)
    rw [runBody_plain (show keystoneBound 0x50 = false by decide) (show keystoneInput 0x50 = false by decide), hbody, hst]
    exact complete_keepObj u (e := (s.begun 0x50 d).1) rfl b st r0 0
  refine ⟨fun hnone => hends 7 ?_, fun hcredits hrng hused => hends 0x0B ?_, fun hcredits hrng hleft => ?_⟩
  · exact attestBody_busy (s := (s.begun 0x50 d).2) hargs hnone
  · exact attestBody_exhausted (s := (s.begun 0x50 d).2) hargs hcredits hrng hused
  · have hsigns := attestBody_signs (s := (s.begun 0x50 d).2) (e := (s.begun 0x50 d).1) (d := d) rfl hargs hcredits hrng hleft (begun_holds hcalm 0x50 d).flight
    refine ⟨fun hmem => ?_, fun hmem => ?_⟩
    · rw [hmem, if_neg Bool.false_ne_true] at hsigns
      exact hkept _ _ 0 3956 (by rw [agenda_hostWrite, agenda_attested]) hsigns
    · rw [hmem, if_pos rfl] at hsigns
      exact hkept _ _ 0x0E 0 (agenda_attested _ d) hsigns

/-! FW_UPDATE -/

/-- A write of a slot ends with a status of its own, and a good one leaves the image in it. -/
theorem fwSlotWrite_parts {s : State} {b : Blob} {p : Nat} (hat : sigBlockAt b = some p) (one : Bool) :
    ((s.fwSlotWrite one b).1 = 0 ∧ (s.fwSlotWrite one b).2.mram = (if one then { s.mram with fw1 := slotOf b p } else { s.mram with fw0 := slotOf b p }))
      ∨ (s.fwSlotWrite one b).1 ∈ [0x08, 0x0B, 0x0D] := by
  unfold State.fwSlotWrite
  extract_lets w n src s1 x
  have hx : x = slotOf b p := by simp only [x, hat, Option.getD_some]
  rw [← hx]
  split
  · exact .inr (show (0x0B : Nat) ∈ [0x08, 0x0B, 0x0D] by decide)
  · obtain ⟨p', hverify⟩ | ⟨c, hc, r, cls, hverify⟩ := verify_cases (w s1 x) (slotImage x) 1
    · rewrite [hverify]
      exact .inl ⟨rfl, rfl⟩
    · rewrite [hverify]
      exact .inr hc

/-- The end of the flash writes: both slots hold the image, or a status says why they do not. -/
theorem fwWrite_parts {s : State} {b : Blob} {p : Nat} (hat : sigBlockAt b = some p) :
    ((s.fwWrite b).1 = 0 ∧ (s.fwWrite b).2.mram.fw0 = slotOf b p ∧ (s.fwWrite b).2.mram.fw1 = slotOf b p
      ∨ (s.fwWrite b).1 ∈ [0x08, 0x0B, 0x0D])
    ∧ ∃ (y : State) (n : Nat), s.fwWrite b = (n, y.raise F.SEC_EVENT_fw_update_done) := by
  have hfirst := fwSlotWrite_parts (s := s) hat true
  unfold State.fwWrite
  generalize hs1 : s.fwSlotWrite true b = r1 at hfirst ⊢
  obtain ⟨c1, s1⟩ := r1
  have hsecond := fwSlotWrite_parts (s := s1) hat false
  by_cases hc : c1 = 0
  · subst hc
    obtain ⟨-, hone⟩ := hfirst.resolve_right (show (0 : Nat) ∉ _ by decide)
    dsimp only at hone ⊢
    refine ⟨hsecond.imp (fun hgood => ?_) id, _, _, rfl⟩
    obtain ⟨hzero, hmram⟩ := hgood
    refine ⟨hzero, ?_, ?_⟩
    · exact (congrArg Mram.fw0 hmram).trans rfl
    · exact ((congrArg Mram.fw1 hmram).trans rfl).trans ((congrArg Mram.fw1 hone).trans rfl)
  · have hbad := hfirst.resolve_left (fun hgood => hc hgood.1)
    split
    next s2 heq => exact absurd (Prod.mk.inj heq).1 hc
    next c s2 _ heq =>
      obtain ⟨rfl, rfl⟩ := Prod.mk.inj heq
      exact ⟨.inr hbad, _, _, rfl⟩

theorem fwUpdate {s : State} {d : CmdDesc} {p : Nat} {b : Blob} (h : s.accepts 0x52 d = true) (hmem : d.memErr = false)
    (hblob : (s.begun 0x52 d).2.hostBlob d.argAddr d.argLen = b) (hat : sigBlockAt b = some p) :
    Takes (.fwUpdate d) s (if s.verifyAt b 1 p ≠ 0 then s.ended 0x52 d (fun t => (t.noteVerify 1 (s.verifyAt b 1 p) (b.le (p + 0x0C) 1)).raise
      F.SEC_EVENT_fw_update_done) (reasonCode (s.verifyAt b 1 p)) 0 0 else s.waits 0x52 d (fun t => t) (.flash b)) := by
  have hcalm := calm_of_reaches (reaches_of_accepts h)
  obtain ⟨-, hargs, -⟩ := accepts_parts (show cmdInfo 0x52 = some _ from rfl) h
  have hobj := (begun_obj (show cmdInfo 0x52 = some _ from rfl) rfl hmem (argAddr_of_inArgs hargs)).trans hblob
  have hbody : (cmdOf 0x52).body (s.begun 0x52 d).1 (s.begun 0x52 d).2 = State.fwWork (s.begun 0x52 d).1 (s.begun 0x52 d).2 := by
    show (s.begun 0x52 d).2.fwBody (s.begun 0x52 d).1 = _
    unfold State.fwBody
    rw [show (s.begun 0x52 d).1.desc.memErr = d.memErr from rfl, hmem, if_neg Bool.false_ne_true, unitWork_free (begun_unitTaken hcalm 0x52 d)]
  unfold State.fwWork at hbody
  rw [hobj] at hbody
  have hat' := begun_verifyAt s 0x52 d b 1 p
  by_cases hgood : s.verifyAt b 1 p ≠ 0
  · rw [if_pos hgood]
    rw [verify_error hat hat' hgood] at hbody
    refine takes_ended (f := fun t => (t.noteVerify 1 (s.verifyAt b 1 p) (b.le (p + 0x0C) 1)).raise F.SEC_EVENT_fw_update_done) rfl h (by decide)
      (by decide) hbody (rests_retire_of_agenda hcalm ?_)
    rw [agenda_raise _ (by decide), agenda_noteVerify]
  · rw [if_neg hgood]
    rw [verify_ok hat (hat'.trans (Classical.not_not.mp hgood))] at hbody
    exact takes_waits (f := fun t => t) rfl h (by decide) (by decide) hbody (begun_holds hcalm 0x52 d)
      ⟨fun hw => Wait.noConfusion hw, rfl, rfl, fun hw => Wait.noConfusion hw⟩

/-! RUN_BUNDLE -/

theorem runBundle {s : State} {d : CmdDesc} {p : Nat} {b : Blob} (h : s.accepts 0x51 d = true) (hmem : d.memErr = false)
    (hblob : (s.begun 0x51 d).2.hostBlob d.argAddr d.argLen = b) (hat : sigBlockAt b = some p) :
    exec (.runBundle d) s = .next (State.conclude s
      (if s.verifyAt b 4 p ≠ 0 then s.ended 0x51 d (fun t => t.noteVerify 4 (s.verifyAt b 4 p) (b.le (p + 0x0C) 1)) (reasonCode (s.verifyAt b 4 p)) 0 0
      else if bundleOk b p = false then s.ended 0x51 d (fun t => t) 2 0 0
      else s.waits 0x51 d (fun t => t.advanceRollback 1 (b.le (p + 0x10) 4))
        (.bundle ((List.range (b.le 8 4)).map fun i => b.list (64 + 192 * i) 192) (decide (b.le (p + 0x14) 8 ≠ 0)) 0 none))) := by
  have hcalm := calm_of_reaches (reaches_of_accepts h)
  obtain ⟨-, hargs, -⟩ := accepts_parts (show cmdInfo 0x51 = some _ from rfl) h
  have hobj := (begun_obj (show cmdInfo 0x51 = some _ from rfl) rfl hmem (argAddr_of_inArgs hargs)).trans hblob
  have hbody : (cmdOf 0x51).body (s.begun 0x51 d).1 (s.begun 0x51 d).2 = State.bundleWork (s.begun 0x51 d).1 (s.begun 0x51 d).2 := by
    show (s.begun 0x51 d).2.bundleBody (s.begun 0x51 d).1 = _
    unfold State.bundleBody
    rw [show (s.begun 0x51 d).1.desc.memErr = d.memErr from rfl, hmem, if_neg Bool.false_ne_true, unitWork_free (begun_unitTaken hcalm 0x51 d)]
  unfold State.bundleWork at hbody
  rw [hobj] at hbody
  dsimp only at hbody
  have hat' := begun_verifyAt s 0x51 d b 4 p
  rw [exec_of_accepts (show exec (.runBundle d) s = run (fun t => t.takeCommand (cmdOf 0x51) 0x51 d) s from rfl) h,
    runBody_plain (show keystoneBound 0x51 = false by decide) (show keystoneInput 0x51 = false by decide)]
  by_cases hgood : s.verifyAt b 4 p = 0
  · rw [verify_ok hat (hat'.trans hgood)] at hbody
    dsimp only at hbody
    rw [if_neg (not_not_intro hgood)]
    cases hshape : bundleOk b p with
    | false =>
      rw [hshape, Bool.not_false, if_pos rfl] at hbody
      rw [hbody, if_pos rfl]
      rfl
    | true =>
      rw [hshape, Bool.not_true, if_neg Bool.false_ne_true] at hbody
      rw [hbody, if_neg (by decide)]
      rfl
  · rw [verify_error hat hat' hgood] at hbody
    rw [hbody, if_pos hgood]
    rfl

/-- Settles O52: each of these commands decides from the state that its acceptance leaves. -/
theorem activationAndSecurityCommands : Obligations.ActivationAndSecurityCommands := by
  intro s d hlog
  refine ⟨fun h hfree => ?_, fun h hfree c x hreq => activate_refused h hfree hlog hreq,
    fun h hfree => cancelActivate h hfree hlog, fun h hfree hunit => tableFlush h hfree hunit hlog, fun h => ?_, fun hmem => ⟨fun h => ?_, fun h => ?_⟩,
    fun p b h hmem hblob hat => ⟨fwUpdate h hmem hblob hat, fun x e hwait => ⟨?_, fwWrite_parts hat⟩⟩,
    fun p b h hmem hblob hat => runBundle h hmem hblob hat⟩
  · intro t sel c a x hreq r0
    exact activate_accepted h hfree hlog hreq
  · obtain ⟨hnone, hexhausted, hsigns⟩ := attestCommand h
    refine ⟨hnone, hexhausted, fun hcredits hrng hleft => ?_⟩
    obtain ⟨hwritten, hfails⟩ := hsigns hcredits hrng hleft
    exact ⟨hwritten, hfails, hssIndex_useHssIndex _⟩
  · refine takes_ended (f := fun t => t.raise F.SEC_EVENT_fw_update_done) rfl h (by decide) (by decide) ?_
      (rests_retire_of_agenda (calm_of_reaches (reaches_of_accepts h)) (agenda_raise _ (by decide)))
    show (s.begun 0x52 d).2.fwBody (s.begun 0x52 d).1 = _
    unfold State.fwBody
    rw [show (s.begun 0x52 d).1.desc.memErr = d.memErr from rfl, hmem]
    rfl
  · refine takes_ended (f := fun t => t) rfl h (by decide) (by decide) ?_
      (rests_retire_of_agenda (calm_of_reaches (reaches_of_accepts h)) rfl)
    show (s.begun 0x51 d).2.bundleBody (s.begun 0x51 d).1 = _
    unfold State.bundleBody
    rw [show (s.begun 0x51 d).1.desc.memErr = d.memErr from rfl, hmem]
    rfl
  · unfold State.flashStep
    rw [hwait]

end Sys2Proof.Machine
end

/-! ### The loads (R94, R99, R144, R150, R152, R394) -/

section
namespace Sys2Proof.Machine

/-! What the banks and the learn bus leave -/

/-- What a request for leave is decided from, the registers and the drain stand as they were. -/
structure SameLeave (s t : State) : Prop where
  regs : t.regs = s.regs
  tmrB : t.tmrB = s.tmrB
  tmrC : t.tmrC = s.tmrC
  part : t.part = s.part
  pwr : t.pwr = s.pwr
  dev : t.dev = s.dev
  fault : t.key.doubleFault = s.key.doubleFault
  gap : t.key.gapEnd = s.key.gapEnd
  replay : t.key.replay = s.key.replay
  grants : t.key.ks.grants = s.key.ks.grants
  queue : t.key.ks.queue = s.key.ks.queue
  draining : t.draining = s.draining
  mram : t.mram = s.mram

namespace SameLeave

theorem refl (s : State) : SameLeave s s := ⟨rfl, rfl, rfl, rfl, rfl, rfl, rfl, rfl, rfl, rfl, rfl, rfl, rfl⟩

theorem trans {s t u : State} (h : SameLeave s t) (g : SameLeave t u) : SameLeave s u :=
  ⟨g.regs.trans h.regs, g.tmrB.trans h.tmrB, g.tmrC.trans h.tmrC, g.part.trans h.part, g.pwr.trans h.pwr, g.dev.trans h.dev,
    g.fault.trans h.fault, g.gap.trans h.gap, g.replay.trans h.replay, g.grants.trans h.grants, g.queue.trans h.queue,
    g.draining.trans h.draining, g.mram.trans h.mram⟩

theorem each {α : Type} (s : State) (l : List α) (f : State → α → State) (h : ∀ t x, SameLeave t (f t x)) : SameLeave s (s.each l f) :=
  each_keeps (SameLeave s) f l (fun t x _ k => k.trans (h t x)) s (refl s)

theorem issueCtl (s : State) (e : BusEvent) : SameLeave s (s.issueCtl e) := by
  unfold State.issueCtl
  split
  · exact ⟨rfl, rfl, rfl, rfl, rfl, rfl, rfl, rfl, rfl, rfl, rfl, rfl, rfl⟩
  · split
    · exact refl s
    · split
      · exact ⟨rfl, rfl, rfl, rfl, rfl, rfl, rfl, rfl, rfl, rfl, rfl, rfl, rfl⟩
      · exact ⟨rfl, rfl, rfl, rfl, rfl, rfl, rfl, rfl, rfl, rfl, rfl, rfl, rfl⟩

theorem staticEvents (s : State) (l other : List StaticEntry) (bank : Nat) (add : Bool) : SameLeave s (s.staticEvents l other bank add) := by
  unfold State.staticEvents
  refine each s l _ fun t e => ?_
  split
  · exact issueCtl t _
  · split <;> exact issueCtl t _

theorem emptyShadow (s : State) : SameLeave s s.emptyShadow := by
  have hfreed : ∀ b : AshBank, SameLeave s ((s.freeTables true).setAsh true b) := fun _ => ⟨rfl, rfl, rfl, rfl, rfl, rfl, rfl, rfl, rfl, rfl, rfl, rfl, rfl⟩
  unfold State.emptyShadow
  dsimp only
  split
  · exact (hfreed _).trans (staticEvents ..)
  · exact hfreed _

theorem reg {s t : State} (h : SameLeave s t) (a : Nat) : t.reg a = s.reg a := reg_same h.regs h.tmrB h.tmrC h.part a

theorem getF {s t : State} (h : SameLeave s t) (f : Fld) : t.getF f = s.getF f := by
  unfold State.getF
  rw [h.reg]

theorem permanent {s t : State} (h : SameLeave s t) : t.permanent = s.permanent :=
  permanent_congr (fun x => domainOn_of_reg (h.reg _) (h.reg _) x) (by rw [h.pwr]) h.part

theorem ksBusy {s t : State} (h : SameLeave s t) : t.ksBusy = s.ksBusy := by
  unfold State.ksBusy State.inGap
  rw [h.gap, h.replay]

end SameLeave

theorem SameLeave.verifyAt {s t : State} (h : SameLeave s t) (b : Blob) (typ p : Nat) : t.verifyAt b typ p = s.verifyAt b typ p := by
  unfold State.verifyAt State.keySlot State.rollback
  rw [h.part, h.mram]

/-- Tables that are reserved hold other routes and TCAM entries, and nothing else changes. -/
theorem reserveTables_some {s x : State} {shadow : Bool} {b : AshBank} (h : s.reserveTables shadow b = some x) :
    ∃ hr tc, x = { s with hr := hr, tcam := tc } := by
  unfold State.reserveTables at h
  dsimp only at h
  split at h
  · exact nomatch h
  split at h
  · exact nomatch h
  split at h
  · exact nomatch h
  split at h
  · split at h
    · exact nomatch h
    · exact ⟨_, _, (Option.some.inj h).symm⟩
  · exact nomatch h

theorem SameLeave.reserveTables {s x : State} {shadow : Bool} {b : AshBank} (h : s.reserveTables shadow b = some x) : SameLeave s x := by
  obtain ⟨hr, tc, rfl⟩ := reserveTables_some h
  exact ⟨rfl, rfl, rfl, rfl, rfl, rfl, rfl, rfl, rfl, rfl, rfl, rfl, rfl⟩

theorem agenda_reserveTables {s x : State} {shadow : Bool} {b : AshBank} (h : s.reserveTables shadow b = some x) : x.agenda = s.agenda := by
  obtain ⟨hr, tc, rfl⟩ := reserveTables_some h
  rfl

theorem agenda_staticEvents (s : State) (l other : List StaticEntry) (bank : Nat) (add : Bool) :
    (s.staticEvents l other bank add).agenda = s.agenda := by
  unfold State.staticEvents
  refine agenda_each _ _ _ fun t e _ => ?_
  split
  · exact agenda_issueCtl t _
  · split <;> exact agenda_issueCtl t _

theorem agenda_setAsh (s : State) (shadow : Bool) (b : AshBank) : (s.setAsh shadow b).agenda = s.agenda := (rfl)

theorem agenda_emptyShadow (s : State) : s.emptyShadow.agenda = s.agenda := by
  unfold State.emptyShadow
  dsimp only
  split
  · exact (agenda_staticEvents ..).trans rfl
  · rfl

theorem agenda_writeFull (s : State) (b : AshBank) : (s.writeFull b).agenda = s.agenda := by
  unfold State.writeFull
  rw [agenda_staticEvents, agenda_setAsh]

theorem agenda_patchRefused (s : State) : s.patchRefused.agenda = s.agenda := by
  unfold State.patchRefused
  rw [agenda_setF _ _ (by decide), agenda_setF _ _ (by decide)]

theorem pipeEvent_guard (n : Nat) : guardReg (F.PIPE_EVENT_patch_done n).addr = false := by
  refine guard_high ?_
  unfold F.PIPE_EVENT_patch_done Addr.PIPE_EVENT
  dsimp only
  omega

theorem agenda_writePatch {s x : State} {l : Load} (h : s.writePatch l = some x) : x.agenda = s.agenda := by
  unfold State.writePatch at h
  split at h
  · exact absurd h (by simp)
  next s1 hreserved =>
    extract_lets old src b me oth s2 s3 left s4 s5 at h
    have h1 := agenda_reserveTables hreserved
    have h2 : s2.agenda = s1.agenda := agenda_staticEvents ..
    have h3 : s3.agenda = s2.agenda := (agenda_staticEvents ..).trans (agenda_setAsh ..)
    have h4 : s4.agenda = s3.agenda := by
      simp only [s4]
      split
      · rfl
      · rw [agenda_dropCause, agenda_advanceFor, agenda_sectionsChanged]
    have h5 : s5.agenda = s4.agenda := by
      simp only [s5]
      rw [agenda_setF _ _ (by decide), agenda_setF _ _ (by decide)]
    rw [← Option.some.inj h, agenda_each _ _ _ fun t n _ => agenda_raise t (pipeEvent_guard n), h5, h4, h3, h2, h1]

/-! Leave for TCAM entries -/

/-- A load that writes TCAM entries holds leave for 20 W (R394). -/
def State.loadLeave (s : State) (ring : Nat) (tcam : Bool) : State :=
  if tcam then (s.setKs fun k => { k with grants := k.grants ++ [⟨4, ring, 200⟩] }).ksLog .power else s

theorem keep_loadLeave (s : State) (ring : Nat) (tcam : Bool) (h : s.key.log.length < 767) : Keep s (s.loadLeave ring tcam) := by
  unfold State.loadLeave
  split
  · exact Keep.ksLog (Keep.of_agenda (agenda_setKs s (fun k => { k with grants := k.grants ++ [⟨4, ring, 200⟩] }) rfl)) .power h
  · exact Keep.refl s

theorem loadLeave_log (s : State) (ring : Nat) (tcam : Bool) : (s.loadLeave ring tcam).key.log.length ≤ s.key.log.length + 1 := by
  unfold State.loadLeave
  split
  · exact State.Rests.ksLog_length ..
  · omega

theorem ksLog_draining (s : State) (kind : LogKind) : (s.ksLog kind).draining = s.draining := by
  unfold State.ksLog
  split
  · rfl
  · dsimp only
    split <;> rfl

theorem loadLeave_draining (s : State) (ring : Nat) (tcam : Bool) : (s.loadLeave ring tcam).draining = s.draining := by
  unfold State.loadLeave
  split
  · exact ksLog_draining _ _
  · rfl

theorem loadLeave_dev (s : State) (ring : Nat) (tcam : Bool) : (s.loadLeave ring tcam).dev = s.dev := by
  unfold State.loadLeave
  split
  · exact ksLog_dev _ _
  · rfl

/-- A load whose leave, where it needs one, is granted goes on at once. -/
theorem startLoad_granted {s : State} {l : Load} {tcam : Bool} (hfree : s.ksBusy = false) (hqueue : s.key.ks.queue = [])
    (hfault : s.key.doubleFault = false) (hdev : s.dev ≠ .parking ∧ s.dev ≠ .off ∧ s.dev ≠ .safeHold)
    (hfits : s.permanent + s.transient + 200 ≤ s.budget) : s.startLoad l tcam =
      if (s.loadLeave l.ring tcam).mustDrain l then
        (.wait (.drain l.ring), { s.loadLeave l.ring tcam with loads := (s.loadLeave l.ring tcam).loads ++ [{ l with asking := false }] })
      else (.done ((s.loadLeave l.ring tcam).writeLoad l).1 ((s.loadLeave l.ring tcam).writeLoad l).2.1 0,
        ((s.loadLeave l.ring tcam).writeLoad l).2.2.returnGrant 4 l.ring) := by
  have hgranted : s.decideLeave (tcamLeave l.ring) 0 = .granted :=
    decideLeave_granted (leaveClosed_eq_false hfault hdev _) (fun hreq => absurd hreq (by decide : ¬ (4 : Nat) < 2)) hfits
  unfold State.startLoad
  extract_lets wait go
  cases tcam with
  | false => rfl
  | true =>
    rw [if_neg (by decide), askLeave_granted hfree hqueue hgranted]
    rfl

/-! What an accepted load finds -/

theorem ringAdvance_reg_of_ne (s : State) (r n : Nat) {a : Nat} (h : a ≠ Addr.HIF_RING_HEAD r) : (s.ringAdvance r n).reg a = s.reg a :=
  reg_setF_other s (F.HIF_RING_HEAD_head r) h _

theorem taking_reg_of_ne (s : State) (d : CmdDesc) {a : Nat} (h : a ≠ Addr.HIF_RING_HEAD d.ring) : (s.taking d).reg a = s.reg a :=
  ringAdvance_reg_of_ne (s.hostPut _ _) d.ring 1 h

theorem begun_reg_low (s : State) (op : Nat) (d : CmdDesc) {a : Nat} (h : a < 0x11010) : (s.begun op d).2.reg a = s.reg a :=
  taking_reg_of_ne s d (by unfold Addr.HIF_RING_HEAD; omega)

theorem begun_fnVersion (s : State) (op : Nat) (d : CmdDesc) {f : Nat} (h : f < 16) : (s.begun op d).2.fnVersion f = s.fnVersion f := by
  unfold State.fnVersion State.getF
  rw [begun_reg_low s op d]
  unfold F.HIF_FN_VERSION_version Addr.HIF_FN_VERSION
  dsimp only
  omega

theorem begun_ownerFn (s : State) (op : Nat) (d : CmdDesc) : (s.begun op d).2.ownerFn d.ring = s.ownerFn d.ring :=
  begun_getF s op d (f := F.HIF_RING_CFG_owner_fn d.ring) (by unfold F.HIF_RING_CFG_owner_fn Addr.HIF_RING_CFG; dsimp only; omega)

/-- What a load of opcode `op` finds when it is accepted. -/
structure Loading (s : State) (op : Nat) (d : CmdDesc) (img : Blob) (p : Nat) : Prop where
  accepted : s.accepts op d = true
  obj : (s.begun op d).1.obj = img
  at_ : sigBlockAt img = some p
  mem : d.memErr = false
  free : s.ksBusy = false
  log : s.key.log.length < 766
  fault : s.key.doubleFault = false
  dev : s.dev ≠ .parking ∧ s.dev ≠ .off ∧ s.dev ≠ .safeHold
  fits : s.permanent + s.transient + 200 ≤ s.budget

theorem loading_of {s : State} {op p : Nat} {d : CmdDesc} {img : Blob} {i : CmdInfo} (hinfo : cmdInfo op = some i) (hinput : i.input = true)
    (hlegal : i.legal = [1, 2, 3]) (h : s.accepts op d = true) (hargs : (cmdOf op).args d (s.taking d) = 0 → d.argAddr ≠ 0)
    (hmem : d.memErr = false) (hfree : s.ksBusy = false) (hlog : s.key.log.length < 766)
    (hblob : (s.begun op d).2.hostBlob d.argAddr d.argLen = img) (hat : sigBlockAt img = some p) (hfault : s.key.doubleFault = false)
    (hfits : s.permanent + s.transient + 200 ≤ s.budget) : Loading s op d img p := by
  obtain ⟨-, hzero, -⟩ := accepts_parts hinfo h
  exact ⟨h, (begun_obj hinfo hinput hmem (hargs hzero)).trans hblob, hat, hmem, hfree, hlog, hfault, dev_of_accepts hinfo hlegal h, hfits⟩

namespace Loading

variable {s : State} {op p : Nat} {d : CmdDesc} {img : Blob}

theorem calm (h : Loading s op d img p) : s.calm = true := calm_of_reaches (reaches_of_accepts h.accepted)

/-- A state that differs from the one that has accepted the load in its banks and on the learn bus starts the load with its leave. -/
theorem startLoad (h : Loading s op d img p) {t : State} (ht : SameLeave (s.begun op d).2 t) {l : Load} {tcam : Bool} : t.startLoad l tcam =
    if (t.loadLeave l.ring tcam).mustDrain l then
      (.wait (.drain l.ring), { t.loadLeave l.ring tcam with loads := (t.loadLeave l.ring tcam).loads ++ [{ l with asking := false }] })
    else (.done ((t.loadLeave l.ring tcam).writeLoad l).1 ((t.loadLeave l.ring tcam).writeLoad l).2.1 0,
      ((t.loadLeave l.ring tcam).writeLoad l).2.2.returnGrant 4 l.ring) := by
  have hqueue : (s.begun op d).2.key.ks.queue = [] := (rests_of_calm h.calm).queue
  have htransient : t.transient = s.transient := (congrArg (fun l : List Grant => (l.map Grant.cost).sum) ht.grants).trans rfl
  have hbudget : t.budget = s.budget := (ht.getF F.PWR_BUDGET_budget).trans (begun_budget s op d)
  refine startLoad_granted (ht.ksBusy.trans h.free) (ht.queue.trans hqueue) (ht.fault.trans h.fault) ?_ ?_
  · rw [ht.dev]
    exact h.dev
  · rw [ht.permanent, begun_permanent, htransient, hbudget]
    exact h.fits

/-- A load that ends at once. -/
theorem ends (h : Loading s op d img p) {i : Instr} (hexec : exec i s = run (fun t => t.takeCommand (cmdOf op) op d) s)
    (hinput : keystoneInput op = true) {f : State → State} {st r0 : Nat}
    (hbody : (cmdOf op).body (s.begun op d).1 (s.begun op d).2 = (.done st r0 0, f (s.begun op d).2))
    (hagenda : (f (s.begun op d).2).agenda = (s.begun op d).2.agenda) : Takes i s ((s.ended op d f st r0 0).ksLog .command) :=
  takes_ended_logged hexec h.accepted h.free hinput hbody (rests_retire_of_agenda h.calm hagenda) (by have := h.log; omega)

/-- The same after leave has been taken. -/
theorem ends_leased (h : Loading s op d img p) {i : Instr} (hexec : exec i s = run (fun t => t.takeCommand (cmdOf op) op d) s)
    (hinput : keystoneInput op = true) {f : State → State} {t : State} {st r0 : Nat} {tcam : Bool}
    (hbody : (cmdOf op).body (s.begun op d).1 (s.begun op d).2 = (.done st r0 0, f (s.begun op d).2))
    (ht : t.agenda = (s.begun op d).2.agenda) (hagenda : (f (s.begun op d).2).agenda = (t.loadLeave d.ring tcam).agenda) :
    Takes i s ((s.ended op d f st r0 0).ksLog .command) := by
  have hlen : t.key.log.length = s.key.log.length := (logLength_of_agenda ht).trans rfl
  have hlog := h.log
  have k : Keep (s.begun op d).2 (f (s.begun op d).2) :=
    ((Keep.of_agenda ht).trans (keep_loadLeave t d.ring tcam (by omega))).trans (Keep.of_agenda hagenda)
  refine takes_ended_logged hexec h.accepted h.free hinput hbody
    (rests_retire_of_keep h.calm k (n := s.key.log.length + 1) ?_) (by omega)
  rw [logLength_of_agenda hagenda, ← hlen]
  exact loadLeave_log ..

/-- A load that waits for its bank to drain. -/
theorem waits_leased (h : Loading s op d img p) {i : Instr} (hexec : exec i s = run (fun t => t.takeCommand (cmdOf op) op d) s)
    (hinput : keystoneInput op = true) {f : State → State} {t : State} {tcam : Bool}
    (hbody : (cmdOf op).body (s.begun op d).1 (s.begun op d).2 = (.wait (.drain d.ring), f (s.begun op d).2))
    (ht : t.agenda = (s.begun op d).2.agenda) (hagenda : (f (s.begun op d).2).agenda = (t.loadLeave d.ring tcam).agenda) :
    Takes i s ((s.waits op d f (.drain d.ring)).ksLog .command) := by
  have hlen : t.key.log.length = s.key.log.length := (logLength_of_agenda ht).trans rfl
  have hlog := h.log
  have hheld : (t.loadLeave d.ring tcam).Holds (s.begun op d).1 (s.key.log.length + 1) :=
    Holds.of_keep (Holds.of_agenda (begun_holds h.calm op d) ht) (keep_loadLeave t d.ring tcam (by omega)) (loadLeave_dev ..)
      (hlen ▸ loadLeave_log ..)
  exact takes_waits_logged hexec h.accepted h.free hinput hbody (Holds.of_agenda hheld hagenda) (by omega)
    ⟨fun hw => Wait.noConfusion hw, rfl, rfl, fun hw => Wait.noConfusion hw⟩

end Loading

/-! LOAD_EPHEMERIS -/

/-- The shadow Ephemeris is another. -/
def State.withShadowEph (s : State) (b : EphBank) : State := { s with eph := (s.eph.1, b) }

theorem sameLeave_withShadowEph (s : State) (b : EphBank) : SameLeave s (s.withShadowEph b) :=
  ⟨rfl, rfl, rfl, rfl, rfl, rfl, rfl, rfl, rfl, rfl, rfl, rfl, rfl⟩

theorem loadEphBody_reads {s : State} {e : InFlight} {img : Blob} (hmem : e.desc.memErr = false) (hobj : e.obj = img)
    (hflight : s.hif.inflight = [e]) : s.loadEphBody e = (match (s.withShadowEph .empty).verify img 3 with
      | (.error c, s1) => (.fail c, s1)
      | (.ok p, s1) => match ephCheck img p with
        | 0 => (.done 0 (ephId img) 0, s1.withShadowEph ⟨true, img.slice 0 p, signedOf img p, []⟩)
        | c => (.fail c, s1)) := by
  have hfree : (s.withShadowEph .empty).unitTaken e = false := unitTaken_alone hflight
  subst hobj
  unfold State.loadEphBody
  rw [hmem, if_neg Bool.false_ne_true]
  exact unitWork_free hfree State.loadEphWork

theorem loadEphemeris {s : State} {d : CmdDesc} {img : Blob} {p : Nat} (h : Loading s 0x12 d img p) :
    Takes (.loadEphemeris d) s (State.ksLog
      (if s.verifyAt img 3 p ≠ 0 then s.ended 0x12 d (fun t => (t.withShadowEph .empty).noteVerify 3 (s.verifyAt img 3 p) (img.le (p + 0x0C) 1))
        (reasonCode (s.verifyAt img 3 p)) 0 0
      else if ephCheck img p ≠ 0 then s.ended 0x12 d (fun t => t.withShadowEph .empty) (ephCheck img p) 0 0
      else s.ended 0x12 d (fun t => t.withShadowEph ⟨true, img.slice 0 p, signedOf img p, []⟩) 0 (ephId img) 0) .command) := by
  have hbody : (cmdOf 0x12).body (s.begun 0x12 d).1 (s.begun 0x12 d).2 = (s.begun 0x12 d).2.loadEphBody (s.begun 0x12 d).1 := rfl
  rw [loadEphBody_reads (show (s.begun 0x12 d).1.desc.memErr = false from h.mem) h.obj (begun_holds h.calm 0x12 d).flight] at hbody
  have hat : ((s.begun 0x12 d).2.withShadowEph .empty).verifyAt img 3 p = s.verifyAt img 3 p :=
    (sameLeave_withShadowEph _ _).verifyAt img 3 p
  by_cases hbad : s.verifyAt img 3 p = 0
  · rw [verify_ok h.at_ (hat.trans hbad)] at hbody
    rw [if_neg (not_not_intro hbad)]
    dsimp only at hbody
    by_cases hcheck : ephCheck img p = 0
    · rw [if_neg (not_not_intro hcheck)]
      rw [hcheck] at hbody
      exact h.ends (f := fun t => t.withShadowEph ⟨true, img.slice 0 p, signedOf img p, []⟩) rfl (by decide) hbody rfl
    · rw [if_pos hcheck]
      have hfails : (cmdOf 0x12).body (s.begun 0x12 d).1 (s.begun 0x12 d).2 = (.fail (ephCheck img p), (s.begun 0x12 d).2.withShadowEph .empty) := by
        rw [hbody]
        split
        · exact absurd (by assumption) hcheck
        · rfl
      exact h.ends (f := fun t => t.withShadowEph .empty) rfl (by decide) hfails rfl
  · rw [verify_error h.at_ hat hbad] at hbody
    rw [if_pos hbad]
    exact h.ends (f := fun t => (t.withShadowEph .empty).noteVerify 3 (s.verifyAt img 3 p) (img.le (p + 0x0C) 1)) rfl (by decide) hbody
      ((agenda_noteVerify ..).trans rfl)

/-! LOAD_ASHLAR -/

theorem loadAshlarBody_reads {s : State} {e : InFlight} {img : Blob} (hmem : e.desc.memErr = false) (hobj : e.obj = img)
    (hflight : s.hif.inflight = [e]) : s.loadAshlarBody e = (match s.emptyShadow.verify img 2 with
      | (.error c, s1) => (.fail c, s1)
      | (.ok p, s1) => match imageCheck img p (s1.fnVersion (s1.ownerFn e.ring)) with
        | 0 => match s1.reserveTables true (bankOf img (signedOf img p)) with
          | none => (.fail 0x0B, s1)
          | some s2 => s2.startLoad ⟨e.ring, false, true, bankOf img (signedOf img p), 0, [], false⟩
            (decide ((bankOf img (signedOf img p)).tcamCount ≠ 0))
        | c => (.fail c, s1)) := by
  have hfree : s.emptyShadow.unitTaken e = false := unitTaken_alone ((Keep.of_agenda (agenda_emptyShadow s)).flight.trans hflight)
  subst hobj
  unfold State.loadAshlarBody
  rw [hmem, if_neg Bool.false_ne_true]
  exact unitWork_free hfree State.loadAshlarWork

/-- The work of a full image on a bank that its tables hold, with the leave that it needs. -/
theorem writeFull_load (t : State) (ring : Nat) (b : AshBank) : t.writeLoad ⟨ring, false, true, b, 0, [], false⟩ = (0, b.id, t.writeFull b) := (rfl)

theorem mustDrain_full (t : State) (ring : Nat) (b : AshBank) : t.mustDrain ⟨ring, false, true, b, 0, [], false⟩ = t.draining := by
  unfold State.mustDrain
  rw [Bool.and_true, Bool.not_false, Bool.and_true]

theorem loadAshlar {s : State} {d : CmdDesc} {img : Blob} {p : Nat} (h : Loading s 0x10 d img p) {b : AshBank}
    (hb : bankOf img (signedOf img p) = b) :
    Takes (.loadAshlar d) s (State.ksLog
      (if s.verifyAt img 2 p ≠ 0 then s.ended 0x10 d (fun t => t.emptyShadow.noteVerify 2 (s.verifyAt img 2 p) (img.le (p + 0x0C) 1))
        (reasonCode (s.verifyAt img 2 p)) 0 0
      else if imageCheck img p (s.fnVersion (s.ownerFn d.ring)) ≠ 0 then
        s.ended 0x10 d State.emptyShadow (imageCheck img p (s.fnVersion (s.ownerFn d.ring))) 0 0
      else match (s.begun 0x10 d).2.emptyShadow.reserveTables true b with
        | none => s.ended 0x10 d State.emptyShadow 0x0B 0 0
        | some x =>
          if s.draining then
            s.waits 0x10 d (fun _ => { x.loadLeave d.ring (decide (b.tcamCount ≠ 0)) with
              loads := (x.loadLeave d.ring (decide (b.tcamCount ≠ 0))).loads ++ [⟨d.ring, false, true, b, 0, [], false⟩] }) (.drain d.ring)
          else s.ended 0x10 d (fun _ => ((x.loadLeave d.ring (decide (b.tcamCount ≠ 0))).writeFull b).returnGrant 4 d.ring) 0 b.id 0) .command) := by
  have hbody : (cmdOf 0x10).body (s.begun 0x10 d).1 (s.begun 0x10 d).2 = (s.begun 0x10 d).2.loadAshlarBody (s.begun 0x10 d).1 := rfl
  rw [loadAshlarBody_reads (show (s.begun 0x10 d).1.desc.memErr = false from h.mem) h.obj (begun_holds h.calm 0x10 d).flight,
    show (s.begun 0x10 d).1.ring = d.ring from rfl] at hbody
  have hempty := SameLeave.emptyShadow (s.begun 0x10 d).2
  have hat : (s.begun 0x10 d).2.emptyShadow.verifyAt img 2 p = s.verifyAt img 2 p := hempty.verifyAt img 2 p
  have hagenda := agenda_emptyShadow (s.begun 0x10 d).2
  by_cases hbad : s.verifyAt img 2 p = 0
  · rw [verify_ok h.at_ (hat.trans hbad)] at hbody
    rw [if_neg (not_not_intro hbad)]
    have howner : (s.begun 0x10 d).2.emptyShadow.ownerFn d.ring = s.ownerFn d.ring := (hempty.getF _).trans (begun_ownerFn s 0x10 d)
    have hversion : (s.begun 0x10 d).2.emptyShadow.fnVersion (s.ownerFn d.ring) = s.fnVersion (s.ownerFn d.ring) :=
      (hempty.getF _).trans (begun_fnVersion s 0x10 d (ownerFn_lt s d.ring))
    dsimp only at hbody
    rw [howner, hversion, hb] at hbody
    by_cases hcheck : imageCheck img p (s.fnVersion (s.ownerFn d.ring)) = 0
    · rw [if_neg (not_not_intro hcheck)]
      rw [hcheck] at hbody
      cases hreserved : (s.begun 0x10 d).2.emptyShadow.reserveTables true b with
      | none =>
        rw [hreserved] at hbody
        exact h.ends (f := State.emptyShadow) rfl (by decide) hbody hagenda
      | some x =>
        rw [hreserved] at hbody
        dsimp only at hbody ⊢
        have hdrain : (x.loadLeave d.ring (decide (b.tcamCount ≠ 0))).draining = s.draining :=
          (loadLeave_draining ..).trans ((SameLeave.reserveTables hreserved).draining.trans hempty.draining)
        rw [h.startLoad (hempty.trans (SameLeave.reserveTables hreserved)), mustDrain_full, hdrain] at hbody
        have hx := (agenda_reserveTables hreserved).trans hagenda
        by_cases hd : s.draining = true
        · rw [if_pos hd] at hbody ⊢
          exact h.waits_leased (f := fun _ => { x.loadLeave d.ring (decide (b.tcamCount ≠ 0)) with
              loads := (x.loadLeave d.ring (decide (b.tcamCount ≠ 0))).loads ++ [⟨d.ring, false, true, b, 0, [], false⟩] })
            rfl (by decide) hbody hx rfl
        · rw [if_neg hd] at hbody ⊢
          rw [writeFull_load] at hbody
          exact h.ends_leased (f := fun _ => ((x.loadLeave d.ring (decide (b.tcamCount ≠ 0))).writeFull b).returnGrant 4 d.ring) rfl (by decide)
            hbody hx ((agenda_returnGrant ..).trans (agenda_writeFull ..))
    · rw [if_pos hcheck]
      have hfails : (cmdOf 0x10).body (s.begun 0x10 d).1 (s.begun 0x10 d).2 =
          (.fail (imageCheck img p (s.fnVersion (s.ownerFn d.ring))), (s.begun 0x10 d).2.emptyShadow) := by
        rw [hbody]
        split
        · exact absurd (by assumption) hcheck
        · rfl
      exact h.ends (f := State.emptyShadow) rfl (by decide) hfails hagenda
  · rw [verify_error h.at_ hat hbad] at hbody
    rw [if_pos hbad]
    exact h.ends (f := fun t => t.emptyShadow.noteVerify 2 (s.verifyAt img 2 p) (img.le (p + 0x0C) 1)) rfl (by decide) hbody
      ((agenda_noteVerify ..).trans hagenda)

/-! PATCH_ASHLAR -/

theorem patchAshlarBody_reads {s : State} {e : InFlight} {d : CmdDesc} {img : Blob} (hmem : d.memErr = false) (hobj : e.obj = img)
    (hdesc : e.desc = d) (hflight : s.hif.inflight = [e]) : s.patchAshlarBody e = (match s.verify img 2 with
      | (.error c, s1) => (.fail c, s1.patchRefused)
      | (.ok p, s1) => match patchVersion img, patchedBank img p (signedOf img p) (s1.ashOf (patchesShadow d)) with
        | 0, some (b, w) =>
          if (s1.reserveTables (patchesShadow d) b).isNone then (.fail 0x0B, s1.patchRefused)
          else s1.startLoad ⟨d.ring, true, patchesShadow d, b, img.le 0x38 4, w, false⟩ (w.any fun x => decide (x.1 = 10))
        | 0, none => (.fail 0x02, s1.patchRefused)
        | c, _ => (.fail c, s1.patchRefused)) := by
  subst hdesc hobj
  unfold State.patchAshlarBody
  rw [hmem, if_neg Bool.false_ne_true]
  exact unitWork_free (unitTaken_alone hflight) State.patchAshlarWork

theorem mustDrain_patch (t : State) {l : Load} (h : l.isPatch = true) : t.mustDrain l = false := by
  unfold State.mustDrain
  rw [h, Bool.not_true, Bool.and_false]

theorem writeLoad_patch (t : State) {l : Load} (h : l.isPatch = true) : t.writeLoad l =
    (match t.writePatch l with | none => (0x0B, 0, t.patchRefused) | some x => (0, l.content.id, x)) := by
  unfold State.writeLoad
  rewrite [h, if_pos rfl]
  rfl

theorem patchAshlar {s : State} {d : CmdDesc} {img : Blob} {p : Nat} (h : Loading s 0x11 d img p) (hversion : patchVersion img = 0) :
    Takes (.patchAshlar d) s (State.ksLog
      (if s.verifyAt img 2 p ≠ 0 then s.ended 0x11 d (fun t => (t.noteVerify 2 (s.verifyAt img 2 p) (img.le (p + 0x0C) 1)).patchRefused)
        (reasonCode (s.verifyAt img 2 p)) 0 0
      else match patchedBank img p (signedOf img p) (s.ashOf (patchesShadow d)) with
        | none => s.ended 0x11 d State.patchRefused 0x02 0 0
        | some (b, w) =>
          if ((s.begun 0x11 d).2.reserveTables (patchesShadow d) b).isNone then s.ended 0x11 d State.patchRefused 0x0B 0 0
          else match ((s.begun 0x11 d).2.loadLeave d.ring (w.any fun e => decide (e.1 = 10))).writePatch
              ⟨d.ring, true, patchesShadow d, b, img.le 0x38 4, w, false⟩ with
            | none => s.ended 0x11 d (fun t => (t.loadLeave d.ring (w.any fun e => decide (e.1 = 10))).patchRefused.returnGrant 4 d.ring) 0x0B 0 0
            | some x => s.ended 0x11 d (fun _ => x.returnGrant 4 d.ring) 0 b.id 0) .command) := by
  have hbody : (cmdOf 0x11).body (s.begun 0x11 d).1 (s.begun 0x11 d).2 = (s.begun 0x11 d).2.patchAshlarBody (s.begun 0x11 d).1 := rfl
  rw [patchAshlarBody_reads h.mem h.obj rfl (begun_holds h.calm 0x11 d).flight] at hbody
  have hat := begun_verifyAt s 0x11 d img 2 p
  by_cases hbad : s.verifyAt img 2 p = 0
  · rw [verify_ok h.at_ (hat.trans hbad)] at hbody
    rw [if_neg (not_not_intro hbad)]
    dsimp only at hbody
    rw [hversion, show (s.begun 0x11 d).2.ashOf (patchesShadow d) = s.ashOf (patchesShadow d) from rfl] at hbody
    cases hpatched : patchedBank img p (signedOf img p) (s.ashOf (patchesShadow d)) with
    | none =>
      rw [hpatched] at hbody
      exact h.ends (f := State.patchRefused) rfl (by decide) hbody (agenda_patchRefused _)
    | some r =>
      obtain ⟨b, w⟩ := r
      rw [hpatched] at hbody
      simp only at hbody ⊢
      by_cases hfull : ((s.begun 0x11 d).2.reserveTables (patchesShadow d) b).isNone = true
      · rw [if_pos hfull] at hbody ⊢
        exact h.ends (f := State.patchRefused) rfl (by decide) hbody (agenda_patchRefused _)
      · rw [if_neg hfull] at hbody ⊢
        rw [h.startLoad (SameLeave.refl _), mustDrain_patch _ rfl, if_neg Bool.false_ne_true, writeLoad_patch _ rfl] at hbody
        dsimp only at hbody
        cases hwritten : ((s.begun 0x11 d).2.loadLeave d.ring (w.any fun e => decide (e.1 = 10))).writePatch
            ⟨d.ring, true, patchesShadow d, b, img.le 0x38 4, w, false⟩ with
        | none =>
          rw [hwritten] at hbody
          exact h.ends_leased (f := fun t => (t.loadLeave d.ring (w.any fun e => decide (e.1 = 10))).patchRefused.returnGrant 4 d.ring) rfl
            (by decide) hbody rfl ((agenda_returnGrant ..).trans (agenda_patchRefused _))
        | some x =>
          rw [hwritten] at hbody
          exact h.ends_leased (f := fun _ => x.returnGrant 4 d.ring) rfl (by decide) hbody rfl
            ((agenda_returnGrant ..).trans (agenda_writePatch hwritten))
  · rw [verify_error h.at_ hat hbad] at hbody
    rw [if_pos hbad]
    exact h.ends (f := fun t => (t.noteVerify 2 (s.verifyAt img 2 p) (img.le (p + 0x0C) 1)).patchRefused) rfl (by decide) hbody
      ((agenda_patchRefused _).trans (agenda_noteVerify ..))

/-- A load whose object cannot be read ends with HOST_MEMORY_ERROR (R328). -/
theorem unreadLoad {i : Instr} {s : State} {op : Nat} {d : CmdDesc} {f : State → State}
    (hexec : exec i s = run (fun t => t.takeCommand (cmdOf op) op d) s) (h : s.accepts op d = true) (hfree : s.ksBusy = false)
    (hlog : s.key.log.length < 767) (hinput : keystoneInput op = true)
    (hbody : (cmdOf op).body (s.begun op d).1 (s.begun op d).2 = (.fail 0x0E, f (s.begun op d).2))
    (hagenda : (f (s.begun op d).2).agenda = (s.begun op d).2.agenda) : Takes i s ((s.ended op d f 0x0E 0 0).ksLog .command) :=
  takes_ended_logged hexec h hfree hinput hbody (rests_retire_of_agenda (calm_of_reaches (reaches_of_accepts h)) hagenda) hlog

/-- Settles O51: a load is verified, checked and placed at once, where its object can be read. -/
theorem loadCommands : Obligations.LoadCommands := by
  refine ⟨fun s d hmem hfree hlog => ⟨fun h => ?_, fun h => ?_, fun h => ?_⟩,
    fun s d op p img h hmem hfree hlog hblob hat hfault hfits => ⟨fun hop => ?_, fun hop => ?_, fun hop hversion => ?_⟩⟩
  · refine unreadLoad (f := fun t => t.withShadowEph .empty) rfl h hfree hlog (by decide) ?_ rfl
    show (s.begun 0x12 d).2.loadEphBody (s.begun 0x12 d).1 = _
    unfold State.loadEphBody
    rw [show (s.begun 0x12 d).1.desc.memErr = true from hmem]
    rfl
  · refine unreadLoad (f := State.emptyShadow) rfl h hfree hlog (by decide) ?_ (agenda_emptyShadow _)
    show (s.begun 0x10 d).2.loadAshlarBody (s.begun 0x10 d).1 = _
    unfold State.loadAshlarBody
    rw [show (s.begun 0x10 d).1.desc.memErr = true from hmem]
    rfl
  · refine unreadLoad (f := State.patchRefused) rfl h hfree hlog (by decide) ?_ (agenda_patchRefused _)
    show (s.begun 0x11 d).2.patchAshlarBody (s.begun 0x11 d).1 = _
    unfold State.patchAshlarBody
    rw [show (s.begun 0x11 d).1.desc.memErr = true from hmem]
    rfl
  · subst hop
    exact loadEphemeris (loading_of (show cmdInfo 0x12 = some _ from rfl) rfl rfl h argAddr_of_inArgs hmem hfree hlog hblob hat hfault hfits)
  · subst hop
    exact loadAshlar (loading_of (show cmdInfo 0x10 = some _ from rfl) rfl rfl h argAddr_of_inArgs hmem hfree hlog hblob hat hfault hfits) rfl
  · subst hop
    have hargs : (cmdOf 0x11).args d (s.taking d) = 0 → d.argAddr ≠ 0 := fun hzero => by
      have hzero' : (if 1 < argLe d 24 1 then 0x02 else inArgs d) = 0 := hzero
      exact argAddr_of_inArgs (of_ite_eq_zero hzero').2
    exact patchAshlar (loading_of (show cmdInfo 0x11 = some _ from rfl) rfl rfl h hargs hmem hfree hlog hblob hat hfault hfits) hversion

end Sys2Proof.Machine
end

/-! ### What step 4 of a frame leaves due (R26, R147, R195 to R240) -/

section
namespace Sys2Proof.Machine

/-! Admission -/

theorem agenda_setExpand (s : State) (n : Nat) (l : List Nat) : (s.setExpand n l).agenda = s.agenda := (rfl)
theorem agenda_setPolicer (s : State) (k : Nat) (p : Option Policer) : (s.setPolicer k p).agenda = s.agenda := (rfl)
theorem agenda_setAsks (s : State) (k : Nat) (l : List Ask) : (s.setAsks k l).agenda = s.agenda := (rfl)

theorem acceptCopy_cases (s : State) (x n : Nat) :
    s.acceptCopy x n = (true, s) ∨ s.acceptCopy x n = (false, s.count 6 x 1) ∨ s.acceptCopy x n = (false, s.count 6 x 0) := by
  unfold State.acceptCopy
  split
  · exact .inr (.inl rfl)
  · split
    · exact .inr (.inr rfl)
    · exact .inl rfl

theorem agenda_acceptCopy (s : State) (x n : Nat) : (s.acceptCopy x n).2.agenda = s.agenda := by
  rcases acceptCopy_cases s x n with h | h | h <;> rw [h]
  all_goals exact agenda_count ..

theorem agenda_acceptAll (n : Nat) (l : List CopyReq) : ∀ s : State, (s.acceptAll n l).2.agenda = s.agenda := by
  induction l with
  | nil => intro s; rfl
  | cons c r ih =>
    intro s
    unfold State.acceptAll
    exact (ih _).trans (agenda_acceptCopy s c.queue n)

theorem agenda_mirrorTake (s : State) (i : Nat) (e : Session) : (s.mirrorTake i e).2.agenda = s.agenda := by
  unfold State.mirrorTake
  dsimp only
  split <;> rfl

theorem agenda_chargeFrame (s : State) (i : Nat) (f : Frame) (k n : Nat) (hbm : Bool) (l : List CopyReq) (path : Bool) :
    (s.chargeFrame i f k n hbm l path).agenda = s.agenda := by
  unfold State.chargeFrame
  extract_lets head full s1 asks src s2 s3 g
  have h1 : s1.agenda = s.agenda := by
    simp only [s1]
    split <;> exact agenda_poolMove ..
  have h2 : s2.agenda = s1.agenda := (agenda_doIf _ _ _ fun t => agenda_chargeMove t f.port f.cls n).trans (agenda_setPool ..)
  have h3 : s3.agenda = s2.agenda := agenda_each _ _ _ fun t c _ => agenda_setQueue t c.queue _
  rw [agenda_doIf _ _ _ fun t => agenda_count t 7 k 1, agenda_setExpand, agenda_setFrame, h3, h2, h1]

theorem agenda_giveWay (s : State) (k : Nat) (a : Ask) : (s.giveWay k a).agenda = s.agenda := by
  unfold State.giveWay
  split
  · rfl
  next f _ =>
    extract_lets late s1 rest
    have h1 : s1.agenda = s.agenda := (agenda_endFrame ..).trans (agenda_leaveExpand ..)
    rw [agenda_count, agenda_poolFail, agenda_setPool, h1]

theorem agenda_takeBack (s : State) (k : Nat) (a : Ask) : (s.takeBack k a).agenda = s.agenda := by
  unfold State.takeBack
  split
  · rfl
  next f _ =>
    extract_lets s1
    have h1 : s1.agenda = s.agenda := (agenda_countN ..).trans (agenda_setAsks ..)
    split
    · rfl
    · rw [agenda_doIf _ _ _ fun t => agenda_count t 8 0 4, agenda_chargeFrame, agenda_countN, h1]

theorem agenda_serveAsk (s : State) (k r n : Nat) : (s.serveAsk k r n).agenda = s.agenda := by
  unfold State.serveAsk
  split
  · rfl
  · extract_lets l held own won s1
    have h1 : s1.agenda = s.agenda := agenda_each _ _ _ fun t a _ => agenda_giveWay t k a
    exact (agenda_each _ _ _ fun t a _ => agenda_takeBack t k a).trans h1

theorem agenda_askFails (s : State) (k n i : Nat) (f : Frame) (full : Bool) : (s.askFails k n i f full).agenda = s.agenda := by
  unfold State.askFails
  dsimp only
  rw [agenda_dropFrame, agenda_count, agenda_poolFail, agenda_setAsks]

theorem agenda_admission (s : State) (i : Nat) (f : Frame) (asked : List CopyReq) (mir : Option (Nat × Session)) (full : Bool) :
    (s.admission i f asked mir full).2.agenda = s.agenda := by
  unfold State.admission
  extract_lets n
  split
  next l s1 hall =>
    have h1 : s1.agenda = s.agenda := (congrArg (fun r : List CopyReq × State => r.2.agenda) hall.symm).trans (agenda_acceptAll n asked s)
    split
    next took s2 htook =>
      have h2 : s2.agenda = s1.agenda := by
        split at htook
        · exact (congrArg (fun r : Bool × State => r.2.agenda) htook.symm).trans (agenda_mirrorTake ..)
        · rw [← (Prod.mk.inj htook).2]
      split
      · rw [agenda_dropFrame, agenda_count, h2, h1]
      · extract_lets plain g
        split
        next l1 s3 hcopies =>
          have h3 : s3.agenda = s2.agenda := by
            split at hcopies
            · split at hcopies
              · split at hcopies
                next ok t hok =>
                  have ht : t.agenda = s2.agenda := (congrArg (fun r : Bool × State => r.2.agenda) hok.symm).trans (agenda_acceptCopy ..)
                  split at hcopies
                  · rw [← (Prod.mk.inj hcopies).2, ht]
                  · rw [← (Prod.mk.inj hcopies).2, ht]
              · rw [← (Prod.mk.inj hcopies).2]
            · rw [← (Prod.mk.inj hcopies).2]
          extract_lets k s4
          split
          · rw [agenda_dropFrame, agenda_count, h3, h2, h1]
          · have h4 : s4.agenda = s3.agenda := agenda_serveAsk ..
            split
            · rw [agenda_askFails, h4, h3, h2, h1]
            · rw [agenda_doIf _ _ _ fun t => agenda_count t 8 0 4, agenda_chargeFrame, h4, h3, h2, h1]

/-! Streams, policing and learning -/

theorem agenda_frerLast (s : State) (n index : Nat) (isStream : Bool) : (s.frerLast n index isStream).agenda = s.agenda := by
  have hreg : Addr.PIPE_FRER_LAST n ≠ Addr.PLB_STATUS := plb_high (by unfold Addr.PIPE_FRER_LAST; omega)
  unfold State.frerLast
  rw [agenda_setF _ _ hreg, agenda_setF _ _ hreg]

theorem agenda_police (s : State) (k : Nat) (h : Hdr) (len : Nat) (known : Bool) : (s.police k h len known).2.agenda = s.agenda := by
  unfold State.police
  extract_lets e need
  split
  · rfl
  · generalize e.decide_ (s.policerNow k) _ need = r
    obtain ⟨col, mask, p⟩ := r
    simp only [apply_ite State.agenda, agenda_count, agenda_countN, agenda_setPolicer, ite_self]

theorem agenda_queueEvent (s : State) (n : Nat) (e : BusEvent) : (s.queueEvent n e).agenda = s.agenda := by
  have hguard : guardReg (F.PIPE_LRN_EVENT_queue_full n).addr = false := by
    refine guard_high ?_
    unfold F.PIPE_LRN_EVENT_queue_full Addr.PIPE_LRN_EVENT
    dsimp only
    omega
  unfold State.queueEvent
  dsimp only
  split
  · exact agenda_count ..
  · split
    · rw [agenda_raise _ hguard, agenda_count]
    · rw [agenda_count, agenda_setTab]

theorem agenda_changeLearned (s : State) (n vlan mac : Nat) (f : MacEntry → MacEntry) : (s.changeLearned n vlan mac f).agenda = s.agenda := by
  unfold State.changeLearned
  split <;> rfl

theorem agenda_raiseLearn (s : State) (n : Nat) (k : Probe) (vlan sa port : Nat) : (s.raiseLearn n k vlan sa port).agenda = s.agenda := by
  cases k with
  | none => rfl
  | learn => exact agenda_queueEvent ..
  | refresh => exact (agenda_queueEvent ..).trans (agenda_changeLearned ..)
  | frozen => exact agenda_count ..
  | fixed => exact agenda_count ..

theorem agenda_rangeError (s : State) (n : Nat) (r : Resolved) : (s.rangeError n r).agenda = s.agenda := by
  have hguard : guardReg (F.PIPE_EVENT_res_range_error n).addr = false := by
    refine guard_high ?_
    unfold F.PIPE_EVENT_res_range_error Addr.PIPE_EVENT
    dsimp only
    omega
  have herr : Addr.PIPE_RES_ERR n ≠ Addr.PLB_STATUS := plb_high (by unfold Addr.PIPE_RES_ERR; omega)
  have href : Addr.PIPE_RES_ERR_REF n ≠ Addr.PLB_STATUS := plb_high (by unfold Addr.PIPE_RES_ERR_REF; omega)
  unfold State.rangeError
  dsimp only
  rw [agenda_setF _ _ href, agenda_setReg _ _ herr, agenda_raise _ hguard, agenda_count]

/-- A MASKED report is counted, raised and logged. -/
theorem Rests.react_masked {s : State} {n : Nat} (h : s.Rests n) (diag inst a : Nat) (hn : n < 767) : (s.react diag 0 inst a).Rests (n + 1) := by
  rw [Machine.react_masked]
  exact State.Rests.ksLog (h.of_agenda (by rw [agenda_raise _ (by decide), agenda_count, agenda_endTest])) .safety hn

theorem Rests.homeDown {s : State} {n : Nat} (h : s.Rests n) (m index : Nat) (isStream : Bool) (hn : n < 767) :
    (s.homeDown m index isStream).Rests (n + 1) := by
  have hguard : guardReg (F.PIPE_REP_EVENT_home_down m).addr = false := by
    refine guard_high ?_
    unfold F.PIPE_REP_EVENT_home_down Addr.PIPE_REP_EVENT
    dsimp only
    omega
  unfold State.homeDown
  refine Rests.react_masked (h.of_agenda ?_) 0x15 index 0 hn
  rw [agenda_frerLast, agenda_raise _ hguard, agenda_doIf _ _ _ fun t => agenda_count t 12 index 9]

theorem Rests.frerStep {s : State} {n : Nat} (h : s.Rests n) (m : Nat) (b : AshBank) (f : Frame) (a : Act) (hn : n < 767) :
    (s.frerStep m b f a).2.Rests (n + 1) := by
  have hsame : s.Rests (n + 1) := h.mono (Nat.le_succ n)
  have hgenerate : (s.frerGenerate m b a.fn).2.Rests (n + 1) := by
    unfold State.frerGenerate
    split
    · exact Rests.homeDown h m a.fn true hn
    · exact hsame.of_agenda ((agenda_count ..).trans (agenda_setNextSeq ..))
  have hrecover : (s.frerRecover m f.port b a.fn f.hdr.rtag).2.Rests (n + 1) := by
    unfold State.frerRecover
    extract_lets e
    split
    · exact Rests.homeDown h m a.fn false hn
    · split
      · exact hsame.of_agenda (agenda_count ..)
      · exact hsame.of_agenda (agenda_count ..)
      · split
        next ok r1 cs _ =>
          exact hsame.of_agenda ((agenda_each _ _ _ fun t (c : Nat × Nat) _ => agenda_countN t 12 a.fn c.1 c.2).trans
            ((agenda_setRec ..).trans (agenda_count ..)))
  unfold State.frerStep
  split
  · split
    next v t ht =>
      rw [ht] at hgenerate
      exact hgenerate
    next t ht =>
      rw [ht] at hgenerate
      exact hgenerate
  · split
    next t ht =>
      rw [ht] at hrecover
      exact hrecover
    next t ht =>
      rw [ht] at hrecover
      exact hrecover
  · exact hsame

/-- Step 4 writes at most one entry in the conductor log. -/
theorem Rests.stepFour {s : State} {n : Nat} (h : s.Rests n) (m i : Nat) (b : AshBank) (f : Frame) (a : Act) (full : Bool) (hn : n < 767) :
    (s.stepFour m i b f a full).2.Rests (n + 1) := by
  have hfrer := Rests.frerStep h m b f a hn
  unfold State.stepFour
  split
  next s1 hstep =>
    rw [hstep] at hfrer
    exact hfrer.of_agenda (agenda_dropFrame ..)
  next q s1 hstep =>
    rw [hstep] at hfrer
    extract_lets len
    have hpolice := agenda_police s1 a.policer f.hdr len f.ended
    split
    next v s2 hv =>
      rw [hv] at hpolice
      have h2 : s2.Rests (n + 1) := State.Rests.of_agenda hfrer hpolice
      extract_lets g
      split
      · exact h2.of_agenda (agenda_dropFrame ..)
      · split
        · exact h2.of_agenda ((agenda_dropFrame ..).trans (agenda_count ..))
        · split
          · exact h2.of_agenda (agenda_dropFrame ..)
          · exact h2.of_agenda (agenda_admission ..)

/-! The parity of the entries that a lookup reads (R161, R178) -/

theorem tblErr_ne_plb (n : Nat) : Addr.PIPE_TBL_ERR n ≠ Addr.PLB_STATUS := plb_high (by unfold Addr.PIPE_TBL_ERR; omega)

theorem agenda_tblErr (s : State) (n table index : Nat) : (s.tblErr n table index).agenda = s.agenda := by
  unfold State.tblErr
  rw [agenda_setF _ _ (tblErr_ne_plb n), agenda_setF _ _ (tblErr_ne_plb n)]

theorem lrnEvent_guard (n : Nat) : guardReg (Addr.PIPE_LRN_EVENT n) = false := guard_high (by unfold Addr.PIPE_LRN_EVENT; omega)

theorem Rests.badWay {s : State} {n : Nat} (h : s.Rests n) (m w : Nat) (e : MacEntry) (hn : n < 767) : (s.badWay m w e).Rests (n + 1) := by
  unfold State.badWay
  refine Rests.react_masked (h.of_agenda ?_) 0x0A w 0 hn
  rw [agenda_tblErr, agenda_raise _ (lrnEvent_guard m), agenda_count, agenda_setTab]

theorem Rests.badUnit {s : State} {n : Nat} (h : s.Rests n) (u : Nat) (hn : n < 767) : (s.badUnit u).Rests (n + 1) := by
  unfold State.badUnit
  extract_lets s1
  refine Rests.react_masked (h.of_agenda ?_) 0x0A u 0 hn
  rw [agenda_each _ _ _ fun t k _ => (agenda_tblErr ..).trans (agenda_raise t (lrnEvent_guard k)),
    agenda_each _ _ _ fun t k _ => agenda_count t 4 k 14]
  rfl

theorem Rests.checkWays {s : State} {n : Nat} (h : s.Rests n) (m : Nat) (ws : List Nat) (hn : n + ws.length < 768) :
    (s.checkWays m ws).Rests (n + ws.length) := by
  unfold State.checkWays
  refine State.Rests.each_logged _ ws h hn fun t w _ k ht hk => ?_
  split
  · split
    · exact ht.mono (Nat.le_succ k)
    · exact Rests.badWay ht m w _ hk
  · exact ht.mono (Nat.le_succ k)

theorem Rests.checkUnits {s : State} {n : Nat} (h : s.Rests n) (buckets : List Nat) (hn : n + s.hr.length < 768) :
    (s.checkUnits buckets).Rests (n + s.hr.length) := by
  unfold State.checkUnits
  refine State.Rests.mono (State.Rests.each_logged _ _ h (Nat.lt_of_le_of_lt ?_ hn) fun t e _ k ht hk => Rests.badUnit ht e.unit hk) ?_
  · exact Nat.add_le_add_left (List.length_filter_le _ _) n
  · exact Nat.add_le_add_left (List.length_filter_le _ _) n

theorem hr_react_masked (s : State) (diag inst a : Nat) : (s.react diag 0 inst a).hr = s.hr := by
  have hlog : ∀ t : State, (t.ksLog .safety).hr = t.hr := fun t => by
    unfold State.ksLog
    split
    · rfl
    · dsimp only
      split <;> rfl
  rw [Machine.react_masked, hlog]
  unfold State.endTest
  split <;> rfl

theorem hr_checkWays (s : State) (m : Nat) (ws : List Nat) : (s.checkWays m ws).hr = s.hr := by
  unfold State.checkWays
  refine each_keeps (fun t => t.hr = s.hr) _ ws (fun t w _ ht => ?_) s rfl
  split
  · split
    · exact ht
    · unfold State.badWay
      rw [hr_react_masked]
      exact ht
  · exact ht

end Sys2Proof.Machine
end

/-! ### Header resolution (R31, R124 to R147, R162) -/

section
namespace Sys2Proof.Machine

theorem exec_headerResolve (s : State) (n : Nat) (full : Bool) :
    exec (.headerResolve ⟨n, full⟩) s = run (fun s => s.headerStep n full) s := (rfl)

theorem agenda_headerTaken (s : State) (n m : Nat) : (s.headerTaken n m).agenda = s.agenda := (rfl)

theorem headerStep_idle {s : State} {n : Nat} (full : Bool)
    (h : s.domainOn (17 + n) = false ∨ s.expandFull n = true ∨ s.nextHeader n = none) : s.headerStep n full = s := by
  unfold State.headerStep
  rcases h with h | h | h
  · rw [h]
    rfl
  · rw [h, Bool.or_true]
    rfl
  · rw [h]
    exact ite_self s

theorem headerStep_taken {s : State} {n m i : Nat} (full : Bool) (hon : s.domainOn (17 + n) = true) (hroom : s.expandFull n = false)
    (hnext : s.nextHeader n = some (m, i)) : s.headerStep n full = (match s.frame i with
      | none => s.headerTaken n m
      | some f => ((s.headerTaken n m).decideFrame n i f full).2) := by
  unfold State.headerStep
  rw [hon, hroom, hnext]
  rfl

/-- Without forwarding or an active image the frame is dropped (R124). -/
theorem decideFrame_off {s : State} {n m : Nat} (i : Nat) (f : Frame) (full : Bool)
    (h : s.getB (F.PIPE_CTRL_fwd_en n) = false ∨ s.ash.1.valid = false) :
    ((s.headerTaken n m).decideFrame n i f full).2 = (((s.headerTaken n m).count 3 n 0).count 3 n 1).dropFrame i (s.taken n f) := by
  have hcond : (!((s.headerTaken n m).count 3 n 0).getB (F.PIPE_CTRL_fwd_en n) || !(s.headerTaken n m).ash.1.valid) = true := by
    rcases h with h | h
    · rw [show ((s.headerTaken n m).count 3 n 0).getB (F.PIPE_CTRL_fwd_en n) = false from h]
      rfl
    · rw [show (s.headerTaken n m).ash.1.valid = false from h, Bool.not_false, Bool.or_true]
  unfold State.decideFrame
  extract_lets bank b s0 f1
  rw [if_pos hcond]
  rfl

theorem forwards_cond {s : State} {n : Nat} (m : Nat) (hfwd : s.getB (F.PIPE_CTRL_fwd_en n) = true) (hvalid : s.ash.1.valid = true) :
    (!((s.headerTaken n m).count 3 n 0).getB (F.PIPE_CTRL_fwd_en n) || !(s.headerTaken n m).ash.1.valid) = false := by
  rw [show ((s.headerTaken n m).count 3 n 0).getB (F.PIPE_CTRL_fwd_en n) = true from hfwd,
    show (s.headerTaken n m).ash.1.valid = true from hvalid]
  rfl

/-- A pipeline that the image does not reach drops the frame (R143). -/
theorem decideFrame_beyond {s : State} {n m : Nat} (i : Nat) (f : Frame) (full : Bool) (hfwd : s.getB (F.PIPE_CTRL_fwd_en n) = true)
    (hvalid : s.ash.1.valid = true) (hfmt : s.ash.1.fmt = 3) (hn : 4 ≤ n) :
    ((s.headerTaken n m).decideFrame n i f full).2 =
      ((((s.headerTaken n m).count 3 n 0).count 3 n 2).raise (F.PIPE_EVENT_image_limit_drop n)).dropFrame i (s.taken n f) := by
  unfold State.decideFrame
  extract_lets bank b s0 f1
  rw [if_neg (by rw [forwards_cond m hfwd hvalid]; exact Bool.false_ne_true), if_pos ⟨hfmt, hn⟩]
  rfl

/-- What the pipeline decides on a frame whose header it resolves (R124, R136, R147, R305). -/
theorem decideFrame_resolved {s : State} {n m : Nat} (i : Nat) (f : Frame) (full : Bool) (hfwd : s.getB (F.PIPE_CTRL_fwd_en n) = true)
    (hvalid : s.ash.1.valid = true) (hfmt : s.ash.1.fmt ≠ 3 ∨ n < 4) :
    ((s.headerTaken n m).decideFrame n i f full).2 =
      if (s.ash.1.entriesRead f.port (s.parsed f) (s.lookedUp n m f) (s.foundAct n m f)).any fun e => decide (e ∈ s.ash.1.poison) then
        ((s.checkedFor n m f).count 16 0 5).dropFrame i (s.taken n f)
      else match (s.lookedUp n m f).record with
        | none => ((s.checkedFor n m f).rangeError n (s.lookedUp n m f)).dropFrame i (s.taken n f)
        | some _ => ((s.beforeStepFour n m f).stepFour n i s.ash.1 (s.atStepFour n m f) (s.foundAct n m f) full).2 := by
  unfold State.decideFrame
  extract_lets bank b s0 f1 h r da sa a probe a2 v6 dst s1 s2 may g s3
  rw [if_neg (by rw [forwards_cond m hfwd hvalid]; exact Bool.false_ne_true), if_neg (by rintro ⟨h3, h4⟩; exact hfmt.elim (absurd h3) (by omega))]
  have hr : r = s.lookedUp n m f := (rfl)
  have hs2 : s2 = s.checkedFor n m f := (rfl)
  have hs3 : s3 = s.beforeStepFour n m f := (rfl)
  have hg : g = s.atStepFour n m f := (rfl)
  rw [hs3, hg, hs2, hr]
  rw [apply_ite Prod.snd]
  refine ite_congr rfl (fun _ => rfl) fun _ => ?_
  cases (s.lookedUp n m f).record <;> rfl

theorem takesHeader_parts {s : State} {n m i : Nat} {f : Frame} (h : s.takesHeader n m i f = true) :
    s.calm = true ∧ s.domainOn (17 + n) = true ∧ s.expandFull n = false ∧ s.nextHeader n = some (m, i) ∧ s.frame i = some f
      ∧ s.getB (F.PIPE_CTRL_fwd_en n) = true ∧ s.ash.1.valid = true ∧ (s.ash.1.fmt ≠ 3 ∨ n < 4) ∧ s.key.log.length + s.hr.length < 740 := by
  unfold State.takesHeader at h
  simp only [Bool.and_eq_true, decide_eq_true_eq, Bool.not_eq_true', Bool.or_eq_true] at h
  obtain ⟨⟨⟨⟨⟨⟨⟨⟨⟨hcalm, _⟩, hon⟩, hroom⟩, hnext⟩, hframe⟩, hfwd⟩, hvalid⟩, hfmt⟩, hlog⟩ := h
  exact ⟨hcalm, hon, hroom, hnext, hframe, hfwd, hvalid, hfmt, hlog⟩

/-- The parity of what a header reads costs at most one log entry for each way of four buckets and for each host route. -/
theorem Rests.checkedFor {s : State} (hcalm : s.calm = true) (hlog : s.key.log.length + s.hr.length < 740) (n m : Nat) (f : Frame) :
    (s.checkedFor n m f).Rests (s.key.log.length + 8 + s.hr.length) := by
  have h0 : ((s.headerTaken n m).count 3 n 0).Rests s.key.log.length := (rests_of_calm hcalm).of_agenda rfl
  unfold State.checkedFor
  extract_lets h y w v6 dst
  have hways : w.Rests (s.key.log.length + 8) := Rests.checkWays h0 n _ (by change s.key.log.length + 8 < 768; omega)
  have hhr : w.hr.length = s.hr.length := congrArg List.length (hr_checkWays ..)
  split
  · exact hhr ▸ Rests.checkUnits hways _ (by omega)
  · exact hways.mono (by omega)

theorem Rests.beforeStepFour {s : State} (hcalm : s.calm = true) (hlog : s.key.log.length + s.hr.length < 740) (n m : Nat) (f : Frame) :
    (s.beforeStepFour n m f).Rests (s.key.log.length + 8 + s.hr.length) := by
  have h := Rests.checkedFor hcalm hlog n m f
  unfold State.beforeStepFour
  split
  · exact h.of_agenda (agenda_raiseLearn ..)
  · exact h

theorem takes_headerResolve {s u : State} {n m i k : Nat} {f : Frame} {full : Bool} (hcalm : s.calm = true)
    (hon : s.domainOn (17 + n) = true) (hroom : s.expandFull n = false) (hnext : s.nextHeader n = some (m, i)) (hframe : s.frame i = some f)
    (hu : ((s.headerTaken n m).decideFrame n i f full).2 = u) (hrests : u.Rests k) : Takes (.headerResolve ⟨n, full⟩) s u := by
  refine takes_of_rests (exec_headerResolve s n full) hcalm ?_ hrests
  rw [headerStep_taken full hon hroom hnext, hframe]
  exact hu

theorem agenda_imageLimit (s : State) (n : Nat) : (s.raise (F.PIPE_EVENT_image_limit_drop n)).agenda = s.agenda := by
  refine agenda_raise _ (guard_high ?_)
  unfold F.PIPE_EVENT_image_limit_drop Addr.PIPE_EVENT
  dsimp only
  omega

theorem findsRecord_parts {s : State} {n m : Nat} {f : Frame} (h : s.findsRecord n m f = true) :
    (∃ k, (s.lookedUp n m f).record = some k)
      ∧ ((s.ash.1.entriesRead f.port (s.parsed f) (s.lookedUp n m f) (s.foundAct n m f)).any fun e => decide (e ∈ s.ash.1.poison)) = false := by
  unfold State.findsRecord at h
  rw [Bool.and_eq_true] at h
  obtain ⟨hrecord, hread⟩ := h
  refine ⟨Option.isSome_iff_exists.mp hrecord, ?_⟩
  simpa using hread

/-- A frame that has found its record goes through step 4. -/
theorem takes_stepFour {s : State} {n m i : Nat} {f : Frame} (full : Bool) (htakes : s.takesHeader n m i f = true)
    (hfinds : s.findsRecord n m f = true) : Takes (.headerResolve ⟨n, full⟩) s
      ((s.beforeStepFour n m f).stepFour n i s.ash.1 (s.atStepFour n m f) (s.foundAct n m f) full).2 := by
  obtain ⟨hcalm, hon, hroom, hnext, hframe, hfwd, hvalid, hfmt, hlog⟩ := takesHeader_parts htakes
  obtain ⟨⟨k, hrecord⟩, hgood⟩ := findsRecord_parts hfinds
  refine takes_headerResolve hcalm hon hroom hnext hframe ?_
    (Rests.stepFour (Rests.beforeStepFour hcalm hlog n m f) n i s.ash.1 (s.atStepFour n m f) (s.foundAct n m f) full (by omega))
  rw [decideFrame_resolved i f full hfwd hvalid hfmt, hgood, hrecord]
  rfl

/-- A frame without a policer passes unmarked (R265). -/
theorem police_none (s : State) (h : Hdr) (len : Nat) (known : Bool) : s.police 0 h len known = (⟨true, false, none⟩, s) := by
  unfold State.police
  exact if_pos (.inl rfl)

theorem frerStep_none (s : State) (n : Nat) (b : AshBank) (f : Frame) {a : Act} (h1 : a.role ≠ 1) (h2 : a.role ≠ 2) :
    s.frerStep n b f a = (some f.hdr.rtag, s) := by
  unfold State.frerStep
  split
  · contradiction
  · contradiction
  · rfl

/-- Step 4 of a DROP record without FRER and policing. -/
theorem stepFour_drop (s : State) (n i : Nat) (b : AshBank) (f : Frame) {a : Act} (full : Bool) (hdrop : a.dtype = 0) (h1 : a.role ≠ 1)
    (h2 : a.role ≠ 2) (hpol : a.policer = 0) : (s.stepFour n i b f a full).2 =
      (s.count 3 n (4 + a.reason)).dropFrame i { f with seqNum := f.hdr.rtag, markDei := false, meter := none } := by
  unfold State.stepFour
  rw [frerStep_none s n b f h1 h2]
  dsimp only
  rw [hpol, police_none, hdrop]
  rfl

/-- Settles O54: the way of a header through `decideFrame`, with the log entries that bad parity costs counted. -/
theorem headerResolution : Obligations.HeaderResolution := by
  unfold Obligations.HeaderResolution
  refine ⟨?idle, ?taken, ?resolved⟩
  case idle =>
    intro s n full hcalm _ h
    exact idles_of (exec_headerResolve s n full) hcalm (headerStep_idle full h)
  case taken =>
    intro s n m i full hcalm _ hon hroom hnext
    have hrests := (rests_of_calm hcalm).of_agenda (agenda_headerTaken s n m)
    refine ⟨fun hnone => ?_, ?_⟩
    · refine takes_of_rests (exec_headerResolve s n full) hcalm ?_ hrests
      rw [headerStep_taken full hon hroom hnext, hnone]
    · intro f hframe y
      have hy : y.Rests s.key.log.length := hrests.of_agenda (agenda_count ..)
      refine ⟨fun hoff => ?_, fun hfwd hvalid hfmt hn => ?_⟩
      · exact takes_headerResolve hcalm hon hroom hnext hframe (decideFrame_off i f full hoff)
          (hy.of_agenda ((agenda_dropFrame ..).trans (agenda_count ..)))
      · exact takes_headerResolve hcalm hon hroom hnext hframe (decideFrame_beyond i f full hfwd hvalid hfmt hn)
          (hy.of_agenda ((agenda_dropFrame ..).trans ((agenda_imageLimit ..).trans (agenda_count ..))))
  case resolved =>
    intro s n m i f full htakes l a g t
    obtain ⟨hcalm, hon, hroom, hnext, hframe, hfwd, hvalid, hfmt, hlog⟩ := takesHeader_parts htakes
    have hchecked := Rests.checkedFor hcalm hlog n m f
    have hdecide := decideFrame_resolved (s := s) (n := n) (m := m) i f full hfwd hvalid hfmt
    refine ⟨?poisoned, ?unrecorded, ?found⟩
    case poisoned =>
      rintro ⟨e, he, hbad⟩
      refine takes_headerResolve hcalm hon hroom hnext hframe ?_ (hchecked.of_agenda ((agenda_dropFrame ..).trans (agenda_count ..)))
      rw [hdecide, if_pos (List.any_eq_true.mpr ⟨e, he, decide_eq_true hbad⟩)]
    case unrecorded =>
      intro hclean hnone
      refine takes_headerResolve hcalm hon hroom hnext hframe ?_ (hchecked.of_agenda ((agenda_dropFrame ..).trans (agenda_rangeError ..)))
      have hgood : ¬ (l.any fun e => decide (e ∈ s.ash.1.poison)) = true := fun h => by
        obtain ⟨e, he, hbad⟩ := List.any_eq_true.mp h
        exact hclean e he (of_decide_eq_true hbad)
      rw [hdecide, if_neg hgood, hnone]
    case found =>
      intro hfinds
      have hstep := takes_stepFour full htakes hfinds
      refine ⟨hstep, fun hdrop h1 h2 hpol => ?_⟩
      rw [stepFour_drop _ n i _ _ full hdrop h1 h2 hpol] at hstep
      exact hstep

end Sys2Proof.Machine
end

/-! ### Step 4 (R26, R147): FRER, policing, DROP records -/

section
namespace Sys2Proof.Machine

/-! The Ashlar bank that the frame was resolved with stays -/

theorem ash_react_masked (s : State) (diag inst a : Nat) : (s.react diag 0 inst a).ash = s.ash := by
  have hlog : ∀ t : State, (t.ksLog .safety).ash = t.ash := fun t => by
    unfold State.ksLog
    split
    · rfl
    · dsimp only
      split <;> rfl
  rw [Machine.react_masked, hlog]
  unfold State.endTest
  split <;> rfl

theorem ash_count (s : State) (g i c : Nat) : (s.count g i c).ash = s.ash := (rfl)

theorem ash_badWay (s : State) (n w : Nat) (e : MacEntry) : (s.badWay n w e).ash = s.ash := by
  unfold State.badWay
  rw [ash_react_masked]
  rfl

theorem ash_raise_tblErr (s : State) (n u : Nat) (f : Fld) : ((s.raise f).tblErr n 1 u).ash = s.ash := (rfl)

theorem ash_badUnit (s : State) (u : Nat) : (s.badUnit u).ash = s.ash := by
  unfold State.badUnit
  extract_lets s1
  rw [ash_react_masked]
  refine each_keeps (fun t => t.ash = s.ash) _ _ (fun t k _ ht => (ash_raise_tblErr t k u _).trans ht) _ ?_
  exact each_keeps (fun t => t.ash = s.ash) _ _ (fun t k _ ht => (ash_count t 4 k 14).trans ht) _ rfl

theorem ash_checkWays (s : State) (n : Nat) (ws : List Nat) : (s.checkWays n ws).ash = s.ash := by
  refine each_keeps (fun t => t.ash = s.ash) _ ws (fun t w _ ht => ?_) s rfl
  split
  · split
    · exact ht
    · exact (ash_badWay ..).trans ht
  · exact ht

theorem ash_checkUnits (s : State) (buckets : List Nat) : (s.checkUnits buckets).ash = s.ash :=
  each_keeps (fun t => t.ash = s.ash) _ _ (fun t e _ ht => (ash_badUnit t e.unit).trans ht) s rfl

theorem ash_checkedFor (s : State) (n m : Nat) (f : Frame) : (s.checkedFor n m f).ash = s.ash := by
  unfold State.checkedFor
  extract_lets h y w v6 dst
  have hw : w.ash = s.ash := ash_checkWays ..
  split
  · exact (ash_checkUnits ..).trans hw
  · exact hw

theorem ash_queueEvent (s : State) (n : Nat) (e : BusEvent) : (s.queueEvent n e).ash = s.ash := by
  unfold State.queueEvent
  dsimp only
  split
  · rfl
  · split <;> rfl

theorem ash_changeLearned (s : State) (n vlan mac : Nat) (f : MacEntry → MacEntry) : (s.changeLearned n vlan mac f).ash = s.ash := by
  unfold State.changeLearned
  split <;> rfl

theorem ash_raiseLearn (s : State) (n : Nat) (k : Probe) (vlan sa port : Nat) : (s.raiseLearn n k vlan sa port).ash = s.ash := by
  cases k with
  | none => rfl
  | learn => exact ash_queueEvent ..
  | refresh => exact (ash_queueEvent ..).trans (ash_changeLearned ..)
  | frozen => rfl
  | fixed => rfl

theorem ash_beforeStepFour (s : State) (n m : Nat) (f : Frame) : (s.beforeStepFour n m f).ash = s.ash := by
  have h := ash_checkedFor s n m f
  unfold State.beforeStepFour
  split
  · exact (ash_raiseLearn ..).trans h
  · exact h

/-! FRER (R233 to R238) -/

section
variable {s : State} {n : Nat} {b : AshBank} {f : Frame} {a : Act}

theorem frerStep_generate_off (hrole : a.role = 1) (hoff : s.domainOn (17 + (b.stream a.fn).home) = false) :
    s.frerStep n b f a = (none, s.homeDown n a.fn true) := by
  unfold State.frerStep State.frerGenerate
  rw [hrole, hoff]
  rfl

theorem frerStep_generate (hrole : a.role = 1) (hon : s.domainOn (17 + (b.stream a.fn).home) = true) :
    s.frerStep n b f a = (some (some (s.nextSeq a.fn)), (s.setNextSeq a.fn ((s.nextSeq a.fn + 1) % 65536)).count 11 a.fn 0) := by
  unfold State.frerStep State.frerGenerate
  rw [hrole, hon]
  rfl

theorem frerStep_recover {ok : Bool} {t : State} (hrole : a.role = 2) (h : s.frerRecover n f.port b a.fn f.hdr.rtag = (ok, t)) :
    s.frerStep n b f a = (if ok then some f.hdr.rtag else none, t) := by
  unfold State.frerStep
  rw [hrole, h]
  cases ok <;> rfl

end

section
variable {s : State} {n p k : Nat} {b : AshBank}

theorem frerRecover_off (seq : Option Nat) (hoff : s.domainOn (17 + (b.recovery k).home) = false) :
    s.frerRecover n p b k seq = (false, s.homeDown n k false) := by
  unfold State.frerRecover
  dsimp only
  rw [hoff]
  rfl

theorem frerRecover_stranger (seq : Option Nat) (hon : s.domainOn (17 + (b.recovery k).home) = true)
    (hmember : b.memberOf (b.recovery k) p = none) : s.frerRecover n p b k seq = (false, s.count 12 k 6) := by
  unfold State.frerRecover
  dsimp only
  rw [hon, hmember]
  rfl

theorem frerRecover_untagged (hon : s.domainOn (17 + (b.recovery k).home) = true) (hmember : (b.memberOf (b.recovery k) p).isSome = true) :
    s.frerRecover n p b k none = (false, s.count 12 k 5) := by
  obtain ⟨m, hm⟩ := Option.isSome_iff_exists.mp hmember
  unfold State.frerRecover
  dsimp only
  rw [hon, hm]
  rfl

/-- What function `e` does with number `q`: accepted or not, its state, and what it counts (R238). -/
def RecEntry.judge (e : RecEntry) (r : Recovery) (q : Nat) : Bool × Recovery × List (Nat × Nat) :=
  if e.isMatch then r.matching q else r.vector e.hist q

theorem frerRecover_judged {m q : Nat} {ok : Bool} {r : Recovery} {cs : List (Nat × Nat)}
    (hon : s.domainOn (17 + (b.recovery k).home) = true) (hmember : b.memberOf (b.recovery k) p = some m)
    (hjudge : (b.recovery k).judge (s.recState k) q = (ok, r, cs)) :
    s.frerRecover n p b k (some q) = (ok, ((s.count 11 m 1).setRec k
      (if (b.recovery k).period = 0 then (if ok then { r with timer := some s.now } else r)
        else (if ok then { r with timer := some s.now } else r).tested ok (cs.any fun c => decide (c.1 = 1)) m)).each cs
          fun t c => t.countN 12 k c.1 c.2) := by
  unfold RecEntry.judge at hjudge
  unfold State.frerRecover
  dsimp only
  rw [hon, hmember]
  dsimp only
  rw [hjudge]
  rfl

end

section
variable {e : RecEntry} {r : Recovery} {q : Nat}

theorem judge_match_new (hmatch : e.isMatch = true) (h : r.takeAny = true ∨ q ≠ r.recov) :
    e.judge r q = (true, { r with recov := q, takeAny := false }, [(0, 1)]) := by
  unfold RecEntry.judge Recovery.matching
  rw [hmatch, if_pos rfl, if_pos h]

theorem judge_match_repeated (hmatch : e.isMatch = true) (htake : r.takeAny = false) (h : q = r.recov) :
    e.judge r q = (false, r, [(1, 1)]) := by
  unfold RecEntry.judge Recovery.matching
  rw [hmatch, if_pos rfl, if_neg (by rw [htake]; simp [h])]

theorem judge_vector_any (hvector : e.isMatch = false) (htake : r.takeAny = true) :
    e.judge r q = (true, { r with recov := q, history := 2 ^ e.hist - 1, takeAny := false }, [(0, 1)]) := by
  unfold RecEntry.judge Recovery.vector
  rw [hvector, htake]
  rfl

theorem judge_vector (hvector : e.isMatch = false) (htake : r.takeAny = false) :
    e.judge r q = (let d := signed 16 (q + 65536 - r.recov)
      if (e.hist : Int) ≤ d ∨ d ≤ -(e.hist : Int) then (false, r, [(4, 1)])
      else if 0 < d then (true, { r with recov := q, history := (r.history * 2 ^ d.toNat + 1) % 2 ^ e.hist },
        [(3, zerosOut r.history e.hist d.toNat), (2, b2n (decide (1 < d.toNat))), (0, 1)])
      else if bitAt r.history (-d).toNat then (false, r, [(1, 1)])
      else (true, { r with history := r.history + 2 ^ (-d).toNat }, [(2, 1), (0, 1)])) := by
  unfold RecEntry.judge Recovery.vector
  rw [hvector, htake]
  rfl

end

/-! Policing (R265 to R268) -/

/-- The state that has metered a frame by policer `k`, coloured `col`. -/
def State.meteredBy (s : State) (k : Nat) (p : Policer) (col len : Nat) (known : Bool) : State :=
  let y := (s.setPolicer k (some p)).count 13 k (2 * col)
  if known then y.countN 13 k (2 * col + 1) len else y

/-- The entry has frames of a colour dropped. -/
def PolEntry.drops (e : PolEntry) (col : Nat) : Bool := if col = 1 then decide (e.yellow = 2) else decide (col = 2) && decide (e.red = 0)

/-- The entry has frames of a colour marked. -/
def PolEntry.marks (e : PolEntry) (col : Nat) : Bool := if col = 1 then decide (e.yellow = 1) else decide (col = 2) && decide (e.red = 1)

theorem police_unmetered {s : State} {k : Nat} (h : Hdr) (len : Nat) (known : Bool) (hnone : k = 0 ∨ (s.ash.1.policer k).mode = 0) :
    s.police k h len known = (⟨true, false, none⟩, s) := by
  unfold State.police
  exact if_pos hnone

theorem police_metered {s : State} {k col mask len : Nat} {h : Hdr} {known : Bool} {e : PolEntry} {p : Policer} (he : s.ash.1.policer k = e)
    (hmetered : ¬ (k = 0 ∨ e.mode = 0))
    (hcolour : e.decide_ (s.policerNow k) (e.aware && h.outer && decide (h.dei = 1)) ((s.counted e.prof len).toNat * 13200000)
      = (col, mask, p)) :
    s.police k h len known = (⟨!e.drops col, e.marks col, if known then none else some (k, len, mask + 4 * col)⟩,
      if e.drops col then (s.meteredBy k p col len known).count 13 k 6 else s.meteredBy k p col len known) := by
  unfold State.police
  extract_lets e1 need
  have he1 : e1 = e := he
  clear_value e1
  subst he1
  rw [if_neg hmetered, hcolour]
  rfl

section
variable {e : PolEntry} {p : Policer} {yellow : Bool} {need : Nat}

theorem decide_red (h : (e.mode = 2 ∧ p.e < need) ∨ (e.mode ≠ 2 ∧ (yellow = true ∨ p.c < need) ∧ p.e < need)) :
    e.decide_ p yellow need = (2, 0, p) := by
  unfold PolEntry.decide_
  rcases h with ⟨hmode, hlow⟩ | ⟨hmode, hc, hlow⟩
  · rw [if_pos hmode, if_pos hlow]
  · rw [if_neg hmode, if_neg, if_neg (by omega)]
    rintro ⟨hy, hle⟩
    rcases hc with hc | hc
    · rw [hc] at hy
      contradiction
    · omega

theorem decide_amber (hle : need ≤ p.e) (h : yellow = true ∨ p.c < need) : e.decide_ p yellow need = (1, 2, { p with e := p.e - need }) := by
  unfold PolEntry.decide_
  by_cases hmode : e.mode = 2
  · rw [if_pos hmode, if_neg (Nat.not_lt.mpr hle), if_pos h]
  · rw [if_neg hmode, if_neg, if_pos hle]
    rintro ⟨hy, hc⟩
    rcases h with h | h
    · rw [h] at hy
      contradiction
    · omega

theorem decide_green (hy : yellow = false) (hc : need ≤ p.c) (he : e.mode = 2 → need ≤ p.e) :
    e.decide_ p yellow need = (0, if e.mode = 2 then 3 else 1,
      { p with c := p.c - need, e := if e.mode = 2 then p.e - need else p.e }) := by
  unfold PolEntry.decide_
  by_cases hmode : e.mode = 2
  · have hdim : ¬ (yellow = true ∨ p.c < need) := by
      rw [hy]
      simpa using hc
    simp only [hmode, if_true, if_neg (Nat.not_lt.mpr (he hmode)), if_neg hdim]
  · have hbright : (!yellow) = true ∧ need ≤ p.c := ⟨by rw [hy]; rfl, hc⟩
    simp only [hmode, if_false, if_pos hbright]

end

/-! What follows policing -/

/-- DROP record, bad frame or admission of a frame that policing has passed. -/
def State.endStepFour (s : State) (n i : Nat) (b : AshBank) (f : Frame) (a : Act) (full : Bool) : State :=
  if a.dtype = 0 then (s.count 3 n (4 + a.reason)).dropFrame i f
  else if f.bad then s.dropFrame i f
  else (s.admission i f (b.copiesOf f a)
    (if a.mirrorEn && (b.session a.session).valid then some (a.session, b.session a.session) else none) full).2

section
variable {s u w : State} {n i : Nat} {b : AshBank} {f : Frame} {a : Act} {full : Bool} {q : Option Nat} {v : Verdict}

theorem stepFour_discarded (hfrer : s.frerStep n b f a = (none, u)) : (s.stepFour n i b f a full).2 = u.dropFrame i f := by
  unfold State.stepFour
  rw [hfrer]

theorem stepFour_policed (hfrer : s.frerStep n b f a = (some q, u))
    (hpolice : u.police a.policer f.hdr (if f.ended then f.len else fldOf (u.port f.port).rxCfg 0 14) f.ended = (v, w)) :
    (s.stepFour n i b f a full).2 = if v.pass then w.endStepFour n i b { f with seqNum := q, markDei := v.mark, meter := v.meter } a full
      else w.dropFrame i { f with seqNum := q, markDei := v.mark, meter := v.meter } := by
  unfold State.stepFour State.endStepFour
  rw [hfrer]
  dsimp only
  rw [hpolice]
  dsimp only
  cases v.pass with
  | false => rfl
  | true =>
    simp only [Bool.not_true, Bool.false_eq_true, if_false, if_true]
    split
    · rfl
    · split <;> rfl

end

end Sys2Proof.Machine
end

/-! ### Admission (R195, R198 to R203, R206, R226 to R228) and step 4 assembled -/

section
namespace Sys2Proof.Machine

/-- Cells that a frame is admitted with (R199). -/
def State.cellsFor (s : State) (f : Frame) : Nat :=
  if f.ended then ceilDiv f.len 256 else ceilDiv (fldOf (s.port f.port).rxCfg 0 14) 256

/-- A mirror session's copy as it enters its queue (R228). -/
def Session.copy (e : Session) (k : Nat) : CopyReq := { queue := e.queue k, edit := ⟨0, 0, 0, 0, 0, 0, 0, 0⟩, mirror := true }

/-- The mirror copy is the frame as received: it needs no building (R228). -/
def Session.plain (e : Session) (took : Bool) : Bool := took && decide (e.trunc = 0) && decide (e.encapLen = 0)

/-- Frame `f` with its mirror share (R226). -/
def Frame.mirrored (f : Frame) (took : Bool) (k : Nat) (e : Session) : Frame :=
  { f with mirror := if took then some (k, e) else none, mirrorShare := took && !e.plain took }

/-- Class limit of the ingress port (R200). -/
def State.overLimit (s : State) (f : Frame) (n : Nat) : Bool :=
  !f.direct && decide (16 * s.limitF (F.BUF_ING_LIMIT_ing_limit (8 * f.port + f.cls)) < s.charged f.port f.cls + n)

/-- The pool's answer to a frame whose request it has served (R202, R206). -/
def State.placeFrame (s : State) (i : Nat) (f : Frame) (l : List CopyReq) (k n : Nat) (full : Bool) : State :=
  match (if s.poolGrants k n then s.place k n l f.mirrorShare full else none) with
  | none => s.askFails k n i { f with copies := l } full
  | some (hbm, back) => (s.chargeFrame i f k n hbm l full).doIf back fun t => t.count 8 0 4

section
variable {s w0 w1 w2 : State} {f : Frame} {asked l0 l : List CopyReq} {c took : Bool} {k : Nat} {e : Session}

theorem admission_uncopied (i : Nat) (full : Bool) (hall : s.acceptAll (s.cellsFor f) asked = ([], w0))
    (hmirror : (if c then w0.mirrorTake k e else (false, w0)) = (took, w1)) :
    (s.admission i f asked (if c then some (k, e) else none) full).2 = (w1.count 5 f.port 0).dropFrame i f := by
  unfold State.cellsFor at hall
  unfold State.admission
  dsimp only
  rw [hall]
  cases c with
  | false =>
    obtain ⟨rfl, rfl⟩ := Prod.mk.inj hmirror
    rfl
  | true =>
    have hmirror : w0.mirrorTake k e = (took, w1) := hmirror
    simp only [if_true, hmirror]
    rfl

theorem finish_placed (s : State) (i : Nat) (f : Frame) (l : List CopyReq) (k n : Nat) (full : Bool) :
    (match (if s.poolGrants k n then s.place k n l f.mirrorShare full else none) with
      | none => (false, s.askFails k n i { f with copies := l } full)
      | some (hbm, back) => (true, (s.chargeFrame i f k n hbm l full).doIf back fun t => t.count 8 0 4)).2 = s.placeFrame i f l k n full := by
  unfold State.placeFrame
  split <;> rfl

/-- The class limit of the port, then the pool (R200, R202). -/
theorem finish_admission (s : State) (i : Nat) (f g : Frame) (l : List CopyReq) (n : Nat) (full : Bool) :
    (if s.overLimit f n then (false, (s.count 5 f.port 1).dropFrame i f)
      else match (if (s.serveAsk (s.chargePool g l) f.owner n).poolGrants (s.chargePool g l) n then
          (s.serveAsk (s.chargePool g l) f.owner n).place (s.chargePool g l) n l g.mirrorShare full else none) with
      | none => (false, (s.serveAsk (s.chargePool g l) f.owner n).askFails (s.chargePool g l) n i { g with copies := l } full)
      | some (hbm, back) => (true,
          ((s.serveAsk (s.chargePool g l) f.owner n).chargeFrame i g (s.chargePool g l) n hbm l full).doIf back fun t => t.count 8 0 4)).2 =
      if s.overLimit f n then (s.count 5 f.port 1).dropFrame i f
      else (s.serveAsk (s.chargePool g l) f.owner n).placeFrame i g l (s.chargePool g l) n full := by
  rw [apply_ite Prod.snd]
  exact ite_congr rfl (fun _ => rfl) fun _ => finish_placed (s.serveAsk (s.chargePool g l) f.owner n) i g l (s.chargePool g l) n full

theorem admission_copied (i : Nat) (full : Bool) (hall : s.acceptAll (s.cellsFor f) asked = (l0, w0)) (hsome : l0 ≠ [])
    (hmirror : (if c then w0.mirrorTake k e else (false, w0)) = (took, w1))
    (hcopy : (e.plain took = false ∧ w2 = w1 ∧ l = l0) ∨ (e.plain took = true ∧ ∃ ok : Bool,
      w1.acceptCopy (e.copy k).queue (s.cellsFor f) = (ok, w2) ∧ l = if ok then l0 ++ [e.copy k] else l0)) :
    (s.admission i f asked (if c then some (k, e) else none) full).2 =
      if w2.overLimit f (s.cellsFor f) then (w2.count 5 f.port 1).dropFrame i f
      else (w2.serveAsk (w2.chargePool (f.mirrored took k e) l) f.owner (s.cellsFor f)).placeFrame i (f.mirrored took k e) l
        (w2.chargePool (f.mirrored took k e) l) (s.cellsFor f) full := by
  unfold State.cellsFor at hall hcopy
  unfold State.admission State.cellsFor
  dsimp only
  rw [hall]
  have hempty : ¬ l0.isEmpty = true := fun h => hsome (List.isEmpty_iff.mp h)
  cases c with
  | false =>
    obtain ⟨rfl, rfl⟩ := Prod.mk.inj hmirror
    rcases hcopy with ⟨_, rfl, rfl⟩ | ⟨hplain, _⟩
    · simp only [Bool.false_eq_true, if_false, if_neg hempty]
      exact finish_admission w2 i f (f.mirrored false k e) l _ full
    · cases hplain
  | true =>
    have hmirror : w0.mirrorTake k e = (took, w1) := hmirror
    have hmirrored (plain : Bool) (h : e.plain took = plain) :
        f.mirrored took k e = { f with mirror := if took then some (k, e) else none, mirrorShare := took && !plain } := by
      unfold Frame.mirrored
      rw [h]
    simp only [if_true, hmirror, if_neg hempty]
    rcases hcopy with ⟨hplain, rfl, rfl⟩ | ⟨hplain, ok, hok, rfl⟩
    · rw [hmirrored false hplain]
      have hplain : (took && decide (e.trunc = 0) && decide (e.encapLen = 0)) = false := hplain
      simp only [hplain, Bool.false_eq_true, if_false]
      exact finish_admission w2 i f { f with mirror := if took then some (k, e) else none, mirrorShare := took && !false } l _ full
    · rw [hmirrored true hplain]
      have hplain : (took && decide (e.trunc = 0) && decide (e.encapLen = 0)) = true := hplain
      have hok : w1.acceptCopy (e.queue k) (if f.ended then ceilDiv f.len 256 else ceilDiv (fldOf (s.port f.port).rxCfg 0 14) 256) = (ok, w2) := hok
      simp only [hplain, if_true, hok]
      cases ok with
      | false =>
        exact finish_admission w2 i f { f with mirror := if took then some (k, e) else none, mirrorShare := took && !true } l0 _ full
      | true =>
        exact finish_admission w2 i f { f with mirror := if took then some (k, e) else none, mirrorShare := took && !true }
          (l0 ++ [e.copy k]) _ full

end

theorem levels_total (p : Pool) (t0 : Nat) : (p.levels t0).used = p.used ∧ (p.levels t0).usedHbm = p.usedHbm := by
  unfold Pool.levels
  dsimp only
  split <;> exact ⟨rfl, rfl⟩

/-- A pool's use. -/
def State.poolUse (s : State) (k : Nat) : Nat × Nat := ((s.pool k).used, (s.pool k).usedHbm)

theorem poolUse_raiseBit (s : State) (f : Fld) (b k : Nat) : (s.raiseBit f b).poolUse k = s.poolUse k := (rfl)
theorem poolUse_count (s : State) (g i c k : Nat) : (s.count g i c).poolUse k = s.poolUse k := (rfl)
theorem poolUse_setQueue (s : State) (x : Nat) (q : Queue) (k : Nat) : (s.setQueue x q).poolUse k = s.poolUse k := (rfl)
theorem poolUse_setFrame (s : State) (i : Nat) (f : Option Frame) (k : Nat) : (s.setFrame i f).poolUse k = s.poolUse k := (rfl)
theorem poolUse_setExpand (s : State) (n : Nat) (l : List Nat) (k : Nat) : (s.setExpand n l).poolUse k = s.poolUse k := (rfl)
theorem poolUse_chargeMove (s : State) (p c : Nat) (d : Int) (k : Nat) : (s.chargeMove p c d).poolUse k = s.poolUse k := (rfl)

theorem poolUse_raiseIf (s : State) (c : Bool) (f : Fld) (k : Nat) : (s.raiseIf c f).poolUse k = s.poolUse k := by
  cases c <;> rfl

theorem poolUse_doIf {s : State} {k : Nat} (c : Bool) (f : State → State) (h : (f s).poolUse k = s.poolUse k) :
    (s.doIf c f).poolUse k = s.poolUse k := by
  cases c
  · rfl
  · exact h

theorem poolUse_setPool (s : State) (k : Nat) (p : Pool) : (s.setPool k p).poolUse k = (p.used, p.usedHbm) := by
  unfold State.poolUse
  rw [pool_setPool]

/-- A pool's use moves as asked. -/
theorem poolUse_poolMove (s : State) (k : Nat) (d dHbm : Int) :
    (s.poolMove k d dHbm).poolUse k = (((s.pool k).used + d).toNat, ((s.pool k).usedHbm + dHbm).toNat) := by
  unfold State.poolMove
  extract_lets p l p1 p2 up ev s1
  obtain ⟨hused, hhbm⟩ := levels_total p1 p.total
  have h1 : s1.poolUse k = (p1.used, p1.usedHbm) := by
    simp only [s1]
    rw [poolUse_raiseIf, poolUse_raiseIf, poolUse_raiseIf, poolUse_setPool, hused, hhbm]
  split
  · exact (poolUse_raiseBit ..).trans h1
  · exact h1

theorem expandQ_raiseBit (s : State) (f : Fld) (b n : Nat) : (s.raiseBit f b).expandQ n = s.expandQ n := (rfl)
theorem expandQ_count (s : State) (g i c n : Nat) : (s.count g i c).expandQ n = s.expandQ n := (rfl)
theorem expandQ_setQueue (s : State) (x : Nat) (q : Queue) (n : Nat) : (s.setQueue x q).expandQ n = s.expandQ n := (rfl)
theorem expandQ_setPool (s : State) (k : Nat) (p : Pool) (n : Nat) : (s.setPool k p).expandQ n = s.expandQ n := (rfl)
theorem expandQ_chargeMove (s : State) (p c : Nat) (d : Int) (n : Nat) : (s.chargeMove p c d).expandQ n = s.expandQ n := (rfl)

theorem expandQ_raiseIf (s : State) (c : Bool) (f : Fld) (n : Nat) : (s.raiseIf c f).expandQ n = s.expandQ n := by
  cases c <;> rfl

theorem expandQ_doIf {s : State} {n : Nat} (c : Bool) (f : State → State) (h : (f s).expandQ n = s.expandQ n) :
    (s.doIf c f).expandQ n = s.expandQ n := by
  cases c
  · rfl
  · exact h

theorem expandQ_poolMove (s : State) (k : Nat) (d dHbm : Int) (n : Nat) : (s.poolMove k d dHbm).expandQ n = s.expandQ n := by
  unfold State.poolMove
  extract_lets p l p1 p2 up ev s1
  have h1 : s1.expandQ n = s.expandQ n := by
    simp only [s1]
    rw [expandQ_raiseIf, expandQ_raiseIf, expandQ_raiseIf, expandQ_setPool]
  split
  · exact (expandQ_raiseBit ..).trans h1
  · exact h1

theorem expandQ_setExpand (s : State) (n : Nat) (l : List Nat) : (s.setExpand n l).expandQ n = l :=
  SMap.get_set_same (fun _ => []) n l s.fab.expand

theorem setFrame_setExpand (s : State) (i : Nat) (f : Option Frame) (n : Nat) (l : List Nat) :
    ((s.setFrame i f).setExpand n l).expandQ n = l := expandQ_setExpand ..

/-- A frame that is charged enters its expansion queue, and its pool holds its cells (R200, R224). -/
theorem chargeFrame_queued (s : State) (i : Nat) (f : Frame) (k n : Nat) (hbm : Bool) (l : List CopyReq) (path : Bool) :
    (s.chargeFrame i f k n hbm l path).expandQ f.unit = s.expandQ f.unit ++ [i] := by
  unfold State.chargeFrame
  extract_lets head full s1 asks src s2 s3 g
  have h1 : s1.expandQ f.unit = s.expandQ f.unit := by
    simp only [s1]
    split <;> exact expandQ_poolMove ..
  have h2 : s2.expandQ f.unit = s1.expandQ f.unit := expandQ_doIf _ _ (expandQ_chargeMove ..)
  have h3 : s3.expandQ f.unit = s2.expandQ f.unit :=
    each_keeps (fun t => t.expandQ f.unit = s2.expandQ f.unit) _ _ (fun t c _ ht => (expandQ_setQueue t ..).trans ht) _ rfl
  rw [expandQ_doIf _ _ (expandQ_count ..), setFrame_setExpand, h3, h2, h1]

theorem chargeFrame_poolUse (s : State) (i : Nat) (f : Frame) (k n : Nat) (hbm : Bool) (l : List CopyReq) (path : Bool) :
    ((s.chargeFrame i f k n hbm l path).pool k).used + ((s.chargeFrame i f k n hbm l path).pool k).usedHbm
      = (s.pool k).used + (s.pool k).usedHbm + n := by
  have h : (s.chargeFrame i f k n hbm l path).poolUse k =
      (if hbm then s.poolMove k 0 n else s.poolMove k n 0).poolUse k := by
    unfold State.chargeFrame
    extract_lets head full s1 asks src s2 s3 g
    have h2 : s2.poolUse k = s1.poolUse k := (poolUse_doIf _ _ (poolUse_chargeMove ..)).trans (poolUse_setPool ..)
    have h3 : s3.poolUse k = s2.poolUse k :=
      each_keeps (fun t => t.poolUse k = s2.poolUse k) _ _ (fun t c _ ht => (poolUse_setQueue t ..).trans ht) _ rfl
    rw [poolUse_doIf _ _ (poolUse_count ..), poolUse_setExpand, poolUse_setFrame, h3, h2]
  obtain ⟨hused, hhbm⟩ := Prod.mk.inj h
  rw [hused, hhbm]
  cases hbm with
  | true =>
    obtain ⟨ha, hb⟩ := Prod.mk.inj (poolUse_poolMove s k 0 n)
    rw [if_pos rfl, ha, hb]
    omega
  | false =>
    obtain ⟨ha, hb⟩ := Prod.mk.inj (poolUse_poolMove s k n 0)
    rw [if_neg Bool.false_ne_true, ha, hb]
    omega

theorem serveAsk_granted {s : State} {k n : Nat} (r : Nat) (h : s.poolGrants k n = true) : s.serveAsk k r n = s := if_pos h

/-- With no other request of the core cycle there is nothing to serve anew. -/
theorem serveAsk_alone {s : State} {k : Nat} (r n : Nat) (h : s.openAsks k = []) : s.serveAsk k r n = s := by
  unfold State.serveAsk
  rw [h]
  exact ite_self s

/-! FRER outcomes with the state that they leave -/

/-- A recovery function's state once the latent test has taken in a frame (R240). -/
def RecEntry.noted (e : RecEntry) (x : Recovery) (ok dup : Bool) (k : Nat) : Recovery := if e.period = 0 then x else x.tested ok dup k

section
variable {s : State} {n k q : Nat} {b : AshBank} {f : Frame} {a : Act} {r : Recovery} {cs : List (Nat × Nat)}

theorem frerStep_accepts (hrole : a.role = 2) (hon : s.domainOn (17 + (b.recovery a.fn).home) = true)
    (hmember : b.memberOf (b.recovery a.fn) f.port = some k) (htag : f.hdr.rtag = some q)
    (hjudge : (b.recovery a.fn).judge (s.recState a.fn) q = (true, r, cs)) :
    s.frerStep n b f a = (some f.hdr.rtag, ((s.count 11 k 1).setRec a.fn ((b.recovery a.fn).noted { r with timer := some s.now } true
      (cs.any fun c => decide (c.1 = 1)) k)).each cs fun t c => t.countN 12 a.fn c.1 c.2) :=
  frerStep_recover hrole (htag ▸ frerRecover_judged hon hmember hjudge)

theorem frerStep_discards (hrole : a.role = 2) (hon : s.domainOn (17 + (b.recovery a.fn).home) = true)
    (hmember : b.memberOf (b.recovery a.fn) f.port = some k) (htag : f.hdr.rtag = some q)
    (hjudge : (b.recovery a.fn).judge (s.recState a.fn) q = (false, r, cs)) :
    s.frerStep n b f a = (none, ((s.count 11 k 1).setRec a.fn ((b.recovery a.fn).noted r false
      (cs.any fun c => decide (c.1 = 1)) k)).each cs fun t c => t.countN 12 a.fn c.1 c.2) :=
  frerStep_recover hrole (htag ▸ frerRecover_judged hon hmember hjudge)

end

section
variable {e : RecEntry} {r : Recovery} {q : Nat} {d : Int}

theorem judge_outside (hvector : e.isMatch = false) (htake : r.takeAny = false) (hd : signed 16 (q + 65536 - r.recov) = d)
    (hout : (e.hist : Int) ≤ d ∨ d ≤ -(e.hist : Int)) : e.judge r q = (false, r, [(4, 1)]) := by
  rw [judge_vector hvector htake, hd]
  exact if_pos hout

theorem judge_ahead (hvector : e.isMatch = false) (htake : r.takeAny = false) (hd : signed 16 (q + 65536 - r.recov) = d)
    (hpos : 0 < d) (hlt : d < (e.hist : Int)) :
    e.judge r q = (true, { r with recov := q, history := (r.history * 2 ^ d.toNat + 1) % 2 ^ e.hist },
      [(3, zerosOut r.history e.hist d.toNat), (2, b2n (decide (1 < d))), (0, 1)]) := by
  have hone : (1 < d.toNat) = (1 < d) := by
    apply propext
    omega
  rw [judge_vector hvector htake, hd]
  dsimp only
  rw [if_neg (by omega), if_pos hpos]
  simp only [hone]

theorem judge_behind (hvector : e.isMatch = false) (htake : r.takeAny = false) (hd : signed 16 (q + 65536 - r.recov) = d)
    (hlow : -(e.hist : Int) < d) (hle : d ≤ 0) :
    e.judge r q = if bitAt r.history (-d).toNat then (false, r, [(1, 1)])
      else (true, { r with history := r.history + 2 ^ (-d).toNat }, [(2, 1), (0, 1)]) := by
  rw [judge_vector hvector htake, hd]
  dsimp only
  rw [if_neg (by omega), if_neg (by omega)]

end

/-! The stages of step 4 that a frame passes -/

section
variable {s u w : State} {n i col mask : Nat} {b : AshBank} {f : Frame} {a : Act} {full : Bool} {q : Option Nat} {p : Policer}

/-- Frame length that step 4 counts with (R199, R266). -/
def State.lenFor (s : State) (f : Frame) : Nat := if f.ended then f.len else fldOf (s.port f.port).rxCfg 0 14

theorem stepFour_unmetered (hfrer : s.frerStep n b f a = (some q, u)) (hash : u.ash.1 = b)
    (hnone : a.policer = 0 ∨ (b.policer a.policer).mode = 0) :
    (s.stepFour n i b f a full).2 = u.endStepFour n i b { f with seqNum := q, markDei := false, meter := none } a full :=
  stepFour_policed hfrer (police_unmetered f.hdr _ f.ended (by rw [hash]; exact hnone))

theorem stepFour_metered (hfrer : s.frerStep n b f a = (some q, u)) (hash : u.ash.1 = b)
    (hmetered : ¬ (a.policer = 0 ∨ (b.policer a.policer).mode = 0))
    (hcolour : (b.policer a.policer).decide_ (u.policerNow a.policer) ((b.policer a.policer).aware && f.hdr.outer && decide (f.hdr.dei = 1))
      ((u.counted (b.policer a.policer).prof (u.lenFor f)).toNat * 13200000) = (col, mask, p)) :
    (s.stepFour n i b f a full).2 =
      if (b.policer a.policer).drops col then
        ((u.meteredBy a.policer p col (u.lenFor f) f.ended).count 13 a.policer 6).dropFrame i
          { f with seqNum := q, markDei := (b.policer a.policer).marks col,
                   meter := if f.ended then none else some (a.policer, u.lenFor f, mask + 4 * col) }
      else (u.meteredBy a.policer p col (u.lenFor f) f.ended).endStepFour n i b
          { f with seqNum := q, markDei := (b.policer a.policer).marks col,
                   meter := if f.ended then none else some (a.policer, u.lenFor f, mask + 4 * col) } a full := by
  rw [stepFour_policed hfrer (police_metered (by rw [hash]) hmetered hcolour)]
  cases (b.policer a.policer).drops col <;> rfl

theorem endStepFour_drop (h : a.dtype = 0) : s.endStepFour n i b f a full = (s.count 3 n (4 + a.reason)).dropFrame i f := if_pos h

theorem endStepFour_bad (h : a.dtype ≠ 0) (hbad : f.bad = true) : s.endStepFour n i b f a full = s.dropFrame i f := by
  unfold State.endStepFour
  rw [if_neg h, if_pos hbad]

theorem endStepFour_admission (h : a.dtype ≠ 0) (hbad : f.bad = false) : s.endStepFour n i b f a full =
    (s.admission i f (b.copiesOf f a)
      (if a.mirrorEn && (b.session a.session).valid then some (a.session, b.session a.session) else none) full).2 := by
  unfold State.endStepFour
  rw [if_neg h, hbad]
  rfl

theorem port_meteredBy (s : State) (k : Nat) (p : Policer) (col len : Nat) (known : Bool) (x : Nat) :
    (s.meteredBy k p col len known).port x = s.port x := by
  cases known <;> rfl

end

theorem cellsFor_eq {w u : State} {f g : Frame} (hport : w.port g.port = u.port g.port) (hp : f.port = g.port) (he : f.ended = g.ended)
    (hl : f.len = g.len) : w.cellsFor f = ceilDiv (u.lenFor g) 256 := by
  unfold State.cellsFor State.lenFor
  rw [hp, he, hl, hport]
  exact (apply_ite (ceilDiv · 256) _ _ _).symm

end Sys2Proof.Machine
end

/-! ### Step 4 as the statement has it -/

section
namespace Sys2Proof.Machine

theorem marks_eq (e : PolEntry) (col : Nat) :
    e.marks col = ((decide (col = 1) && decide (e.yellow = 1)) || (decide (col = 2) && decide (e.red = 1))) := by
  unfold PolEntry.marks
  split
  next h => simp [h]
  next h => simp [h]

theorem charged_raiseBit (s : State) (f : Fld) (b p c : Nat) : (s.raiseBit f b).charged p c = s.charged p c := (rfl)
theorem charged_setQueue (s : State) (x : Nat) (q : Queue) (p c : Nat) : (s.setQueue x q).charged p c = s.charged p c := (rfl)
theorem charged_setFrame (s : State) (i : Nat) (f : Option Frame) (p c : Nat) : (s.setFrame i f).charged p c = s.charged p c := (rfl)
theorem charged_setExpand (s : State) (n : Nat) (l : List Nat) (p c : Nat) : (s.setExpand n l).charged p c = s.charged p c := (rfl)
theorem charged_setPool (s : State) (k : Nat) (x : Pool) (p c : Nat) : (s.setPool k x).charged p c = s.charged p c := (rfl)

theorem charged_chargeMove (s : State) (p c : Nat) (d : Int) : (s.chargeMove p c d).charged p c = ((s.charged p c : Int) + d).toNat :=
  SMap.get_set_same (fun _ => 0) (8 * p + c) _ s.fab.charged

theorem charged_raiseIf (s : State) (c : Bool) (f : Fld) (p k : Nat) : (s.raiseIf c f).charged p k = s.charged p k := by
  cases c <;> rfl

theorem charged_poolMove (s : State) (k : Nat) (d dHbm : Int) (x c : Nat) : (s.poolMove k d dHbm).charged x c = s.charged x c := by
  unfold State.poolMove
  extract_lets p l p1 p2 up ev s1
  have h1 : s1.charged x c = s.charged x c := by
    simp only [s1]
    rw [charged_raiseIf, charged_raiseIf, charged_raiseIf, charged_setPool]
  split
  · exact (charged_raiseBit ..).trans h1
  · exact h1

/-- The cells of a frame that came in by a port are charged to its class there (R200). -/
theorem chargeFrame_charged (s : State) (i : Nat) (f : Frame) (k n : Nat) (hbm : Bool) (l : List CopyReq) (path : Bool)
    (hdirect : f.direct = false) : (s.chargeFrame i f k n hbm l path).charged f.port f.cls = s.charged f.port f.cls + n := by
  unfold State.chargeFrame
  extract_lets head full s1 asks src s2 s3 g
  have h1 : s1.charged f.port f.cls = s.charged f.port f.cls := by
    simp only [s1]
    split <;> exact charged_poolMove ..
  have h2 : s2.charged f.port f.cls = s1.charged f.port f.cls + n := by
    simp only [s2, hdirect]
    exact (charged_chargeMove ..).trans (by rw [charged_setPool]; omega)
  have h3 : s3.charged f.port f.cls = s2.charged f.port f.cls :=
    each_keeps (fun t => t.charged f.port f.cls = s2.charged f.port f.cls) _ _ (fun t c _ ht => (charged_setQueue t ..).trans ht) _ rfl
  have hlast (t : State) (c : Bool) : (t.doIf c fun t => t.count 7 k 1).charged f.port f.cls = t.charged f.port f.cls := by
    cases c <;> rfl
  rw [hlast, charged_setExpand, charged_setFrame, h3, h2, h1]

/-- Settles O55: step 4 of a frame is `takes_stepFour`; FRER, policing and admission follow one another. -/
theorem stepFour : Obligations.StepFour := by
  unfold Obligations.StepFour
  intro s n m i f full htakes hfinds b a g t c e r noted
  have hstep : Takes c s (t.stepFour n i b g a full).2 := takes_stepFour full htakes hfinds
  have hash : t.ash.1 = b := congrArg Prod.fst (ash_beforeStepFour s n m f)
  clear_value t g a
  have discarded {u : State} (hfrer : t.frerStep n b g a = (none, u)) : Takes c s (u.dropFrame i g) := stepFour_discarded hfrer ▸ hstep
  refine ⟨?generateOff, ?recoverOff, ?stranger, ?untagged, ?discards, ?passes⟩
  case generateOff => exact fun hrole hoff => discarded (frerStep_generate_off hrole hoff)
  case recoverOff => exact fun hrole hoff => discarded (frerStep_recover hrole (frerRecover_off _ hoff))
  case stranger => exact fun hrole hon hmember => discarded (frerStep_recover hrole (frerRecover_stranger _ hon hmember))
  case untagged => exact fun hrole hon hmember htag => discarded (frerStep_recover hrole (htag ▸ frerRecover_untagged hon hmember))
  case discards =>
    intro k q hrole hon hmember htag htake d x
    refine ⟨fun hmatch heq => ?_, fun hvector hout => ?_, fun hvector hlow hle hbit => ?_⟩
    · exact discarded (frerStep_discards hrole hon hmember htag (judge_match_repeated hmatch htake heq))
    · exact discarded (frerStep_discards hrole hon hmember htag (judge_outside hvector htake rfl hout))
    · exact discarded (frerStep_discards hrole hon hmember htag ((judge_behind hvector htake rfl hlow hle).trans (if_pos hbit)))
  case passes =>
    intro q u hpass len p z need yellow metered red amber green unmetered
    have hfrer : t.frerStep n b g a = (some q, u) := by
      rcases hpass with ⟨h1, h2, rfl, rfl⟩ | ⟨hrole, hon, rfl, rfl⟩ | ⟨hrole, hon, rfl, k, v, hmember, htag, hcase⟩
      · exact frerStep_none _ n b g h1 h2
      · exact frerStep_generate hrole hon
      · rcases hcase with ⟨hmatch, hnew, rfl⟩ | ⟨hvector, htake, rfl⟩ | ⟨hvector, htake, hpos, hlt, rfl⟩ | ⟨hvector, htake, hlow, hle, hbit, rfl⟩
        · exact frerStep_accepts hrole hon hmember htag (judge_match_new hmatch hnew)
        · exact frerStep_accepts hrole hon hmember htag (judge_vector_any hvector htake)
        · exact frerStep_accepts hrole hon hmember htag (judge_ahead hvector htake rfl hpos hlt)
        · exact frerStep_accepts hrole hon hmember htag
            ((judge_behind hvector htake rfl hlow hle).trans (if_neg (by rw [hbit]; exact Bool.false_ne_true)))
    have hash : u.ash.1 = b := by
      refine Eq.trans ?_ hash
      rcases hpass with ⟨_, _, _, rfl⟩ | ⟨_, _, _, rfl⟩ | ⟨_, _, _, k, v, _, _, hcase⟩
      · rfl
      · rfl
      · rcases hcase with ⟨_, _, rfl⟩ | ⟨_, _, rfl⟩ | ⟨_, _, _, _, rfl⟩ | ⟨_, _, _, _, _, rfl⟩
        all_goals rfl
    clear hpass
    refine ⟨?dropped, ?kept⟩
    case dropped =>
      rintro w h hmetered (⟨hred, hdrop, rfl, rfl⟩ | ⟨⟨hle, hc⟩, hdrop, rfl, rfl⟩)
      · have hstate := stepFour_metered (n := n) (i := i) (full := full) hfrer hash hmetered (decide_red hred)
        rw [if_pos (show p.drops 2 = true from decide_eq_true hdrop), marks_eq] at hstate
        exact hstate ▸ hstep
      · have hstate := stepFour_metered (n := n) (i := i) (full := full) hfrer hash hmetered (decide_amber hle hc)
        rw [if_pos (show p.drops 1 = true from decide_eq_true hdrop), marks_eq] at hstate
        rw [hstate] at hstep
        exact hstep
    case kept =>
      intro w h hpass
      have hend : (t.stepFour n i b g a full).2 = w.endStepFour n i b h a full := by
        rcases hpass with ⟨hnone, rfl, rfl⟩ | ⟨hmetered, hred, hkeep, rfl, rfl⟩ | ⟨hmetered, ⟨hle, hc⟩, hkeep, rfl, rfl⟩
          | ⟨hmetered, ⟨hy, hc, he⟩, rfl, rfl⟩
        · exact stepFour_unmetered hfrer hash hnone
        · have hstate := stepFour_metered (n := n) (i := i) (full := full) hfrer hash hmetered (decide_red hred)
          rw [if_neg (show ¬ p.drops 2 = true from fun h => hkeep (of_decide_eq_true h)), marks_eq] at hstate
          exact hstate
        · have hstate := stepFour_metered (n := n) (i := i) (full := full) hfrer hash hmetered (decide_amber hle hc)
          rw [if_neg (show ¬ p.drops 1 = true from fun h => hkeep (of_decide_eq_true h)), marks_eq] at hstate
          exact hstate
        · have hstate := stepFour_metered (n := n) (i := i) (full := full) hfrer hash hmetered (decide_green hy hc he)
          rw [if_neg (show ¬ p.drops 0 = true from Bool.false_ne_true), marks_eq] at hstate
          exact hstate
      have hsame : w.port g.port = u.port g.port ∧ h.port = g.port ∧ h.ended = g.ended ∧ h.len = g.len ∧ h.bad = g.bad
          ∧ h.direct = g.direct ∧ h.owner = g.owner ∧ h.unit = g.unit := by
        rcases hpass with ⟨_, rfl, rfl⟩ | ⟨_, _, _, rfl, rfl⟩ | ⟨_, _, _, rfl, rfl⟩ | ⟨_, _, rfl, rfl⟩
        · exact ⟨rfl, rfl, rfl, rfl, rfl, rfl, rfl, rfl⟩
        all_goals exact ⟨port_meteredBy u a.policer _ _ len g.ended g.port, rfl, rfl, rfl, rfl, rfl, rfl, rfl⟩
      rw [hend] at hstep
      clear hpass hend
      obtain ⟨hrx, hport, hended, hlen, hbad, hdirect, howner, hunit⟩ := hsame
      refine ⟨fun hdrop => ?_, fun hkeep hg => ?_, fun hkeep hg => ?_⟩
      · exact endStepFour_drop hdrop ▸ hstep
      · exact endStepFour_bad hkeep (hbad.trans hg) ▸ hstep
      · rw [endStepFour_admission hkeep (hbad.trans hg)] at hstep
        intro ss cells l0 l took w0 w1 w2 hall hmirror plain cp
        have hcells : w.cellsFor h = cells := cellsFor_eq hrx hport hended hlen
        rw [← hcells] at hall
        refine ⟨fun hnone => ?_, fun hsome hcopy => ?_⟩
        · subst hnone
          rw [admission_uncopied i full hall hmirror, hport] at hstep
          exact hstep
        · intro j k above
          rw [admission_copied i full hall hsome hmirror (hcells ▸ hcopy), hcells, hport, howner] at hstep
          have hover : w2.overLimit h cells = true ↔ above := by
            unfold State.overLimit
            rw [hdirect, hport]
            simp [above]
          refine ⟨fun habove => ?_, fun hnot => ?_⟩
          · rw [if_pos (hover.mpr habove)] at hstep
            exact hstep
          · rw [if_neg fun h => hnot (hover.mp h)] at hstep
            intro w3
            have hplaced : Takes c s (w3.placeFrame i j l k cells full) := hstep
            refine ⟨?served, ?fails, ?granted⟩
            case served =>
              rintro (hgrant | halone)
              · exact serveAsk_granted g.owner hgrant
              · exact serveAsk_alone g.owner cells halone
            case fails =>
              intro hfails
              have hnone : (if w3.poolGrants k cells then w3.place k cells l j.mirrorShare full else none) = none := by
                rcases hfails with hrefused | hnowhere
                · rw [hrefused]
                  rfl
                · rw [hnowhere]
                  exact ite_self none
              rw [State.placeFrame, hnone] at hplaced
              exact hplaced
            case granted =>
              intro hbm back hgrant hplace y
              have hsomewhere : (if w3.poolGrants k cells then w3.place k cells l j.mirrorShare full else none) = some (hbm, back) :=
                (if_pos hgrant).trans hplace
              rw [State.placeFrame, hsomewhere] at hplaced
              refine ⟨hplaced, ?_, chargeFrame_poolUse w3 i j k cells hbm l full, fun hmac => ?_⟩
              · rw [← hunit]
                exact chargeFrame_queued w3 i j k cells hbm l full
              · rw [← hport]
                exact chargeFrame_charged w3 i j k cells hbm l full (hdirect.trans hmac)

end Sys2Proof.Machine
end

/-! ### The CPU port (R335 to R338) -/

section
namespace Sys2Proof.Machine

/-! Expansion leaves the agenda -/

theorem agenda_cellsOf (s : State) (i : Nat) : (s.cellsOf i).agenda = s.agenda := by
  unfold State.cellsOf
  split
  · rfl
  next f _ =>
    extract_lets n
    split
    next l s1 hdraw =>
      have h1 : s1.agenda = s.agenda := (congrArg (fun r : List Nat × State => r.2.agenda) hdraw.symm).trans (agenda_drawCells ..)
      rw [agenda_setFrame, agenda_linkCells, h1]

theorem agenda_serveFrom (s : State) (e n : Nat) : (s.serveFrom e n).agenda = s.agenda := (rfl)

theorem agenda_enqueue (s : State) (i : Nat) (c : CopyReq) : (s.enqueue i c).agenda = s.agenda := by
  unfold State.enqueue
  split
  · rfl
  next f _ =>
    extract_lets x s0 q after s1 cut
    have h1 : s1.agenda = s.agenda := (agenda_setQueue ..).trans (agenda_serveFrom ..)
    split
    next ce dei k _ =>
      extract_lets cp s2 s3
      split
      · rw [agenda_fixSpill, agenda_count, agenda_loseCopy]
      · have h2 : s2.agenda = s1.agenda := agenda_setQueue ..
        have h3 : s3.agenda = s2.agenda := by
          simp only [s3]
          split
          · exact agenda_count ..
          · rfl
        rw [agenda_doIf _ _ _ fun t => agenda_count t 10 _ 0, h3, h2, h1]

/-! The pipeline's decision on any frame -/

/-- What a pipeline decides costs at most an entry of the conductor log for each way and host route found bad, and one more. -/
theorem Rests.decideFrame {s : State} {k : Nat} (h : s.Rests k) (n i : Nat) (f : Frame) (full : Bool) (hk : k + s.hr.length < 750) :
    (s.decideFrame n i f full).2.Rests (k + s.hr.length + 9) := by
  have hle : k ≤ k + s.hr.length + 9 := by omega
  unfold State.decideFrame
  extract_lets bank b s0 f1 h1 r da sa a probe a2 v6 dst s1 s2 may g s3
  have h0 : s0.Rests k := h.of_agenda (agenda_count ..)
  have hways : s1.Rests (k + 8) := Rests.checkWays h0 n _ (by change k + 8 < 768; omega)
  have hhr : s1.hr.length = s.hr.length := congrArg List.length (hr_checkWays ..)
  have hunits : s2.Rests (k + 8 + s.hr.length) :=
    (hways.mono (by omega)).doIf _ (hhr ▸ Rests.checkUnits hways _ (by omega))
  split
  · exact (h0.mono hle).of_agenda ((agenda_dropFrame ..).trans (agenda_count ..))
  · split
    · exact (h0.mono hle).of_agenda ((agenda_dropFrame ..).trans ((agenda_imageLimit ..).trans (agenda_count ..)))
    · split
      · exact (hunits.mono (by omega)).of_agenda ((agenda_dropFrame ..).trans (agenda_count ..))
      · split
        · exact (hunits.mono (by omega)).of_agenda ((agenda_dropFrame ..).trans (agenda_rangeError ..))
        · have h3 : s3.Rests (k + 8 + s.hr.length) := hunits.of_agenda (agenda_doIf _ _ _ fun t => agenda_raiseLearn ..)
          exact (Rests.stepFour h3 n i b g a full (by omega)).mono (by omega)

/-! Transmit -/

theorem agenda_txDirect (s : State) (i : Nat) (f : Frame) (queue : Nat) : (s.txDirect i f queue).2.agenda = s.agenda := by
  unfold State.txDirect
  extract_lets c
  have hadmission := agenda_admission s i f [c] none false
  split
  next s1 hs =>
    rw [hs] at hadmission
    exact hadmission
  next s1 hs =>
    rw [hs] at hadmission
    extract_lets s2
    have h2 : s2.agenda = s.agenda := (agenda_setExpand ..).trans hadmission
    split
    · exact h2
    · exact (agenda_enqueue ..).trans ((agenda_cellsOf ..).trans ((agenda_setFrame ..).trans h2))

theorem Rests.txAdmit {s : State} {k : Nat} (h : s.Rests k) (r : Nat) (d : TxDesc) (bytes : List Byte) (eop : Nat)
    (hk : k + s.hr.length < 750) : (s.txAdmit r d bytes eop).2.Rests (k + s.hr.length + 9) := by
  have hle : k ≤ k + s.hr.length + 9 := by omega
  have hadd : (s.addFrame (s.txFrame r d bytes eop)).2.Rests k := h.of_agenda (agenda_addFrame ..)
  unfold State.txAdmit
  extract_lets f n
  dsimp only
  split
  · exact (hadd.mono hle).of_agenda (agenda_txDirect ..)
  · split
    · exact (hadd.mono hle).of_agenda (agenda_setFrame ..)
    · exact Rests.decideFrame hadd n _ f false hk

theorem agenda_txWriteBack (s : State) (r : Nat) (l : List Nat) (status : Nat) : (s.txWriteBack r l status).agenda = s.agenda :=
  agenda_each _ _ _ fun t _ _ => (agenda_hostPut ..).trans (agenda_hostPut t ..)

theorem agenda_txServed (s : State) (r n : Nat) : (s.txServed r n).agenda = s.agenda := by
  have hadvance : (s.ringAdvance r n).agenda = s.agenda := agenda_setF _ _ (ne_ringHead (by decide)).symm
  exact hadvance

/-! Receive -/

theorem agenda_wakeCpuQueue (s : State) (c : Nat) : (s.wakeCpuQueue c).agenda = s.agenda := by
  unfold State.wakeCpuQueue
  dsimp only
  split
  · rfl
  · split <;> rfl

theorem agenda_cpuTokens (s : State) (x : Bucket) : ({ s with fab := { s.fab with cpuTokens := x } } : State).agenda = s.agenda := (rfl)

theorem agenda_cpuV (s : State) (x : Nat) (q : Nat) (u : Queue) :
    (({ s with fab := { s.fab with cpuV := x } } : State).setQueue q u).agenda = s.agenda := (rfl)

theorem agenda_chargeCpu (s : State) (c len : Nat) : (s.chargeCpu c len).agenda = s.agenda := by
  unfold State.chargeCpu
  extract_lets x l s1 t b src s2 u src2 s3
  have h1 : s1.agenda = s.agenda := (agenda_chargeQ ..).trans (agenda_wakeCpuQueue ..)
  have h2 : s2.agenda = s1.agenda := by
    simp only [s2]
    split
    · exact (agenda_cpuTokens ..).trans (agenda_syncCpu ..)
    · rfl
  split
  · exact (agenda_cpuV ..).trans (h2.trans h1)
  · exact h2.trans h1

theorem exec_cpuRxDelivery (s : State) : exec .cpuRxDelivery s = run (fun s => s.cpuRx) s := (rfl)
theorem exec_cpuTx (s : State) (r : Nat) (e : Bool) : exec (.cpuTx r e) s = run (fun s => s.txServe r e) s := (rfl)

/-- The CPU-port node delivers the copy at the head of the queue that it selects. -/
theorem cpuRx_selected {s : State} {c : Nat} {cp : Copy} {l : List Copy} {f : Frame} (hpick : s.wakeCpu.pickCpu = some c)
    (hcopies : (s.queue (4096 + c)).copies = cp :: l) (hframe : s.frame cp.frame = some f) (hloss : s.cpuLoss (4096 + c) cp f = none) :
    s.cpuRx = s.cpuDeliver c cp f := by
  unfold State.cpuRx
  rw [hpick]
  dsimp only
  rw [hcopies]
  dsimp only
  rw [hframe]
  dsimp only
  rw [hloss]

theorem txServe_open {s : State} {r : Nat} (hlow : 0xC0 ≤ r) (hhigh : r ≤ 0xFF) (hruns : s.ringRuns r = true) :
    ¬ (r < 0xC0 ∨ 0xFF < r ∨ !s.ringRuns r) := by
  rw [hruns]
  simp
  omega

/-- A whole chain at the head of a TX ring is served in its turn (R336). -/
theorem txServe_chain {s : State} {r : Nat} {l : List (Nat × TxDesc)} (hopen : ¬ (r < 0xC0 ∨ 0xFF < r ∨ !s.ringRuns r))
    (hfirst : s.txFirst r = some l) : s.txServe r false =
      if !s.chainOpen l || !s.txTurn r then s
      else if badChain (l.map Prod.snd) then ((s.txWriteBack r (l.map Prod.fst) 1).count 20 (r - 0xC0) 2).txServed r l.length
      else match s.txAdmit r (chainHead l) ((l.map Prod.snd).flatMap fun e => s.hostRead e.addr e.fragLen) (s.ringAddr r (l.length - 1)) with
        | (true, x) => (((x.txWriteBack r (if (chainHead l).tsReq then (l.map Prod.fst).dropLast else l.map Prod.fst) 0).count 20 (r - 0xC0)
            0).countN 20 (r - 0xC0) 1 ((l.map Prod.snd).flatMap fun e => s.hostRead e.addr e.fragLen).length).txServed r l.length
        | (false, x) => ((x.txWriteBack r (l.map Prod.fst) 2).count 20 (r - 0xC0) 3).txServed r l.length := by
  unfold State.txServe
  rw [if_neg hopen, hfirst]
  rfl

/-- Settles O45: the branches of `cpuRx` and of `txServe`. -/
theorem cpuPort : Obligations.CpuPort := by
  unfold Obligations.CpuPort
  refine ⟨?receive, ?broken, ?transmit⟩
  case receive =>
    intro s c cp l f hcalm hpick hcopies hframe hloss i b info
    refine ⟨fun henable hruns ok x hdeliver => ?_, fun hnone => ?_⟩
    · have hopen : (!s.getB (F.HIF_CPUQ_MAP_enable c) || !s.ringRuns (0x80 + i)) = false := by
        rw [henable, hruns]
        rfl
      have hx : Keep s x := (Keep.refl s).rxDeliver hdeliver
      refine takes_keep hcalm ?_ (u := if ok then _ else _) ?_
      · rw [exec_cpuRxDelivery, run_calm hcalm, cpuRx_selected hpick hcopies hframe hloss]
        unfold State.cpuDeliver
        extract_lets
        rw [if_neg (by rw [hopen]; exact Bool.false_ne_true), hdeliver]
        cases ok <;> rfl
      · cases ok with
        | false => exact hx.trans (.of_agenda ((agenda_count ..).trans ((agenda_loseCopy ..).trans (agenda_popCopy ..))))
        | true =>
          refine hx.trans (.of_agenda ?_)
          rw [if_pos rfl, agenda_countN, agenda_count, agenda_countN, agenda_count, agenda_loseCopy, agenda_popCopy, agenda_chargeCpu]
    · have hclosed : (!s.getB (F.HIF_CPUQ_MAP_enable c) || !s.ringRuns (0x80 + i)) = true := by
        rcases hnone with h | h
        · rw [h]
          rfl
        · rw [h, Bool.not_false, Bool.or_true]
      refine takes_of_agenda (exec_cpuRxDelivery s) hcalm ?_ ((agenda_count ..).trans ((agenda_loseCopy ..).trans (agenda_popCopy ..)))
      rw [cpuRx_selected hpick hcopies hframe hloss]
      exact if_pos hclosed
  case broken =>
    intro s r hcalm hlow hhigh hruns
    have hopen := txServe_open hlow hhigh hruns
    refine ⟨?_, fun hstalls => ?_⟩
    · refine takes_of_agenda (exec_cpuTx s r true) hcalm ?_ (agenda_ringFault s (by omega) 2)
      unfold State.txServe
      rw [if_neg hopen]
      rfl
    · refine takes_of_agenda (exec_cpuTx s r false) hcalm ?_ (agenda_ownStall s (by omega))
      have hnone : s.txFirst r = none := by
        unfold State.txStalls at hstalls
        rw [Bool.and_eq_true] at hstalls
        exact Option.isNone_iff_eq_none.mp hstalls.2
      unfold State.txServe
      rw [if_neg hopen, hnone]
      exact if_pos hstalls
  case transmit =>
    intro s r l hcalm hlog hlow hhigh hruns hchain
    have hopen := txServe_open hlow hhigh hruns
    have hfirst : s.txFirst r = some l := hchain
    have hserve := txServe_chain hopen hfirst
    refine ⟨fun hturn => ?_, fun hturn => ?_⟩
    · exact idles_of (exec_cpuTx s r false) hcalm (hserve.trans (if_pos (by rw [hturn]; exact Bool.or_true _)))
    · intro ds d ix
      have hshut (h : s.chainOpen l = true) : ¬ (!s.chainOpen l || !s.txTurn r) = true := by
        rw [h, hturn]
        exact Bool.false_ne_true
      refine ⟨fun hbad => ?_, fun hgood hforward hfull => ?_, fun hgood hroom => ?_⟩
      · have hchain : s.chainOpen l = true := by
          unfold State.chainOpen
          rw [hbad]
          rfl
        refine takes_of_agenda (exec_cpuTx s r false) hcalm ?_ ((agenda_txServed ..).trans ((agenda_count ..).trans (agenda_txWriteBack ..)))
        rw [hserve, if_neg (hshut hchain), if_pos hbad]
      · have hchain : s.chainOpen l = false := by
          unfold State.chainOpen
          rw [hgood, show (chainHead l).forward = true from hforward, show s.expandFull ((chainHead l).port / 64) = true from hfull]
          rfl
        exact idles_of (exec_cpuTx s r false) hcalm (hserve.trans (if_pos (by rw [hchain]; rfl)))
      · intro bytes ok x hadmit
        have hchain : s.chainOpen l = true := by
          unfold State.chainOpen
          rcases hroom with h | h
          · rw [show (chainHead l).forward = false from h, Bool.false_and, Bool.not_false, Bool.or_true]
          · rw [show s.expandFull ((chainHead l).port / 64) = false from h, Bool.and_false, Bool.not_false, Bool.or_true]
        have hx : x.Rests (s.key.log.length + s.hr.length + 9) := by
          have h := Rests.txAdmit (rests_of_calm hcalm) r d bytes (s.ringAddr r (l.length - 1)) (by omega)
          rw [hadmit] at h
          exact h
        refine takes_of_rests (exec_cpuTx s r false) hcalm (u := if ok then _ else _) ?_ (n := s.key.log.length + s.hr.length + 9) ?_
        · rw [hserve, if_neg (hshut hchain), if_neg (by rw [hgood]; exact Bool.false_ne_true)]
          rw [show s.txAdmit r (chainHead l) _ _ = (ok, x) from hadmit]
          cases ok <;> rfl
        · cases ok with
          | false => exact hx.of_agenda ((agenda_txServed ..).trans ((agenda_count ..).trans (agenda_txWriteBack ..)))
          | true =>
            exact hx.of_agenda ((agenda_txServed ..).trans ((agenda_countN ..).trans ((agenda_count ..).trans (agenda_txWriteBack ..))))

end Sys2Proof.Machine
end

/-! ### Expansion of admitted frames and built mirror copies (R224, R228) -/

section
namespace Sys2Proof.Machine

theorem exec_copyEnqueue (s : State) (n : Nat) : exec (.copyEnqueue n) s = run (fun s => s.expandStep n) s := (rfl)
theorem exec_mirrorBuild (s : State) : exec .mirrorBuild s = run (fun s => s.mirrorBuildAt) s := (rfl)

/-! A copy enters its queue -/

/-- The queues and the order in which egress pipelines have taken copies. -/
def State.withQueues (s : State) (v : SMap (Nat × Nat × Nat)) (l : SMap Queue) : State :=
  { s with fab := { s.fab with served := v, queues := l } }

section
variable (s : State) (v : SMap (Nat × Nat × Nat)) (l : SMap Queue)

theorem setQueue_serveFrom (e n x : Nat) (q : Queue) :
    ∃ v : SMap (Nat × Nat × Nat), (s.serveFrom e n).setQueue x q = s.withQueues v (s.setQueue x q).fab.queues := ⟨_, rfl⟩

variable {s l}
variable {x : Nat} (h : SMap.get (fun _ => Queue.init) x l = s.queue x)
include h

theorem queue_withQueues : (s.withQueues v l).queue x = s.queue x := h

theorem qTokens_withQueues : (s.withQueues v l).qTokens x = s.qTokens x := by
  unfold State.qTokens
  rw [queue_withQueues v h]
  rfl

theorem cutsThrough_withQueues (f : Frame) : (s.withQueues v l).cutsThrough f x = s.cutsThrough f x := by
  unfold State.cutsThrough State.qFunded
  rw [queue_withQueues v h, qTokens_withQueues v h]
  rfl

theorem depthOf_withQueues : (s.withQueues v l).depthOf x = s.depthOf x := by
  unfold State.depthOf
  rw [queue_withQueues v h]
  rfl

end

theorem marking_withQueues {s : State} (v : SMap (Nat × Nat × Nat)) {l : SMap Queue} (f : Frame) {c : CopyReq}
    (h : SMap.get (fun _ => Queue.init) c.queue l = s.queue c.queue) : (s.withQueues v l).marking f c = s.marking f c := by
  unfold State.marking
  rw [depthOf_withQueues v h]
  rfl

theorem servedAfter_early {s : State} {e n : Nat} {d : Copy} (h : d.enq ≠ s.now) : s.servedAfter e n d = false := by
  unfold State.servedAfter
  dsimp only
  rw [decide_eq_false h]
  rfl

/-- The copy that the request `c` of frame `f` becomes in its queue (R201, R213). -/
def State.copyOf (s : State) (i : Nat) (f : Frame) (c : CopyReq) : Copy :=
  let cut := s.cutsThrough f c.queue
  let mk := if cut then (false, false, none) else s.marking f c
  { frame := i, charge := f.charge, len := f.copyLen c.edit, stamp := f.arrival, ce := mk.1,
    dei := mk.2.1 || (f.markDei && !c.mirror), edit := c.edit, mirror := c.mirror, cut := cut, prefetched := false, enq := s.now }

/-- Counters that a copy advances as it enters its queue. -/
def State.entered (s : State) (k : Option Nat) (x : Nat) (mirror : Bool) (session : Nat) : State :=
  (match k with | some j => s.count 6 x j | none => s).doIf mirror fun t => t.count 10 session 0

theorem queue_entered (s : State) (k : Option Nat) (x : Nat) (mirror : Bool) (session y : Nat) :
    (s.entered k x mirror session).queue y = s.queue y := by
  cases k <;> cases mirror <;> rfl

theorem frame_entered (s : State) (k : Option Nat) (x : Nat) (mirror : Bool) (session j : Nat) :
    (s.entered k x mirror session).frame j = s.frame j := by
  cases k <;> cases mirror <;> rfl

/-- A copy that no copy of the core cycle stands behind enters its queue at the tail (R224). -/
theorem enqueue_tail {s : State} {i : Nat} {f : Frame} {c : CopyReq} (hframe : s.frame i = some f)
    (hearly : ∀ d ∈ (s.queue c.queue).copies, d.enq ≠ s.now) (hopen : s.queueOpen c.queue = true) (hsafe : s.safetyShut c.queue = false) :
    ∃ v l k session, SMap.get (fun _ => Queue.init) c.queue l = s.queue c.queue
      ∧ (∀ y, y ≠ c.queue → SMap.get (fun _ => Queue.init) y l = s.queue y)
      ∧ s.enqueue i c = ((s.withQueues v l).setQueue c.queue
          { s.queue c.queue with copies := (s.queue c.queue).copies ++ [s.copyOf i f c] }).entered k c.queue c.mirror session := by
  have hafter : (s.queue c.queue).copies.filter ((s.serveFrom (s.egressOf c.queue) f.unit).servedAfter (s.egressOf c.queue) f.unit) = [] :=
    List.filter_eq_nil_iff.mpr fun d hd => by
      rw [servedAfter_early (s := s.serveFrom (s.egressOf c.queue) f.unit) (hearly d hd)]
      exact Bool.false_ne_true
  obtain ⟨v, hv⟩ := setQueue_serveFrom s (s.egressOf c.queue) f.unit c.queue (s.queue c.queue)
  have hsame : SMap.get (fun _ => Queue.init) c.queue (s.setQueue c.queue (s.queue c.queue)).fab.queues = s.queue c.queue :=
    queue_setQueue s c.queue _
  refine ⟨v, _, (if s.cutsThrough f c.queue then (false, false, none) else s.marking f c).2.2, (f.mirror.map Prod.fst).getD 0, hsame,
    fun y hy => queue_setQueue_other s hy _, ?_⟩
  unfold State.enqueue
  split
  next hgone => rw [hframe] at hgone; cases hgone
  next g hg =>
    obtain rfl : f = g := Option.some.inj (hframe.symm.trans hg)
    extract_lets x s0 q after s1 cut entered q0
    have hnone : after = [] := hafter
    have h1 : s1 = s.withQueues v (s.setQueue c.queue (s.queue c.queue)).fab.queues := by
      have hall : (q.copies.filter fun d => decide (d ∉ after)) = q.copies := by
        rw [hnone]
        simp
      simp only [s1, hall]
      exact hv
    have hcut : cut = s.cutsThrough f c.queue := by
      simp only [cut, h1]
      exact cutsThrough_withQueues v hsame f
    have hopen' : ¬ (!s.queueOpen x || s.safetyShut x) = true := by
      rw [hopen, hsafe]
      exact Bool.false_ne_true
    clear_value s1 cut after
    subst h1 hcut hnone
    rw [marking_withQueues v f hsame]
    simp only [if_neg hopen']
    have hq : (s.withQueues v (s.setQueue c.queue (s.queue c.queue)).fab.queues).queue x = s.queue c.queue := hsame
    have hentered : entered = q0 := hq
    clear_value entered
    subst hentered
    rw [hq]
    rfl

theorem enqueue_refused {s : State} {i : Nat} {f : Frame} {c : CopyReq} (hframe : s.frame i = some f)
    (h : s.queueOpen c.queue = false ∨ s.safetyShut c.queue = true) :
    s.enqueue i c = ((s.loseShare i).count 6 c.queue 4).fixSpill c.queue := by
  have hshut : (!s.queueOpen c.queue || s.safetyShut c.queue) = true := by
    rcases h with h | h
    · rw [h]
      rfl
    · rw [h, Bool.or_true]
  unfold State.enqueue
  split
  next hgone => rw [hframe] at hgone; cases hgone
  next g hg => exact if_pos hshut

/-! Expansion -/

theorem agenda_setJobs (s : State) (l : List MirrorJob) : ({ s with fab := { s.fab with mirrorJobs := l } } : State).agenda = s.agenda := (rfl)

theorem agenda_expanded (s : State) (i : Nat) (l : List CopyReq) : (s.each l fun w c => w.enqueue i c).agenda = s.agenda :=
  agenda_each _ _ _ fun t c _ => agenda_enqueue t i c

theorem expandStep_gone {s : State} {n i : Nat} {r : List Nat} (hqueue : s.expandQ n = i :: r) (hframe : s.frame i = none) :
    s.expandStep n = s.setExpand n r := by
  unfold State.expandStep
  rw [hqueue]
  dsimp only
  rw [show (s.setExpand n r).frame i = none from hframe]

/-- A share of the mirror engine becomes a job (R226). -/
def State.withJob (s : State) (i : Nat) (share : Bool) (mirror : Option (Nat × Session)) : State :=
  match mirror with
  | some (k, e) => s.doIf share fun t => { t with fab := { t.fab with mirrorJobs := t.fab.mirrorJobs ++ [(⟨i, k, e⟩ : MirrorJob)] } }
  | none => s

section
variable {i : Nat} {share : Bool} {mirror : Option (Nat × Session)}

theorem withJob_share (s : State) {k : Nat} {e : Session} (hshare : share = true) (hmirror : mirror = some (k, e)) :
    s.withJob i share mirror = { s with fab := { s.fab with mirrorJobs := s.fab.mirrorJobs ++ [(⟨i, k, e⟩ : MirrorJob)] } } := by
  subst hshare hmirror
  rfl

theorem withJob_none (s : State) (h : share = false ∨ mirror = none) : s.withJob i share mirror = s := by
  rcases h with rfl | rfl
  · cases mirror <;> rfl
  · rfl

end

theorem expandStep_frame {s : State} {n i : Nat} {r : List Nat} {f : Frame} (hqueue : s.expandQ n = i :: r) (hframe : s.frame i = some f) :
    s.expandStep n = ((((s.setExpand n r).setFrame i (some { f with stage := .live, copies := [] })).cellsOf i).withJob i f.mirrorShare
      f.mirror).each f.copies fun t c => t.enqueue i c := by
  unfold State.expandStep
  rw [hqueue]
  dsimp only
  rw [show (s.setExpand n r).frame i = some f from hframe]
  rfl

/-! Built mirror copies -/

theorem agenda_newCopy (s : State) (i x : Nat) (q : Queue) (k : Nat) : (((s.cellsOf i).setQueue x q).count 10 k 0).agenda = s.agenda :=
  (agenda_count ..).trans ((agenda_setQueue ..).trans (agenda_cellsOf ..))

theorem agenda_buildCopy (s : State) (f : Frame) (k x n : Nat) (l : List Byte) : (s.buildCopy f k x n l).agenda = s.agenda := by
  unfold State.buildCopy
  exact (agenda_newCopy ..).trans ((agenda_addFrame ..).trans (agenda_poolMove ..))

theorem mirrorDrop_guard (n : Nat) : guardReg (F.PIPE_REP_EVENT_mirror_drop n).addr = false := by
  refine guard_high ?_
  unfold F.PIPE_REP_EVENT_mirror_drop Addr.PIPE_REP_EVENT
  dsimp only
  omega

section
variable {s : State} {x n : Nat}

theorem acceptCopy_closed (h : s.queueOpen x = false) : s.acceptCopy x n = (false, s.count 6 x 1) := by
  unfold State.acceptCopy
  rw [h]
  rfl

theorem acceptCopy_full (hopen : s.queueOpen x = true) (h : 16 * s.limitF (F.BUF_QCFG_A_q_limit x) < s.depthOf x + n) :
    s.acceptCopy x n = (false, s.count 6 x 0) := by
  unfold State.acceptCopy
  rw [hopen]
  exact if_pos h

theorem acceptCopy_room (hopen : s.queueOpen x = true) (h : s.depthOf x + n ≤ 16 * s.limitF (F.BUF_QCFG_A_q_limit x)) :
    s.acceptCopy x n = (true, s) := by
  unfold State.acceptCopy
  rw [hopen]
  exact if_neg (Nat.not_lt.mpr h)

end

/-- What the mirror engine does with frame `f` of job `j`, whose job has been taken (R228). -/
def State.mirrorServe (s : State) (j : MirrorJob) (f : Frame) : State :=
  let m := if j.entry.trunc = 0 then f.len - 4 else min (f.len - 4) j.entry.trunc
  let n := ceilDiv (j.entry.encapLen + m) 256
  let x := j.entry.queue j.session
  if f.bad || f.cellBad || !j.entry.valid then s.release j.frame
  else if s.safetyShut x then (s.count 6 x 4).release j.frame
  else if !s.poolGrants 12 n || !s.quotaLeft false 12 n then
    (((s.poolFail 12).count 10 j.session 2).raise (F.PIPE_REP_EVENT_mirror_drop f.unit)).release j.frame
  else if (s.acceptCopy x n).1 then ((s.acceptCopy x n).2.buildCopy f j.session x n (j.entry.build f.bytes m)).release j.frame
  else ((s.acceptCopy x n).2.raise (F.PIPE_REP_EVENT_mirror_drop f.unit)).release j.frame

/-- Cells of the copy that a job builds. -/
def MirrorJob.cells (j : MirrorJob) (f : Frame) : Nat :=
  ceilDiv (j.entry.encapLen + if j.entry.trunc = 0 then f.len - 4 else min (f.len - 4) j.entry.trunc) 256

section
variable {s u : State} {j : MirrorJob} {f : Frame} {ok : Bool}

theorem mirrorServe_bad (h : f.bad = true ∨ f.cellBad = true ∨ j.entry.valid = false) : s.mirrorServe j f = s.release j.frame := by
  refine if_pos ?_
  rcases h with h | h | h <;> simp [h]

variable (hgood : f.bad = false ∧ f.cellBad = false ∧ j.entry.valid = true)
include hgood

theorem mirrorServe_shut (hshut : s.safetyShut (j.entry.queue j.session) = true) :
    s.mirrorServe j f = (s.count 6 (j.entry.queue j.session) 4).release j.frame := by
  obtain ⟨hbad, hcells, hvalid⟩ := hgood
  unfold State.mirrorServe
  dsimp only
  rw [hbad, hcells, hvalid, hshut]
  rfl

theorem mirrorServe_refused (hsafe : s.safetyShut (j.entry.queue j.session) = false)
    (hrefused : (s.poolGrants 12 (j.cells f) && s.quotaLeft false 12 (j.cells f)) = false) : s.mirrorServe j f =
      (((s.poolFail 12).count 10 j.session 2).raise (F.PIPE_REP_EVENT_mirror_drop f.unit)).release j.frame := by
  obtain ⟨hbad, hcells, hvalid⟩ := hgood
  have hnot : (!s.poolGrants 12 (j.cells f) || !s.quotaLeft false 12 (j.cells f)) = true := by
    rw [← Bool.not_and, hrefused]
    rfl
  unfold State.mirrorServe
  dsimp only
  rw [hbad, hcells, hvalid, hsafe]
  exact if_pos hnot

theorem mirrorServe_granted (hsafe : s.safetyShut (j.entry.queue j.session) = false)
    (hgrants : (s.poolGrants 12 (j.cells f) && s.quotaLeft false 12 (j.cells f)) = true)
    (haccept : s.acceptCopy (j.entry.queue j.session) (j.cells f) = (ok, u)) : s.mirrorServe j f =
      if ok then (u.buildCopy f j.session (j.entry.queue j.session) (j.cells f)
        (j.entry.build f.bytes (if j.entry.trunc = 0 then f.len - 4 else min (f.len - 4) j.entry.trunc))).release j.frame
      else (u.raise (F.PIPE_REP_EVENT_mirror_drop f.unit)).release j.frame := by
  obtain ⟨hbad, hcells, hvalid⟩ := hgood
  have hnot : ¬ (!s.poolGrants 12 (j.cells f) || !s.quotaLeft false 12 (j.cells f)) = true := by
    rw [← Bool.not_and, hgrants]
    exact Bool.false_ne_true
  unfold MirrorJob.cells at hnot haccept ⊢
  unfold State.mirrorServe
  dsimp only
  rw [hbad, hcells, hvalid, hsafe]
  simp only [Bool.or_self, Bool.not_true, Bool.false_eq_true, if_false, if_neg hnot, haccept]

end

theorem mirrorBuildAt_job {s : State} {j : MirrorJob} (hjob : s.mirrorJob = some j) :
    s.mirrorBuildAt = (match s.frame j.frame with
      | none => { s with fab := { s.fab with mirrorJobs := s.fab.mirrorJobs.erase j } }
      | some f => ({ s with fab := { s.fab with mirrorJobs := s.fab.mirrorJobs.erase j } } : State).mirrorServe j f) := by
  unfold State.mirrorBuildAt
  rw [hjob]
  rfl

/-- Settles O56: expansion by the frame's mirror share, a copy's entry into its queue, and the mirror engine's refusals. -/
theorem expansionAndMirrorBuild : Obligations.ExpansionAndMirrorBuild := by
  unfold Obligations.ExpansionAndMirrorBuild
  refine ⟨?empty, ?expands, ?enters, ?jobless, ?builds⟩
  case empty =>
    intro s n hcalm hempty
    refine idles_of (exec_copyEnqueue s n) hcalm ?_
    unfold State.expandStep
    rw [hempty]
  case expands =>
    intro s n i r hcalm hqueue t
    refine ⟨fun hframe => ?_, fun f hframe => ?_⟩
    · exact takes_of_agenda (exec_copyEnqueue s n) hcalm (expandStep_gone hqueue hframe) (agenda_setExpand ..)
    · intro x
      have hstep := expandStep_frame hqueue hframe
      have hx : x.agenda = s.agenda := (agenda_cellsOf ..).trans ((agenda_setFrame ..).trans (agenda_setExpand ..))
      refine ⟨fun k e hshare hmirror => ?_, fun hnone => ?_⟩
      · intro y
        refine takes_of_agenda (exec_copyEnqueue s n) hcalm ?_ ((agenda_expanded ..).trans ((agenda_setJobs ..).trans hx))
        rw [hstep, withJob_share _ hshare hmirror]
      · refine takes_of_agenda (exec_copyEnqueue s n) hcalm ?_ ((agenda_expanded ..).trans hx)
        rw [hstep, withJob_none _ hnone]
  case enters =>
    intro s i f c hframe hearly x cut mk cp
    refine ⟨fun hopen hsafe => ?_, fun hrefused => enqueue_refused hframe hrefused⟩
    obtain ⟨v, l, k, session, hsame, hother, heq⟩ := enqueue_tail hframe hearly hopen hsafe
    rw [heq]
    refine ⟨?_, fun y hy => ?_, fun j => ?_⟩
    · rw [queue_entered, queue_setQueue]
      rfl
    · rw [queue_entered, queue_setQueue_other _ hy]
      exact hother y hy
    · rw [frame_entered]
      rfl
  case jobless =>
    intro s hcalm hnone
    refine idles_of (exec_mirrorBuild s) hcalm ?_
    unfold State.mirrorBuildAt
    rw [hnone]
  case builds =>
    intro s j hcalm hjob i k e t
    have hbuild := mirrorBuildAt_job hjob
    have ht : t.agenda = s.agenda := agenda_setJobs ..
    refine ⟨fun hframe => ?_, fun f hframe => ?_⟩
    · refine takes_of_agenda (exec_mirrorBuild s) hcalm ?_ ht
      rw [hbuild, show s.frame j.frame = none from hframe]
    · intro m n x lost
      have hserve : s.mirrorBuildAt = t.mirrorServe j f := by
        rw [hbuild, show s.frame j.frame = some f from hframe]
      have takes {u : State} (heq : t.mirrorServe j f = u) (ha : u.agenda = t.agenda) : Takes .mirrorBuild s u :=
        takes_of_agenda (exec_mirrorBuild s) hcalm (hserve.trans heq) (ha.trans ht)
      have hlost {u : State} (hu : u.agenda = t.agenda) : (lost u).agenda = t.agenda :=
        (agenda_release ..).trans ((agenda_raise _ (mirrorDrop_guard f.unit)).trans hu)
      refine ⟨fun hbad => takes (mirrorServe_bad hbad) (agenda_release ..), fun hgood hcells hvalid => ⟨fun hshut => ?_, fun hsafe =>
        ⟨fun hrefused => ?_, fun hgrants => ⟨fun hclosed => ?_, fun hopen hfull => ?_, fun hopen hroom => ?_⟩⟩⟩⟩
      · exact takes (mirrorServe_shut ⟨hgood, hcells, hvalid⟩ hshut) ((agenda_release ..).trans (agenda_count ..))
      · exact takes (mirrorServe_refused ⟨hgood, hcells, hvalid⟩ hsafe hrefused) (hlost ((agenda_count ..).trans (agenda_poolFail ..)))
      · exact takes (mirrorServe_granted ⟨hgood, hcells, hvalid⟩ hsafe hgrants (acceptCopy_closed hclosed)) (hlost (agenda_count ..))
      · exact takes (mirrorServe_granted ⟨hgood, hcells, hvalid⟩ hsafe hgrants (acceptCopy_full hopen hfull)) (hlost (agenda_count ..))
      · exact takes (mirrorServe_granted ⟨hgood, hcells, hvalid⟩ hsafe hgrants (acceptCopy_room hopen hroom))
          ((agenda_release ..).trans (agenda_buildCopy ..))

end Sys2Proof.Machine
end

/-! ### Arrival and end of a frame (R24, R50, R54, R55, R111, R199) -/

section
namespace Sys2Proof.Machine

theorem exec_frameReceive (s : State) (p : Nat) (head : List Byte) :
    exec (.frameReceive p head) s = run (fun s => s.frameArrive p head) s := (rfl)

theorem exec_frameRxEnd (s : State) (p : Nat) (rest : List Byte) (good : Bool) (e : RxEnd) :
    exec (.frameRxEnd p rest good e) s = run (fun s => s.frameEnd p rest good e.pcsError e.mm) s := (rfl)

/-! The header FIFO (R31) -/

section
variable {s : State} {p i : Nat}

/-- A header that no later sub-port's stands before enters its FIFO at the tail. -/
theorem enterFifo_tail {f : Frame} (hframe : s.frame i = some f) (hroom : (s.fifo (p / 4)).length < 16)
    (hlast : ∀ j ∈ s.fifo (p / 4), s.enteredAfter p j = false) :
    s.enterFifo p i = some ((s.setFifo (p / 4) (s.fifo (p / 4) ++ [i])).setFrame i (some { f with hdrAt := s.now })) := by
  have hfirst : ((s.fifo (p / 4)).filter fun j => !s.enteredAfter p j) = s.fifo (p / 4) :=
    List.filter_eq_self.mpr fun j hj => by rw [hlast j hj]; rfl
  have hlater : (s.fifo (p / 4)).filter (s.enteredAfter p) = [] :=
    List.filter_eq_nil_iff.mpr fun j hj => by rw [hlast j hj]; exact Bool.false_ne_true
  have hfit : (s.fifo (p / 4) ++ [i]).length ≤ 16 := by
    rw [List.length_append]
    exact hroom
  unfold State.enterFifo
  dsimp only
  rw [hfirst, hlater, if_neg (Nat.not_le.mpr hroom), List.take_of_length_le hfit, List.drop_of_length_le hfit]
  rewrite [show ((s.setFifo (p / 4) (s.fifo (p / 4) ++ [i])).each [] State.turnAway).frame i = some f from hframe]
  rfl

theorem enterFifo_full (hfull : 16 ≤ (s.fifo (p / 4)).length) (hlast : ∀ j ∈ s.fifo (p / 4), s.enteredAfter p j = false) :
    s.enterFifo p i = none := by
  have hfirst : ((s.fifo (p / 4)).filter fun j => !s.enteredAfter p j) = s.fifo (p / 4) :=
    List.filter_eq_self.mpr fun j hj => by rw [hlast j hj]; rfl
  unfold State.enterFifo
  dsimp only
  rw [hfirst, if_pos hfull]

end

/-! The first bytes -/

theorem frameArrive_shut {s : State} {p : Nat} (head : List Byte) (h : s.portUp p = false ∨ (s.port p).arriving.isSome = true) :
    s.frameArrive p head = s := by
  refine if_pos ?_
  rcases h with h | h
  · rewrite [h]
    rfl
  · rw [h, Bool.or_true]

/-- Port `p` as it takes the first bytes of a frame (R68). -/
def State.receiving (s : State) (p : Nat) : State :=
  s.setPort p { s.port p with rxCfg := s.reg (Addr.PORT_MAC_CFG (p / 4) (p % 4)), rxAddr := s.macAddr p, activity := true }

/-- Port `p` is receiving a frame of a kind. -/
def State.receives (s : State) (p : Nat) (a : Arriving) : State := s.setPort p { s.port p with arriving := some a }

theorem agenda_receiving (s : State) (p : Nat) : (s.receiving p).agenda = s.agenda := agenda_setPort ..
theorem agenda_receives (s : State) (p : Nat) (a : Arriving) : (s.receives p a).agenda = s.agenda := agenda_setPort ..

section
variable {s : State} {p : Nat} {head : List Byte} (hup : s.portUp p = true) (hfree : (s.port p).arriving = none)
include hup hfree

theorem frameArrive_open : s.frameArrive p head =
    if !s.getB (F.PORT_MAC_CFG_rx_en (p / 4) (p % 4)) || decide (be16 head 12 = 0x8808) then (s.receiving p).receives p (.consumed head)
    else match (s.receiving p).expressTest p head with
      | .no => (s.receiving p).packetArrive p head
      | .late => ((s.receiving p).count 1 p 2).packetArrive p head
      | .fallback => ((s.receiving p).count 1 p 4).packetArrive p head
      | .yes out => (((((s.receiving p).count 1 p 0).rxStamp p).2).receives p (.express out false head
          (((s.receiving p).count 1 p 0).rxStamp p).2.now (((s.receiving p).count 1 p 0).rxStamp p).1)).expressArrive p out head := by
  have hnot : ¬ (!s.portUp p || (s.port p).arriving.isSome) = true := by
    rw [hup, hfree]
    exact Bool.false_ne_true
  unfold State.frameArrive
  extract_lets m i src s1 rcv
  have hen : s1.getB (F.PORT_MAC_CFG_rx_en m i) = s.getB (F.PORT_MAC_CFG_rx_en (p / 4) (p % 4)) := rfl
  have h1 : s1 = s.receiving p := rfl
  rw [if_neg hnot, hen]
  clear_value s1
  subst h1
  refine ite_congr rfl (fun _ => rfl) fun _ => ?_
  cases (s.receiving p).expressTest p head with
  | no => rfl
  | late => rfl
  | fallback => rfl
  | yes out =>
    generalize ((s.receiving p).count 1 p 0).rxStamp p = r
    obtain ⟨t, u⟩ := r
    rfl

end

section
variable {s : State} {i p : Nat} {l : List Byte}

/-- The Meridian frame of port `i` starts at egress MAC `p`. -/
def State.sendMeridian (s : State) (i p : Nat) (l : List Byte) : State :=
  ((s.stampTx p (s.meridianTx i l)).2).startTx p (s.stampTx p (s.meridianTx i l)).1

theorem expressArrive_free (hskid : (s.port p).skid = []) (htx : (s.port p).tx = none) : s.expressArrive i p l = s.sendMeridian i p l := by
  unfold State.expressArrive
  dsimp only
  rewrite [hskid, htx]
  rfl

theorem expressArrive_waits (h : (s.port p).skid ≠ [] ∨ (s.port p).tx.any TxFrame.meridian = true) :
    s.expressArrive i p l = s.setPort p { s.port p with skid := (s.port p).skid ++ [s.meridianTx i l] } := by
  unfold State.expressArrive
  dsimp only
  split
  · rfl
  next hempty =>
    rcases h with h | h
    · simp at hempty
      exact absurd hempty h
    · split
      next hnone =>
        rw [hnone] at h
        cases h
      next t hsome =>
        rw [hsome] at h
        exact if_pos h

theorem expressArrive_breaks {t : TxFrame} (hskid : (s.port p).skid = []) (htx : (s.port p).tx = some t) (hplane : t.meridian = false) :
    s.expressArrive i p l = if s.canCut p t then (s.interrupt p t).sendMeridian i p l
      else ((s.stompNow p .collision true).raise (F.PORT_MAC_EVENT_meridian_collision (p / 4) (p % 4))).sendMeridian i p l := by
  unfold State.expressArrive
  dsimp only
  rw [hskid, htx]
  dsimp only [List.isEmpty]
  rewrite [hplane]
  rfl

end

/-! Packet-plane frames -/

section
variable {s : State} {p t : Nat} {head : List Byte}

theorem packetStart_short (h : head.length < 256) :
    s.packetStart p head t = (s.addFrame (s.newFrame p head t)).2.receives p (.packet s.fab.nextFrame) := if_pos h

theorem packetStart_long (h : 256 ≤ head.length) : s.packetStart p head t =
    match ((s.addFrame (s.newFrame p head t)).2.receives p (.packet s.fab.nextFrame)).enterFifo p s.fab.nextFrame with
    | some u => u
    | none => (s.count 0 p 8).setPort p { s.port p with arriving := some (.ignored head false) } := if_neg (Nat.not_lt.mpr h)

end

theorem frame_addFrame (s : State) (f : Frame) : (s.addFrame f).2.frame s.fab.nextFrame = some f := frame_setFrame s s.fab.nextFrame (some f)

/-! The last bytes -/

theorem agenda_reassembled (s : State) (p : Nat) (mm : Reassembly) : (s.reassembled p mm).agenda = s.agenda := by
  unfold State.reassembled
  split <;> rfl

theorem frame_reassembled (s : State) (p : Nat) (mm : Reassembly) (i : Nat) : (s.reassembled p mm).frame i = s.frame i := by
  unfold State.reassembled
  split <;> rfl

theorem fifo_reassembled (s : State) (p : Nat) (mm : Reassembly) (m : Nat) : (s.reassembled p mm).fifo m = s.fifo m := by
  unfold State.reassembled
  split <;> rfl

theorem port_reassembled (s : State) (p : Nat) (mm : Reassembly) (x : Nat) : (s.reassembled p mm).port x = s.port x := by
  unfold State.reassembled
  split <;> rfl

theorem rxClass_good {mx len : Nat} (hlow : 64 ≤ len) (hhigh : len ≤ mx) : rxClass mx len true false = (0, []) := by
  unfold rxClass
  rewrite [if_neg (Nat.not_lt.mpr hlow), if_pos hhigh]
  rfl

theorem rxClass_wrongFcs {mx len : Nat} (hlow : 64 ≤ len) (hhigh : len ≤ mx) : rxClass mx len false false = (2, [2]) := by
  unfold rxClass
  rewrite [if_neg (Nat.not_lt.mpr hlow), if_pos hhigh]
  rfl

/-- The state in which the last bytes of a frame have reached port `p` (R50, R62). -/
def State.received (s : State) (p : Nat) (mm : Reassembly) : State :=
  (s.setPort p { s.port p with arriving := none, activity := true }).reassembled p mm

section
variable (s : State) (p : Nat) (mm : Reassembly)

theorem agenda_received : (s.received p mm).agenda = s.agenda := (agenda_reassembled ..).trans (agenda_setPort ..)
theorem frame_received (i : Nat) : (s.received p mm).frame i = s.frame i := frame_reassembled ..
theorem fifo_received (m : Nat) : (s.received p mm).fifo m = s.fifo m := fifo_reassembled ..

/-- Receiving changes nothing of what an egress MAC sends or holds back. -/
theorem egress_received (x : Nat) : ((s.received p mm).port x).tx = (s.port x).tx ∧ ((s.received p mm).port x).skid = (s.port x).skid := by
  rw [State.received, port_reassembled]
  by_cases h : x = p
  · subst h
    rw [port_setPort]
    exact ⟨rfl, rfl⟩
  · rw [port_setPort_other _ h]
    exact ⟨rfl, rfl⟩

end

theorem packetEnd_queued {s : State} {i : Nat} {f : Frame} (bytes : List Byte) (len : Nat) (good : Bool) (hframe : s.frame i = some f)
    (hstage : f.stage = .fifo) (hlearn : f.learn = .none) (hmeter : f.meter = none) : s.packetEnd i bytes len good =
      s.setFrame i (some { f with bytes := bytes, len := len, ended := true, bad := f.bad || !good }) := by
  unfold State.packetEnd
  rw [hframe]
  dsimp only
  rw [hstage, hlearn, hmeter]
  cases good <;> rfl

/-- The end of a packet-plane frame, by its class and whether its header was in its FIFO (R50, R199). -/
theorem frameEnd_packet {s : State} {p i k : Nat} {f : Frame} {cs : List Nat} (rest : List Byte) (fcsGood pcsError : Bool) (mm : Reassembly)
    (harriving : (s.port p).arriving = some (.packet i)) (hframe : s.frame i = some f)
    (hfits : f.bytes.length + rest.length ≤ fldOf (s.port p).rxCfg 0 14)
    (hclass : rxClass (fldOf (s.port p).rxCfg 0 14) (f.bytes ++ rest).length (fcsGood && !mm.bad) pcsError = (k, cs)) :
    s.frameEnd p rest fcsGood pcsError mm =
      (let t := ((s.received p mm).each cs fun t c => t.count 0 p c).packetEnd i (f.bytes ++ rest) (f.bytes ++ rest).length (decide (k = 0))
      let full := decide (f.stage = .fifo) && decide (f.bytes.length < 256)
      let u := if full then t.shortArrive p i (decide (k = 1)) else t
      if k = 0 && (!full || (u.frame i).isSome) then (u.count 0 p 0).countN 0 p 1 (f.bytes ++ rest).length else u) := by
  have hlen : (f.bytes ++ rest).length ≤ fldOf (s.port p).rxCfg 0 14 := by
    rw [List.length_append]
    exact hfits
  unfold State.frameEnd
  dsimp only
  rw [harriving]
  dsimp only
  rw [show ((s.setPort p { s.port p with arriving := none, activity := true }).reassembled p mm).frame i = some f from
    (frame_received ..).trans hframe]
  dsimp only
  rewrite [hclass, if_neg (Nat.not_lt.mpr hlen), Nat.min_eq_left hlen]
  rfl

theorem shortArrive_tail {s : State} {p i : Nat} {f : Frame} (hframe : s.frame i = some f) (hroom : (s.fifo (p / 4)).length < 16)
    (hlast : ∀ j ∈ s.fifo (p / 4), s.enteredAfter p j = false) :
    s.shortArrive p i false = (s.setFifo (p / 4) (s.fifo (p / 4) ++ [i])).setFrame i (some { f with hdrAt := s.now }) := by
  unfold State.shortArrive
  rewrite [enterFifo_tail hframe hroom hlast]
  rfl

/-- The end of an express frame gives the frame being sent its length (R54). -/
theorem frameEnd_express {s : State} {p out t0 tRx : Nat} {got rest : List Byte} {mm : Reassembly}
    (harriving : (s.port p).arriving = some (.express out false got t0 tRx)) (hwhole : mm.bad = false)
    (hlow : 64 ≤ (got ++ rest).length) (hhigh : (got ++ rest).length ≤ fldOf (s.port p).rxCfg 0 14) :
    s.frameEnd p rest true false mm = ((((s.received p mm).count 0 p 0).countN 0 p 1 (got ++ rest).length).countN 1 p 1
      (got ++ rest).length).expressEnd out p (got ++ rest) false := by
  have hclass := rxClass_good hlow hhigh
  have hnot : (false || decide (fldOf (s.port p).rxCfg 0 14 < (got ++ rest).length) || decide ((got ++ rest).length < 64)) = false := by
    rewrite [decide_eq_false (Nat.not_lt.mpr hhigh), decide_eq_false (Nat.not_lt.mpr hlow)]
    rfl
  unfold State.frameEnd
  dsimp only
  rw [harriving]
  dsimp only
  rewrite [hwhole, show (true && !false) = true from rfl, hclass, hnot, List.take_of_length_le hhigh, Nat.min_eq_left hhigh]
  rfl

theorem skidCheck_empty {s : State} {p : Nat} (h : (s.port p).skid = []) : s.skidCheck p = s := by
  unfold State.skidCheck
  rewrite [h]
  rfl

theorem expressEnd_sending {s : State} {out p : Nat} {l : List Byte} {x : TxFrame} (htx : (s.port out).tx = some x)
    (hskid : (s.port out).skid = []) (hcross : x.crossing p = true) :
    s.expressEnd out p l false = s.setPort out { s.port out with tx := some { x with bytes := l, len := l.length } } := by
  unfold State.expressEnd State.onCrossing
  dsimp only
  rw [htx]
  dsimp only
  rw [hcross, if_pos rfl]
  refine skidCheck_empty ?_
  rw [port_setPort]
  exact hskid

end Sys2Proof.Machine
end

/-! ### Arrival and end of a frame as the statement has them -/

section
namespace Sys2Proof.Machine

/-- A frame that goes to the packet plane, from its receive timestamp on (R26). -/
theorem packetArrive_stamped {s x : State} {p t : Nat} (head : List Byte) (hstamp : s.rxStamp p = (t, x)) :
    s.packetArrive p head = x.packetStart p head t := by
  unfold State.packetArrive
  rw [hstamp]

theorem now_rxStamp {s x : State} {p t : Nat} (hstamp : s.rxStamp p = (t, x)) : x.now = s.now := by
  have h := now_of_agenda (agenda_rxStamp s p)
  rw [hstamp] at h
  exact h

/-- The end of a good frame whose header waited for it (R26 step 2, R50). -/
theorem frameEnd_short {s u : State} {p i : Nat} {f : Frame} {rest : List Byte} {mm : Reassembly}
    (harriving : (s.port p).arriving = some (.packet i)) (hframe : s.frame i = some f)
    (hfits : f.bytes.length + rest.length ≤ fldOf (s.port p).rxCfg 0 14)
    (hclass : rxClass (fldOf (s.port p).rxCfg 0 14) (f.bytes ++ rest).length (true && !mm.bad) false = (0, []))
    (hheader : f.stage = .fifo ∧ f.bytes.length < 256)
    (hshort : ((s.received p mm).packetEnd i (f.bytes ++ rest) (f.bytes ++ rest).length true).shortArrive p i false = u)
    (hstays : (u.frame i).isSome = true) :
    s.frameEnd p rest true false mm = (u.count 0 p 0).countN 0 p 1 (f.bytes ++ rest).length := by
  obtain ⟨hstage, hhead⟩ := hheader
  have hfull : (decide (f.stage = .fifo) && decide (f.bytes.length < 256)) = true := by
    rewrite [decide_eq_true hstage, decide_eq_true hhead]
    rfl
  have hshort : (((s.received p mm).each [] fun t c => t.count 0 p c).packetEnd i (f.bytes ++ rest) (f.bytes ++ rest).length
      (decide (0 = 0))).shortArrive p i (decide (0 = 1)) = u := hshort
  rw [frameEnd_packet rest true false mm harriving hframe hfits hclass]
  dsimp only
  rewrite [hfull, if_pos rfl, hshort, hstays]
  rfl

theorem port_counted (s : State) (g i c n p : Nat) : (s.countN g i c n).port p = s.port p := (rfl)

/-- Settles O53: `frameArrive` by the verdict of the express test, and `frameEnd` by what is arriving. -/
theorem frameArrival : Obligations.FrameArrival := by
  unfold Obligations.FrameArrival
  refine ⟨?shut, ?arrives, ?ends, ?expressEnds⟩
  case shut =>
    intro s p head hcalm h
    exact idles_of (exec_frameReceive s p head) hcalm (frameArrive_shut head h)
  case arrives =>
    intro s p head hcalm hup hfree cfg s1 rcv en
    have harrive := frameArrive_open (head := head) hup hfree
    have h1 : s1.agenda = s.agenda := agenda_receiving s p
    refine ⟨fun hconsumed => ?_, fun hen htype => ?_⟩
    · have hcond : (!s.getB (F.PORT_MAC_CFG_rx_en (p / 4) (p % 4)) || decide (be16 head 12 = 0x8808)) = true := by
        rcases hconsumed with h | h
        · rewrite [show s.getB (F.PORT_MAC_CFG_rx_en (p / 4) (p % 4)) = false from h]
          rfl
        · rw [h, decide_eq_true rfl, Bool.or_true]
      refine takes_of_agenda (exec_frameReceive s p head) hcalm ?_ ((agenda_receives ..).trans h1)
      rewrite [harrive, if_pos hcond]
      rfl
    · have hcond : ¬ (!s.getB (F.PORT_MAC_CFG_rx_en (p / 4) (p % 4)) || decide (be16 head 12 = 0x8808)) = true := by
        rw [show s.getB (F.PORT_MAC_CFG_rx_en (p / 4) (p % 4)) = true from hen, decide_eq_false htype]
        exact Bool.false_ne_true
      rw [if_neg hcond] at harrive
      refine ⟨fun out t x htest hstamp => ?express, fun b t x hverdict hstamp => ?packet⟩
      case express =>
        intro y send
        have hx : x.agenda = s.agenda := by
          have h := agenda_rxStamp (s1.count 1 p 0) p
          rw [hstamp] at h
          exact h.trans ((agenda_count ..).trans h1)
        have hy : y.agenda = s.agenda := (agenda_receives ..).trans hx
        have hexpress : s.frameArrive p head = y.expressArrive p out head := by
          rw [harrive, show (s.receiving p).expressTest p head = .yes out from htest]
          dsimp only
          rewrite [show ((s.receiving p).count 1 p 0).rxStamp p = (t, x) from hstamp, now_of_agenda hx]
          rfl
        have takes {u : State} (heq : y.expressArrive p out head = u) : Takes (.frameReceive p head) s u :=
          takes_of_agenda (exec_frameReceive s p head) hcalm (hexpress.trans heq) (heq ▸ (agenda_expressArrive ..).trans hy)
        exact ⟨fun hskid htx => takes (expressArrive_free hskid htx), fun hwait => takes (expressArrive_waits hwait),
          fun v hskid htx hplane => takes (expressArrive_breaks hskid htx hplane)⟩
      case packet =>
        intro i f y l
        have hb : b.agenda = s.agenda ∧ s.frameArrive p head = b.packetArrive p head := by
          rcases hverdict with ⟨htest, rfl⟩ | ⟨htest, rfl⟩ | ⟨htest, rfl⟩
          · exact ⟨h1, by rw [harrive, show (s.receiving p).expressTest p head = .no from htest]; rfl⟩
          · exact ⟨(agenda_count ..).trans h1, by rw [harrive, show (s.receiving p).expressTest p head = .late from htest]; rfl⟩
          · exact ⟨(agenda_count ..).trans h1, by rw [harrive, show (s.receiving p).expressTest p head = .fallback from htest]; rfl⟩
        obtain ⟨hagenda, hpacket⟩ := hb
        have hnow : x.now = s.now := (now_rxStamp hstamp).trans (now_of_agenda hagenda)
        have takes {u : State} (heq : x.packetStart p head t = u) : Takes (.frameReceive p head) s u := by
          have hstart : s.frameArrive p head = u := hpacket.trans ((packetArrive_stamped head hstamp).trans heq)
          refine takes_of_agenda (exec_frameReceive s p head) hcalm hstart ?_
          rw [← hstart, hpacket, agenda_packetArrive, hagenda]
        refine ⟨fun hshort => takes (packetStart_short hshort), fun hlong hlast => ⟨fun hroom => ?_, fun hfull => ?_⟩⟩
        · refine takes ((packetStart_long hlong).trans ?_)
          have hframe : y.frame i = some f := frame_addFrame x f
          have henter := enterFifo_tail (p := p) hframe hroom hlast
          rw [show y.now = s.now from hnow] at henter
          rw [show ((x.addFrame (x.newFrame p head t)).2.receives p (.packet x.fab.nextFrame)).enterFifo p x.fab.nextFrame = _ from henter]
        · refine takes ((packetStart_long hlong).trans ?_)
          rw [show ((x.addFrame (x.newFrame p head t)).2.receives p (.packet x.fab.nextFrame)).enterFifo p x.fab.nextFrame = none from
            enterFifo_full hfull hlast]
  case ends =>
    intro s p i rest mm f hcalm harriving hframe hstage hlearn hmeter hlow hhigh l g y t
    have hlen : 64 ≤ l.length ∧ l.length ≤ fldOf (s.port p).rxCfg 0 14 := by
      rw [List.length_append]
      exact ⟨hlow, hhigh⟩
    obtain ⟨hlow', hhigh'⟩ := hlen
    have hy : y.agenda = s.agenda := agenda_received s p mm
    have hyframe : y.frame i = some f := (frame_received s p mm i).trans hframe
    refine ⟨fun hwhole hhead hroom hlast => ?_, fun hbody => ?_⟩
    · have hclass : rxClass (fldOf (s.port p).rxCfg 0 14) l.length (true && !mm.bad) false = (0, []) := by
        rw [hwhole]
        exact rxClass_good hlow' hhigh'
      have hend : y.packetEnd i l l.length true = t := by
        rw [packetEnd_queued l l.length true hyframe hstage hlearn hmeter, Bool.not_true, Bool.or_false]
      have hshort : t.shortArrive p i false = (t.setFifo (p / 4) (t.fifo (p / 4) ++ [i])).setFrame i (some { g with hdrAt := s.now }) := by
        have hfifo : t.fifo (p / 4) = s.fifo (p / 4) := fifo_received s p mm (p / 4)
        have h := shortArrive_tail (s := t) (frame_setFrame y i (some g)) (hfifo ▸ hroom) hlast
        rw [now_of_agenda (show t.agenda = s.agenda from (agenda_setFrame ..).trans hy)] at h
        exact h
      refine takes_of_agenda (exec_frameRxEnd s p rest true ⟨false, mm⟩) hcalm ?_
        ((agenda_countN ..).trans ((agenda_count ..).trans ((agenda_setFrame ..).trans ((agenda_setFifo ..).trans ((agenda_setFrame ..).trans hy)))))
      exact frameEnd_short harriving hframe hhigh hclass ⟨hstage, hhead⟩ (hend ▸ hshort) (by rw [frame_setFrame]; rfl)
    · have hclass : rxClass (fldOf (s.port p).rxCfg 0 14) l.length (false && !mm.bad) false = (2, [2]) := rxClass_wrongFcs hlow' hhigh'
      have hend : (y.count 0 p 2).packetEnd i l l.length false = (y.setFrame i (some { g with bad := true })).count 0 p 2 := by
        rewrite [packetEnd_queued (s := y.count 0 p 2) l l.length false hyframe hstage hlearn hmeter, Bool.not_false, Bool.or_true]
        rfl
      refine takes_of_agenda (exec_frameRxEnd s p rest false ⟨false, mm⟩) hcalm ?_ ((agenda_count ..).trans ((agenda_setFrame ..).trans hy))
      rw [frameEnd_packet rest false false mm harriving hframe hhigh hclass]
      dsimp only
      rewrite [show ((s.received p mm).each [2] fun t c => t.count 0 p c).packetEnd i (f.bytes ++ rest) (f.bytes ++ rest).length (decide (2 = 0)) = _
        from hend, hstage, decide_eq_false (Nat.not_lt.mpr hbody)]
      rfl
  case expressEnds =>
    intro s p out t0 tRx got rest mm x hcalm harriving htx hskid hcross hwhole hlow hhigh l y t
    have hlen : 64 ≤ l.length ∧ l.length ≤ fldOf (s.port p).rxCfg 0 14 := by
      rw [List.length_append]
      exact ⟨hlow, hhigh⟩
    obtain ⟨hlow', hhigh'⟩ := hlen
    have ht : t.agenda = s.agenda :=
      (agenda_countN ..).trans ((agenda_countN ..).trans ((agenda_count ..).trans (agenda_received s p mm)))
    obtain ⟨htx', hskid'⟩ := egress_received s p mm out
    refine takes_of_agenda (exec_frameRxEnd s p rest true ⟨false, mm⟩) hcalm ?_ ((agenda_setPort ..).trans ht)
    rw [frameEnd_express harriving hwhole hlow' hhigh']
    have hport : t.port out = (s.received p mm).port out :=
      (port_counted ..).trans ((port_counted ..).trans (port_count ..))
    exact expressEnd_sending (s := t) ((congrArg PortRun.tx hport).trans (htx'.trans htx))
      ((congrArg PortRun.skid hport).trans (hskid'.trans hskid)) hcross

end Sys2Proof.Machine
end

/-! ### Egress: selection, start, end, age, prefetch (R207, R212, R250 to R256) -/

section
namespace Sys2Proof.Machine

theorem exec_selection (s : State) (p : Nat) : exec (.selection p) s = run (fun s => s.select p) s := (rfl)
theorem exec_frameStart (s : State) (p : Nat) : exec (.frameStart p) s = run (fun s => s.frameStartAt p) s := (rfl)
theorem exec_skidBufferSend (s : State) (p : Nat) : exec (.skidBufferSend p) s = run (fun s => s.skidSend p) s := (rfl)
theorem exec_transmitEnd (s : State) (p : Nat) : exec (.transmitEnd p) s = run (fun s => s.transmitEndAt p) s := (rfl)
theorem exec_ageHeadScan (s : State) (x : Nat) : exec (.ageHeadScan x) s = run (fun s => s.ageScan x) s := (rfl)
theorem exec_prefetchRead (s : State) (x : Nat) (fails : List Nat) :
    exec (.prefetchRead ⟨x, fails⟩) s = run (fun s => s.prefetchAt x fails) s := (rfl)

/-! Selection (R250, R262) -/

section
variable {s : State} {p x : Nat} {c : Copy} {l : List Copy}

theorem selectHead_note (note : PortRun → PortRun) (hcopies : (s.queue x).copies = c :: l) (hloss : s.lossOf p x c = none) :
    s.selectHead p x note = s.setPort p (note (s.port p)) := by
  unfold State.selectHead
  rw [hcopies]
  dsimp only
  rw [hloss]

theorem dropSelected_head (k : Nat × Nat × Nat) (hcopies : (s.queue x).copies = c :: l) : s.dropSelected x k =
    if k.1 = 3 then (((s.popCopy x).loseCopy c).count k.1 k.2.1 k.2.2).raise (F.PIPE_EVENT_edit_error k.2.1)
    else ((s.popCopy x).loseCopy c).count k.1 k.2.1 k.2.2 := by
  unfold State.dropSelected
  rw [hcopies]

theorem selectHead_lost (note : PortRun → PortRun) {k : Nat × Nat × Nat} (hcopies : (s.queue x).copies = c :: l)
    (hloss : s.lossOf p x c = some k) : s.selectHead p x note = s.dropSelected x k := by
  unfold State.selectHead
  rw [hcopies]
  dsimp only
  rw [hloss]

theorem select_idle (htx : (s.port p).tx = none) (hheld : (s.port p).held = none) (hsel : (s.port p).sel = none) :
    s.select p = match (s.wakePort p).selectQueue p false with
      | none => s
      | some x => s.selectHead p x fun r => { r with sel := some x } := by
  unfold State.select
  dsimp only
  rewrite [htx, hheld, hsel]
  rfl

theorem select_beside {t : TxFrame} (htx : (s.port p).tx = some t) (hpre : t.pre = true) (hsel : (s.port p).selExpress = none)
    (hselect : (s.wakePort p).selectQueue p true = some x) : s.select p = s.selectHead p x fun r => { r with selExpress := some x } := by
  have hcond : (t.pre && (s.port p).selExpress.isNone && ((s.port p).sel.isSome || ((s.wakePort p).selectQueue p true).isSome)) = true := by
    rewrite [hpre, hsel, hselect, Option.isSome_some, Bool.or_true]
    rfl
  unfold State.select
  dsimp only
  rw [htx]
  dsimp only
  rw [if_pos hcond, hselect]

/-! Start (R250, R263) -/

theorem frameStartAt_behind (h : (s.port p).skid ≠ [] ∨ s.fcWaits p = true) : s.frameStartAt p = s := by
  refine if_pos ?_
  rcases h with h | h
  · rewrite [List.isEmpty_eq_false_iff.mpr h]
    rfl
  · rw [h, Bool.or_true]

theorem startTest_withdrawn (clear : PortRun → PortRun) (hcopies : (s.queue x).copies = []) :
    s.startTest p x clear = (s.setPort p (clear (s.port p))).count 6 x 9 := by
  unfold State.startTest
  dsimp only
  rw [show ((s.setPort p (clear (s.port p))).queue x).copies = [] from hcopies]

theorem startTest_head (clear : PortRun → PortRun) (hcopies : (s.queue x).copies = c :: l) : s.startTest p x clear =
    match (s.setPort p (clear (s.port p))).lossOf p x c with
    | some k => (s.setPort p (clear (s.port p))).dropSelected x k
    | none => if (s.setPort p (clear (s.port p))).stillEligible p x then (s.setPort p (clear (s.port p))).startCopy p x
      else (s.setPort p (clear (s.port p))).count 6 x 9 := by
  unfold State.startTest
  dsimp only
  rewrite [show ((s.setPort p (clear (s.port p))).queue x).copies = c :: l from hcopies]
  rfl

end

section
variable {s : State} {p : Nat} (htx : (s.port p).tx = none) (hskid : (s.port p).skid = []) (hfc : s.fcWaits p = false)
  (hexpress : (s.port p).selExpress = none)
include htx hskid hfc hexpress

theorem frameStartAt_selected {x : Nat} (hheld : (s.port p).held = none) (hsel : (s.port p).sel = some x) :
    s.frameStartAt p = s.startTest p x fun r => { r with sel := none } := by
  unfold State.frameStartAt
  dsimp only
  rewrite [hskid, hfc, htx, hexpress, hheld, hsel]
  rfl

theorem frameStartAt_resumes {t : TxFrame} (hheld : (s.port p).held = some t) (hsel : (s.port p).sel = none) (hhold : s.holdOn p = false)
    (hnone : s.selectQueue p true = none) :
    s.frameStartAt p = s.setPort p { s.port p with tx := some { t with tx := s.now }, held := none } := by
  unfold State.frameStartAt
  dsimp only
  rw [hskid, hfc, htx, hexpress, hheld, hsel]
  dsimp only [Option.filter]
  rewrite [hhold, hnone]
  rfl

end

theorem agenda_select (s : State) (p : Nat) : (s.select p).agenda = s.agenda := by
  unfold State.select
  extract_lets s1 r second
  clear_value second
  split
  · split
    · rfl
    · exact agenda_selectHead ..
  · split
    · split
      · rfl
      · exact agenda_selectHead ..
    · rfl

/-! The skid buffer (R54) -/

theorem skidCheck_fits {s : State} {p : Nat} (h : (s.skidFit 0 (s.port p).skid).2 = []) : s.skidCheck p = s := by
  unfold State.skidCheck
  dsimp only
  rewrite [h]
  rfl

section
variable {s : State} {p : Nat}

theorem skidSend_waits (h : ((s.skidCheck p).port p).tx ≠ none ∨ ((s.skidCheck p).port p).skid = []) : s.skidSend p = s.skidCheck p := by
  unfold State.skidSend
  dsimp only
  split
  next htx hskid =>
    rcases h with h | h
    · exact absurd htx h
    · rw [h] at hskid
      cases hskid
  · rfl

theorem skidSend_starts {t f : TxFrame} {l : List TxFrame} {x : State} (htx : ((s.skidCheck p).port p).tx = none)
    (hskid : ((s.skidCheck p).port p).skid = t :: l) (hstamp : (s.skidCheck p).stampTx p t = (f, x)) :
    s.skidSend p = (x.setPort p { x.port p with skid := l }).startTx p f := by
  unfold State.skidSend
  dsimp only
  rw [htx, hskid]
  dsimp only
  rw [hstamp]

end

/-! The end of a transmission (R256) -/

section
variable {s : State} {p : Nat} {t : TxFrame} (htx : (s.port p).tx = some t)
include htx

theorem transmitEndAt_crossing (hplane : t.meridian = true) (hlen : t.len = 0) : s.transmitEndAt p = s := by
  unfold State.transmitEndAt
  rw [htx]
  dsimp only
  rewrite [hplane, hlen]
  rfl

theorem transmitEndAt_meridian (hplane : t.meridian = true) (hlen : t.len ≠ 0) : s.transmitEndAt p =
    s.endTx p t t.stomp (if t.stomp.isSome then stompAfter t.bytes t.len else t.bytes) (t.len + if t.stomp.isSome then 4 else 0) := by
  unfold State.transmitEndAt
  rw [htx]
  dsimp only
  rw [hplane, if_pos rfl, if_neg hlen]

theorem transmitEndAt_whole {f : Frame} (hplane : t.meridian = false) (hflow : t.flow = none) (hstomp : t.stomp = none)
    (hframe : s.frame t.frame = some f) (hended : f.ended = true) (hgood : f.bad = false) (hcells : f.cellBad = false)
    (hfits : t.cut = false ∨ (withFcs (s.sentBytes t f true)).length ≤ t.mx) :
    s.transmitEndAt p = s.endTx p t none (withFcs (s.sentBytes t f true)) (withFcs (s.sentBytes t f true)).length := by
  have hshort : (t.cut && decide (t.mx < (withFcs (s.sentBytes t f true)).length)) = false := by
    rcases hfits with h | h
    · rewrite [h]
      rfl
    · rw [decide_eq_false (Nat.not_lt.mpr h), Bool.and_false]
  unfold State.transmitEndAt
  rw [htx]
  dsimp only
  rw [hplane, hflow, hframe]
  dsimp only
  rewrite [hended, hgood, hcells, hstomp, hshort]
  rfl

end

/-- The MAC after the last byte of a frame (R256). -/
def State.sentFrame (s : State) (p : Nat) (t : TxFrame) (cause : Option Stomp) (bytes : List Byte) (len : Nat) : State :=
  (s.setPort p { s.port p with tx := none, activity := true, sent := some ⟨bytes, len, cause, t.meridian, t.tTx⟩ }).verifyDue p

section
variable {t : TxFrame} (s : State) (p : Nat) (b : List Byte) (n : Nat)

theorem endTx_meridian (hplane : t.meridian = true) :
    s.endTx p t none b n = (((s.sentFrame p t none b n).count 0 p 13).countN 0 p 14 n).count 1 p 5 := by
  unfold State.endTx
  dsimp only
  rewrite [if_pos hplane]
  rfl

theorem endTx_meridian_stomped (c : Stomp) (hplane : t.meridian = true) :
    s.endTx p t (some c) b n = (s.sentFrame p t (some c) b n).count 0 p c.idx := by
  unfold State.endTx
  dsimp only
  rewrite [if_pos hplane]
  rfl

theorem endTx_whole (hplane : t.meridian = false) (hflow : t.flow = none) : s.endTx p t none b n =
    (((((s.sentFrame p t none b n).count 0 p 13).countN 0 p 14 n).settleTx p t n).txReport t.frame 0 (tsBytes t.tTx t.flags)).release
      t.frame := by
  have hplane' : ¬ t.meridian = true := by
    rw [hplane]
    exact Bool.false_ne_true
  have hflow' : ¬ t.flow.isSome = true := by
    rw [hflow]
    exact Bool.false_ne_true
  unfold State.endTx
  dsimp only
  rewrite [if_neg hplane', if_neg hflow']
  rfl

end

/-! Age (R212) and prefetch (R207) -/

theorem agenda_discardHead (s : State) (x k : Nat) : (s.discardHead x k).agenda = s.agenda := by
  unfold State.discardHead
  split
  · rfl
  · exact (agenda_count ..).trans ((agenda_loseCopy ..).trans (agenda_popCopy ..))

theorem agenda_ageHead (x n : Nat) : ∀ s : State, (s.ageHead x n).agenda = s.agenda := by
  induction n with
  | zero => intro s; rfl
  | succ n ih =>
    intro s
    unfold State.ageHead
    split
    · rfl
    · split
      · exact (ih _).trans (agenda_discardHead ..)
      · rfl

section
variable {s : State} {x : Nat} {c : Copy} {l : List Copy}

theorem ageScan_empty (h : (s.queue x).copies = []) : s.ageScan x = s := by
  unfold State.ageScan
  rewrite [h]
  rfl

theorem ageScan_head (hcopies : (s.queue x).copies = c :: l) :
    s.ageScan x = if s.aged x c then (((s.popCopy x).loseCopy c).count 6 x 2).ageHead x l.length else s := by
  have hdiscard : s.discardHead x 2 = ((s.popCopy x).loseCopy c).count 6 x 2 := by
    unfold State.discardHead
    rw [hcopies]
  unfold State.ageScan
  rw [hcopies, List.length_cons, State.ageHead, hcopies]
  dsimp only
  rw [hdiscard]

variable {fails : List Nat}

theorem prefetchAt_flush (h : (s.queue x).flush.any s.copyInHbm = true) : s.prefetchAt x fails = s.flushOne true x := if_pos h

theorem prefetchAt_none (hflush : (s.queue x).flush.any s.copyInHbm = false) (hnone : s.nextHbm 0 (s.queue x).copies = none) :
    s.prefetchAt x fails = s := by
  unfold State.prefetchAt
  dsimp only
  rewrite [hflush, hnone]
  rfl

theorem prefetchAt_next {ahead : Nat} (hflush : (s.queue x).flush.any s.copyInHbm = false)
    (hnext : s.nextHbm 0 (s.queue x).copies = some (ahead, c)) : s.prefetchAt x fails =
      if s.getF F.BUF_PREFETCH_CFG_prefetch_window ≤ ahead ∧ ahead ≠ 0 then s
      else if s.aged x c then
        (((s.setQueue x { s.queue x with copies := (s.queue x).copies.filter fun d => decide (d.frame ≠ c.frame) }).loseCopy c).count 6 x
          2).fixSpill x
      else if 32768 < s.prefetched + c.charge || !(s.frame c.frame).any Frame.ended then s
      else s.prefetchFrame x c.frame fails := by
  unfold State.prefetchAt
  dsimp only
  rewrite [hflush, hnext]
  rfl

end

theorem agenda_freeCells (l : List Nat) (s : State) : (s.each l fun t a => t.freeCell 8 a).agenda = s.agenda :=
  agenda_each _ _ _ fun t a _ => agenda_freeCell t 8 a

/-- A frame read without a CRC error lies in the prefetch area (R207). -/
theorem prefetchFrame_good {s y : State} {x i : Nat} {f : Frame} {l : List Nat} (hframe : s.frame i = some f) (hended : f.ended = true)
    (hdraw : (s.each f.cells fun y a => y.freeCell 8 a).drawCells false ⟨0, false, 0, f.refs, f.owner, f.pool, false, 0⟩ f.cells.length
      = (l, y)) : s.prefetchFrame x i [] =
      (let t := (y.linkCells true f.storedLen f.stored l).setFrame i (some { f with cells := l })
      (t.setQueue x { t.queue x with copies := (t.queue x).copies.map fun d => if d.frame = i then { d with prefetched := true } else d }).fixSpill
        x) := by
  have hread : s.freeRead i = (y.linkCells true f.storedLen f.stored l).setFrame i (some { f with cells := l }) := by
    unfold State.freeRead
    rw [hframe]
    dsimp only
    rw [hdraw, hended]
  unfold State.prefetchFrame
  rw [hframe]
  dsimp only [List.filterMap, State.each, List.foldl]
  rw [hread]

theorem agenda_prefetched {s y : State} {x i : Nat} {f : Frame} {l : List Nat} {q : State → Queue}
    (hdraw : (s.each f.cells fun y a => y.freeCell 8 a).drawCells false ⟨0, false, 0, f.refs, f.owner, f.pool, false, 0⟩ f.cells.length
      = (l, y)) :
    ((((y.linkCells true f.storedLen f.stored l).setFrame i (some { f with cells := l })).setQueue x
      (q ((y.linkCells true f.storedLen f.stored l).setFrame i (some { f with cells := l })))).fixSpill x).agenda = s.agenda := by
  have hy : y.agenda = s.agenda :=
    (congrArg (fun r : List Nat × State => r.2.agenda) hdraw.symm).trans ((agenda_drawCells ..).trans (agenda_freeCells ..))
  rw [agenda_fixSpill, agenda_setQueue, agenda_setFrame, agenda_linkCells, hy]

end Sys2Proof.Machine
end

/-! ### Egress as the statement has it -/

section
namespace Sys2Proof.Machine

section
variable {s u : State} {p x : Nat} (hcalm : s.calm = true)
include hcalm

theorem takes_selection (h : s.select p = u) : Takes (.selection p) s u :=
  takes_of_agenda (exec_selection s p) hcalm h (h ▸ agenda_select ..)

theorem takes_startTest {y : Nat} {clear : PortRun → PortRun} (hstart : s.frameStartAt p = s.startTest p y clear)
    (h : s.startTest p y clear = u) : Takes (.frameStart p) s u :=
  takes_of_agenda (exec_frameStart s p) hcalm (hstart.trans h) (h ▸ agenda_startTest ..)

theorem takes_transmitEnd {t : TxFrame} {c : Option Stomp} {b : List Byte} {n : Nat} (hend : s.transmitEndAt p = s.endTx p t c b n)
    (h : s.endTx p t c b n = u) : Takes (.transmitEnd p) s u :=
  takes_of_agenda (exec_transmitEnd s p) hcalm (hend.trans h) (h ▸ agenda_endTx ..)

end

/-- Settles O57: one lemma for each branch of the scheduler, the start test, the end of a transmission, the scanner and the
prefetcher. -/
theorem egress : Obligations.Egress := by
  unfold Obligations.Egress
  refine ⟨?idlePort, ?beside, ?behind, ?start, ?resume, ?skid, ?meridianEnd, ?packetEnd, ?age, ?flush, ?prefetch⟩
  case idlePort =>
    intro s p hcalm htx hheld hsel
    have hselect := select_idle htx hheld hsel
    refine ⟨fun hnone => ?_, fun x c l hsome hcopies => ⟨fun hloss => ?_, fun k hloss => ?_⟩⟩
    · refine idles_of (exec_selection s p) hcalm ?_
      rw [hselect, hnone]
    · refine takes_selection hcalm ?_
      rw [hselect, hsome]
      exact selectHead_note _ hcopies hloss
    · intro t
      refine takes_selection hcalm ?_
      rw [hselect, hsome]
      exact (selectHead_lost _ hcopies hloss).trans (dropSelected_head k hcopies)
  case beside =>
    intro s p x t c l hcalm htx hpre hsel hsome hcopies hloss
    exact takes_selection hcalm ((select_beside htx hpre hsel hsome).trans (selectHead_note _ hcopies hloss))
  case behind =>
    intro s p hcalm h
    exact idles_of (exec_frameStart s p) hcalm (frameStartAt_behind h)
  case start =>
    intro s p x hcalm htx hheld hskid hfc hexpress hsel t
    have hstart := frameStartAt_selected htx hskid hfc hexpress hheld hsel
    refine ⟨fun hcopies => ?_, fun c l hcopies => ?_⟩
    · exact takes_startTest hcalm hstart (startTest_withdrawn _ hcopies)
    · have hhead := startTest_head (s := s) (p := p) (fun r => { r with sel := none }) hcopies
      refine ⟨fun k hloss => ?_, fun hloss => ⟨fun hshut => ?_, fun hopen => ?_⟩⟩
      · intro y
        refine takes_startTest hcalm hstart (hhead.trans ?_)
        rw [show (s.setPort p { s.port p with sel := none }).lossOf p x c = some k from hloss]
        exact dropSelected_head k hcopies
      · refine takes_startTest hcalm hstart (hhead.trans ?_)
        rw [show (s.setPort p { s.port p with sel := none }).lossOf p x c = none from hloss]
        exact if_neg (by rw [show (s.setPort p { s.port p with sel := none }).stillEligible p x = false from hshut]; exact Bool.false_ne_true)
      · refine takes_startTest hcalm hstart (hhead.trans ?_)
        rw [show (s.setPort p { s.port p with sel := none }).lossOf p x c = none from hloss]
        exact if_pos hopen
  case resume =>
    intro s p t hcalm htx hheld hskid hfc hexpress hsel hhold hnone
    exact takes_of_agenda (exec_frameStart s p) hcalm (frameStartAt_resumes htx hskid hfc hexpress hheld hsel hhold hnone) (agenda_setPort ..)
  case skid =>
    intro s p hcalm w
    have hw : w.agenda = s.agenda := agenda_skidCheck s p
    refine ⟨skidCheck_fits, fun hwait => ?_, fun t f l x htx hskid hstamp => ?_⟩
    · exact takes_of_agenda (exec_skidBufferSend s p) hcalm (skidSend_waits hwait) hw
    · refine takes_of_agenda (exec_skidBufferSend s p) hcalm (skidSend_starts htx hskid hstamp) ?_
      have hx : x.agenda = w.agenda := (congrArg (fun r : TxFrame × State => r.2.agenda) hstamp.symm).trans (agenda_stampTx ..)
      exact (agenda_startTx ..).trans ((agenda_setPort ..).trans (hx.trans hw))
  case meridianEnd =>
    intro s p t hcalm htx hplane
    refine ⟨fun hlen => ?_, fun hlen => ?_⟩
    · exact idles_of (exec_transmitEnd s p) hcalm (transmitEndAt_crossing htx hplane hlen)
    · intro done
      have hend := transmitEndAt_meridian htx hplane hlen
      refine ⟨fun hgood => ?_, fun c hstomp => ?_⟩
      · rw [hgood] at hend
        have hdone : done t.bytes t.len = s.sentFrame p t none t.bytes t.len := by
          simp only [done, State.sentFrame, hgood, hplane]
        rw [hdone]
        exact takes_transmitEnd hcalm hend (endTx_meridian s p t.bytes t.len hplane)
      · rw [hstomp] at hend
        have hdone : done (stompAfter t.bytes t.len) (t.len + 4) = s.sentFrame p t (some c) (stompAfter t.bytes t.len) (t.len + 4) := by
          simp only [done, State.sentFrame, hstomp, hplane]
        rw [hdone]
        exact takes_transmitEnd hcalm hend (endTx_meridian_stomped s p _ _ c hplane)
  case packetEnd =>
    intro s p t f hcalm htx hplane hflow hstomp hframe hended hgood hcells b n hfits x y
    have hx : x = s.sentFrame p t none b n := by
      simp only [x, State.sentFrame, hplane]
    have hwhole := endTx_whole s p b n hplane hflow
    rw [← hx] at hwhole
    exact takes_transmitEnd hcalm (transmitEndAt_whole htx hplane hflow hstomp hframe hended hgood hcells hfits) hwhole
  case age =>
    intro s x hcalm
    refine ⟨fun hempty => idles_of (exec_ageHeadScan s x) hcalm (ageScan_empty hempty), fun c l hcopies => ?_⟩
    have hscan := ageScan_head hcopies
    refine ⟨fun hyoung => ?_, fun haged => ?_⟩
    · refine idles_of (exec_ageHeadScan s x) hcalm (hscan.trans (if_neg ?_))
      rw [hyoung]
      exact Bool.false_ne_true
    · exact takes_of_agenda (exec_ageHeadScan s x) hcalm (hscan.trans (if_pos haged))
        ((agenda_ageHead ..).trans ((agenda_count ..).trans ((agenda_loseCopy ..).trans (agenda_popCopy ..))))
  case flush =>
    intro s x fails hcalm hflush
    exact takes_of_agenda (exec_prefetchRead s x fails) hcalm (prefetchAt_flush hflush) (agenda_flushOne ..)
  case prefetch =>
    intro s x fails hcalm hflush
    refine ⟨fun hnone => idles_of (exec_prefetchRead s x fails) hcalm (prefetchAt_none hflush hnone), fun ahead c hnext => ?_⟩
    intro near
    have hfetch := prefetchAt_next (fails := fails) hflush hnext
    have hfar : (s.getF F.BUF_PREFETCH_CFG_prefetch_window ≤ ahead ∧ ahead ≠ 0) ↔ ¬ near := by
      simp only [near]
      omega
    refine ⟨fun hnot => ?_, fun hnear haged => ?_, fun hnear hyoung f hframe => ?_⟩
    · exact idles_of (exec_prefetchRead s x fails) hcalm (hfetch.trans (if_pos (hfar.mpr hnot)))
    · intro t
      refine takes_of_agenda (exec_prefetchRead s x fails) hcalm ?_
        ((agenda_fixSpill ..).trans ((agenda_count ..).trans ((agenda_loseCopy ..).trans (agenda_setQueue ..))))
      rw [hfetch, if_neg fun h => hfar.mp h hnear, if_pos haged]
    · have hyoung' : ¬ s.aged x c = true := by
        rw [hyoung]
        exact Bool.false_ne_true
      rw [if_neg fun h => hfar.mp h hnear, if_neg hyoung', hframe] at hfetch
      refine ⟨fun hlate => ?_, fun hroom hended hgood l y hdraw => ?_⟩
      · refine idles_of (exec_prefetchRead s x fails) hcalm (hfetch.trans (if_pos ?_))
        rcases hlate with h | h
        · rewrite [decide_eq_true h]
          rfl
        · rw [Option.any_some, h, Bool.not_false, Bool.or_true]
      · intro t done
        have hnot : ¬ (decide (32768 < s.prefetched + c.charge) || !(some f).any Frame.ended) = true := by
          rw [decide_eq_false (Nat.not_lt.mpr hroom), Option.any_some, hended]
          exact Bool.false_ne_true
        subst hgood
        rw [if_neg hnot] at hfetch
        exact takes_of_agenda (exec_prefetchRead s x []) hcalm (hfetch.trans (prefetchFrame_good hframe hended hdraw))
          (agenda_prefetched (q := fun t => { t.queue x with copies := (t.queue x).copies.map done }) hdraw)

end Sys2Proof.Machine
end

section
/-! The learn bus -/

namespace Sys2Proof.Machine

/-- A command has one outcome: two effects agree in all that settling the events never touches. -/
theorem takes_core_unique {c : Instr} {s u w : State} (hu : Takes c s u) (hw : Takes c s w) : u.devUpdate.core = w.devUpdate.core := by
  obtain ⟨t, ht, hcore, -⟩ := hu
  obtain ⟨t', ht', hcore', -⟩ := hw
  obtain rfl := Host.Outcome.next.inj (ht.symm.trans ht')
  exact hcore.symm.trans hcore'

/-- The state after reset with pipeline 0 on (D17), whose tables are listed twice: as reset leaves them but for a SWEEP in the apply FIFO,
and, hidden behind that entry, as reset leaves them but for an EPOCH there. -/
def twiceListed : State :=
  { State.reset.setReg Addr.PWR_DOMAIN_ON_LO 0x20001 with
    tabs := [(0, { PipeTab.init with fifo := [.sweep] }), (0, { PipeTab.init with fifo := [.epoch] })] }

/-- A SWEEP at the head of a powered pipeline's apply FIFO is taken out of it, and its pass starts. -/
theorem sweepAt_of_sweep {s : State} {n : Nat} {r : List BusEvent} (hon : s.domainOn (17 + n) = true)
    (hflush : (s.tab n).flushing = none) (hfifo : (s.tab n).fifo = .sweep :: r) :
    s.sweepAt n = (s.popEvent n).setTab n
      { (s.popEvent n).tab n with pass := (((s.popEvent n).tab n).pass + 1) % 256, sweep := some 0 } := by
  unfold State.sweepAt State.takeEvent
  simp only [hflush, hon, hfifo, Option.isSome_none, Bool.not_true, Bool.or_self, Bool.false_eq_true, if_false]

/-- Refutes O58: the statement writes the effect of a SWEEP as one update of the pipeline's tables, the model as two, the FIFO's first. Where
that first one leaves the tables as after reset, it takes every entry listed for the pipeline out of the map; the single update of the
statement replaces the first entry alone. In a state that lists pipeline 0 twice, which calm does not exclude, the two differ. -/
theorem not_learnBus : ¬ Obligations.LearnBus := by
  unfold Obligations.LearnBus
  rintro ⟨-, -, -, -, -, -, hsweep, -⟩
  have hcalm : twiceListed.calm = true := by decide
  have hclaimed := hsweep twiceListed 0 [] hcalm (by decide) (by decide) (by decide)
  have hdone := takes_of_agenda (c := .sweep 0) (f := fun s => s.sweepAt 0) rfl hcalm
    (sweepAt_of_sweep (n := 0) (r := []) (by decide) (by decide) (by decide)) ((agenda_setTab ..).trans (agenda_setTab ..))
  have hsame := congrArg (fun s : State => s.tabs.length) (takes_core_unique hclaimed hdone)
  exact absurd hsame (by decide)

end Sys2Proof.Machine
end

section
/-! Static entries and the background checks of the tables -/

namespace Sys2Proof.Machine

/-! The event at the head of the apply FIFO -/

theorem popEvent_of_cons {s : State} {n : Nat} {e : BusEvent} {r : List BusEvent} (h : (s.tab n).fifo = e :: r) :
    s.popEvent n = s.setTab n { s.tab n with fifo := r } := by
  unfold State.popEvent
  rewrite [h]
  rfl

theorem takeEvent_of_cons {s : State} {n : Nat} {e : BusEvent} {r : List BusEvent} (hon : s.domainOn (17 + n) = true)
    (hflush : (s.tab n).flushing = none) (h : (s.tab n).fifo = e :: r) (f : BusEvent → State → State) : s.takeEvent n f = f e s := by
  unfold State.takeEvent
  simp only [hflush, hon, h, Option.isSome_none, Bool.not_true, Bool.or_self, Bool.false_eq_true, if_false]

/-! Static entries (R170) -/

/-- The table with the learned entry of a key gone, where it holds one. -/
def PipeTab.unlearned (x : PipeTab) (vlan mac : Nat) : PipeTab :=
  match x.find vlan mac (fun e => !e.static) with
  | some (w, _) => x.setWay w none
  | none => x

/-- What a STATIC_ADD makes of pipeline `n`'s tables `x`. -/
def State.addStatic (t : State) (n : Nat) (x : PipeTab) (vlan mac cls dest mask : Nat) : State :=
  match (x.unlearned vlan mac).findStatic vlan mac cls dest with
  | some (w, e) => t.setTab n ((x.unlearned vlan mac).setWay w (some { e with bankMask := e.bankMask ||| mask }))
  | none => (t.setTab n (x.unlearned vlan mac)).insertStatic n (staticWay vlan mac cls dest mask)

theorem staticAddAt_of_add {s : State} {n vlan mac cls dest mask : Nat} {r : List BusEvent} (hon : s.domainOn (17 + n) = true)
    (hflush : (s.tab n).flushing = none) (h : (s.tab n).fifo = .staticAdd vlan mac cls dest mask :: r) :
    s.staticAddAt n
      = (s.setTab n { s.tab n with fifo := r }).addStatic n { s.tab n with fifo := r } vlan mac cls dest mask := by
  unfold State.staticAddAt
  rw [takeEvent_of_cons hon hflush h]
  dsimp only
  rewrite [popEvent_of_cons h, tab_setTab]
  rfl

theorem staticMaskAt_of_mask {s : State} {n vlan mac cls dest mask : Nat} {r : List BusEvent} (hon : s.domainOn (17 + n) = true)
    (hflush : (s.tab n).flushing = none) (h : (s.tab n).fifo = .staticMask vlan mac cls dest mask :: r) :
    s.staticMaskAt n = match ({ s.tab n with fifo := r } : PipeTab).findStatic vlan mac cls dest with
      | some (w, x) => (s.setTab n { s.tab n with fifo := r }).setTab n
          (({ s.tab n with fifo := r } : PipeTab).setWay w (some { x with bankMask := mask }))
      | none => s.setTab n { s.tab n with fifo := r } := by
  unfold State.staticMaskAt
  rw [takeEvent_of_cons hon hflush h]
  dsimp only
  rewrite [popEvent_of_cons h, tab_setTab]
  rfl

theorem staticDelAt_of_del {s : State} {n vlan mac cls dest : Nat} {r : List BusEvent} (hon : s.domainOn (17 + n) = true)
    (hflush : (s.tab n).flushing = none) (h : (s.tab n).fifo = .staticDel vlan mac cls dest :: r) :
    s.staticDelAt n = match ({ s.tab n with fifo := r } : PipeTab).findStatic vlan mac cls dest with
      | some (w, _) => (s.setTab n { s.tab n with fifo := r }).setTab n (({ s.tab n with fifo := r } : PipeTab).setWay w none)
      | none => s.setTab n { s.tab n with fifo := r } := by
  unfold State.staticDelAt
  rw [takeEvent_of_cons hon hflush h]
  dsimp only
  rewrite [popEvent_of_cons h, tab_setTab]
  rfl

theorem insertEntry_of_insert {s : State} {n : Nat} {e : MacEntry} {y : PipeTab} (h : (s.tab n).insert e = some y) :
    s.insertEntry n e = (true, s.setTab n y) := by
  unfold State.insertEntry
  simp only [h]

theorem insertStatic_of_insert {s : State} {n : Nat} {e : MacEntry} {y : PipeTab} (h : (s.tab n).insert e = some y) :
    s.insertStatic n e = s.setTab n y := by
  unfold State.insertStatic
  simp only [insertEntry_of_insert h, if_true]

theorem agenda_insertEntry (s : State) (n : Nat) (e : MacEntry) : (s.insertEntry n e).2.agenda = s.agenda := by
  unfold State.insertEntry
  extract_lets t
  split
  · exact agenda_setTab ..
  · split
    next k s1 hfree =>
      have hs1 : s1.agenda = s.agenda := (congrArg (fun r : Nat × State => r.2.agenda) hfree.symm).trans (agenda_free ..)
      extract_lets pick
      have hpick : pick.2.agenda = s.agenda := by
        by_cases hmode : s.getB (F.PIPE_LRN_CTRL_evict_mode n) = true
        · exact congrArg (fun r : Option (Nat × MacEntry) × State => r.2.agenda) (if_pos hmode)
        · exact (congrArg (fun r : Option (Nat × MacEntry) × State => r.2.agenda) (if_neg hmode)).trans hs1
      split
      · exact (agenda_count ..).trans ((agenda_setTab ..).trans hpick)
      · exact agenda_count ..

theorem agenda_insertStatic (s : State) (n : Nat) (e : MacEntry) : (s.insertStatic n e).agenda = s.agenda := by
  unfold State.insertStatic
  extract_lets r t held
  have hr : r.2.agenda = s.agenda := agenda_insertEntry s n e
  split
  · exact hr
  · split
    · exact (agenda_countN ..).trans (agenda_setTab ..)
    · exact hr

/-! The checks of a bucket of the learned table (R161, R179) -/

theorem checkWays_of_good {s : State} {n : Nat} {l : List Nat} (h : l.all (fun w => ((s.tab n).way w).all MacEntry.parityGood) = true) :
    s.checkWays n l = s := by
  refine each_keeps (fun t => t = s) _ l (fun t w hw ht => ?_) s rfl
  subst ht
  have hgood := List.all_eq_true.1 h w hw
  split
  next e he =>
    rw [he] at hgood
    exact if_pos hgood
  · rfl

theorem tabs_react_masked (s : State) (diag inst a : Nat) : (s.react diag 0 inst a).tabs = s.tabs := by
  have hlog : ∀ t : State, (t.ksLog .safety).tabs = t.tabs := fun t => by
    unfold State.ksLog
    split
    · rfl
    · dsimp only
      split <;> rfl
  rw [Machine.react_masked, hlog]
  unfold State.endTest
  split <;> rfl

theorem tab_of_tabs {s t : State} (h : t.tabs = s.tabs) (n : Nat) : t.tab n = s.tab n := by
  unfold State.tab
  rw [h]

theorem way_setWay_other (t : PipeTab) {w v : Nat} (h : v ≠ w) (e : Option MacEntry) : (t.setWay w e).way v = t.way v :=
  SMap.get_set_other (fun _ => none) (d' := fun _ => none) h e t.ways

/-- Handling a bad way leaves every other way of the pipeline as it was. -/
theorem way_badWay_other (s : State) (n w : Nat) (e : MacEntry) {v : Nat} (h : v ≠ w) : ((s.badWay n w e).tab n).way v = (s.tab n).way v := by
  unfold State.badWay
  extract_lets fresh
  have hwritten : ((((s.setTab n ((s.tab n).setWay w fresh)).count 4 n 12).raise (F.PIPE_LRN_EVENT_table_error n)).tblErr n 0 w).tab n
      = (s.tab n).setWay w fresh := (tab_of_tabs rfl n).trans (tab_setTab ..)
  rw [tab_of_tabs (tabs_react_masked ..), hwritten]
  exact way_setWay_other _ h fresh

/-- A check of ways of which only the first one is bad handles that one. -/
theorem checkWays_of_first {s : State} {n w : Nat} {l : List Nat} {e : MacEntry} (hw : (s.tab n).way w = some e)
    (hbad : e.parityGood = false) (hother : w ∉ l) (hgood : l.all (fun v => ((s.tab n).way v).all MacEntry.parityGood) = true) :
    s.checkWays n (w :: l) = s.badWay n w e := by
  have hfirst : s.checkWays n (w :: l) = (s.badWay n w e).checkWays n l := by
    unfold State.checkWays State.each
    rw [List.foldl_cons, hw]
    dsimp only
    rewrite [hbad]
    rfl
  rw [hfirst]
  refine checkWays_of_good (List.all_eq_true.2 fun v hv => ?_)
  rw [way_badWay_other s n w e fun hvw => hother (hvw ▸ hv)]
  exact List.all_eq_true.1 hgood v hv

/-! The check of a bucket of host routes (R178) -/

theorem checkUnits_of_bad {s : State} {l : List Nat} {bad : List HrEntry}
    (h : (s.hr.filter fun e => !e.parityGood && l.any fun b => decide (b ≤ e.unit) && decide (e.unit < b + 8)) = bad) :
    s.checkUnits l = s.each bad fun t e => t.badUnit e.unit := by
  unfold State.checkUnits
  rw [h]

/-! The check of a TCAM entry (R185) -/

/-- A TCAM entry rewritten from the store: counted in every pipeline and reported in every powered one. -/
def State.tcamRepaired (s : State) (g : Nat) (e : TcamEntry) : State :=
  let t : State := { s with tcam := SMap.set (fun _ => none) g (some { e with good := true }) s.tcam }
  (t.each (List.range 8) fun u n => u.count 4 n 15).each s.pipesOn fun u n =>
    (u.raise (F.PIPE_LRN_EVENT_tcam_repair n)).tblErr n 2 g

theorem agenda_tcamRepaired (s : State) (g : Nat) (e : TcamEntry) : (s.tcamRepaired g e).agenda = s.agenda := by
  unfold State.tcamRepaired
  extract_lets t
  rewrite [agenda_each _ _ _ fun u k _ => (agenda_tblErr ..).trans (agenda_raise u (lrnEvent_guard k)),
    agenda_each _ _ _ fun u k _ => agenda_count u 4 k 15]
  rfl

theorem tcamCheckAt_of_none {s : State} {g : Nat} (h : SMap.get (fun _ => none) g s.tcam = none) : s.tcamCheckAt g = s := by
  unfold State.tcamCheckAt
  rw [h]

theorem tcamCheckAt_of_good {s : State} {g : Nat} {e : TcamEntry} (h : SMap.get (fun _ => none) g s.tcam = some e) (hgood : e.good = true) :
    s.tcamCheckAt g = s := by
  unfold State.tcamCheckAt
  rw [h]
  exact if_pos hgood

theorem tcamCheckAt_of_bad {s : State} {g : Nat} {e : TcamEntry} (h : SMap.get (fun _ => none) g s.tcam = some e) (hbad : e.good = false) :
    s.tcamCheckAt g = (s.tcamRepaired g e).react 0x0B 0 g 0 := by
  unfold State.tcamCheckAt
  rw [h]
  exact if_neg (by rw [hbad]; exact Bool.false_ne_true)

/-! The end of the drain (R150) -/

theorem drainEnd_of_none {s : State} (h : s.draining = false ∨ s.drainingFrames = true) : s.drainEnd = s := by
  unfold State.drainEnd
  refine if_neg fun hends => ?_
  rw [Bool.and_eq_true, Bool.not_eq_true'] at hends
  rcases h with h | h
  · exact Bool.false_ne_true (h.symm.trans hends.1)
  · exact Bool.false_ne_true (hends.2.symm.trans h)

theorem drainEnd_ends {s : State} (hdrain : s.draining = true) (hframes : s.drainingFrames = false) :
    s.drainEnd = ({ s with draining := false } : State).each (s.loads.filter fun l => !l.asking) State.endLoad := by
  unfold State.drainEnd
  exact if_pos (by rw [hdrain, hframes]; rfl)

theorem agenda_draining (s : State) (b : Bool) : ({ s with draining := b } : State).agenda = s.agenda := (rfl)

theorem drainEnd_of_asking {s : State} (hdrain : s.draining = true) (hframes : s.drainingFrames = false) (h : ∀ l ∈ s.loads, l.asking = true) :
    s.drainEnd = { s with draining := false } := by
  rewrite [drainEnd_ends hdrain hframes, List.filter_eq_nil_iff.2 fun l hl => by rw [h l hl]; exact Bool.false_ne_true]
  rfl

/-- A MASKED report that ends a command of a calm state. -/
theorem takes_masked {c : Instr} {s u : State} {f : State → State} {diag inst a : Nat} (hexec : exec c s = run f s) (hcalm : s.calm = true)
    (hlog : s.key.log.length < 767) (heffect : f s = u.react diag 0 inst a) (hagenda : u.agenda = s.agenda) :
    Takes c s (((u.endTest.count 16 0 0).raise F.SAF_EVENT_fault_masked).ksLog .safety) :=
  takes_of_rests hexec hcalm (heffect.trans (Machine.react_masked ..))
    (Machine.react_masked u diag inst a ▸ Rests.react_masked ((rests_of_calm hcalm).of_agenda hagenda) diag inst a hlog)

theorem agenda_badWay_effect (s : State) (n w : Nat) (e : Option MacEntry) :
    ((((s.setTab n ((s.tab n).setWay w e)).count 4 n 12).raise (F.PIPE_LRN_EVENT_table_error n)).tblErr n 0 w).agenda = s.agenda := by
  rw [agenda_tblErr, agenda_raise _ (lrnEvent_guard n), agenda_count, agenda_setTab]

theorem badUnit_report (s : State) (k : Nat) :
    s.badUnit k = (((({ s with hr := s.hr.map fun e => if e.unit = k then { e with parityGood := true } else e } : State).each
      (List.range 8) fun t n => t.count 4 n 14).each s.pipesOn fun t n =>
        (t.raise (F.PIPE_LRN_EVENT_hr_error n)).tblErr n 1 k).react 0x0A 0 k 0) := (rfl)

theorem agenda_badUnit_effect (s : State) (k : Nat) (l : List HrEntry) (on : List Nat) :
    ((({ s with hr := l } : State).each (List.range 8) fun t n => t.count 4 n 14).each on fun t n =>
        (t.raise (F.PIPE_LRN_EVENT_hr_error n)).tblErr n 1 k).agenda = s.agenda := by
  rewrite [agenda_each _ _ _ fun u k _ => (agenda_tblErr ..).trans (agenda_raise u (lrnEvent_guard k)),
    agenda_each _ _ _ fun u k _ => agenda_count u 4 k 14]
  rfl

/-- Settles O59: an event at the head of the apply FIFO is taken by the command of its type, and a background check handles what it finds by
the rules that a lookup follows. -/
theorem staticEntriesAndChecks : Obligations.StaticEntriesAndChecks := by
  refine ⟨?_, ?_, ?_, ?_, ?_, ?_, ?_, ?_, ?_⟩
  · intro s n vlan mac cls dest mask r hcalm hon hflush x t
    refine ⟨fun hfifo => ?_, fun hfifo => ⟨fun w e hfind => ?_, fun hfind => ?_⟩, fun hfifo => ⟨fun w e hfind => ?_, fun hfind => ?_⟩⟩
    · have heffect := staticAddAt_of_add hon hflush hfifo
      have hadd : ∀ u : State, t.addStatic n x vlan mac cls dest mask = u → u.agenda = t.agenda → Takes (.staticAdd n) s u :=
        fun u hu hagenda => takes_of_agenda (f := fun s => s.staticAddAt n) rfl hcalm (heffect.trans hu) (hagenda.trans (agenda_setTab ..))
      intro b
      have hnew : b.findStatic vlan mac cls dest = none →
          t.addStatic n x vlan mac cls dest mask = (t.setTab n b).insertStatic n (staticWay vlan mac cls dest mask) := by
        intro hfind
        unfold State.addStatic
        rw [show x.unlearned vlan mac = b from rfl, hfind]
      refine ⟨fun w e hfind => hadd _ ?_ (agenda_setTab ..), fun hfind y hy => hadd _ ?_ ((agenda_setTab ..).trans (agenda_setTab ..)),
        fun hfind => hadd _ (hnew hfind) ((agenda_insertStatic ..).trans (agenda_setTab ..))⟩
      · unfold State.addStatic
        rw [show x.unlearned vlan mac = b from rfl, hfind]
      · rw [hnew hfind]
        exact insertStatic_of_insert ((congrArg (fun z : PipeTab => z.insert _) (tab_setTab ..)).trans hy)
    · refine takes_of_agenda (f := fun s => s.staticMaskAt n) rfl hcalm ?_ ((agenda_setTab ..).trans (agenda_setTab ..))
      exact (staticMaskAt_of_mask hon hflush hfifo).trans (by rw [show PipeTab.findStatic _ vlan mac cls dest = _ from hfind])
    · refine takes_of_agenda (f := fun s => s.staticMaskAt n) rfl hcalm ?_ (agenda_setTab ..)
      exact (staticMaskAt_of_mask hon hflush hfifo).trans (by rw [show PipeTab.findStatic _ vlan mac cls dest = _ from hfind])
    · refine takes_of_agenda (f := fun s => s.staticDelAt n) rfl hcalm ?_ ((agenda_setTab ..).trans (agenda_setTab ..))
      exact (staticDelAt_of_del hon hflush hfifo).trans (by rw [show PipeTab.findStatic _ vlan mac cls dest = _ from hfind])
    · refine takes_of_agenda (f := fun s => s.staticDelAt n) rfl hcalm ?_ (agenda_setTab ..)
      exact (staticDelAt_of_del hon hflush hfifo).trans (by rw [show PipeTab.findStatic _ vlan mac cls dest = _ from hfind])
  · exact fun s n b hcalm hon hgood => idles_of (f := fun s => s.tableCheckAt (.learned n b)) rfl hcalm
      ((if_pos hon).trans (checkWays_of_good hgood))
  · refine fun s n b hcalm => ⟨fun hoff => ?_, fun hoff => ?_⟩
    · exact idles_of (f := fun s => s.tableCheckAt (.learned n b)) rfl hcalm (if_neg (by rw [hoff]; exact Bool.false_ne_true))
    · exact idles_of (f := fun s => s.tableCheckAt (.hostRoute b)) rfl hcalm (if_neg (by rw [hoff]; exact Bool.false_ne_true))
  · intro s n b e hcalm hon hway hbad hgood hlog fresh t
    refine takes_masked (diag := 0x0A) (inst := 2 * b) (a := 0) (f := fun s => s.tableCheckAt (.learned n b)) rfl hcalm hlog ((if_pos hon).trans ?_)
      (agenda_badWay_effect s n (2 * b) fresh)
    refine checkWays_of_first hway hbad ?_ hgood
    simp only [List.mem_cons, List.not_mem_nil, or_false, not_or]
    omega
  · intro s b hcalm hon hlog here bad
    refine ⟨fun hnone => ?_, ?_⟩
    · exact idles_of (f := fun s => s.tableCheckAt (.hostRoute b)) rfl hcalm ((if_pos hon).trans (checkUnits_of_bad hnone))
    · intro e hone t u
      refine takes_masked (diag := 0x0A) (inst := e.unit) (a := 0) (f := fun s => s.tableCheckAt (.hostRoute b)) rfl hcalm hlog ((if_pos hon).trans ?_)
        (agenda_badUnit_effect s e.unit _ s.pipesOn)
      exact (checkUnits_of_bad hone).trans (badUnit_report s e.unit)
  · exact fun s g hcalm hnone => idles_of (f := fun s => s.tcamCheckAt g) rfl hcalm (tcamCheckAt_of_none hnone)
  · refine fun s g e hcalm hsome => ⟨fun hgood => ?_, fun hbad hlog => ?_⟩
    · exact idles_of (f := fun s => s.tcamCheckAt g) rfl hcalm (tcamCheckAt_of_good hsome hgood)
    · exact takes_masked (f := fun s => s.tcamCheckAt g) rfl hcalm hlog (tcamCheckAt_of_bad hsome hbad) (agenda_tcamRepaired s g e)
  · refine fun s hcalm => ⟨fun hnone => ?_, fun hdrain hframes hasking => ?_⟩
    · exact idles_of (f := fun s => s.drainEnd) rfl hcalm (drainEnd_of_none hnone)
    · exact takes_of_agenda (f := fun s => s.drainEnd) rfl hcalm (drainEnd_of_asking hdrain hframes hasking) (agenda_draining ..)
  · intro s hstopped hdrain hframes t
    have hrun : exec .drainEnd s = .next (State.conclude s s.drainEnd) :=
      if_neg (by rw [hstopped]; exact Bool.false_ne_true)
    rw [hrun, drainEnd_ends hdrain hframes]

end Sys2Proof.Machine
end

section
/-! Requests for leave, Plumb's steps and the way to OFF: what they leave to be decided -/

namespace Sys2Proof.Machine

/-- Nothing is due with the command's end, and no event is raised that the settling of events reads besides. -/
structure State.Quiet (u : State) : Prop where
  due : u.tailDue = false
  raised : ∀ e ∈ u.raised, guardReg e.1 = false

theorem State.Rests.quiet {u : State} {n : Nat} (h : u.Rests n) : u.Quiet :=
  ⟨due_parts u h.queue h.flight h.rings h.group h.due h.fenced, h.raised⟩

theorem takes_of_quiet {c : Instr} {s u : State} {f : State → State} (hexec : exec c s = run f s) (hruns : s.stopped = false)
    (heffect : f s = u) (h : u.Quiet) : Takes c s u := by
  refine takes_intro ?_ h.due h.raised
  rw [hexec]
  unfold run
  rewrite [hruns, heffect]
  rfl

theorem completeWaiting_of_none {s : State} (h : s.hif.inflight = []) (p : Wait → Bool) (status r0 r1 : Nat) :
    s.completeWaiting p status r0 r1 = s := by
  unfold State.completeWaiting
  rewrite [h]
  rfl

/-! Plumb's status: the group under test shows in PLB.STATUS with state 2 alone -/

theorem groupTested_of_state {s : State} (h : s.getF F.PLB_STATUS_plb_state ≠ 2) : s.groupTested = 0 := if_neg h

theorem groupTested_setField (s : State) {f : Fld} (v : Nat) (hfit : f.lo + f.width ≤ 32)
    (hstate : F.PLB_STATUS_plb_state.addr ≠ f.addr ∨ F.PLB_STATUS_plb_state.lo + F.PLB_STATUS_plb_state.width ≤ f.lo
      ∨ f.lo + f.width ≤ F.PLB_STATUS_plb_state.lo)
    (h : s.groupTested = 0) (hgroup : F.PLB_STATUS_group.addr ≠ f.addr ∨ F.PLB_STATUS_group.lo + F.PLB_STATUS_group.width ≤ f.lo
      ∨ f.lo + f.width ≤ F.PLB_STATUS_group.lo) : (s.setF f v).groupTested = 0 := by
  unfold State.groupTested at h ⊢
  rw [getF_setF_other s f _ v hfit hstate, getF_setF_other s f _ v hfit hgroup]
  exact h

theorem Rests.setStep {s : State} {n : Nat} (h : s.Rests n) (k : Nat) : (s.setF F.PLB_STATUS_step k).Rests n :=
  { h with group := groupTested_setField s k (by decide) (by decide) h.group (by decide) }

theorem Rests.setAbandoned {s : State} {n : Nat} (h : s.Rests n) (k : Nat) : (s.setF F.PLB_STATUS_abandoned k).Rests n :=
  { h with group := groupTested_setField s k (by decide) (by decide) h.group (by decide) }

theorem Rests.setPlbState {s : State} {n : Nat} (h : s.Rests n) {k : Nat} (hk : k < 2) : (s.setF F.PLB_STATUS_plb_state k).Rests n := by
  refine { h with group := groupTested_of_state ?_ }
  rw [getF_setF s F.PLB_STATUS_plb_state k (by decide)]
  exact fun he => absurd (Nat.lt_of_le_of_lt (Nat.mod_le k _) hk) (by rw [he]; decide)

theorem Rests.setPwr {s : State} {n : Nat} (h : s.Rests n) (p : Power) : ({ s with pwr := p } : State).Rests n := { h with }

/-! The way to OFF (R401) -/

theorem Rests.stopCopies {s : State} {n : Nat} (h : s.Rests n) : s.stopCopies.Rests n :=
  { h with due := rfl, log := Nat.zero_le n }

theorem agenda_domainsOff (s : State) :
    ((s.each ((List.range 36).reverse.map fun i => i + 1) State.switchOff).switchOff 37).agenda = s.agenda := by
  rw [agenda_switchOff _ (by decide)]
  refine agenda_each _ _ _ fun t d hd => agenda_switchOff t fun hzero => ?_
  obtain ⟨i, -, hi⟩ := List.mem_map.1 hd
  omega

theorem agenda_parkHss (s : State) : s.parkHss.agenda = s.agenda := (rfl)

/-- The block in OFF once its domains and its Keystones are off. -/
def State.inOff (s : State) : State :=
  { s with dev := .off, dma := [], loads := []
           hif := { s.hif with inflight := [] }
           pwr := { s.pwr with phase := .none, rising := [] } }

theorem Rests.inOff {s : State} {n : Nat} (h : s.Rests n) : s.inOff.Rests n := { h with flight := rfl }

theorem Rests.unitsOff {s : State} {n : Nat} (h : s.Rests n) :
    ((((s.setUnit .b 0).setUnit .a 0).keyGrants .a false).keyGrants .b false).stopCopies.parkHss.Rests n := by
  have hgrants : ((((s.setUnit .b 0).setUnit .a 0).keyGrants .a false).keyGrants .b false).Rests n :=
    h.of_agenda (by rw [agenda_keyGrants, agenda_keyGrants, agenda_setUnit, agenda_setUnit])
  generalize ((((s.setUnit .b 0).setUnit .a 0).keyGrants .a false).keyGrants .b false) = t at hgrants
  exact State.Rests.of_agenda (Rests.stopCopies hgrants) (agenda_parkHss _)

theorem Rests.goOff {s : State} {n : Nat} (h : s.Rests n) : s.goOff.Rests n := by
  have hoff := Rests.unitsOff (h.of_agenda (agenda_domainsOff s))
  exact Rests.inOff hoff

theorem Rests.plumbEnd {s : State} {n : Nat} (h : s.Rests n) (start : List Byte) : (s.plumbEnd start).Rests n := by
  unfold State.plumbEnd
  extract_lets src s1
  have h1 : s1.Rests n := { h with }
  exact Rests.goOff (State.Rests.of_agenda (Rests.setStep (Rests.setPlbState h1 (by decide)) 0) (agenda_raise _ (by decide)))

theorem Rests.plumbNext {s : State} {n : Nat} (h : s.Rests n) (k : Nat) (start : List Byte) : (s.plumbNext k start).Rests n := by
  unfold State.plumbNext
  split
  · exact Rests.plumbEnd h start
  · exact Rests.setStep (Rests.setPwr h _) 0

theorem Rests.plumbBegin {s : State} {n : Nat} (h : s.Rests n) : s.plumbBegin.Rests n := by
  unfold State.plumbBegin
  extract_lets s1 src s2
  have h1 : s1.Rests n := by
    refine h.of_agenda ((agenda_each _ _ _ fun t d hd => agenda_switchOff t ?_).trans (agenda_setTmr _ _ (by decide)))
    rintro rfl
    exact absurd hd (by decide)
  exact Rests.setAbandoned (Rests.setPlbState (Rests.setPwr h1 _) (by decide)) 0

/-! What a refusal of leave ends (R393) -/

theorem agenda_advanceRollback (s : State) (cls v : Nat) : (s.advanceRollback cls v).agenda = s.agenda := by
  unfold State.advanceRollback
  split
  · rewrite [agenda_raise _ (by decide)]
    rfl
  · rfl

theorem Rests.enterConfig {s : State} {n : Nat} (h : s.Rests n) : s.enterConfig.Rests n := by
  unfold State.enterConfig
  extract_lets src s1
  have h1 : s1.Rests n := State.Rests.of_agenda (s := { s with dev := .config, pwr := { s.pwr with phase := .none } }) { h with }
    (agenda_setF _ _ (by decide))
  split
  · exact h1.of_agenda (agenda_advanceRollback ..)
  · exact h1

theorem Rests.trainingLeft {s : State} {n : Nat} (h : s.Rests n) (stack : Nat) : (s.trainingLeft stack).Rests n := by
  unfold State.trainingLeft
  split
  · extract_lets rest src s1
    have h1 : s1.Rests n := Rests.setPwr h _
    split
    · exact Rests.enterConfig h1
    · exact h1
  · exact h

theorem trainingLeft_of_phase {s : State} (h : s.pwr.phase = .none) (stack : Nat) : s.trainingLeft stack = s := by
  unfold State.trainingLeft
  rw [h]

theorem Rests.noteRefusal {s : State} {n : Nat} (h : s.Rests n) (requester dom cost reason : Nat) :
    (s.noteRefusal requester dom cost reason).Rests n :=
  h.of_agenda ((agenda_raise _ (by decide)).trans (agenda_setReg _ _ (by decide)))

theorem agenda_wakeRefused (s : State) (d : Nat) : (s.wakeRefused d).agenda = s.agenda := by
  refine agenda_each _ _ _ fun t m _ => ?_
  split
  · exact agenda_raiseBit (f := F.PORT_WAKE_STATUS_wake_refused m) _ _ (by simp)
  · rfl

theorem Rests.stepRefused {s : State} {n : Nat} (h : s.Rests n) (k : Nat) : (s.stepRefused k).Rests n := by
  unfold State.stepRefused
  split
  · extract_lets src s1
    exact Rests.plumbNext (State.Rests.of_agenda (s := s1) { h with } (agenda_raise _ (by decide))) k _
  · exact h

theorem Rests.loadRefused {s : State} {n : Nat} (h : s.Rests n) (ring : Nat) : (s.loadRefused ring).Rests n := by
  unfold State.loadRefused
  split
  · exact h
  next l _ =>
    extract_lets s0
    have h0 : s0.Rests n := { h with }
    have hdone : (if l.isPatch then s0.patchRefused else s0.freeTables true).Rests n := by
      split
      · exact h0.of_agenda (agenda_patchRefused s0)
      · exact { h0 with }
    rw [completeWaiting_of_none hdone.flight]
    exact hdone

theorem Rests.dmaRefused {s : State} {n : Nat} (h : s.Rests n) (key : Nat) : (s.dmaRefused key).Rests n := by
  unfold State.dmaRefused
  extract_lets c
  split
  · split
    · exact Rests.chFail (h.of_agenda (agenda_raise _ (by decide))) (Nat.mod_lt _ (by decide)) _ 6
    · exact h
  · exact h

theorem completeFirst_of_none {s : State} (h : s.hif.inflight = []) (p : Wait → Bool) (status : Nat) : s.completeFirst p status = s := by
  unfold State.completeFirst
  rewrite [h]
  rfl

theorem Rests.afterRefusal {s : State} {n : Nat} (h : s.Rests n) (g : Grant) (reason : Nat) : (s.afterRefusal g reason).Rests n := by
  unfold State.afterRefusal
  extract_lets s1
  have h1 : s1.Rests n := Rests.noteRefusal h _ _ _ _
  split
  · rw [completeFirst_of_none h1.flight]
    exact h1
  · split
    · exact h1.of_agenda (agenda_wakeRefused ..)
    · split
      · exact Rests.trainingLeft h1 _
      · split
        · split
          · exact Rests.stepRefused h1 _
          · rw [completeWaiting_of_none h1.flight]
            exact h1
        · split
          · exact Rests.loadRefused h1 _
          · split
            · exact Rests.dmaRefused h1 _
            · exact h1

theorem raise_hif (s : State) (f : Fld) : (s.raise f).hif = s.hif := (rfl)

theorem setReg_hif (s : State) (a : Nat) (v : Word) : (s.setReg a v).hif = s.hif := (rfl)

theorem noteRefusal_hif (s : State) (requester dom cost reason : Nat) : (s.noteRefusal requester dom cost reason).hif = s.hif :=
  (raise_hif ..).trans (setReg_hif ..)

/-- A refused power-up by POWER_DOMAIN that no command waits for any more, or a refused fast scrubber, is recorded, and that is all. -/
theorem afterRefusal_noted {s : State} {g : Grant} {reason : Nat} (hflight : s.hif.inflight = []) (h : g.requester = 0 ∨ g.requester = 6) :
    s.afterRefusal g reason = s.noteRefusal g.requester g.domain g.cost reason := by
  unfold State.afterRefusal
  rcases h with h | h
  · rw [if_pos h]
    exact completeFirst_of_none ((congrArg Hif.inflight (noteRefusal_hif ..)).trans hflight) _ _
  · rewrite [h]
    rfl

/-! A request for leave (R393) -/

theorem ksLog_domainOn (s : State) (kind : LogKind) (d : Nat) : (s.ksLog kind).domainOn d = s.domainOn d := by
  unfold State.domainOn
  rw [reg_ksLog_other s kind (by decide), reg_ksLog_other s kind (by decide)]

theorem ksLog_part (s : State) (kind : LogKind) : (s.ksLog kind).part = s.part := by
  unfold State.ksLog
  split
  · rfl
  · dsimp only
    split <;> rfl

theorem ksLog_permanent (s : State) (kind : LogKind) : (s.ksLog kind).permanent = s.permanent :=
  permanent_congr (ksLog_domainOn s kind) (congrArg Power.rising (ksLog_rising s kind)) (ksLog_part s kind)

theorem ksLog_budget (s : State) (kind : LogKind) : (s.ksLog kind).budget = s.budget :=
  getF_of_reg (f := F.PWR_BUDGET_budget) (reg_ksLog_other s kind (by decide))

theorem ksLog_leaveClosed (s : State) (kind : LogKind) (g : Grant) : (s.ksLog kind).leaveClosed g = s.leaveClosed g := by
  have hfault : (s.ksLog kind).key.doubleFault = s.key.doubleFault := by
    unfold State.ksLog
    split
    · rfl
    · dsimp only
      split <;> rfl
  unfold State.leaveClosed
  rw [ksLog_dev, hfault]

/-- The state in which request `g` stands at the end of the queue. -/
def State.asked (s : State) (g : Grant) : State := (s.setKs fun k => { k with queue := k.queue ++ [g] }).ksLog .power

theorem grants_queued (s : State) (g : Grant) : (s.setKs fun k => { k with queue := k.queue ++ [g] }).key.ks.grants = s.key.ks.grants := (rfl)

theorem asked_queue {s : State} (h : s.key.ks.queue = []) (g : Grant) : (s.asked g).key.ks.queue = [g] :=
  (congrArg KsState.queue (ksLog_ctl ..)).trans (congrArg (· ++ [g]) h)

theorem leaveHead_eq_none_or {s : State} {g : Grant} (h : s.key.ks.queue = [g]) : s.leaveHead = none ∨ s.leaveHead = some g := by
  unfold State.leaveHead
  rw [h, List.find?_cons]
  split
  · exact .inr rfl
  · exact .inl rfl

/-- A request that is queued alone is not decided with the command's end: it may be granted, but its cost does not fit beside the leave
that is held. -/
theorem headDecision_asked {s : State} {g : Grant} (hreq : 2 ≤ g.requester) (hclosed : s.leaveClosed g = false)
    (hever : ¬ s.budget < s.permanent + g.cost) (hfits : ¬ s.permanent + s.transient + g.cost ≤ s.budget) :
    (s.asked g).headDecision g = none := by
  have hup : (s.asked g).alreadyUp g = false := by
    unfold State.alreadyUp
    rw [decide_eq_false (Nat.not_lt.mpr hreq), Bool.false_and]
  have hclosed' : (s.asked g).leaveClosed g = false := (ksLog_leaveClosed ..).trans hclosed
  have hpermanent : (s.asked g).permanent = s.permanent := ksLog_permanent ..
  have hbudget : (s.asked g).budget = s.budget := ksLog_budget ..
  have hgrants : (s.asked g).key.ks.grants = s.key.ks.grants :=
    (congrArg KsState.grants (ksLog_ctl (s.setKs fun k => { k with queue := k.queue ++ [g] }) .power)).trans (grants_queued s g)
  have htransient : (s.asked g).transient = s.transient := congrArg (fun l : List Grant => (l.map Grant.cost).sum) hgrants
  unfold State.headDecision
  rw [hup, hclosed', hpermanent, hbudget, htransient, if_neg Bool.false_ne_true, if_neg Bool.false_ne_true,
    if_neg fun h => absurd h.1 (Nat.not_lt.mpr hreq), if_neg hever, if_neg hfits]

theorem logDue_logged (k : Keystone) (q : KsState) (kind : LogKind) : (({ k with ks := q } : Keystone).logged kind).logDue = (k.logged kind).logDue := by
  unfold Keystone.logged
  dsimp only
  split
  · rfl
  · simp only [List.length_append, List.length_singleton]

theorem State.Rests.asked_parts {s : State} {n : Nat} (h : s.Rests n) (hn : n < 767) (g : Grant) :
    (s.asked g).hif = s.hif ∧ (s.asked g).groupTested = 0 ∧ (s.asked g).key.logDue = false ∧ (s.asked g).raised = s.raised := by
  have hlog : ∀ t : State, (t.ksLog .power).hif = t.hif ∧ (t.ksLog .power).raised = t.raised := fun t => by
    unfold State.ksLog
    split
    · exact ⟨rfl, rfl⟩
    · dsimp only
      split <;> exact ⟨rfl, rfl⟩
  have hsame : (s.asked g).key.logDue = (s.ksLog .power).key.logDue := by
    unfold State.asked
    rw [ksLog_key, ksLog_key]
    exact logDue_logged s.key _ .power
  refine ⟨(hlog _).1, ?_, ?_, (hlog _).2⟩
  · exact (groupTested_reg (reg_ksLog_other _ .power (by decide))).trans h.group
  · exact hsame.trans (State.Rests.ksLog h .power hn).due

theorem Quiet.asked {s : State} {n : Nat} (h : s.Rests n) (hn : n < 767) {g : Grant} (hreq : 2 ≤ g.requester) (hclosed : s.leaveClosed g = false)
    (hever : ¬ s.budget < s.permanent + g.cost) (hfits : ¬ s.permanent + s.transient + g.cost ≤ s.budget) : (s.asked g).Quiet := by
  obtain ⟨hhif, hgroup, hdue, hraised⟩ := h.asked_parts hn g
  refine ⟨?_, fun e he => h.raised e (hraised ▸ he)⟩
  have hdecision := headDecision_asked hreq hclosed hever hfits
  have hrings : ((s.asked g).hif.rings.any fun e => e.2.stopping && ((s.asked g).runningOn e.1).isEmpty) = false := by
    rw [hhif, List.any_eq_false]
    intro e he
    have hgoes := List.all_eq_true.mp h.rings e he
    rw [Bool.not_eq_true'] at hgoes
    rw [hgoes, Bool.false_and]
    exact Bool.false_ne_true
  unfold State.tailDue State.unitNext
  rw [hrings, hhif, h.flight, h.fenced, hgroup, hdue]
  rcases leaveHead_eq_none_or (asked_queue h.queue g) with hhead | hhead
  · rw [hhead]
    simp
  · rw [hhead]
    dsimp only
    rw [hdecision]
    simp

/-- What asking for `g` leaves where the block's state allows a decision and nothing is queued before it. -/
theorem askLeave_of_open {s : State} {g : Grant} (hbusy : s.ksBusy = false) (hqueue : s.key.ks.queue = []) (hreq : 2 ≤ g.requester)
    (hclosed : s.leaveClosed g = false) : s.askLeave g =
      if s.permanent + s.transient + g.cost ≤ s.budget then (.granted, (s.setKs fun k => { k with grants := k.grants ++ [g] }).ksLog .power)
      else if s.budget < s.permanent + g.cost then (.refused 5, (s.noteRefusal g.requester 0 g.cost 5).ksLog .power)
      else (.queued, s.asked g) := by
  have hnot : ¬ g.requester < 2 := Nat.not_lt.mpr hreq
  have hdomain : g.domain = 0 := if_neg hnot
  by_cases hfits : s.permanent + s.transient + g.cost ≤ s.budget
  · rw [if_pos hfits, askLeave_granted hbusy hqueue (decideLeave_granted hclosed (fun h => absurd h hnot) hfits)]
    unfold State.enterGrant
    rw [if_neg hnot]
  · rw [if_neg hfits]
    by_cases hever : s.budget < s.permanent + g.cost
    · rw [if_pos hever, askLeave_refused hbusy hqueue (decideLeave_never hclosed (fun h => absurd h hnot) hever), hdomain]
    · have hqueued : s.decideLeave g 0 = .queued := by
        unfold State.decideLeave
        rw [if_neg (by rw [hclosed]; decide), if_neg fun h => hnot h.1, if_neg hever, if_neg fun h => hfits h.1, if_neg (by decide)]
      rw [if_neg hever]
      unfold State.askLeave
      rewrite [hbusy, leaveWaiting_of_calm hqueue, hqueued]
      rfl

theorem Quiet.askLeave {s : State} {n : Nat} (h : s.Rests n) (hn : n < 767) {g : Grant} (hbusy : s.ksBusy = false) (hreq : 2 ≤ g.requester)
    (hclosed : s.leaveClosed g = false) : (s.askLeave g).2.Quiet := by
  rw [askLeave_of_open hbusy h.queue hreq hclosed]
  split
  · exact State.Rests.quiet (State.Rests.ksLog (h.of_agenda (agenda_setKs _ _ rfl)) .power hn)
  next hfits =>
    split
    · exact State.Rests.quiet (State.Rests.ksLog (Rests.noteRefusal h _ _ _ _) .power hn)
    next hever => exact Quiet.asked h hn hreq hclosed hever hfits

/-- The request to train an HBM stack: whatever becomes of it, nothing is due (R390). -/
theorem Quiet.askTraining {s : State} {n : Nat} (h : s.Rests n) (hn : n < 767) (stack : Nat) : (s.askTraining stack).Quiet := by
  unfold State.askTraining
  have hreq : 2 ≤ (trainLeave stack).requester := Nat.le.refl
  by_cases hbusy : s.ksBusy = true
  · have hask : s.askLeave (trainLeave stack) = (.queued, { s with key := { s.key with deferred := s.key.deferred ++ [.leave (trainLeave stack)] } }) :=
      if_pos hbusy
    rw [hask]
    exact State.Rests.quiet (n := n) { h with }
  · rw [Bool.not_eq_true] at hbusy
    by_cases hclosed : s.leaveClosed (trainLeave stack) = true
    · rw [askLeave_refused (r := 8) hbusy h.queue (if_pos hclosed)]
      exact State.Rests.quiet (Rests.trainingLeft (State.Rests.ksLog (Rests.noteRefusal h _ _ _ _) .power hn) stack)
    · rw [Bool.not_eq_true] at hclosed
      rw [askLeave_of_open hbusy h.queue hreq hclosed]
      by_cases hfits : s.permanent + s.transient + (trainLeave stack).cost ≤ s.budget
      · rw [if_pos hfits]
        exact State.Rests.quiet (State.Rests.ksLog (h.of_agenda (agenda_setKs _ _ rfl)) .power hn)
      · rw [if_neg hfits]
        by_cases hever : s.budget < s.permanent + (trainLeave stack).cost
        · rw [if_pos hever]
          exact State.Rests.quiet (Rests.trainingLeft (State.Rests.ksLog (Rests.noteRefusal h _ _ _ _) .power hn) stack)
        · rw [if_neg hever]
          exact Quiet.asked h hn hreq hclosed hever hfits

end Sys2Proof.Machine
end

section
/-! A port that goes down, and a port group's failing nets: what they leave of the Keystone pair -/

namespace Sys2Proof.Machine

/-! What abandoning and falling back leave, beside frames and queues -/

@[simp] theorem plan_addFrame (s : State) (f : Frame) : (s.addFrame f).2.plan = s.plan := (rfl)

@[simp] theorem plan_setFifo (s : State) (m : Nat) (l : List Nat) : (s.setFifo m l).plan = s.plan := (rfl)

@[simp] theorem plan_turnAway (s : State) (j : Nat) : (s.turnAway j).plan = s.plan := by
  unfold State.turnAway
  split
  · rfl
  · dsimp only
    split
    · simp
    · split <;> simp

theorem plan_enterFifo {s t : State} {p i : Nat} (h : s.enterFifo p i = some t) : t.plan = s.plan := by
  unfold State.enterFifo at h
  dsimp only at h
  split at h
  · exact nomatch h
  · split at h
    · obtain rfl := Option.some.inj h
      simp
    · obtain rfl := Option.some.inj h
      simp

@[simp] theorem plan_packetStart (s : State) (p : Nat) (head : List Byte) (t : Nat) : (s.packetStart p head t).plan = s.plan := by
  unfold State.packetStart
  dsimp only
  split
  · simp
  · split
    next h => rw [plan_enterFifo h]; simp
    next => simp

@[simp] theorem plan_fallBack (s : State) (p i : Nat) : (s.fallBack p i).plan = s.plan := by
  unfold State.fallBack
  split
  · split
    · rfl
    · rw [plan_packetStart, plan_count, plan_countN]
      exact plan_setPort ..
  · rfl

@[simp] theorem plan_suspend (s : State) (p : Nat) : (s.suspend p).plan = s.plan := plan_each _ _ _ fun t i _ => plan_fallBack t p i

@[simp] theorem plan_unqueue (s : State) (i : Nat) : (s.unqueue i).plan = s.plan := by
  unfold State.unqueue
  refine plan_each _ _ _ fun t e _ => ?_
  dsimp only
  split <;> simp

@[simp] theorem plan_leaveFifo (s : State) (i : Nat) : (s.leaveFifo i).plan = s.plan := (rfl)

@[simp] theorem plan_leaveExpand (s : State) (i : Nat) : (s.leaveExpand i).plan = s.plan := by
  unfold State.leaveExpand
  rewrite [plan_fixSpills]
  rfl

@[simp] theorem plan_dropJobs (s : State) (i : Nat) : (s.dropJobs i).plan = s.plan := by
  unfold State.dropJobs
  exact plan_each _ _ _ fun t e _ => plan_release t _

@[simp] theorem plan_endBad (s : State) (i : Nat) (l : List Byte) (n : Nat) : (s.endBad i l n).plan = s.plan := by
  unfold State.endBad
  split
  · rfl
  · dsimp only
    split
    · simp
    · simp
    · simp
    · split <;> simp

@[simp] theorem plan_abandonRx (s : State) (p : Nat) : (s.abandonRx p).plan = s.plan := by
  unfold State.abandonRx
  dsimp only
  split
  · split
    · simp
    · split <;> simp
  · split <;> simp
  · simp

@[simp] theorem plan_checkType (s : State) (p : Nat) : (s.checkType p).plan = s.plan := by
  unfold State.checkType
  split <;> simp

/-- The nets found failing, and whether the conductor log is on. -/
def State.netsAndLog (s : State) : List (NetFail × Nat) × Bool := (s.pwr.fails, s.key.logOn)

theorem netsAndLog_issueCtl (s : State) (e : BusEvent) : (s.issueCtl e).netsAndLog = s.netsAndLog := by
  unfold State.issueCtl
  split
  · rfl
  · split
    · rfl
    · split <;> rfl

theorem netsAndLog_of_plan {s t : State} (h : t.plan = s.plan) : t.netsAndLog = s.netsAndLog := by
  obtain ⟨-, hpwr, hkey⟩ := fields_of_plan h
  unfold State.netsAndLog
  rw [hpwr, hkey]

/-- A port that goes down leaves the nets found failing, and the conductor log on or off. -/
theorem netsAndLog_portDown (s : State) (p : Nat) (pcs : Bool) : (s.portDown p pcs).netsAndLog = s.netsAndLog := by
  unfold State.portDown
  extract_lets m i was s1 s2 s3 s4 r s5
  have h1 : s1.plan = s.plan := by simp [s1]
  have h2 : s2.plan = s1.plan := by simp [s2]
  have h3 : s3.plan = s2.plan := by simp [s3]
  have h4 : s4.plan = s3.plan := by simp [s4]
  have h5 : s5.plan = s4.plan := by simp [s5]
  have hs5 : s5.plan = s.plan := h5.trans (h4.trans (h3.trans (h2.trans h1)))
  split
  · unfold State.doIf
    split
    · exact (netsAndLog_issueCtl ..).trans (netsAndLog_of_plan ((plan_raiseBit ..).trans hs5))
    · exact netsAndLog_of_plan ((plan_raiseBit ..).trans hs5)
  · exact netsAndLog_of_plan hs5

/-! The failing nets of a port group that comes up (R429) -/

/-- The reports of ports leave what the block waits for, while the conductor log is off. -/
theorem react_port_off {s : State} (p : Nat) (h : s.key.logOn = false) :
    (s.react 0x14 2 p p).agenda = s.agenda ∧ (s.react 0x14 2 p p).key.logOn = false := by
  have hreaction : s.reaction 0x14 2 p p = (((s.faultNoted 0x14 2 p).addCause (.port p)).holdDown p).portDown p false :=
    (if_neg (by decide)).trans ((if_neg (by decide)).trans ((if_neg (by decide)).trans ((if_pos rfl).trans (if_neg (by decide)))))
  have hheld : (((s.faultNoted 0x14 2 p).addCause (.port p)).holdDown p).key = s.key :=
    (key_addCause (s.faultNoted 0x14 2 p) (.port p)).trans (key_faultNoted ..)
  have hon : (s.reaction 0x14 2 p p).key.logOn = false := by
    rw [hreaction]
    refine (congrArg Prod.snd (netsAndLog_portDown ..)).trans ?_
    exact (congrArg Keystone.logOn hheld).trans h
  have hreact : s.react 0x14 2 p p = s.reaction 0x14 2 p p := ksLog_of_off .safety hon
  rw [hreact]
  exact ⟨agenda_reaction_port s p p (by decide), hon⟩

theorem agenda_reports {s : State} (h : s.key.logOn = false) (l : List Nat) : (s.each l fun t p => t.react 0x14 2 p p).agenda = s.agenda :=
  (each_keeps (fun t => t.agenda = s.agenda ∧ t.key.logOn = false) _ l
    (fun _ p _ ht => ⟨(react_port_off p ht.2).1.trans ht.1, (react_port_off p ht.2).2⟩) s ⟨rfl, h⟩).1

theorem agenda_setFails (s : State) (l : List (NetFail × Nat)) : ({ s with pwr := { s.pwr with fails := l } } : State).agenda = s.agenda := (rfl)

/-- A port group without failing nets reports nothing, and one with some logs nothing while the conductor log is off. -/
theorem agenda_groupNets {s : State} (d : Nat) (h : s.pwr.fails = [] ∨ s.key.logOn = false) : (s.groupNets d).agenda = s.agenda := by
  unfold State.groupNets
  extract_lets mine macs src s1
  have h1 : s1.agenda = s.agenda := agenda_setFails ..
  rcases h with h | h
  · have hnone : macs = [] := by
      dsimp only [macs]
      rewrite [h]
      rfl
    rw [hnone]
    exact h1
  · exact (agenda_reports (s := s1) h _).trans h1

/-! The first applies of a port group (R47, R390) -/

theorem agenda_takeCfg (s : State) (m : Nat) (aff : List Nat) : (s.takeCfg m aff).agenda = s.agenda := by
  obtain ⟨hignored, hstatus⟩ := macro_status_ne_plb m
  unfold State.takeCfg
  extract_lets s1 s2 s3 s4
  have h1 : s1.agenda = s.agenda := agenda_each _ _ _ fun t i _ => by
    split
    · exact agenda_portDown ..
    · rfl
  have h3 : s3.agenda = s2.agenda := agenda_each _ _ _ fun t i _ => agenda_freshLink t m i
  have h4 : s4.agenda = s3.agenda := agenda_each _ _ _ fun t i _ => by
    split
    · exact agenda_setPort ..
    · rfl
  rw [agenda_setF _ _ hignored, agenda_setF _ _ hstatus, h4, h3, agenda_setMac, h1]

theorem agenda_applyMacro (s : State) (m : Nat) : (s.applyMacro m).agenda = s.agenda := by
  obtain ⟨hignored, hstatus⟩ := macro_status_ne_plb m
  unfold State.applyMacro
  split
  · exact agenda_setF _ _ hignored
  · split
    · exact agenda_each _ _ _ fun t e _ => agenda_takeCfg t e.1 e.2
    · exact agenda_setF _ _ hstatus

theorem agenda_firstApplies (s : State) (d : Nat) : (s.firstApplies d).agenda = s.agenda := by
  refine agenda_each _ _ _ fun t m _ => ?_
  split
  · rfl
  · exact (agenda_applyMacro ..).trans (agenda_setF _ _ (macro_status_ne_plb m).2)

theorem netsAndLog_setPort (s : State) (p : Nat) (r : PortRun) : (s.setPort p r).netsAndLog = s.netsAndLog := (rfl)

theorem netsAndLog_setMac (s : State) (m : Nat) (r : MacroRun) : (s.setMac m r).netsAndLog = s.netsAndLog := (rfl)

theorem netsAndLog_setF (s : State) (f : Fld) (v : Nat) : (s.setF f v).netsAndLog = s.netsAndLog := (rfl)

theorem netsAndLog_setReg (s : State) (a : Nat) (v : Word) : (s.setReg a v).netsAndLog = s.netsAndLog := (rfl)

theorem netsAndLog_freshLink (s : State) (m i : Nat) : (s.freshLink m i).netsAndLog = s.netsAndLog :=
  (netsAndLog_of_plan (plan_restartVerify ..)).trans (netsAndLog_setReg ..)

theorem netsAndLog_each {α : Type} (s : State) (l : List α) (f : State → α → State) (h : ∀ t x, (f t x).netsAndLog = t.netsAndLog) :
    (s.each l f).netsAndLog = s.netsAndLog := each_keeps (fun t => t.netsAndLog = s.netsAndLog) f l (fun t x _ ht => (h t x).trans ht) s rfl

theorem netsAndLog_takeCfg (s : State) (m : Nat) (aff : List Nat) : (s.takeCfg m aff).netsAndLog = s.netsAndLog := by
  unfold State.takeCfg
  extract_lets s1 s2 s3 s4
  have h1 : s1.netsAndLog = s.netsAndLog := netsAndLog_each _ _ _ fun t i => by
    split
    · exact netsAndLog_portDown ..
    · rfl
  have h3 : s3.netsAndLog = s2.netsAndLog := netsAndLog_each _ _ _ fun t i => netsAndLog_freshLink t m i
  have h4 : s4.netsAndLog = s3.netsAndLog := netsAndLog_each _ _ _ fun t i => by
    split
    · exact netsAndLog_setPort ..
    · rfl
  rw [netsAndLog_setF, netsAndLog_setF, h4, h3, netsAndLog_setMac, h1]

theorem netsAndLog_applyMacro (s : State) (m : Nat) : (s.applyMacro m).netsAndLog = s.netsAndLog := by
  unfold State.applyMacro
  split
  · exact netsAndLog_setF ..
  · split
    · exact netsAndLog_each _ _ _ fun t e => netsAndLog_takeCfg t e.1 e.2
    · exact netsAndLog_setF ..

theorem netsAndLog_firstApplies (s : State) (d : Nat) : (s.firstApplies d).netsAndLog = s.netsAndLog := by
  refine netsAndLog_each _ _ _ fun t m => ?_
  split
  · rfl
  · exact (netsAndLog_applyMacro ..).trans (netsAndLog_setF ..)

end Sys2Proof.Machine
end

section
/-! Leave and its return, power-up, HBM training, parking and the Plumb steps -/

namespace Sys2Proof.Machine

/-! The request whose leave_timeout ends (R393) -/

theorem setKs_congr {s : State} {f g : KsState → KsState} (h : f s.key.ks = g s.key.ks) : s.setKs f = s.setKs g :=
  congrArg (fun q : KsState => ({ s with key := { s.key with ks := q } } : State)) h

theorem dropRequest_single {s : State} {g : Grant} (h : s.key.ks.queue = [g]) : s.dropRequest g = s.setKs fun k => { k with queue := [] } := by
  refine setKs_congr (congrArg (fun l : List Grant => ({ s.key.ks with queue := l } : KsState)) ?_)
  rw [h, List.erase_cons_head]

theorem leaveExpired_single {s : State} {g : Grant} (hbusy : s.ksBusy = false) (hqueue : s.key.ks.queue = [g])
    (hdecided : s.dev ≠ .parking ∨ g.isStep = true) :
    s.leaveExpired = ((s.setKs fun k => { k with queue := [] }).ksLog .power).afterRefusal g 7 := by
  have hhead : s.leaveHead = some g := by
    unfold State.leaveHead
    rw [hqueue]
    refine List.find?_cons_of_pos ?_
    rcases hdecided with h | h
    · rw [decide_eq_true h, Bool.true_or]
    · rw [h, Bool.or_true]
  unfold State.leaveExpired
  rewrite [hbusy, hhead, ← dropRequest_single hqueue]
  rfl

theorem stopped_setKs (s : State) (f : KsState → KsState) : (s.setKs f).stopped = s.stopped := (rfl)

theorem log_setKs (s : State) (f : KsState → KsState) : (s.setKs f).key.log = s.key.log := (rfl)

/-! Requests that LEAVE_RETURN brings (R394) -/

theorem leaveClosed_of_dev {s : State} (hfault : s.key.doubleFault = false) (hparking : s.dev ≠ .parking) (hoff : s.dev ≠ .off) (g : Grant) :
    s.leaveClosed g = false := by
  unfold State.leaveClosed
  rewrite [hfault, decide_eq_false hparking, decide_eq_false hoff]
  rfl

/-- What asking for `g` leaves, where nothing is queued before it. -/
def State.askedFor (s : State) (g : Grant) : State :=
  if s.permanent + s.transient + g.cost ≤ s.budget then (s.setKs fun x => { x with grants := x.grants ++ [g] }).ksLog .power
  else if s.budget < s.permanent + g.cost then (s.noteRefusal g.requester 0 g.cost 5).ksLog .power
  else (s.setKs fun x => { x with queue := x.queue ++ [g] }).ksLog .power

theorem askLeave_askedFor {s : State} {g : Grant} (hbusy : s.ksBusy = false) (hqueue : s.key.ks.queue = []) (hreq : 2 ≤ g.requester)
    (hclosed : s.leaveClosed g = false) : (s.askLeave g).2 = s.askedFor g := by
  rw [askLeave_of_open hbusy hqueue hreq hclosed]
  unfold State.askedFor
  split
  · rfl
  · split <;> rfl

/-! The end of a power-up (R390) -/

/-- The block with domain `d` rising no longer. -/
def State.risen (s : State) (d : Nat) : State := { s with pwr := { s.pwr with rising := s.pwr.rising.filter fun x => decide (x ≠ d) } }

theorem agenda_risen (s : State) (d : Nat) : (s.risen d).agenda = s.agenda := (rfl)

/-- The block with domain `d` on, as R390 step 4 finds it. -/
def State.cameUp (s : State) (d : Nat) : State := ((s.risen d).setDomain d true).raise F.PWR_EVENT_domain_change

theorem agenda_cameUp (s : State) (d : Nat) : (s.cameUp d).agenda = s.agenda :=
  (agenda_raise _ (by decide)).trans ((agenda_setDomain ..).trans (agenda_risen ..))

theorem switchOn_of_off {s : State} {d : Nat} (h : s.domainOn d = false) (hd : d ≠ 36) : s.switchOn d = s.cameUp d := by
  unfold State.switchOn
  rw [if_neg (by rw [h]; exact Bool.false_ne_true)]
  dsimp only
  rewrite [if_neg hd]
  rfl

theorem powerUpEnd_rises {s : State} {d : Nat} {pass : Bool} (hgap : s.inGap = false) (hrising : d ∈ s.pwr.rising)
    (hreq : (s.requires d).all s.domainOn = true) (hpass : 17 ≤ d → d ≤ 24 → pass = true) :
    s.powerUpEnd d pass = (s.domainUp d).completeWaiting (fun w => decide (w = .domainOn d)) 0 0 0 := by
  unfold State.powerUpEnd
  rw [hgap, hreq]
  refine (if_neg Bool.false_ne_true).trans ((if_neg (not_not_intro hrising)).trans ((if_neg ?_).trans (if_neg Bool.false_ne_true)))
  rintro ⟨hlow, hhigh, hfail⟩
  rw [hpass hlow hhigh] at hfail
  exact Bool.false_ne_true hfail

/-- A power-up ends with what R390 does in the domain. -/
theorem takes_powerUp {s u : State} {d : Nat} {pass : Bool} (hcalm : s.calm = true) (hgap : s.inGap = false) (hrising : d ∈ s.pwr.rising)
    (hreq : (s.requires d).all s.domainOn = true) (hpass : 17 ≤ d → d ≤ 24 → pass = true) (heffect : s.domainUp d = u)
    (hflight : u.hif.inflight = []) (hquiet : u.Quiet) : Takes (.domainPowerUpDone d pass) s u := by
  refine takes_of_quiet (f := fun s => s.powerUpEnd d pass) rfl (calm_runs hcalm) ?_ hquiet
  exact (powerUpEnd_rises hgap hrising hreq hpass).trans (by rw [heffect, completeWaiting_of_none hflight])

theorem domainUp_table {s : State} {d : Nat} (hoff : s.domainOn d = false) (hlow : 29 ≤ d) (hhigh : d ≤ 33) : s.domainUp d = s.cameUp d := by
  unfold State.domainUp
  rw [switchOn_of_off hoff (by omega)]
  exact (if_neg (by omega)).trans ((if_neg (by omega)).trans (if_neg (by omega)))

theorem domainUp_group {s : State} {d : Nat} (hoff : s.domainOn d = false) (hlow : 1 ≤ d) (hhigh : d ≤ 16) :
    s.domainUp d = ((s.cameUp d).firstApplies d).groupNets d := by
  unfold State.domainUp
  rw [switchOn_of_off hoff (by omega)]
  exact (if_neg (by omega)).trans (if_pos ⟨hlow, hhigh⟩)

theorem domainUp_stack {s : State} {d : Nat} (hoff : s.domainOn d = false) (h : d = 27 ∨ d = 28) :
    s.domainUp d = (s.cameUp d).askTraining (d - 27) := by
  unfold State.domainUp
  rw [switchOn_of_off hoff (by omega)]
  exact (if_neg (by omega)).trans ((if_neg (by omega)).trans (if_pos h))

theorem domainUp_pipeline {s : State} {d : Nat} (hoff : s.domainOn d = false) (hlow : 17 ≤ d) (hhigh : d ≤ 24) :
    s.domainUp d = (((s.cameUp d).drawSeeds (d - 17)).fillStatics (d - 17)).dropCause fun c => decide (c = .pipeline (d - 17)) := by
  unfold State.domainUp
  rw [switchOn_of_off hoff (by omega)]
  exact if_pos ⟨hlow, hhigh⟩

theorem agenda_drawSeeds (s : State) (n : Nat) : (s.drawSeeds n).agenda = s.agenda := by
  unfold State.drawSeeds
  dsimp only
  split
  · exact agenda_setTab ..
  · rw [agenda_setTab, agenda_free, agenda_free]

theorem agenda_fillStatics (s : State) (n : Nat) : (s.fillStatics n).agenda = s.agenda :=
  agenda_each _ _ _ fun t _ _ => agenda_insertStatic t n _

theorem hif_askLeave (s : State) (g : Grant) : (s.askLeave g).2.hif = s.hif := by
  have hlog : ∀ t : State, (t.ksLog .power).hif = t.hif := fun t => by
    unfold State.ksLog
    split
    · rfl
    · dsimp only
      split <;> rfl
  unfold State.askLeave
  split
  · rfl
  · split
    · refine (hlog _).trans ?_
      unfold State.enterGrant
      split <;> rfl
    · exact hlog _
    · exact (hlog _).trans (noteRefusal_hif ..)

theorem hif_trainingLeft (s : State) (k : Nat) : (s.trainingLeft k).hif = s.hif := by
  unfold State.trainingLeft
  split
  · dsimp only
    split
    · unfold State.enterConfig State.advanceRollback
      dsimp only
      split
      · split <;> rfl
      · rfl
    · rfl
  · rfl

theorem hif_askTraining (s : State) (k : Nat) : (s.askTraining k).hif = s.hif := by
  have hask := hif_askLeave s (trainLeave k)
  unfold State.askTraining
  split
  next r s1 heq =>
    rw [heq] at hask
    exact (hif_trainingLeft s1 k).trans hask
  next s1 _ heq =>
    rw [heq] at hask
    exact hask

/-- A pipeline that fails its built-in self-test stays off (0x13). -/
theorem powerUpEnd_fails {s : State} {d : Nat} (hgap : s.inGap = false) (hrising : d ∈ s.pwr.rising) (hlow : 17 ≤ d) (hhigh : d ≤ 24) :
    s.powerUpEnd d false
      = ((s.risen d).react 0x13 3 (d - 17) (d - 17)).completeWaiting (fun w => decide (w = .domainOn d)) 0x0B 0 0 := by
  unfold State.powerUpEnd
  rw [hgap]
  exact (if_neg Bool.false_ne_true).trans ((if_neg (not_not_intro hrising)).trans (if_pos ⟨hlow, hhigh, rfl⟩))

/-- A power-up whose required domains have gone off meanwhile is abandoned (R22). -/
theorem powerUpEnd_abandoned {s : State} {d : Nat} {pass : Bool} (hgap : s.inGap = false) (hrising : d ∈ s.pwr.rising)
    (hreq : (s.requires d).all s.domainOn = false) (hpass : 17 ≤ d → d ≤ 24 → pass = true) : s.powerUpEnd d pass = s.switchOff d := by
  unfold State.powerUpEnd
  rw [hgap, hreq]
  refine (if_neg Bool.false_ne_true).trans ((if_neg (not_not_intro hrising)).trans ((if_neg ?_).trans (if_pos rfl)))
  rintro ⟨hlow, hhigh, hfail⟩
  rw [hpass hlow hhigh] at hfail
  exact Bool.false_ne_true hfail

theorem requires_zero (s : State) : s.requires 0 = [] := (rfl)

/-! The training of an HBM stack (R390) -/

theorem returnGrant_pwr (s : State) (r k : Nat) : (s.returnGrant r k).pwr = s.pwr := (rfl)

/-- The state with stack `k` among those trained. -/
def State.stackTrained (s : State) (k : Nat) : State :=
  { s with pwr := { s.pwr with trained := s.pwr.trained.filter (fun j => decide (j ≠ k)) ++ [k] } }

theorem stackTrained_phase (s : State) (k : Nat) : (s.stackTrained k).pwr.phase = s.pwr.phase := (rfl)

theorem setF_pwr (s : State) (f : Fld) (v : Nat) : (s.setF f v).pwr = s.pwr := (rfl)

theorem hbmReady_of_both {s : State} {k : Nat} (hk : k < 2) (hon : s.domainOn (27 + k) = true) (hother : s.domainOn (28 - k) = true)
    (htrained : (1 - k) ∈ s.pwr.trained) : (s.stackTrained k).hbmReady = (s.stackTrained k).setF F.BUF_STATUS_hbm_ready 1 := by
  have hself : k ∈ (s.stackTrained k).pwr.trained := List.mem_append_right _ (List.mem_singleton.2 rfl)
  have hstays : (1 - k) ∈ (s.stackTrained k).pwr.trained := by
    refine List.mem_append_left _ (List.mem_filter.2 ⟨htrained, decide_eq_true ?_⟩)
    omega
  have hon' : (s.stackTrained k).domainOn (27 + k) = true := hon
  have hother' : (s.stackTrained k).domainOn (28 - k) = true := hother
  unfold State.hbmReady
  refine if_pos (List.all_eq_true.2 fun j hj => ?_)
  have hcases : j = k ∨ j = 1 - k := by
    simp only [List.mem_cons, List.not_mem_nil, or_false] at hj
    omega
  rcases hcases with rfl | rfl
  · rewrite [decide_eq_true hself, hon']
    rfl
  · rewrite [decide_eq_true hstays, show 27 + (1 - k) = 28 - k by omega, hother']
    rfl

theorem hbmTrained_ready {s : State} {k : Nat} (hk : k < 2) (hphase : s.pwr.phase = .none) (hholds : s.holdsGrant 2 k = true)
    (hon : s.domainOn (27 + k) = true) (htrained : (1 - k) ∈ s.pwr.trained) (hother : s.domainOn (28 - k) = true) :
    s.hbmTrained k = ((s.returnGrant 2 k).stackTrained k).setF F.BUF_STATUS_hbm_ready 1 := by
  have hready := hbmReady_of_both (s := s.returnGrant 2 k) hk hon hother htrained
  have hmet : ((s.returnGrant 2 k).stackTrained k).domainOn (27 + k) = true := hon
  have hholding : s.hbmTrained k = (if ((s.returnGrant 2 k).stackTrained k).domainOn (27 + k) then
      ((s.returnGrant 2 k).stackTrained k).hbmReady else s.returnGrant 2 k).trainingLeft k := if_neg (by rw [hholds]; decide)
  rw [hholding, if_pos hmet, hready]
  refine trainingLeft_of_phase ?_ k
  rw [setF_pwr, stackTrained_phase, returnGrant_pwr]
  exact hphase

theorem hbmTrained_unheld {s : State} {k : Nat} (h : s.holdsGrant 2 k = false) : s.hbmTrained k = s := by
  unfold State.hbmTrained
  rewrite [h]
  rfl

theorem agenda_stackTrained (s : State) (k : Nat) : (s.stackTrained k).agenda = s.agenda := (rfl)

/-! The end of park_drain (R401) -/

/-- The block with every port down. -/
def State.portsDown (s : State) : State := s.each ((List.range 512).filter s.portExists) fun x p => x.portDown p true

theorem agenda_portsDown (s : State) : s.portsDown.agenda = s.agenda := agenda_each _ _ _ fun t p _ => agenda_portDown t p true

theorem groupStop_of_none {s : State} (h : s.groupTested = 0) : s.groupStop = s := if_pos h

theorem parkDrained_draining {s : State} {plumb : Bool} (hphase : s.pwr.phase = .draining plumb) (hgroup : s.groupTested = 0) :
    s.parkDrained = if !plumb then s.portsDown.goOff
      else if (List.range 16).any fun k => decide (((s.portsDown.setTmr F.BUF_CTRL_hbm_en 0).pool k).usedHbm ≠ 0) then
        s.portsDown.setTmr F.BUF_CTRL_hbm_en 0
      else (s.portsDown.setTmr F.BUF_CTRL_hbm_en 0).plumbBegin := by
  unfold State.parkDrained
  rewrite [hphase, groupStop_of_none hgroup]
  rfl

end Sys2Proof.Machine
end

section
/-! The Plumb steps (R425 to R428), and what O60 states -/

namespace Sys2Proof.Machine

/-- The block with another account of power-ups, parking and Plumb. -/
def State.withPwr (s : State) (p : Power) : State := { s with pwr := p }

theorem withPwr_setF (s : State) (p : Power) (f : Fld) (v : Nat) : (s.setF f v).withPwr p = (s.withPwr p).setF f v := (rfl)

theorem withPwr_key (s : State) (p : Power) (k : Keystone) : ({ s with key := k } : State).withPwr p = { s.withPwr p with key := k } := (rfl)

theorem withPwr_withPwr (s : State) (p q : Power) : (s.withPwr p).withPwr q = s.withPwr q := (rfl)

theorem pwr_withPwr (s : State) (p : Power) : (s.withPwr p).pwr = p := (rfl)

theorem withPwr_setKs (s : State) (p : Power) (f : KsState → KsState) : (s.setKs f).withPwr p = (s.withPwr p).setKs f := (rfl)

theorem agenda_withPwr (s : State) (p : Power) : (s.withPwr p).agenda = s.agenda := (rfl)

/-- An entry in the conductor log holds nothing of the account of power. -/
theorem withPwr_ksLog (s : State) (p : Power) (kind : LogKind) : (s.ksLog kind).withPwr p = (s.withPwr p).ksLog kind := by
  unfold State.ksLog
  by_cases hoff : (!s.key.logOn || decide (1024 ≤ s.key.log.length)) = true
  · rw [if_pos hoff]
    exact (if_pos hoff).symm
  · rw [if_neg hoff]
    refine Eq.trans ?_ (if_neg hoff).symm
    dsimp only
    refine (apply_ite (fun t : State => t.withPwr p) _ _ _).trans ?_
    rewrite [withPwr_setF, withPwr_key]
    rfl

/-! The next native step asks leave (R425) -/

/-- The record of power with native step `k` due, or running, since the time that dates the record. -/
def State.stepPwr (s : State) (k : Nat) (runs : Bool) (start : List Byte) : Power :=
  { s.pwr with phase := .plumb k runs (if k = 1 then s.tsNow else start), plumbFrom := if k = 1 then s.now else s.pwr.plumbFrom }

theorem plumbStepAt_asks {s : State} {k : Nat} {start : List Byte} (hphase : s.pwr.phase = .plumb k false start)
    (hqueue : s.key.ks.queue = []) (hdeferred : s.key.deferred = []) :
    s.plumbStepAt = match (s.withPwr (s.stepPwr k false start)).askLeave (stepLeave k) with
      | (.granted, t) => t.stepGranted k
      | (.queued, t) => t
      | (.refused _, t) => t.stepRefused k := by
  unfold State.plumbStepAt
  rw [hphase, hqueue, hdeferred]
  exact if_neg (by simp)

theorem stepGranted_running {s : State} {k j : Nat} {runs : Bool} {start : List Byte} (hphase : s.pwr.phase = .plumb j runs start) :
    s.stepGranted k = (s.withPwr { s.pwr with phase := .plumb k true start }).setF F.PLB_STATUS_step k := by
  unfold State.stepGranted
  rewrite [hphase]
  rfl

theorem stepLeave_requester (k : Nat) : ¬ (stepLeave k).requester < 2 := show ¬ (3 : Nat) < 2 by decide

theorem leaveClosed_step {s : State} {k : Nat} (hk : k < 7) (hfault : s.key.doubleFault = false) : s.leaveClosed (stepLeave k) = false := by
  have hstep : (stepLeave k).isStep = true := by
    unfold Grant.isStep stepLeave
    rewrite [decide_eq_true (show k < 100 by omega)]
    rfl
  unfold State.leaveClosed
  rewrite [hfault, hstep, Bool.not_true, Bool.and_false]
  rfl

theorem plumbStepAt_granted {s : State} {k : Nat} {start : List Byte} (hphase : s.pwr.phase = .plumb k false start) (hbusy : s.ksBusy = false)
    (hqueue : s.key.ks.queue = []) (hdeferred : s.key.deferred = []) (hk : k < 7) (hfault : s.key.doubleFault = false)
    (hfits : s.permanent + s.transient + stepCost k ≤ s.budget) :
    s.plumbStepAt = (((s.setKs fun x => { x with grants := x.grants ++ [stepLeave k] }).withPwr (s.stepPwr k true start)).ksLog .power).setF
      F.PLB_STATUS_step k := by
  have hgranted : (s.withPwr (s.stepPwr k false start)).decideLeave (stepLeave k) 0 = .granted :=
    decideLeave_granted (leaveClosed_step (s := s.withPwr (s.stepPwr k false start)) hk hfault) (fun h => absurd h (stepLeave_requester k)) hfits
  have hentered : (s.withPwr (s.stepPwr k false start)).enterGrant (stepLeave k)
      = (s.setKs fun x => { x with grants := x.grants ++ [stepLeave k] }).withPwr (s.stepPwr k false start) :=
    (if_neg (stepLeave_requester k)).trans (withPwr_setKs ..).symm
  have hpwr : (((s.setKs fun x => { x with grants := x.grants ++ [stepLeave k] }).withPwr (s.stepPwr k false start)).ksLog .power).pwr
      = s.stepPwr k false start := (ksLog_rising ..).trans (pwr_withPwr ..)
  have hstepped : ({ s.stepPwr k false start with phase := .plumb k true (if k = 1 then s.tsNow else start) } : Power) = s.stepPwr k true start := rfl
  rw [plumbStepAt_asks hphase hqueue hdeferred, askLeave_granted (s := s.withPwr (s.stepPwr k false start)) hbusy hqueue hgranted, hentered]
  dsimp only
  rw [stepGranted_running ((congrArg Power.phase hpwr).trans rfl), hpwr, hstepped, withPwr_ksLog, withPwr_withPwr]

/-! A native step ends (R425, R427) -/

/-- The record of power with native step `k` run, and with what it found. -/
def State.ranPwr (s : State) (k : Nat) (mine : List NetFail) : Power :=
  { s.pwr with steps := putBits s.pwr.steps (k - 1) 1 1, fails := s.pwr.fails ++ mine.map fun n => (n, k), nFails := s.pwr.nFails + mine.length }

/-- The block after native step `k`, which returns its leave and keeps what it found. -/
def State.stepRan (s : State) (k : Nat) (mine : List NetFail) : State :=
  ((s.returnGrant 3 k).withPwr (s.ranPwr k mine)).raiseIf (!mine.isEmpty) F.PLB_EVENT_net_fail

theorem plumbStepEndAt_native {s : State} {k : Nat} {start : List Byte} (hphase : s.pwr.phase = .plumb k true start) (l : List NetFail) :
    s.plumbStepEndAt l k = (s.stepRan k (l.filter (netInStep k))).plumbNext k start := by
  unfold State.plumbStepEndAt
  rw [hphase]
  dsimp only
  rewrite [if_neg (fun h => h rfl)]
  rfl

theorem agenda_stepRan (s : State) (k : Nat) (mine : List NetFail) : (s.stepRan k mine).agenda = s.agenda :=
  (agenda_raiseIf _ _ (by decide)).trans ((agenda_withPwr ..).trans (agenda_returnGrant ..))

theorem lastStep_withPwr (s : State) (p : Power) : (s.withPwr p).lastStep = s.lastStep := (rfl)

theorem lastStep_returnGrant (s : State) (r k : Nat) : (s.returnGrant r k).lastStep = s.lastStep := (rfl)

theorem lastStep_raise (s : State) (f : Fld) : (s.raise f).lastStep = s.lastStep := (rfl)

theorem lastStep_stepRan (s : State) (k : Nat) (mine : List NetFail) : (s.stepRan k mine).lastStep = s.lastStep := by
  have hran : ((s.returnGrant 3 k).withPwr (s.ranPwr k mine)).lastStep = s.lastStep := (lastStep_withPwr ..).trans (lastStep_returnGrant ..)
  unfold State.stepRan State.raiseIf
  split
  · exact (lastStep_raise ..).trans hran
  · exact hran

/-! A step of the boot-time test ends (R428) -/

theorem bootStepEnd_next {s : State} {k : Nat} (hk : k < 5) (l : List NetFail) :
    s.bootStepEnd k l
      = (s.withPwr { s.ranPwr k (l.filter (netInStep k)) with phase := .bootTest (k + 1) }).setF F.PLB_STATUS_step (k + 1) := if_pos hk

theorem plumbStepEndAt_boot {s : State} {k : Nat} (hphase : s.pwr.phase = .bootTest k) (l : List NetFail) :
    s.plumbStepEndAt l k = s.bootStepEnd k l := by
  unfold State.plumbStepEndAt
  rw [hphase]
  exact if_pos rfl

theorem plumbStepEndAt_other {s : State} {k j : Nat} {start : List Byte} (hne : j ≠ k)
    (hphase : s.pwr.phase = .plumb k true start ∨ s.pwr.phase = .bootTest k) (l : List NetFail) : s.plumbStepEndAt l j = s := by
  unfold State.plumbStepEndAt
  rcases hphase with h | h
  · rw [h]
    exact if_pos hne
  · rw [h]
    exact if_neg hne

theorem netsAndLog_cameUp (s : State) (d : Nat) : (s.cameUp d).netsAndLog = s.netsAndLog := by
  unfold State.cameUp State.setDomain
  split <;> rfl

/-! What O60 states of the requests and of the end of a power-up -/

theorem leaveTimeout_cases {s : State} {g : Grant} (hqueue : s.key.ks.queue = [g]) (hcalm : (s.setKs fun k => { k with queue := [] }).calm = true)
    (hbusy : s.ksBusy = false) (hdecided : s.dev ≠ .parking ∨ g.isStep = true) (hlog : s.key.log.length < 767) :
    let t := (s.setKs fun k => { k with queue := [] }).ksLog .power
    Takes .leaveTimeout s (t.afterRefusal g 7)
    ∧ ((g.requester = 0 ∨ g.requester = 6) → Takes .leaveTimeout s (t.noteRefusal g.requester g.domain g.cost 7)) := by
  intro t
  have hruns : s.stopped = false := (stopped_setKs s fun k => { k with queue := [] }).symm.trans (calm_runs hcalm)
  have hlog' : (s.setKs fun k => { k with queue := [] }).key.log.length < 767 := by
    rw [log_setKs]
    exact hlog
  have ht : t.Rests _ := State.Rests.ksLog (rests_of_calm hcalm) .power hlog'
  have htakes : Takes .leaveTimeout s (t.afterRefusal g 7) :=
    takes_of_quiet (f := fun s => s.leaveExpired) rfl hruns (leaveExpired_single hbusy hqueue hdecided) (State.Rests.quiet (Rests.afterRefusal ht g 7))
  exact ⟨htakes, fun h => afterRefusal_noted ht.flight h ▸ htakes⟩

theorem leaveReturn_asks {s : State} (hcalm : s.calm = true) (hbusy : s.ksBusy = false) (hfault : s.key.doubleFault = false)
    (hparking : s.dev ≠ .parking) (hoff : s.dev ≠ .off) (hlog : s.key.log.length < 767) {q : LeaveReturn} {g : Grant} (hreq : 2 ≤ g.requester)
    (heffect : s.leaveReturnAt q = (s.askLeave g).2) : Takes (.leaveReturn q) s (s.askedFor g) := by
  have hclosed := leaveClosed_of_dev hfault hparking hoff g
  have hrests := rests_of_calm hcalm
  have hquiet := Quiet.askLeave hrests hlog hbusy hreq hclosed
  rw [askLeave_askedFor hbusy hrests.queue hreq hclosed] at heffect hquiet
  exact takes_of_quiet (f := fun s => s.leaveReturnAt q) rfl (calm_runs hcalm) heffect hquiet

theorem domainOff_returns {s : State} {d : Nat} (hcalm : s.calm = true) (hbusy : s.ksBusy = false) (hfault : s.key.doubleFault = false)
    (hparking : s.dev ≠ .parking) (hswitch : s.switchable d = true) (hon : s.domainOn d = true)
    (hmay : ∀ y ∈ s.dependants d ++ [d], s.offRefusal y = 0) :
    Takes (.leaveReturn (.domainOff d)) s (s.each (s.dependants d ++ [d]) State.switchOff) := by
  have hreturn : s.offReturn d = (s.powerDown d).2 := if_pos (by rw [hswitch, hon]; rfl)
  refine takes_of_agenda (f := fun s => s.leaveReturnAt (.domainOff d)) rfl hcalm ?_ (agenda_each _ _ _ fun t y hy => agenda_switchOff t ?_)
  · refine (if_neg (by rw [hbusy]; exact Bool.false_ne_true)).trans (hreturn.trans ?_)
    rw [powerDown_done hfault hparking hmay]
  · rcases List.mem_append.1 hy with hdep | hself
    · exact dependants_ne_zero hdep
    · obtain rfl := List.mem_singleton.1 hself
      rintro rfl
      exact Bool.false_ne_true hswitch

/-- Settles O60: each row's condition holds by hypothesis; a request that is queued stands alone and is not decided with the command's end. -/
theorem powerAndPlumb : Obligations.PowerAndPlumb := by
  unfold Obligations.PowerAndPlumb
  refine ⟨?timeout, ?grant, ?busyOff, ?asks, ?domainOff, ?gap, ?notRising, ?abandoned, ?comesUp, ?training, ?drained, ?step, ?otherStep,
    ?nativeEnds, ?testsEnd, ?bootSteps⟩
  case timeout => exact fun s g hqueue hcalm hbusy hdecided hlog => leaveTimeout_cases hqueue hcalm hbusy hdecided hlog
  case grant =>
    intro s r k hcalm keep
    exact takes_of_agenda (f := fun s => s.leaveReturnAt (.grant r k)) rfl hcalm rfl (agenda_returnGrant s r k)
  case busyOff =>
    intro s d hcalm hbusy
    exact takes_of_rests (f := fun s => s.leaveReturnAt (.domainOff d)) rfl hcalm (if_pos hbusy) { rests_of_calm hcalm with }
  case asks =>
    intro s k c hcalm hbusy hfault hparking hoff hlog ask
    refine ⟨leaveReturn_asks (g := ⟨7, k, c⟩) hcalm hbusy hfault hparking hoff hlog (show 2 ≤ 7 by decide) rfl, fun hk hon hfree => ?_⟩
    refine leaveReturn_asks (g := trainLeave k) hcalm hbusy hfault hparking hoff hlog Nat.le.refl (if_pos ⟨hk, hon, ?_⟩)
    rewrite [hfree]
    rfl
  case domainOff => exact fun s d hcalm hbusy hfault hparking hswitch hon hmay => domainOff_returns hcalm hbusy hfault hparking hswitch hon hmay
  case gap =>
    intro s d pass hcalm hgap
    exact takes_of_rests (f := fun s => s.powerUpEnd d pass) rfl hcalm (if_pos hgap) { rests_of_calm hcalm with }
  case notRising =>
    intro s d pass hcalm hgap hdown
    refine idles_of (f := fun s => s.powerUpEnd d pass) rfl hcalm ((if_neg ?_).trans (if_pos hdown))
    rw [hgap]
    exact Bool.false_ne_true
  case abandoned =>
    intro s d pass hcalm hgap hrising hreq hpass
    refine takes_of_agenda (f := fun s => s.powerUpEnd d pass) rfl hcalm (powerUpEnd_abandoned hgap hrising hreq hpass) (agenda_switchOff s ?_)
    rintro rfl
    rw [requires_zero] at hreq
    exact Bool.false_ne_true hreq.symm
  case comesUp =>
    intro s d pass hcalm hgap hrising hoff hreq hlog up t
    have hrests := rests_of_calm hcalm
    have ht : (s.cameUp d).Rests s.key.log.length := hrests.of_agenda (agenda_cameUp s d)
    have htakes : ∀ u : State, s.domainUp d = u → u.hif.inflight = [] → u.Quiet → (17 ≤ d → d ≤ 24 → pass = true) →
        Takes (.domainPowerUpDone d pass) s u := fun u heffect hflight hquiet hpass =>
      takes_powerUp hcalm hgap hrising hreq hpass heffect hflight hquiet
    refine ⟨fun hlow hhigh => ?_, fun hlow hhigh hfails => ?_, fun hstack => ?_, fun hlow hhigh hpass => ?_, fun hlow hhigh hfail => ?_⟩
    · exact htakes _ (domainUp_table hoff hlow hhigh) ht.flight (State.Rests.quiet ht) fun h17 h24 => by omega
    · have happlied : ((s.cameUp d).firstApplies d).Rests s.key.log.length := ht.of_agenda (agenda_firstApplies ..)
      have hview : ((s.cameUp d).firstApplies d).netsAndLog = s.netsAndLog := (netsAndLog_firstApplies ..).trans (netsAndLog_cameUp s d)
      have hfails' : ((s.cameUp d).firstApplies d).pwr.fails = [] ∨ ((s.cameUp d).firstApplies d).key.logOn = false :=
        hfails.imp (congrArg Prod.fst hview).trans (congrArg Prod.snd hview).trans
      have hreported := happlied.of_agenda (agenda_groupNets d hfails')
      exact htakes _ (domainUp_group hoff hlow hhigh) hreported.flight (State.Rests.quiet hreported) fun h17 h24 => by omega
    · have hquiet := Quiet.askTraining ht hlog (d - 27)
      exact htakes _ (domainUp_stack hoff hstack) ((congrArg Hif.inflight (hif_askTraining ..)).trans ht.flight) hquiet fun h17 h24 => by omega
    · have hfilled := ht.of_agenda (t := (((s.cameUp d).drawSeeds (d - 17)).fillStatics (d - 17)).dropCause fun c => decide (c = .pipeline (d - 17)))
        ((agenda_dropCause ..).trans ((agenda_fillStatics ..).trans (agenda_drawSeeds ..)))
      exact htakes _ (domainUp_pipeline hoff hlow hhigh) hfilled.flight (State.Rests.quiet hfilled) fun _ _ => hpass
    · have hreport : ((s.risen d).react 0x13 3 (d - 17) (d - 17)).Rests (s.key.log.length + 1) :=
        State.Rests.react (hrests.of_agenda (agenda_risen s d)) 0x13 3 (d - 17) (fun h => absurd h (by decide)) hlog
      refine takes_of_quiet (f := fun s => s.powerUpEnd d false) rfl (calm_runs hcalm) ?_ (State.Rests.quiet hreport)
      exact (powerUpEnd_fails hgap hrising hlow hhigh).trans (completeWaiting_of_none hreport.flight ..)
  case training =>
    intro s k hcalm hk hphase
    refine ⟨fun hfree => idles_of (f := fun s => s.hbmTrained k) rfl hcalm (hbmTrained_unheld hfree), fun hholds hon htrained hother => ?_⟩
    intro t l
    refine takes_of_agenda (f := fun s => s.hbmTrained k) rfl hcalm (hbmTrained_ready hk hphase hholds hon htrained hother) ?_
    exact (agenda_setF _ _ (by decide)).trans ((agenda_stackTrained ..).trans (agenda_returnGrant ..))
  case drained =>
    intro s plumb hcalm hphase t
    have hrests := rests_of_calm hcalm
    have ht : t.Rests s.key.log.length := hrests.of_agenda (agenda_portsDown s)
    have hoff : (t.setTmr F.BUF_CTRL_hbm_en 0).Rests s.key.log.length := ht.of_agenda (agenda_setTmr _ _ (by decide))
    have heffect := parkDrained_draining hphase hrests.group
    refine ⟨fun hplumb => ?_, fun hplumb hused => ?_, fun hplumb hfree => ?_⟩
    · exact takes_of_rests (f := fun s => s.parkDrained) rfl hcalm (heffect.trans (if_pos (by rw [hplumb]; rfl))) (Rests.goOff ht)
    · exact takes_of_rests (f := fun s => s.parkDrained) rfl hcalm
        (heffect.trans ((if_neg (by rw [hplumb]; decide)).trans (if_pos hused))) hoff
    · exact takes_of_rests (f := fun s => s.parkDrained) rfl hcalm
        (heffect.trans ((if_neg (by rw [hplumb]; decide)).trans (if_neg (fun h => Bool.false_ne_true (hfree.symm.trans h)))))
        (Rests.plumbBegin hoff)
  case step =>
    intro s k start hcalm hphase hbusy hdeferred hlog hfault hk c hfits first t
    have hrests := rests_of_calm hcalm
    have hentered : ((s.setKs fun x => { x with grants := x.grants ++ [stepLeave k] }).withPwr (s.stepPwr k true start)).Rests s.key.log.length :=
      hrests.of_agenda ((agenda_withPwr ..).trans (agenda_setKs _ _ rfl))
    exact takes_of_rests (f := fun s => s.plumbStepAt) rfl hcalm
      (plumbStepAt_granted hphase hbusy hrests.queue hdeferred hk hfault hfits) (Rests.setStep (State.Rests.ksLog hentered .power hlog) k)
  case otherStep =>
    exact fun s k j start l hcalm hne hphase => idles_of (f := fun s => s.plumbStepEndAt l j) rfl hcalm (plumbStepEndAt_other hne hphase l)
  case nativeEnds =>
    intro s k start l hcalm hphase keep t mine p u
    have hran : (s.stepRan k mine).Rests s.key.log.length := (rests_of_calm hcalm).of_agenda (agenda_stepRan s k mine)
    have hnext := Rests.plumbNext hran k start
    have htakes : ∀ v : State, (s.stepRan k mine).plumbNext k start = v → Takes (.plumbStepEnd l k) s v := fun v hv =>
      takes_of_rests (f := fun s => s.plumbStepEndAt l k) rfl hcalm ((plumbStepEndAt_native hphase l).trans hv) (hv ▸ hnext)
    refine ⟨fun hmore => htakes _ (if_neg ?_), fun hlast => htakes _ (if_pos ?_)⟩
    · rw [lastStep_stepRan]
      exact Nat.not_le.mpr hmore
    · rw [lastStep_stepRan]
      exact hlast
  case testsEnd =>
    intro s l hruns
    have hrun : exec (.plumbStepEnd l 5) s = .next (State.conclude s (s.plumbStepEndAt l 5)) :=
      if_neg (by rw [hruns]; exact Bool.false_ne_true)
    refine ⟨fun hphase hstate => ?_, fun hphase => ?_⟩
    · have hgroup : s.plumbStepEndAt l 5 = s.groupEnd l := by
        unfold State.plumbStepEndAt
        rw [hphase]
        exact if_pos ⟨hstate, rfl⟩
      rw [hrun, hgroup]
    · rw [hrun, plumbStepEndAt_boot hphase]
  case bootSteps =>
    intro s k l hcalm hphase _ hk mine p
    refine takes_of_rests (n := s.key.log.length) (f := fun s => s.plumbStepEndAt l k) rfl hcalm ((plumbStepEndAt_boot hphase l).trans (bootStepEnd_next hk l)) ?_
    exact Rests.setStep ((rests_of_calm hcalm).of_agenda (agenda_withPwr s _)) (k + 1)

end Sys2Proof.Machine
end
